-- ==== Sys2Proof/Word.lean ====
section
/-!
DEFINITION. The word types of the IMF-7220 and their plainest arithmetic (R1, R6).
-/

namespace Sys2Proof

/-- One byte. -/
abbrev Byte := BitVec 8
/-- One 32-bit register value. -/
abbrev Word := BitVec 32
/-- One 64-bit register value. -/
abbrev DWord := BitVec 64
/-- One lane mask: bit `l` is lane `l` (R136). -/
abbrev Mask := BitVec 128

/-- The value of bit `i` of a number (R1: bit 0 is the least significant). -/
def natBit (n i : Nat) : Bool := n / 2 ^ i % 2 == 1

/-- The range `[hi:lo]` of a number, both ends included (R1). -/
def natField (n hi lo : Nat) : Nat := n / 2 ^ lo % 2 ^ (hi + 1 - lo)

/-- A truth value as the number 0 or 1. -/
def bitNat (b : Bool) : Nat := if b then 1 else 0

/-- `n` little-endian bytes of a number (R1). -/
def leBytes : Nat → Nat → List Byte
  | 0, _ => []
  | n + 1, v => BitVec.ofNat 8 v :: leBytes n (v / 256)

/-- The number that little-endian bytes stand for (R1). -/
def leNat : List Byte → Nat
  | [] => 0
  | b :: bs => b.toNat + 256 * leNat bs

/-- A number of `w` bits read as two's complement. -/
def toSigned (w n : Nat) : Int :=
  if n % 2 ^ w < 2 ^ (w - 1) then (n % 2 ^ w : Nat) else ((n % 2 ^ w : Nat) : Int) - 2 ^ w

/-- An integer reduced modulo `2 ^ w`. -/
def wrapInt (w : Nat) (x : Int) : Nat := (x % (2 ^ w : Int)).toNat

/-- `⌈a / b⌉`. -/
def ceilDiv (a b : Nat) : Nat := (a + b - 1) / b

end Sys2Proof
end

