-- ==== Sys2Proof/Syntax.lean ====
section
/-!
DEFINITION. The instructions of the IMF-7220 as data: the modifier types, the operands of a word, and `Instr`, one
constructor for each row of the opcode table. The first 174 rows are forms of the 160 operations of R51; the others
are steps that the part's engines, its host or its management subsystem take.
-/

namespace Sys2Proof

/-- The integer condition codes (R149). -/
inductive Cond
  | eq | ne | lt | le | gt | ge
  deriving DecidableEq, Repr, Inhabited

/-- The encoding of each `Cond`. -/
def Cond.code : Cond → Nat
  | .eq => 0
  | .ne => 1
  | .lt => 2
  | .le => 3
  | .gt => 4
  | .ge => 5

/-- The `Cond` that a code names, if any. -/
def Cond.ofCode : Nat → Option Cond
  | 0 => some .eq
  | 1 => some .ne
  | 2 => some .lt
  | 3 => some .le
  | 4 => some .gt
  | 5 => some .ge
  | _ => none

/-- The float condition codes (R193). -/
inductive FCond
  | eq | ne | lt | le | gt | ge | un | ord
  deriving DecidableEq, Repr, Inhabited

/-- The encoding of each `FCond`. -/
def FCond.code : FCond → Nat
  | .eq => 0
  | .ne => 1
  | .lt => 2
  | .le => 3
  | .gt => 4
  | .ge => 5
  | .un => 6
  | .ord => 7

/-- The `FCond` that a code names, if any. -/
def FCond.ofCode : Nat → Option FCond
  | 0 => some .eq
  | 1 => some .ne
  | 2 => some .lt
  | 3 => some .le
  | 4 => some .gt
  | 5 => some .ge
  | 6 => some .un
  | 7 => some .ord
  | _ => none

/-- How a comparison is combined with pC (R149). -/
inductive Combine
  | none | and | or | xor
  deriving DecidableEq, Repr, Inhabited

/-- The encoding of each `Combine`. -/
def Combine.code : Combine → Nat
  | .none => 0
  | .and => 1
  | .or => 2
  | .xor => 3

/-- The `Combine` that a code names, if any. -/
def Combine.ofCode : Nat → Option Combine
  | 0 => some .none
  | 1 => some .and
  | 2 => some .or
  | 3 => some .xor
  | _ => none

/-- The integer type codes of CVTI (R149). -/
inductive IntTy
  | s8 | s16 | s32 | s64 | z8 | z16 | z32 | z64
  deriving DecidableEq, Repr, Inhabited

/-- The encoding of each `IntTy`. -/
def IntTy.code : IntTy → Nat
  | .s8 => 0
  | .s16 => 1
  | .s32 => 2
  | .s64 => 3
  | .z8 => 4
  | .z16 => 5
  | .z32 => 6
  | .z64 => 7

/-- The `IntTy` that a code names, if any. -/
def IntTy.ofCode : Nat → Option IntTy
  | 0 => some .s8
  | 1 => some .s16
  | 2 => some .s32
  | 3 => some .s64
  | 4 => some .z8
  | 5 => some .z16
  | 6 => some .z32
  | 7 => some .z64
  | _ => none

/-- The float format codes (R188). -/
inductive Fmt
  | f64 | f32 | f16 | bf16 | e4m3 | e5m2 | e2m1 | e8m0
  deriving DecidableEq, Repr, Inhabited

/-- The encoding of each `Fmt`. -/
def Fmt.code : Fmt → Nat
  | .f64 => 0
  | .f32 => 1
  | .f16 => 2
  | .bf16 => 3
  | .e4m3 => 4
  | .e5m2 => 5
  | .e2m1 => 6
  | .e8m0 => 7

/-- The `Fmt` that a code names, if any. -/
def Fmt.ofCode : Nat → Option Fmt
  | 0 => some .f64
  | 1 => some .f32
  | 2 => some .f16
  | 3 => some .bf16
  | 4 => some .e4m3
  | 5 => some .e5m2
  | 6 => some .e2m1
  | 7 => some .e8m0
  | _ => none

/-- The rounding modes (R177, R187). -/
inductive RMode
  | rn | rz | ru | rd | rs
  deriving DecidableEq, Repr, Inhabited

/-- The encoding of each `RMode`. -/
def RMode.code : RMode → Nat
  | .rn => 0
  | .rz => 1
  | .ru => 2
  | .rd => 3
  | .rs => 4

/-- The `RMode` that a code names, if any. -/
def RMode.ofCode : Nat → Option RMode
  | 0 => some .rn
  | 1 => some .rz
  | 2 => some .ru
  | 3 => some .rd
  | 4 => some .rs
  | _ => none

/-- The addend types of XADD and ATOMX (R189, R255). -/
inductive XTy
  | f32 | bf16 | f16 | e4m3 | e5m2 | s32 | xa
  deriving DecidableEq, Repr, Inhabited

/-- The encoding of each `XTy`. -/
def XTy.code : XTy → Nat
  | .f32 => 0
  | .bf16 => 1
  | .f16 => 2
  | .e4m3 => 3
  | .e5m2 => 4
  | .s32 => 5
  | .xa => 6

/-- The `XTy` that a code names, if any. -/
def XTy.ofCode : Nat → Option XTy
  | 0 => some .f32
  | 1 => some .bf16
  | 2 => some .f16
  | 3 => some .e4m3
  | 4 => some .e5m2
  | 5 => some .s32
  | 6 => some .xa
  | _ => none

/-- The tests of XCHK (R203). -/
inductive XTest
  | sat | inv | spec | zero
  deriving DecidableEq, Repr, Inhabited

/-- The encoding of each `XTest`. -/
def XTest.code : XTest → Nat
  | .sat => 0
  | .inv => 1
  | .spec => 2
  | .zero => 3

/-- The `XTest` that a code names, if any. -/
def XTest.ofCode : Nat → Option XTest
  | 0 => some .sat
  | 1 => some .inv
  | 2 => some .spec
  | 3 => some .zero
  | _ => none

/-- The engine counters (R166). -/
inductive Counter
  | cw | ct | cm | cr | cx
  deriving DecidableEq, Repr, Inhabited

/-- The encoding of each `Counter`. -/
def Counter.code : Counter → Nat
  | .cw => 0
  | .ct => 1
  | .cm => 2
  | .cr => 3
  | .cx => 4

/-- The `Counter` that a code names, if any. -/
def Counter.ofCode : Nat → Option Counter
  | 0 => some .cw
  | 1 => some .ct
  | 2 => some .cm
  | 3 => some .cr
  | 4 => some .cx
  | _ => none

/-- The modes of SHFL (R206). -/
inductive ShflMode
  | lane | back | fwd | xor
  deriving DecidableEq, Repr, Inhabited

/-- The encoding of each `ShflMode`. -/
def ShflMode.code : ShflMode → Nat
  | .lane => 0
  | .back => 1
  | .fwd => 2
  | .xor => 3

/-- The `ShflMode` that a code names, if any. -/
def ShflMode.ofCode : Nat → Option ShflMode
  | 0 => some .lane
  | 1 => some .back
  | 2 => some .fwd
  | 3 => some .xor
  | _ => none

/-- The modes of VOTE (R206). -/
inductive VoteMode
  | all | any | same
  deriving DecidableEq, Repr, Inhabited

/-- The encoding of each `VoteMode`. -/
def VoteMode.code : VoteMode → Nat
  | .all => 0
  | .any => 1
  | .same => 2

/-- The `VoteMode` that a code names, if any. -/
def VoteMode.ofCode : Nat → Option VoteMode
  | 0 => some .all
  | 1 => some .any
  | 2 => some .same
  | _ => none

/-- The operations of PSCAN and REDUX (R206). -/
inductive LaneOp
  | add | min | max | and | or | xor
  deriving DecidableEq, Repr, Inhabited

/-- The encoding of each `LaneOp`. -/
def LaneOp.code : LaneOp → Nat
  | .add => 0
  | .min => 1
  | .max => 2
  | .and => 3
  | .or => 4
  | .xor => 5

/-- The `LaneOp` that a code names, if any. -/
def LaneOp.ofCode : Nat → Option LaneOp
  | 0 => some .add
  | 1 => some .min
  | 2 => some .max
  | 3 => some .and
  | 4 => some .or
  | 5 => some .xor
  | _ => none

/-- The types of PSCAN and REDUX (R206). -/
inductive LaneTy
  | s32 | z32 | f32
  deriving DecidableEq, Repr, Inhabited

/-- The encoding of each `LaneTy`. -/
def LaneTy.code : LaneTy → Nat
  | .s32 => 0
  | .z32 => 1
  | .f32 => 2

/-- The `LaneTy` that a code names, if any. -/
def LaneTy.ofCode : Nat → Option LaneTy
  | 0 => some .s32
  | 1 => some .z32
  | 2 => some .f32
  | _ => none

/-- The scratch levels a group addresses (R229). -/
inductive Lvl
  | core | clus | die
  deriving DecidableEq, Repr, Inhabited

/-- The encoding of each `Lvl`. -/
def Lvl.code : Lvl → Nat
  | .core => 0
  | .clus => 1
  | .die => 2

/-- The `Lvl` that a code names, if any. -/
def Lvl.ofCode : Nat → Option Lvl
  | 0 => some .core
  | 1 => some .clus
  | 2 => some .die
  | _ => none

/-- The ends of a tile move (R242). -/
inductive TEnd
  | g | core | clus | die | col
  deriving DecidableEq, Repr, Inhabited

/-- The encoding of each `TEnd`. -/
def TEnd.code : TEnd → Nat
  | .g => 0
  | .core => 1
  | .clus => 2
  | .die => 3
  | .col => 4

/-- The `TEnd` that a code names, if any. -/
def TEnd.ofCode : Nat → Option TEnd
  | 0 => some .g
  | 1 => some .core
  | 2 => some .clus
  | 3 => some .die
  | 4 => some .col
  | _ => none

/-- The sizes of LD (R255); LDS has all but the last (R242). -/
inductive LdSize
  | s8 | z8 | s16 | z16 | b32 | b64 | b128 | xa
  deriving DecidableEq, Repr, Inhabited

/-- The encoding of each `LdSize`. -/
def LdSize.code : LdSize → Nat
  | .s8 => 0
  | .z8 => 1
  | .s16 => 2
  | .z16 => 3
  | .b32 => 4
  | .b64 => 5
  | .b128 => 6
  | .xa => 7

/-- The `LdSize` that a code names, if any. -/
def LdSize.ofCode : Nat → Option LdSize
  | 0 => some .s8
  | 1 => some .z8
  | 2 => some .s16
  | 3 => some .z16
  | 4 => some .b32
  | 5 => some .b64
  | 6 => some .b128
  | 7 => some .xa
  | _ => none

/-- The sizes of ST (R255); STS has all but the last (R242). -/
inductive StSize
  | b8 | b16 | b32 | b64 | b128 | xa
  deriving DecidableEq, Repr, Inhabited

/-- The encoding of each `StSize`. -/
def StSize.code : StSize → Nat
  | .b8 => 0
  | .b16 => 1
  | .b32 => 2
  | .b64 => 3
  | .b128 => 4
  | .xa => 5

/-- The `StSize` that a code names, if any. -/
def StSize.ofCode : Nat → Option StSize
  | 0 => some .b8
  | 1 => some .b16
  | 2 => some .b32
  | 3 => some .b64
  | 4 => some .b128
  | 5 => some .xa
  | _ => none

/-- The full/empty modes of LDS (R242). -/
inductive FeLd
  | plain | full | take
  deriving DecidableEq, Repr, Inhabited

/-- The encoding of each `FeLd`. -/
def FeLd.code : FeLd → Nat
  | .plain => 0
  | .full => 1
  | .take => 2

/-- The `FeLd` that a code names, if any. -/
def FeLd.ofCode : Nat → Option FeLd
  | 0 => some .plain
  | 1 => some .full
  | 2 => some .take
  | _ => none

/-- The full/empty modes of STS (R242). -/
inductive FeSt
  | plain | fill | empty
  deriving DecidableEq, Repr, Inhabited

/-- The encoding of each `FeSt`. -/
def FeSt.code : FeSt → Nat
  | .plain => 0
  | .fill => 1
  | .empty => 2

/-- The `FeSt` that a code names, if any. -/
def FeSt.ofCode : Nat → Option FeSt
  | 0 => some .plain
  | 1 => some .fill
  | 2 => some .empty
  | _ => none

/-- The operations of ATOMS (R242). -/
inductive AtomsOp
  | add | min | max | and | or | xor | exch | cas | fadd
  deriving DecidableEq, Repr, Inhabited

/-- The encoding of each `AtomsOp`. -/
def AtomsOp.code : AtomsOp → Nat
  | .add => 0
  | .min => 1
  | .max => 2
  | .and => 3
  | .or => 4
  | .xor => 5
  | .exch => 6
  | .cas => 7
  | .fadd => 8

/-- The `AtomsOp` that a code names, if any. -/
def AtomsOp.ofCode : Nat → Option AtomsOp
  | 0 => some .add
  | 1 => some .min
  | 2 => some .max
  | 3 => some .and
  | 4 => some .or
  | 5 => some .xor
  | 6 => some .exch
  | 7 => some .cas
  | 8 => some .fadd
  | _ => none

/-- The operations of ATOM (R256). -/
inductive AtomOp
  | add | min | max | and | or | xor | exch | fadd | hadd2 | badd2
  deriving DecidableEq, Repr, Inhabited

/-- The encoding of each `AtomOp`. -/
def AtomOp.code : AtomOp → Nat
  | .add => 0
  | .min => 1
  | .max => 2
  | .and => 3
  | .or => 4
  | .xor => 5
  | .exch => 6
  | .fadd => 7
  | .hadd2 => 8
  | .badd2 => 9

/-- The `AtomOp` that a code names, if any. -/
def AtomOp.ofCode : Nat → Option AtomOp
  | 0 => some .add
  | 1 => some .min
  | 2 => some .max
  | 3 => some .and
  | 4 => some .or
  | 5 => some .xor
  | 6 => some .exch
  | 7 => some .fadd
  | 8 => some .hadd2
  | 9 => some .badd2
  | _ => none

/-- The operations of ATOMV (R255). -/
inductive AtomvOp
  | add | min | max | fadd | hadd2 | badd2
  deriving DecidableEq, Repr, Inhabited

/-- The encoding of each `AtomvOp`. -/
def AtomvOp.code : AtomvOp → Nat
  | .add => 0
  | .min => 1
  | .max => 2
  | .fadd => 3
  | .hadd2 => 4
  | .badd2 => 5

/-- The `AtomvOp` that a code names, if any. -/
def AtomvOp.ofCode : Nat → Option AtomvOp
  | 0 => some .add
  | 1 => some .min
  | 2 => some .max
  | 3 => some .fadd
  | 4 => some .hadd2
  | 5 => some .badd2
  | _ => none

/-- The widths of ATOMC (R255). -/
inductive AtomcW
  | b32 | b64 | b128
  deriving DecidableEq, Repr, Inhabited

/-- The encoding of each `AtomcW`. -/
def AtomcW.code : AtomcW → Nat
  | .b32 => 0
  | .b64 => 1
  | .b128 => 2

/-- The `AtomcW` that a code names, if any. -/
def AtomcW.ofCode : Nat → Option AtomcW
  | 0 => some .b32
  | 1 => some .b64
  | 2 => some .b128
  | _ => none

/-- The ordering modifiers (R256). -/
inductive Ord
  | rlx | acq | rel | acqrel
  deriving DecidableEq, Repr, Inhabited

/-- The encoding of each `Ord`. -/
def Ord.code : Ord → Nat
  | .rlx => 0
  | .acq => 1
  | .rel => 2
  | .acqrel => 3

/-- The `Ord` that a code names, if any. -/
def Ord.ofCode : Nat → Option Ord
  | 0 => some .rlx
  | 1 => some .acq
  | 2 => some .rel
  | 3 => some .acqrel
  | _ => none

/-- The scopes (R256, R357). -/
inductive Scope
  | team | cluster | die | dev | sys
  deriving DecidableEq, Repr, Inhabited

/-- The encoding of each `Scope`. -/
def Scope.code : Scope → Nat
  | .team => 0
  | .cluster => 1
  | .die => 2
  | .dev => 3
  | .sys => 4

/-- The `Scope` that a code names, if any. -/
def Scope.ofCode : Nat → Option Scope
  | 0 => some .team
  | 1 => some .cluster
  | 2 => some .die
  | 3 => some .dev
  | 4 => some .sys
  | _ => none

/-- The states of a declared buffer (R237), in BUFQRY's codes (R242). -/
inductive BufState
  | empty | filling | full | draining
  deriving DecidableEq, Repr, Inhabited

/-- The encoding of each `BufState`. -/
def BufState.code : BufState → Nat
  | .empty => 0
  | .filling => 1
  | .full => 2
  | .draining => 3

/-- The `BufState` that a code names, if any. -/
def BufState.ofCode : Nat → Option BufState
  | 0 => some .empty
  | 1 => some .filling
  | 2 => some .full
  | 3 => some .draining
  | _ => none

/-- The operand formats of MMA (R284). -/
inductive MmaTy
  | e4m3 | e5m2 | e2m1 | bf16 | f16
  deriving DecidableEq, Repr, Inhabited

/-- The encoding of each `MmaTy`. -/
def MmaTy.code : MmaTy → Nat
  | .e4m3 => 0
  | .e5m2 => 1
  | .e2m1 => 2
  | .bf16 => 3
  | .f16 => 4

/-- The `MmaTy` that a code names, if any. -/
def MmaTy.ofCode : Nat → Option MmaTy
  | 0 => some .e4m3
  | 1 => some .e5m2
  | 2 => some .e2m1
  | 3 => some .bf16
  | 4 => some .f16
  | _ => none

/-- The formats of MSTO (R284). -/
inductive StoTy
  | f32 | bf16 | f16 | e4m3 | e5m2
  deriving DecidableEq, Repr, Inhabited

/-- The encoding of each `StoTy`. -/
def StoTy.code : StoTy → Nat
  | .f32 => 0
  | .bf16 => 1
  | .f16 => 2
  | .e4m3 => 3
  | .e5m2 => 4

/-- The `StoTy` that a code names, if any. -/
def StoTy.ofCode : Nat → Option StoTy
  | 0 => some .f32
  | 1 => some .bf16
  | 2 => some .f16
  | 3 => some .e4m3
  | 4 => some .e5m2
  | _ => none

/-- Where SAMPLE reads (R326). -/
inductive SampLvl
  | core | clus | die | glob
  deriving DecidableEq, Repr, Inhabited

/-- The encoding of each `SampLvl`. -/
def SampLvl.code : SampLvl → Nat
  | .core => 0
  | .clus => 1
  | .die => 2
  | .glob => 3

/-- The `SampLvl` that a code names, if any. -/
def SampLvl.ofCode : Nat → Option SampLvl
  | 0 => some .core
  | 1 => some .clus
  | 2 => some .die
  | 3 => some .glob
  | _ => none

/-- The window counters WCNT reads (R111, R119). -/
inductive WcntKind
  | src | dst | ref
  deriving DecidableEq, Repr, Inhabited

/-- The encoding of each `WcntKind`. -/
def WcntKind.code : WcntKind → Nat
  | .src => 0
  | .dst => 1
  | .ref => 2

/-- The `WcntKind` that a code names, if any. -/
def WcntKind.ofCode : Nat → Option WcntKind
  | 0 => some .src
  | 1 => some .dst
  | 2 => some .ref
  | _ => none

/-- The conditions of WAITM (R376). -/
inductive WaitmKind
  | wm | free | slots
  deriving DecidableEq, Repr, Inhabited

/-- The encoding of each `WaitmKind`. -/
def WaitmKind.code : WaitmKind → Nat
  | .wm => 0
  | .free => 1
  | .slots => 2

/-- The `WaitmKind` that a code names, if any. -/
def WaitmKind.ofCode : Nat → Option WaitmKind
  | 0 => some .wm
  | 1 => some .free
  | 2 => some .slots
  | _ => none


/-- Whether an integer type is 64 bits wide, so that its operand is a pair (R149). -/
def IntTy.is64 : IntTy → Bool
  | .s64 | .z64 => true
  | _ => false

/-- The outcome of executing a checked instruction again (R143). -/
inductive Agreement
  | agree | twoOfThree | allDiffer
  deriving DecidableEq, Repr, Inhabited

/-- Why a module reset happens (R435, R436). -/
inductive ResetReason
  | powerOn | pcie | thermal | command | watchdog
  deriving DecidableEq, Repr, Inhabited

/-- One operand of an instruction word (R38): a register, a predicate, a special register or an immediate; `none`
where the instruction does not use the field. In a matrix stream the scalars 0 to 15 are m0 to m15 (R284). -/
inductive Operand
  | none
  | vec (n : BitVec 10)
  | scl (n : BitVec 10)
  | prd (p : BitVec 4)
  | spc (r : BitVec 8)
  | imm (v : BitVec 10)
  deriving DecidableEq, Repr, Inhabited

/-- The fields that every instruction word has (R36): the guard, the hints, the completion-flag select and the
operands D, A, B, C, and the random operand N where it lies in E (R187). -/
structure Slot where
  neg : Bool := false
  p : BitVec 4 := 0
  stall : BitVec 3 := 0
  yield : Bool := false
  rel : Bool := false
  sel : Bool := false
  d : Operand := .none
  a : Operand := .none
  b : Operand := .none
  c : Operand := .none
  n : Operand := .none
  deriving DecidableEq, Repr, Inhabited

/-- One step of the part: an instruction of a group or of a matrix stream, with the fields of its word and its decoded
modifiers, or a step of an engine, the host or the management subsystem, with the unit and the values it acts on. -/
inductive Instr
  /-- NOP: changes nothing (R162). -/
  | nop (o : Slot)
  /-- BRA: branch to an immediate byte offset (R160). -/
  | bra (o : Slot) (t : Word)
  /-- BRI: branch to the offset in A (R160). -/
  | bri (o : Slot)
  /-- CALL: branch to an immediate offset, linking in D (R161). -/
  | call (o : Slot) (t : Word)
  /-- CALLI: branch to the offset in A, linking in D (R161). -/
  | calli (o : Slot)
  /-- RET: branch to the offset in A (R160). -/
  | ret (o : Slot)
  /-- EXIT: the guarded lanes leave the frontier (R162). -/
  | exit (o : Slot)
  /-- YIELD: offers the active-set place (R162). -/
  | yield (o : Slot)
  /-- TRAP: take the trap TRAP with a code (R163). -/
  | trap (o : Slot) (code : Word)
  /-- SWI .wake: set bits of a WAKE register (R164). -/
  | swiWake (o : Slot)
  /-- SWI .clear: clear bits of a WAKE register (R164). -/
  | swiClear (o : Slot)
  /-- SWI .mgmt: write the soft-interrupt register (R164). -/
  | swiMgmt (o : Slot)
  /-- BKPT: take the trap BKPT with a code (R163). -/
  | bkpt (o : Slot) (code : Word)
  /-- GETSR: read the special register that A names (R169). -/
  | getsr (o : Slot)
  /-- SETSR: write the special register that D names (R169). -/
  | setsr (o : Slot)
  /-- SLEEPC: sleep for A cycles or until a WAKE bit of B (R165). -/
  | sleepc (o : Slot)
  /-- WAITC: wait until an engine counter is at most A (R167). -/
  | waitc (o : Slot) (k : Counter)
  /-- PLOP: a function of three predicates (R168). -/
  | plop (o : Slot) (lut : BitVec 8)
  /-- PMOV .get: the predicates into D (R168). -/
  | pmovGet (o : Slot)
  /-- PMOV .set: bits of A into the predicates of a mask (R168). -/
  | pmovSet (o : Slot) (mask : BitVec 16)
  /-- IADD: A + B (R150). -/
  | iadd (o : Slot) (u : Bool) (sat : Bool) (cc : Bool)
  /-- ISUB: A - B (R150). -/
  | isub (o : Slot) (u : Bool) (sat : Bool) (cc : Bool)
  /-- IADD3: A + B + C (R150). -/
  | iadd3 (o : Slot) (u : Bool) (sat : Bool)
  /-- IADDC: A + B + pC (R150). -/
  | iaddc (o : Slot) (cc : Bool)
  /-- IMUL: the low word of A * B (R150). -/
  | imul (o : Slot) (u : Bool) (sat : Bool)
  /-- IMULH: the high word of A * B (R150). -/
  | imulh (o : Slot) (u : Bool)
  /-- IMAD: A * B + C (R150). -/
  | imad (o : Slot) (u : Bool) (sat : Bool)
  /-- ISAD: |A - B| + C (R150). -/
  | isad (o : Slot) (u : Bool)
  /-- IMIN: the lesser of A and B (R150). -/
  | imin (o : Slot) (u : Bool)
  /-- IMAX: the greater of A and B (R150). -/
  | imax (o : Slot) (u : Bool)
  /-- IABS: |A| (R150). -/
  | iabs (o : Slot) (sat : Bool)
  /-- INEG: -A (R150). -/
  | ineg (o : Slot) (sat : Bool)
  /-- ICMP: compare A with B (R152). -/
  | icmp (o : Slot) (cond : Cond) (u : Bool) (comb : Combine)
  /-- ISEL: A where pC holds, B elsewhere (R152). -/
  | isel (o : Slot)
  /-- MOV: copy A (R150). -/
  | mov (o : Slot)
  /-- MOVI: a 32-bit immediate (R150). -/
  | movi (o : Slot) (v : Word)
  /-- AND: bitwise and (R153). -/
  | band (o : Slot)
  /-- OR: bitwise or (R153). -/
  | bor (o : Slot)
  /-- XOR: bitwise exclusive or (R153). -/
  | bxor (o : Slot)
  /-- NOT: bitwise complement (R153). -/
  | bnot (o : Slot)
  /-- LOP3: a bitwise function of A, B and C (R153). -/
  | lop3 (o : Slot) (lut : BitVec 8)
  /-- SHL: shift left (R154). -/
  | shl (o : Slot) (wrap : Bool)
  /-- SHR: shift right, zero filled (R154). -/
  | shr (o : Slot) (wrap : Bool)
  /-- SAR: shift right, sign filled (R154). -/
  | sar (o : Slot) (wrap : Bool)
  /-- SHF: shift the pair of words A and B by C (R154). -/
  | shf (o : Slot) (right : Bool) (wrap : Bool)
  /-- BFE: extract a bit field (R155). -/
  | bfe (o : Slot) (u : Bool)
  /-- BFI: insert a bit field into C (R155). -/
  | bfi (o : Slot)
  /-- BREV: reverse the bits (R156). -/
  | brev (o : Slot)
  /-- POPC: count the set bits (R156). -/
  | popc (o : Slot)
  /-- CLZ: count the leading zeros (R156). -/
  | clz (o : Slot)
  /-- CTZ: count the trailing zeros (R156). -/
  | ctz (o : Slot)
  /-- PRMT: choose bytes of A and B under C (R156). -/
  | prmt (o : Slot)
  /-- LEA: A + B * 2^n (R157). -/
  | lea (o : Slot) (n : BitVec 3) (u : Bool) (chk : Bool)
  /-- CVTI: convert between integer types (R158). -/
  | cvti (o : Slot) (td : IntTy) (ts : IntTy) (sat : Bool)
  /-- IADDW: A + B on pairs (R150). -/
  | iaddw (o : Slot) (u : Bool) (sat : Bool) (cc : Bool)
  /-- ISUBW: A - B on pairs (R150). -/
  | isubw (o : Slot) (u : Bool) (sat : Bool) (cc : Bool)
  /-- IMULW: the low 64 bits of A * B (R150). -/
  | imulw (o : Slot)
  /-- IMADX: A * B + the pair C (R150). -/
  | imadx (o : Slot) (u : Bool)
  /-- ICMPW: compare pairs (R152). -/
  | icmpw (o : Slot) (cond : Cond) (u : Bool) (comb : Combine)
  /-- SHLW: shift a pair left (R154). -/
  | shlw (o : Slot) (wrap : Bool)
  /-- SHRW: shift a pair right, zero filled (R154). -/
  | shrw (o : Slot) (wrap : Bool)
  /-- SARW: shift a pair right, sign filled (R154). -/
  | sarw (o : Slot) (wrap : Bool)
  /-- MOVW: copy a pair (R150). -/
  | movw (o : Slot)
  /-- FADD: A + B in binary32 (R190). -/
  | fadd (o : Slot) (rm : RMode) (ftz : Bool) (na : Bool) (nb : Bool)
  /-- FMUL: A * B in binary32 (R190). -/
  | fmul (o : Slot) (rm : RMode) (ftz : Bool) (na : Bool) (nb : Bool)
  /-- FFMA: A * B + C in binary32, rounded once (R190). -/
  | ffma (o : Slot) (rm : RMode) (ftz : Bool) (na : Bool) (nc : Bool)
  /-- FMIN: the lesser (R192). -/
  | fmin (o : Slot) (nanp : Bool) (ftz : Bool)
  /-- FMAX: the greater (R192). -/
  | fmax (o : Slot) (nanp : Bool) (ftz : Bool)
  /-- FCMP: compare in binary32 (R193). -/
  | fcmp (o : Slot) (cond : FCond) (ftz : Bool) (comb : Combine)
  /-- FRND: round to an integral binary32 value (R194). -/
  | frnd (o : Slot) (rm : RMode) (ftz : Bool)
  /-- FCLASS: the class of A (R195). -/
  | fclass (o : Slot) (f64 : Bool)
  /-- FDIV: A / B in binary32 (R190). -/
  | fdiv (o : Slot) (rm : RMode) (ftz : Bool)
  /-- FRCP: 1 / A (R190). -/
  | frcp (o : Slot) (rm : RMode) (ftz : Bool)
  /-- FRSQ: 1 / sqrt A (R190). -/
  | frsq (o : Slot) (rm : RMode) (ftz : Bool)
  /-- FSQRT: sqrt A (R190). -/
  | fsqrt (o : Slot) (rm : RMode) (ftz : Bool)
  /-- FEXP2: an approximate function (R196). -/
  | fexp2 (o : Slot) (ftz : Bool)
  /-- FLOG2: an approximate function (R196). -/
  | flog2 (o : Slot) (ftz : Bool)
  /-- FSIN: an approximate function (R196). -/
  | fsin (o : Slot) (ftz : Bool)
  /-- FCOS: an approximate function (R196). -/
  | fcos (o : Slot) (ftz : Bool)
  /-- DADD: A + B in binary64 (R190). -/
  | dadd (o : Slot) (rm : RMode) (na : Bool) (nb : Bool)
  /-- DMUL: A * B in binary64 (R190). -/
  | dmul (o : Slot) (rm : RMode) (na : Bool) (nb : Bool)
  /-- DFMA: A * B + C in binary64, rounded once (R190). -/
  | dfma (o : Slot) (rm : RMode) (na : Bool) (nc : Bool)
  /-- DCMP: compare in binary64 (R193). -/
  | dcmp (o : Slot) (cond : FCond) (comb : Combine)
  /-- HADD2: A + B on two packed elements (R190). -/
  | hadd2 (o : Slot) (rm : RMode) (ftz : Bool) (bf : Bool) (na : Bool) (nb : Bool)
  /-- HMUL2: A * B on two packed elements (R190). -/
  | hmul2 (o : Slot) (rm : RMode) (ftz : Bool) (bf : Bool) (na : Bool) (nb : Bool)
  /-- HFMA2: A * B + C on two packed elements (R190). -/
  | hfma2 (o : Slot) (rm : RMode) (ftz : Bool) (bf : Bool) (na : Bool) (nc : Bool)
  /-- HMNX2: the lesser or the greater of two packed elements (R192). -/
  | hmnx2 (o : Slot) (max : Bool) (nanp : Bool) (ftz : Bool) (bf : Bool)
  /-- FDP4: an exact four-element FP8 dot product added to C (R197). -/
  | fdp4 (o : Slot) (rm : RMode) (ftz : Bool) (ta : Bool) (tb : Bool)
  /-- CVT: convert between float formats (R198). -/
  | cvt (o : Slot) (rm : RMode) (ftz : Bool) (satf : Bool) (td : Fmt) (ts : Fmt)
  /-- CVTFI: convert a float to an integer (R199). -/
  | cvtfi (o : Slot) (rm : RMode) (ftz : Bool) (ti : IntTy) (tf : Fmt)
  /-- CVTIF: convert an integer to a float (R200). -/
  | cvtif (o : Slot) (rm : RMode) (satf : Bool) (tf : Fmt) (ti : IntTy)
  /-- PACK: convert A and B and place them in a base (R201). -/
  | pack (o : Slot) (rm : RMode) (ftz : Bool) (satf : Bool) (td : Fmt) (pos : BitVec 2)
  /-- XADD: add B to the exact accumulator A (R202). -/
  | xadd (o : Slot) (ta : XTy) (ftz : Bool)
  /-- XRND: round an exact accumulator (R203). -/
  | xrnd (o : Slot) (rm : RMode) (ftz : Bool) (satf : Bool) (td : Fmt)
  /-- XCMB: add or subtract two exact accumulators (R202). -/
  | xcmb (o : Slot) (sub : Bool)
  /-- XCHK: test an exact accumulator (R203). -/
  | xchk (o : Slot) (test : XTest)
  /-- SHFL: read another lane of a segment (R207). -/
  | shfl (o : Slot) (mode : ShflMode) (wc : BitVec 3) (rot : Bool) (q : Option (BitVec 4))
  /-- RDLANE: read lane B of A (R208). -/
  | rdlane (o : Slot)
  /-- WRLANE: write A into lane B (R208). -/
  | wrlane (o : Slot)
  /-- BALLOT: 32 lanes of a predicate as a word (R209). -/
  | ballot (o : Slot) (k : BitVec 2)
  /-- VOTE: all, any or same of a predicate (R209). -/
  | vote (o : Slot) (mode : VoteMode)
  /-- MATCH: the lanes that hold an equal value (R210). -/
  | vmatch (o : Slot) (w64 : Bool) (cnt : Bool) (q : Option (BitVec 4))
  /-- PSCAN: a prefix combination (R212). -/
  | pscan (o : Slot) (op : LaneOp) (t : LaneTy) (incl : Bool) (ftz : Bool)
  /-- REDUX: the combination of all lanes (R212). -/
  | redux (o : Slot) (op : LaneOp) (t : LaneTy) (ex : Bool) (ftz : Bool)
  /-- COMPACT: pack the lanes in which pB holds (R211). -/
  | compact (o : Slot) (q : Option (BitVec 4))
  /-- LD: global load (R257). -/
  | ld (o : Slot) (size : LdSize) (acq : Option Scope) (tag : Bool)
  /-- ST: global store (R257). -/
  | st (o : Slot) (size : StSize) (rel : Option Scope)
  /-- ATOM: global atomic (R261). -/
  | atom (o : Slot) (op : AtomOp) (u : Bool) (w64 : Bool) (rtn : Bool) (ord : Ord) (scope : Scope) (tag : Bool)
  /-- ATOMC: global compare and swap (R262). -/
  | atomc (o : Slot) (width : AtomcW) (ord : Ord) (scope : Scope) (tag : Bool) (q : Option (BitVec 4))
  /-- ATOMX: add to an exact accumulator in memory (R264). -/
  | atomx (o : Slot) (ta : XTy) (ord : Ord) (scope : Scope)
  /-- ATOMV: four-word global atomic (R263). -/
  | atomv (o : Slot) (op : AtomvOp) (u : Bool) (rtn : Bool) (ord : Ord) (scope : Scope)
  /-- LDFUT: load a future (R267). -/
  | ldfut (o : Slot) (w64 : Bool) (scope : Scope)
  /-- STFUT: store a future (R268). -/
  | stfut (o : Slot) (w64 : Bool) (scope : Scope)
  /-- FUTRST: reset a future line (R269). -/
  | futrst (o : Slot)
  /-- LDS: scratch load (R243). -/
  | lds (o : Slot) (size : LdSize) (fe : FeLd) (lvl : Lvl) (off : Word)
  /-- STS: scratch store (R243). -/
  | sts (o : Slot) (size : StSize) (fe : FeSt) (lvl : Lvl) (off : Word)
  /-- ATOMS: scratch atomic (R244). -/
  | atoms (o : Slot) (op : AtomsOp) (u : Bool) (w64 : Bool) (rtn : Bool) (lvl : Lvl)
  /-- TMOV: tile move (R246). -/
  | tmov (o : Slot) (sk : TEnd) (dk : TEnd) (bdone : Bool) (nb : Option (BitVec 4))
  /-- BUFDEC: declare a buffer (R247). -/
  | bufdec (o : Slot)
  /-- BUFDEC .drop: drop a declaration (R247). -/
  | bufdecDrop (o : Slot)
  /-- BUFSET .fill: apply a fill completion (R247). -/
  | bufsetFill (o : Slot)
  /-- BUFSET .drain: apply a drain completion (R247). -/
  | bufsetDrain (o : Slot)
  /-- BUFSET .reset: reset a buffer (R247). -/
  | bufsetReset (o : Slot)
  /-- BUFQRY: arm a buffer query (R247). -/
  | bufqry (o : Slot) (state : BufState) (nb : BitVec 4)
  /-- MAPR: bind a region (R248). -/
  | mapr (o : Slot) (lvl : Lvl) (k : BitVec 3)
  /-- UNMAPR: unbind a region (R248). -/
  | unmapr (o : Slot) (k : BitVec 3)
  /-- FLUSHR: write back a region (R248). -/
  | flushr (o : Slot) (k : BitVec 3)
  /-- FESET: set granules full or empty (R249). -/
  | feset (o : Slot) (full : Bool) (lvl : Lvl)
  /-- FEQRY: read a full/empty bit (R249). -/
  | feqry (o : Slot) (lvl : Lvl)
  /-- MSUB: submit a matrix stream (R293). -/
  | msub (o : Slot) (t : BitVec 5) (pri : BitVec 2)
  /-- MRD: read rows of an accumulator tile (R294). -/
  | mrd (o : Slot) (n : BitVec 3)
  /-- MWM: clear a watermark (R295). -/
  | mwm (o : Slot)
  /-- MLDA: set the A operand address (R285). -/
  | mlda (o : Slot) (clus : Bool) (off : Word)
  /-- MLDB: set the B operand line (R285). -/
  | mldb (o : Slot) (off : Word)
  /-- MMA: K-steps into a tile (R287). -/
  | mma (o : Slot) (ta : MmaTy) (tb : MmaTy) (last : Bool)
  /-- MSCL .off: unit scales (R286). -/
  | msclOff (o : Slot)
  /-- MSCL: set the block scales (R286). -/
  | mscl (o : Slot) (clus : Bool)
  /-- MSTO: store a tile (R288). -/
  | msto (o : Slot) (lvl : Lvl) (td : StoTy) (satf : Bool)
  /-- MZERO: clear a tile (R288). -/
  | mzero (o : Slot)
  /-- MLOOP .dec: decrement and branch (R289). -/
  | mloopDec (o : Slot) (t : Word)
  /-- MLOOP .add: add an immediate (R289). -/
  | mloopAdd (o : Slot) (v : Word)
  /-- MBARW: wait on a numbered barrier (R290). -/
  | mbarw (o : Slot) (nb : BitVec 4)
  /-- MBARA: arrive on a numbered barrier (R290). -/
  | mbara (o : Slot) (nb : BitVec 4)
  /-- MEND: end a stream (R291). -/
  | mend (o : Slot)
  /-- EMIT .prim: bin primitives (R310). -/
  | emitPrim (o : Slot) (cullb : Bool)
  /-- EMIT .open: open a tile slot (R310). -/
  | emitOpen (o : Slot)
  /-- EMIT .close: close a tile slot (R310). -/
  | emitClose (o : Slot)
  /-- VBLD .lat: build a view from the latched bearing (R311). -/
  | vbldLat (o : Slot)
  /-- VBLD .set: build a view from a given bearing (R311). -/
  | vbldSet (o : Slot)
  /-- CLASSIFY: classify the samples of a tile (R313). -/
  | classify (o : Slot) (clus : Bool)
  /-- SAMPLE: filtered image read (R326). -/
  | sample (o : Slot) (lvl : SampLvl) (lin : Bool)
  /-- CHARTXF: chart transform (R312). -/
  | chartxf (o : Slot) (inv : Bool) (y : Bool)
  /-- TILEOUT: send a tile to the serialiser (R324). -/
  | tileout (o : Slot) (clus : Bool)
  /-- RAYBAT .open: open a batch (R349). -/
  | raybatOpen (o : Slot)
  /-- RAYBAT .close: close a batch (R349). -/
  | raybatClose (o : Slot)
  /-- RAYGEN: generate camera rays (R350). -/
  | raygen (o : Slot)
  /-- RAYPUT: submit rays (R351). -/
  | rayput (o : Slot)
  /-- RAYQRY .cnt: read a batch count (R352). -/
  | rayqryCnt (o : Slot)
  /-- RAYQRY .wait: wait for a batch (R352). -/
  | rayqryWait (o : Slot)
  /-- SPAWN: write and commit a record per lane (R97). -/
  | spawn (o : Slot) (n : BitVec 3)
  /-- LAUNCH .q: queue a graph (R98). -/
  | launchQ (o : Slot) (seq : Word)
  /-- LAUNCH .wg: launch a work-graph (R98). -/
  | launchWg (o : Slot)
  /-- RECALLOC: allocate a record per lane (R99). -/
  | recalloc (o : Slot)
  /-- RECCOMMIT: commit allocated records (R100). -/
  | reccommit (o : Slot)
  /-- RINV: invoke a handler remotely (R120). -/
  | rinv (o : Slot) (n : BitVec 3) (pri : BitVec 2) (trp : Bool) (s : BitVec 10) (k8 : BitVec 4)
  /-- PUT: write a remote window (R122). -/
  | put (o : Slot) (n : BitVec 3) (w : BitVec 8)
  /-- WCNT: read or wait on a window counter (R123). -/
  | wcnt (o : Slot) (kind : WcntKind)
  /-- FENCE: order memory accesses (R364). -/
  | fence (o : Slot) (ord : Ord) (scope : Scope)
  /-- BARINIT: make a barrier object (R378). -/
  | barinit (o : Slot) (scope : Scope) (clus : Bool)
  /-- BARARR: arrive on a barrier (R379). -/
  | bararr (o : Slot) (obj : Bool) (drop : Bool) (wait : Bool)
  /-- BARWAIT: wait on a barrier (R380). -/
  | barwait (o : Slot) (obj : Bool) (cur : Bool)
  /-- BARREL: release a barrier object (R381). -/
  | barrel (o : Slot)
  /-- NBAR .set: set a numbered barrier (R370). -/
  | nbarSet (o : Slot)
  /-- WAITM: wait on a matrix condition (R382). -/
  | waitm (o : Slot) (kind : WaitmKind)
  /-- CLAUSE_START: a ready group starts the clause of its highest-ranked entry (R133). -/
  | clauseStart (g : Nat)
  /-- ISSUE_WAIT_END: a condition that holds a group ends (R138). -/
  | issueWaitEnd (g : Nat)
  /-- ACTIVE_TIME_EXPIRY: 512 core cycles in the active set have passed (R139). -/
  | activeTimeExpiry (g : Nat)
  /-- SLEEPC_EXPIRY: the count of a sleeping group expires (R165). -/
  | sleepcExpiry (g : Nat)
  /-- FLAG_COMPLETION: a long-latency operation writes its results (R46). -/
  | flagCompletion (op : Nat)
  /-- WRITE_ACKNOWLEDGED: a counted operation completes (R166). -/
  | writeAcknowledged (op : Nat)
  /-- NON_INSTRUCTION_ISSUE: a slot whose word is no legal instruction issues (R53). -/
  | nonInstructionIssue (w : BitVec 96)
  /-- SILENT_CHECK_REPLAY: a checked instruction is executed again and compared (R143). -/
  | silentCheckReplay (g : Nat) (ag : Agreement)
  /-- HOME_SLICE_LINE_ACTION: a home slice performs the action of one line of an operation (R250). -/
  | homeSliceLineAction (op : Nat) (line : Nat)
  /-- FUTURE_WALK: the slice answers the readers of a stored future (R268). -/
  | futureWalk (op : Nat)
  /-- DEFERRED_RECORD_GRANT: a held LDFUT receives a free deferred-read record (R266). -/
  | deferredRecordGrant (op : Nat)
  /-- PRQRESP_RETRY: the driver answers a page request with a retry (R226). -/
  | prqrespRetry (part req : Nat)
  /-- PRQRESP_FAIL: the driver answers a page request with FAIL (R226). -/
  | prqrespFail (part req : Nat)
  /-- PRQTAIL_WRITE: the driver writes PRQTAIL (R227). -/
  | prqtailWrite (part : Nat) (v : Word)
  /-- INVALIDATE_GO: the driver writes INVCMD (R222). -/
  | invalidateGo (part : Nat) (cmd : Word)
  /-- INVALIDATE_DONE: the invalidation in progress is complete (R222). -/
  | invalidateDone (part : Nat)
  /-- CREATE_CONTEXT: queue-control command 1 (R68). -/
  | createContext (part : Nat) (cmd : Word)
  /-- DESTROY_CONTEXT: queue-control command 2 (R69). -/
  | destroyContext (part : Nat) (cmd : Word)
  /-- CREATE_QUEUE: queue-control command 3 (R71). -/
  | createQueue (part : Nat) (cmd : Word)
  /-- DESTROY_QUEUE: queue-control command 4 (R69). -/
  | destroyQueue (part : Nat) (cmd : Word)
  /-- QUEUE_COMMAND_DONE: a queue-control command completes (R70). -/
  | queueCommandDone (part : Nat)
  /-- TAIL: the host writes the TAIL of a queue (R74). -/
  | tail (part q : Nat) (t : Word)
  /-- SKIP: the host writes CTRL with SKIP (R82). -/
  | skip (part q : Nat)
  /-- STOP: the host writes CTRL with STOP (R73). -/
  | stop (part q : Nat)
  /-- QUEUE_FETCH: a queue engine reads the entry at H (R82). -/
  | queueFetch (part q : Nat)
  /-- GRAPH_CHECK: a queue engine checks a whole graph (R79). -/
  | graphCheck (part q : Nat)
  /-- NODE_START: a queue engine starts the current node (R82). -/
  | nodeStart (part q : Nat)
  /-- NODE_COMPLETE: the current node completes (R77). -/
  | nodeComplete (part q : Nat)
  /-- WAIT_NODE_POLL: a wait node reads its word again (R77). -/
  | waitNodePoll (part q : Nat)
  /-- LAUNCH_Q_APPEND: a held launch.q entry is written to the ring (R98). -/
  | launchQAppend (part q : Nat)
  /-- GANG_SERVED: the distributor reserves the resources of a gang (R128). -/
  | gangServed (gang : Nat) (unit : Nat)
  /-- CODE_LOAD_COMPLETE: the code copy of a gang is loaded and its groups start (R131). -/
  | codeLoadComplete (gang : Nat)
  /-- PLACEMENT_HOLD: a gang that waited 65,536 cycles puts a hold on a cluster (R128). -/
  | placementHold (gang : Nat)
  /-- WG_LAUNCH_ACCEPT: a launch.wg packet is checked and accepted or refused (R86). -/
  | wgLaunchAccept (op : Nat)
  /-- BLOCK_TIMEOUT_SEAL: an OPEN block is sealed by its timeout (R91). -/
  | blockTimeoutSeal (inst node block : Nat)
  /-- INV_RECEIVED: the receiver decides an arrived INV packet (R112). -/
  | invReceived (pkt : Nat)
  /-- PUT_RECEIVED: the receiver decides an arrived PUT packet (R116). -/
  | putReceived (pkt : Nat)
  /-- PUT_LANDED: the writes of an arrived PUT are acknowledged (R116). -/
  | putLanded (pkt : Nat)
  /-- REPLY_RECEIVED: an ACK or NACK arrives at the source (R120). -/
  | replyReceived (pkt : Nat)
  /-- RETRANSMIT_TIMEOUT: a pair has had no reply for 2^20 flit times (R107). -/
  | retransmitTimeout (pair : Nat)
  /-- PACKET_FORWARD: a packet for another chip is forwarded or discarded (R428). -/
  | packetForward (pkt : Nat)
  /-- LAND_SLOT_FILL: a FREE landing slot takes the head of the overflow ring (R113). -/
  | landSlotFill (part q : Nat)
  /-- HANDLER_BATCH_LAUNCH: a ready batch of held slots becomes a handler team (R114). -/
  | handlerBatchLaunch (part q : Nat)
  /-- TILE_MOVE_COMPLETE: a tile move finishes (R241). -/
  | tileMoveComplete (op : Nat)
  /-- REGION_FILL: the map unit fills a line of a region (R240). -/
  | regionFill (team k line : Nat)
  /-- WRITE_BACK_COMPLETE: a write-back of a region line is acknowledged (R240). -/
  | writeBackComplete (team k line : Nat)
  /-- ARBITER_GRANT: the matrix arbiter grants an entry a pass (R281). -/
  | arbiterGrant (cluster : Nat)
  /-- PASS_END: the pass of a matrix engine ends (R280). -/
  | passEnd (cluster : Nat)
  /-- TILE_COMMIT: an MMA with .last commits its tile (R276). -/
  | tileCommit (cluster : Nat)
  /-- SUBMISSION_COMPLETE: the effects of a matrix submission are complete (R291). -/
  | submissionComplete (team : Nat)
  /-- COLUMN_STORE_GRANT: a write to a column-store grant register (R274). -/
  | columnStoreGrant (part cluster ctx : Nat) (v : Word)
  /-- GRANT_ZERO_DONE: the lines that entered a window are zeroed (R274). -/
  | grantZeroDone (part : Nat)
  /-- PRIMITIVE_BINNED: the raster unit bins or drops a submitted primitive (R306). -/
  | primitiveBinned (op : Nat)
  /-- TILE_RESOLVE: a CLOSING tile slot resolves (R308). -/
  | tileResolve (team slot : Nat)
  /-- CLASSIFY_COMPLETE: the classifier finishes a tile (R313). -/
  | classifyComplete (op : Nat)
  /-- BRGSY: the host writes the staged bearing y (R299). -/
  | brgsy (view : Nat) (v : Word)
  /-- BEARING_LATCH: the bearing of a strip is latched (R300). -/
  | bearingLatch (view : Nat)
  /-- STRIP_DEADLINE: the deadline of a strip (R318). -/
  | stripDeadline (view : Nat)
  /-- STRIP_SCAN: the serialiser sends a strip (R320). -/
  | stripScan (view : Nat)
  /-- TILEOUT_COMPLETE: the serialiser acts on a TILEOUT tile (R325). -/
  | tileoutComplete (op : Nat)
  /-- SCAN_ENABLE: the host sets SCANEN (R317). -/
  | scanEnable (view : Nat) (v : Word)
  /-- SCAN_DISABLE: the host clears SCANEN (R317). -/
  | scanDisable (view : Nat) (v : Word)
  /-- BATCH_OPEN_DONE: a ray-batch open resolves (R349). -/
  | batchOpenDone (op : Nat)
  /-- RAY_ADMIT: a waiting ray submission is admitted (R337). -/
  | rayAdmit (g : Nat)
  /-- RAY_PASS_CHOOSE: a free stage cluster chooses a WAITING subtree queue (R341). -/
  | rayPassChoose (cluster : Nat)
  /-- RAY_PASS: a pass traverses the rays of its subtree queue (R342). -/
  | rayPass (cluster : Nat)
  /-- RAY_BATCH_COMPLETE: a ray batch completes (R344). -/
  | rayBatchComplete (die entry : Nat)
  /-- RAY_RECORD_COMMIT: a hit or miss record is reserved and committed (R345). -/
  | rayRecordCommit (die entry : Nat)
  /-- GROUP_RETIRE: a draining group retires (R416). -/
  | groupRetire (g : Nat)
  /-- TEAM_RETIRE: a team retires (R417). -/
  | teamRetire (team : Nat)
  /-- TRAP_ENTER: a trapping group enters its handler (R385). -/
  | trapEnter (g : Nat)
  /-- ENGINE_STOP: an engine of a halted partition stops (R391). -/
  | engineStop (part record : Nat) (skid : Word)
  /-- HALTCMD_CLEAR: the driver writes HALTCMD (R392). -/
  | haltcmdClear (part : Nat) (v : Word)
  /-- CONTEXT_SAVE: CSWCMD save (R399). -/
  | contextSave (part : Nat) (cmd : Word)
  /-- DRAIN_TIMEOUT: a draining team is saved as it stands (R397). -/
  | drainTimeout (team : Nat)
  /-- CONTEXT_SAVE_DONE: the save records are written (R399). -/
  | contextSaveDone (part : Nat)
  /-- CONTEXT_RESTORE: CSWCMD restore (R402). -/
  | contextRestore (part : Nat) (cmd : Word)
  /-- DROPGO: the driver writes DROPGO (R415). -/
  | dropgo (part : Nat) (v : Word)
  /-- DROP_COMPLETE: the hash is rebuilt without the dropped channels (R415). -/
  | dropComplete (part : Nat)
  /-- COMMIT: the partition-table COMMIT (R424). -/
  | commit (v : Word)
  /-- APPLY: the governor APPLY (R17). -/
  | apply (v : Word)
  /-- GOVERNOR_THROTTLE: the governor changes the clock step of a cluster (R16). -/
  | governorThrottle (cluster : Nat) (step : Nat)
  /-- SENSOR_SAMPLE: Binnacle reads the sensors (R437). -/
  | sensorSample (temps : List Nat) (volts : List Nat) (current : Nat)
  /-- MODULE_RESET: a module reset (R431). -/
  | moduleReset (reason : ResetReason) (upTo : Nat)
  /-- BOOT_STAGE_TIMEOUT: a boot stage overruns its limit (R431). -/
  | bootStageTimeout (stage : Nat)
  /-- FLASH_IMAGE_WRITE: a new image is written into the inactive flash slot (R433). -/
  | flashImageWrite (image : List Byte) (svn version : Nat)
  /-- FSC_CLEAR: a command clears the failed-start count (R432). -/
  | fscClear 
  /-- EVENT_LOG_READ: the event log is read (R440). -/
  | eventLogRead (nonce : List Byte)
  /-- GET_VERSION: SPDM request (R441). -/
  | getVersion 
  /-- GET_CAPABILITIES: SPDM request (R441). -/
  | getCapabilities 
  /-- NEGOTIATE_ALGORITHMS: SPDM request (R441). -/
  | negotiateAlgorithms (algs : Nat)
  /-- GET_DIGESTS: SPDM request (R441). -/
  | getDigests 
  /-- GET_CERTIFICATE: SPDM request (R441). -/
  | getCertificate (off len : Nat)
  /-- CHALLENGE: SPDM request (R441). -/
  | challenge (nonce : List Byte)
  /-- GET_MEASUREMENTS: SPDM request (R441). -/
  | getMeasurements (nonce : List Byte)
  /-- HOST_MEMORY_REQUEST: a BAR 4 or CXL.mem request (R422). -/
  | hostMemoryRequest (part addr : Nat) (write : Bool) (data : List Byte)
  /-- WAKE_WRITE: the host writes the WAKE register of a queue (R423). -/
  | wakeWrite (part q : Nat) (v : Word)
  /-- FABRIC_ENABLE: the driver writes FABCTL (R427). -/
  | fabricEnable (part : Nat) (v : Word)
  /-- ROUTE_WRITE: the driver writes a ROUTE register (R428). -/
  | routeWrite (part chip : Nat) (v : Word)
  /-- FLIT_RECEIVED: a flit arrives on a link (R426). -/
  | flitReceived (link : Nat) (good : Bool) (packets : List (List Byte))
  /-- LINK_DOWN: a link goes down (R426). -/
  | linkDown (link : Nat)
  /-- REGISTER_WRITE: a write to a plain register (R3). -/
  | registerWrite (part off : Nat) (v : Word)
  /-- LINK_UP: a link becomes UP (R426). -/
  | linkUp (link : Nat)
  /-- POWER_FAIL: power fails (R433). -/
  | powerFail 
  /-- HBM_TEST_PATH: an HBM4 stack is trained and tested (R432). -/
  | hbmTestPath (stack : Nat) (pass : Bool)
  /-- VF_ENABLE: SR-IOV virtual functions are enabled (R421). -/
  | vfEnable (vfs : Nat)
  deriving DecidableEq, Repr, Inhabited

end Sys2Proof
end

