-- ==== Sys2Proof/Machine/Encoding.lean ====
section
/-!
DEFINITION. The encoding tables of the spec as data: which operand classes each instruction accepts (R38, R39), which
registers an operand names, and for each instruction form its opcode, its M and E values, its operands and properties.
Decoding, encoding, well-formedness and the checks at issue all read this one table.
-/

namespace Sys2Proof

/-- The code of an optional predicate in a Q, QV field (R206). -/
def optQCode : Option (BitVec 4) → Nat
  | none => 0
  | some q => q.toNat + 16

/-- The optional predicate of a Q, QV field: Q is read only where QV is set. -/
def optQOf (f : Nat) : Option (BitVec 4) :=
  if natBit f 4 then some (BitVec.ofNat 4 f) else none

/-- The predicate an optional pQ names. -/
def optQList : Option (BitVec 4) → List (BitVec 4)
  | none => []
  | some q => [q]

/-- The SCOPE field of an optional acquire or release (R256): 0 in the relaxed form. -/
def optScopeCode : Option Scope → Nat
  | none => 0
  | some s => s.code

/-- The optional acquire or release of LD and ST. -/
def optScopeOf (on : Bool) (f : Nat) : Option (Option Scope) :=
  if on then (Scope.ofCode f).map some else some none

/-- One special register of R169: its index, whether it is 64 bits wide and whether SETSR may write it. -/
structure SpecialReg where
  index : Nat
  wide : Bool
  rw : Bool

/-- The special registers (R169). -/
def specialRegs : List SpecialReg :=
  [⟨0x00, false, false⟩, ⟨0x01, false, false⟩, ⟨0x02, false, false⟩, ⟨0x03, false, false⟩, ⟨0x04, false, false⟩,
   ⟨0x05, false, false⟩, ⟨0x06, false, false⟩, ⟨0x07, false, false⟩, ⟨0x08, false, false⟩, ⟨0x09, false, false⟩,
   ⟨0x10, false, false⟩, ⟨0x11, false, false⟩, ⟨0x12, false, false⟩, ⟨0x13, false, false⟩, ⟨0x14, false, false⟩,
   ⟨0x15, false, false⟩, ⟨0x20, true, false⟩, ⟨0x21, true, false⟩, ⟨0x30, false, true⟩, ⟨0x31, false, false⟩,
   ⟨0x32, true, false⟩, ⟨0x40, false, true⟩, ⟨0x41, false, true⟩, ⟨0x42, false, true⟩, ⟨0x48, false, false⟩,
   ⟨0x50, false, false⟩, ⟨0x51, false, false⟩]

/-- The special register of an index, if it is assigned. -/
def specialReg? (i : Nat) : Option SpecialReg := specialRegs.find? (fun r => r.index == i)

/-- The 12-bit code of an operand field (R38); an unused field is zero (R37). -/
def Operand.code : Operand → Nat
  | .none => 0
  | .vec n => n.toNat
  | .scl n => 0x400 + n.toNat
  | .prd p => 0x800 + p.toNat
  | .spc r => 0x900 + r.toNat
  | .imm v => 0xC00 + v.toNat

/-- The operand that a 12-bit field names, if its class and index exist (R38). -/
def Operand.parse (f : Nat) : Option Operand :=
  if f / 0x400 % 4 = 0 then (if f % 0x400 < 320 then some (.vec (BitVec.ofNat 10 f)) else none)
  else if f / 0x400 % 4 = 1 then some (.scl (BitVec.ofNat 10 f))
  else if f / 0x400 % 4 = 3 then some (.imm (BitVec.ofNat 10 f))
  else if f / 0x100 % 4 = 0 then (if f / 0x10 % 0x10 = 0 then some (.prd (BitVec.ofNat 4 f)) else none)
  else if f / 0x100 % 4 = 1 then
    (if (specialReg? (f % 0x100)).isSome then some (.spc (BitVec.ofNat 8 f)) else none)
  else none

/-- Whether an operand names a 64-bit special register (R169). -/
def Operand.is64 : Operand → Bool
  | .spc r => ((specialReg? r.toNat).map SpecialReg.wide).getD false
  | _ => false

/-- Whether an operand names $brgx or $brgy, for which GETSR takes a view in B (R169). -/
def Operand.isBearing : Operand → Bool
  | .spc r => r == 0x50 || r == 0x51
  | _ => false

/-- What an instruction's entry accepts in one operand field (R39): the classes, and for registers how many the
operand names, whether the first must be even and which scalars exist (16 in a matrix stream). -/
structure Need where
  used : Bool := true
  v : Bool := false
  s : Bool := false
  p : Bool := false
  i : Bool := false
  x : Bool := false
  n : Nat := 1
  pair : Bool := false
  sMax : Nat := 1024
  deriving DecidableEq, Repr, Inhabited

def Need.no : Need := { used := false }
def Need.vec : Need := { v := true }
def Need.scl : Need := { s := true }
def Need.vs : Need := { v := true, s := true }
def Need.si : Need := { s := true, i := true }
def Need.vsi : Need := { v := true, s := true, i := true }
def Need.prd : Need := { p := true }
def Need.sp : Need := { x := true }
def Need.vsPair : Need := { v := true, s := true, n := 2, pair := true }
def Need.vsiPair : Need := { v := true, s := true, i := true, n := 2, pair := true }
def Need.vPair : Need := { v := true, n := 2, pair := true }
def Need.sPair : Need := { s := true, n := 2, pair := true }
def Need.vrun (n : Nat) : Need := { v := true, n := n }
def Need.srun (n : Nat) : Need := { s := true, n := n }
def Need.vsrun (n : Nat) : Need := { v := true, s := true, n := n }
/-- The argument of MSUB: the first of eight scalars, or an immediate (R292). -/
def Need.sRunOrImm : Need := { s := true, i := true, n := 8 }
/-- An m register of a matrix stream (R284). -/
def Need.mreg : Need := { s := true, sMax := 16 }
/-- An m register or an immediate (R284). -/
def Need.mimm : Need := { s := true, i := true, sMax := 16 }
/-- The operand with a tag register after its data where TAG is set (R256). -/
def Need.tagged (n : Need) (tag : Bool) : Need := if tag then { n with n := n.n + 1 } else n
/-- A float destination: a pair exactly where the type is binary64 (R189). -/
def Need.floatD (td : Fmt) : Need := if td = .f64 then .vsPair else .vs
/-- A float source: a pair exactly where the type is binary64; an immediate only in the four wide types (R189). -/
def Need.floatA (ts : Fmt) : Need :=
  if ts = .f64 then .vsiPair else if ts = .f32 || ts = .f16 || ts = .bf16 then .vsi else .vs
/-- The data of a load (R242, R255). -/
def Need.ldData (size : LdSize) (tag : Bool) : Need :=
  Need.tagged (if size = .b64 then .vsPair else if size = .b128 then .vsrun 4 else if size = .xa then .vrun 10
    else .vs) tag
/-- The data of a store (R242, R255). -/
def Need.stData (size : StSize) : Need :=
  if size = .b64 then .vsPair else if size = .b128 then .vsrun 4 else if size = .xa then .vrun 10 else .vsi
/-- A register operand of ATOMC (R255). -/
def Need.casReg (w : AtomcW) : Need :=
  if w = .b64 then .vsPair else if w = .b128 then .vsrun 4 else .vs
/-- A data operand of ATOMC: an immediate only in the 32-bit form (R255). -/
def Need.casData (w : AtomcW) : Need :=
  if w = .b64 then .vsPair else if w = .b128 then .vsrun 4 else .vsi

/-- Whether an operand is one that a field accepts (R38, R39): its class, its run within the class limit, and an
even first register in a pair. -/
def Need.fits (need : Need) : Operand → Bool
  | .none => !need.used
  | .vec k => need.used && need.v && k.toNat + need.n ≤ 320 && (!need.pair || k.toNat % 2 == 0)
  | .scl k => need.used && need.s && k.toNat + need.n ≤ need.sMax && (!need.pair || k.toNat % 2 == 0)
  | .prd _ => need.used && need.p
  | .spc r => need.used && need.x && (specialReg? r.toNat).isSome
  | .imm _ => need.used && need.i

/-- Where an operation executes (R52). -/
inductive Pool
  | both | array | helm | stream
  deriving DecidableEq, Repr, Inhabited

/-- One instruction form: its OPID, the fields of its word and the properties that follow its OPID (R55). -/
structure Form where
  op : Nat
  slot : Slot
  m : Nat := 0
  e : Nat := 0
  imm : Option Nat := none
  /-- N lies in the low twelve bits of E (R187). -/
  eN : Bool := false
  d : Need := .no
  a : Need := .no
  b : Need := .no
  c : Need := .no
  n : Need := .no
  /-- The combination of modifiers is one the entry lists. -/
  legal : Bool := true
  /-- The operands together are ones the entry accepts (R169, R186). -/
  cross : Bool := true
  /-- A scalar D refuses vector and predicate sources (R147, R186, R242, R256). -/
  uniform : Bool := false
  /-- C is a predicate result, the carry out (R151). -/
  cOut : Bool := false
  /-- A long-latency instruction (R48). -/
  long : Bool := false
  pool : Pool := .both
  /-- Predicates written beside D: one named in E (R206), the carry out (R151), those of a PMOV mask (R168). -/
  preds : List (BitVec 4) := []
  /-- A run of scalars named in E: first and count (R119). -/
  srun : Option (Nat × Nat) := none
  deriving DecidableEq, Repr

/-- The rules of PACK on Td and POS (R201, R189). -/
def packLegal (rm : RMode) (td : Fmt) (pos : BitVec 2) : Bool :=
  rm != .rs && (match td with
    | .f16 | .bf16 => pos == 0
    | .e4m3 | .e5m2 => pos == 0 || pos == 1
    | .e2m1 => true
    | .f64 | .f32 | .e8m0 => false)

/-- A bitwise operation has no float type (R206). -/
def laneLegal (op : LaneOp) (t : LaneTy) : Bool :=
  t != .f32 || op == .add || op == .min || op == .max

/-- The limits on the fields of ATOM (R256). -/
def atomLegal (op : AtomOp) (u w64 ret : Bool) (ord : Ord) (scope : Scope) (tag : Bool) : Bool :=
  (ord != .rlx || scope == .team) && (ret || ord == .rlx || ord == .rel) && (ret || !tag)
    && (match op with
      | .fadd | .hadd2 | .badd2 => !u && !w64
      | .add | .min | .max | .and | .or | .xor | .exch => true)

/-- The pairs of operand formats that MMA accepts (R284). -/
def mmaLegal (ta tb : MmaTy) : Bool :=
  match ta, tb with
  | .e4m3, .e4m3 | .e4m3, .e5m2 | .e5m2, .e4m3 | .e5m2, .e5m2 | .e2m1, .e2m1 | .bf16, .bf16 | .f16, .f16 => true
  | _, _ => false

/-- Two runs of ten registers are equal or have no register in common (R186). -/
def runsApart : Operand → Operand → Bool
  | .vec j, .vec k => j == k || j.toNat + 10 ≤ k.toNat || k.toNat + 10 ≤ j.toNat
  | _, _ => true

/-- GETSR of $laneid has no scalar D (R169). -/
def getsrOk (o : Slot) : Bool :=
  match o.a, o.d with
  | .spc r, .scl _ => r != 0
  | _, _ => true

/-- SETSR names a register that software may write (R169). -/
def setsrOk (o : Slot) : Bool :=
  match o.d with
  | .spc r => ((specialReg? r.toNat).map SpecialReg.rw).getD false
  | _ => true

/-- An operand whose value differs from lane to lane. -/
def Operand.perLane : Operand → Bool
  | .vec _ | .prd _ => true
  | .none | .scl _ | .spc _ | .imm _ => false

/-- Whether an operand is a scalar register. -/
def Operand.isScl : Operand → Bool
  | .scl _ => true
  | .none | .vec _ | .prd _ | .spc _ | .imm _ => false

/-- The predicate that an operand names. -/
def Operand.prdList : Operand → List (BitVec 4)
  | .prd p => [p]
  | .none | .vec _ | .scl _ | .spc _ | .imm _ => []

/-- The operands of a form are ones its entry accepts; in a matrix stream G and H are zero (R277). -/
def Form.operandsOk (f : Form) : Bool :=
  f.d.fits f.slot.d && f.a.fits f.slot.a && f.b.fits f.slot.b && f.c.fits f.slot.c && f.n.fits f.slot.n && f.cross
    && !(f.uniform && f.slot.d.isScl && (f.slot.a.perLane || f.slot.b.perLane || (!f.cOut && f.slot.c.perLane)
      || f.slot.n.perLane))

/-- The field E of a form, N included where it lies there (R187). -/
def Form.eField (f : Form) : Nat := f.e + (if f.eN then f.slot.n.code else 0)

/-- X of a form: its immediate, or C with E (R36). -/
def Form.x (f : Form) : Nat :=
  match f.imm with
  | some v => v
  | none => f.slot.c.code + 4096 * f.eField

/-- The guard and hint fields of a word (R36). -/
def Slot.gh (o : Slot) : Nat :=
  o.p.toNat + 16 * bitNat o.neg + 32 * (o.stall.toNat + 8 * bitNat o.yield + 16 * bitNat o.rel + 32 * bitNat o.sel)

/-- The word of a form (R36). -/
def Form.word (f : Form) : Nat :=
  f.op + 2 ^ 10 * f.slot.gh + 2 ^ 21 * f.slot.d.code + 2 ^ 33 * f.slot.a.code + 2 ^ 45 * f.slot.b.code + 2 ^ 57 * f.m
    + 2 ^ 64 * f.x


/-- The encoding of each instruction form, from the tables of R149, R159, R189, R206, R242, R255, R284, R292, R309,
R324, R326, R348, R96, R119, R364 and R376. The steps of engines have none. -/
def Instr.form : Instr → Option Form
  | .nop o => some { op := 0x000, slot := o }
  | .bra o t => some { op := 0x001, slot := o, imm := some t.toNat }
  | .bri o => some { op := 0x002, slot := o, a := .vs }
  | .call o t => some { op := 0x003, slot := o, imm := some t.toNat, d := .vs }
  | .calli o => some { op := 0x004, slot := o, d := .vs, a := .vs }
  | .ret o => some { op := 0x005, slot := o, a := .vs }
  | .exit o => some { op := 0x006, slot := o }
  | .yield o => some { op := 0x007, slot := o }
  | .trap o code => some { op := 0x008, slot := o, imm := some code.toNat }
  | .swiWake o => some { op := 0x009, slot := o, a := .scl, b := .si }
  | .swiClear o => some { op := 0x009, slot := o, m := 1, a := .scl, b := .si }
  | .swiMgmt o => some { op := 0x009, slot := o, m := 2, b := .si }
  | .bkpt o code => some { op := 0x00A, slot := o, imm := some code.toNat }
  | .getsr o => some
      { op := 0x00B, slot := o, d := (if Operand.is64 o.a then .vsPair else .vs), a := .sp,
        b := (if Operand.isBearing o.a then .si else .no), cross := getsrOk o }
  | .setsr o => some
      { op := 0x00C, slot := o, d := .sp, a := (if Operand.is64 o.d then .vsiPair else .vsi), cross := setsrOk o }
  | .sleepc o => some { op := 0x00D, slot := o, a := .si, b := .si }
  | .waitc o k => some { op := 0x00E, slot := o, m := k.code, a := .si }
  | .plop o lut => some { op := 0x00F, slot := o, e := lut.toNat, d := .prd, a := .prd, b := .prd, c := .prd }
  | .pmovGet o => some { op := 0x010, slot := o, d := .vec }
  | .pmovSet o mask => some
      { op := 0x010, slot := o, m := 1, imm := some mask.toNat, a := .vs
        preds := ((List.range 16).filter (fun p => p != 0 && mask.getLsbD p)).map (BitVec.ofNat 4) }
  | .iadd o u sat cc => some
      { op := 0x040, slot := o, m := bitNat u + 2 * bitNat sat + 4 * bitNat cc, d := .vs, a := .vsi, b := .vsi,
        c := (if cc then .prd else .no), uniform := true, cOut := true, preds := o.c.prdList }
  | .isub o u sat cc => some
      { op := 0x041, slot := o, m := bitNat u + 2 * bitNat sat + 4 * bitNat cc, d := .vs, a := .vsi, b := .vsi,
        c := (if cc then .prd else .no), uniform := true, cOut := true, preds := o.c.prdList }
  | .iadd3 o u sat => some
      { op := 0x042, slot := o, m := bitNat u + 2 * bitNat sat, d := .vs, a := .vsi, b := .vsi, c := .vsi,
        uniform := true }
  | .iaddc o cc => some
      { op := 0x043, slot := o, m := 4 * bitNat cc, d := .vs, a := .vsi, b := .vsi, c := .prd, uniform := true,
        preds := if cc then o.c.prdList else [] }
  | .imul o u sat => some
      { op := 0x044, slot := o, m := bitNat u + 2 * bitNat sat, d := .vs, a := .vsi, b := .vsi, uniform := true }
  | .imulh o u => some { op := 0x045, slot := o, m := bitNat u, d := .vs, a := .vsi, b := .vsi, uniform := true }
  | .imad o u sat => some
      { op := 0x046, slot := o, m := bitNat u + 2 * bitNat sat, d := .vs, a := .vsi, b := .vsi, c := .vsi,
        uniform := true }
  | .isad o u => some
      { op := 0x047, slot := o, m := bitNat u, d := .vs, a := .vsi, b := .vsi, c := .vsi, uniform := true }
  | .imin o u => some { op := 0x048, slot := o, m := bitNat u, d := .vs, a := .vsi, b := .vsi, uniform := true }
  | .imax o u => some { op := 0x049, slot := o, m := bitNat u, d := .vs, a := .vsi, b := .vsi, uniform := true }
  | .iabs o sat => some { op := 0x04A, slot := o, m := 2 * bitNat sat, d := .vs, a := .vsi, uniform := true }
  | .ineg o sat => some { op := 0x04B, slot := o, m := 2 * bitNat sat, d := .vs, a := .vsi, uniform := true }
  | .icmp o cond u comb => some
      { op := 0x04C, slot := o, m := cond.code + 8 * bitNat u + 16 * comb.code, d := .prd, a := .vsi, b := .vsi,
        c := (if comb = .none then .no else .prd) }
  | .isel o => some { op := 0x04D, slot := o, d := .vs, a := .vsi, b := .vsi, c := .prd, uniform := true }
  | .mov o => some { op := 0x04E, slot := o, d := .vs, a := .vsi, uniform := true }
  | .movi o v => some { op := 0x04F, slot := o, imm := some v.toNat, d := .vs }
  | .band o => some { op := 0x050, slot := o, d := .vs, a := .vsi, b := .vsi, uniform := true }
  | .bor o => some { op := 0x051, slot := o, d := .vs, a := .vsi, b := .vsi, uniform := true }
  | .bxor o => some { op := 0x052, slot := o, d := .vs, a := .vsi, b := .vsi, uniform := true }
  | .bnot o => some { op := 0x053, slot := o, d := .vs, a := .vsi, uniform := true }
  | .lop3 o lut => some
      { op := 0x054, slot := o, e := lut.toNat, d := .vs, a := .vsi, b := .vsi, c := .vsi, uniform := true }
  | .shl o wrap => some { op := 0x055, slot := o, m := bitNat wrap, d := .vs, a := .vsi, b := .vsi, uniform := true }
  | .shr o wrap => some { op := 0x056, slot := o, m := bitNat wrap, d := .vs, a := .vsi, b := .vsi, uniform := true }
  | .sar o wrap => some { op := 0x057, slot := o, m := bitNat wrap, d := .vs, a := .vsi, b := .vsi, uniform := true }
  | .shf o right wrap => some
      { op := 0x058, slot := o, m := bitNat right + 2 * bitNat wrap, d := .vs, a := .vsi, b := .vsi, c := .vsi,
        uniform := true }
  | .bfe o u => some { op := 0x059, slot := o, m := bitNat u, d := .vs, a := .vsi, b := .vsi, uniform := true }
  | .bfi o => some { op := 0x05A, slot := o, d := .vs, a := .vsi, b := .vsi, c := .vsi, uniform := true }
  | .brev o => some { op := 0x05B, slot := o, d := .vs, a := .vsi, uniform := true }
  | .popc o => some { op := 0x05C, slot := o, d := .vs, a := .vsi, uniform := true }
  | .clz o => some { op := 0x05D, slot := o, d := .vs, a := .vsi, uniform := true }
  | .ctz o => some { op := 0x05E, slot := o, d := .vs, a := .vsi, uniform := true }
  | .prmt o => some { op := 0x05F, slot := o, d := .vs, a := .vsi, b := .vsi, c := .vsi, uniform := true }
  | .lea o n u chk => some
      { op := 0x060, slot := o, m := n.toNat + 8 * bitNat u + 16 * bitNat chk, d := .vsPair, a := .vsPair,
        b := .vsi, uniform := true }
  | .cvti o td ts sat => some
      { op := 0x061, slot := o, m := td.code + 8 * ts.code + 64 * bitNat sat,
        d := (if td.is64 then .vsPair else .vs), a := (if ts.is64 then .vsiPair else .vsi), uniform := true }
  | .iaddw o u sat cc => some
      { op := 0x062, slot := o, m := bitNat u + 2 * bitNat sat + 4 * bitNat cc, d := .vsPair, a := .vsiPair,
        b := .vsiPair, c := (if cc then .prd else .no), uniform := true, cOut := true, preds := o.c.prdList }
  | .isubw o u sat cc => some
      { op := 0x063, slot := o, m := bitNat u + 2 * bitNat sat + 4 * bitNat cc, d := .vsPair, a := .vsiPair,
        b := .vsiPair, c := (if cc then .prd else .no), uniform := true, cOut := true, preds := o.c.prdList }
  | .imulw o => some { op := 0x064, slot := o, d := .vsPair, a := .vsiPair, b := .vsiPair, uniform := true }
  | .imadx o u => some
      { op := 0x065, slot := o, m := bitNat u, d := .vsPair, a := .vsi, b := .vsi, c := .vsiPair, uniform := true }
  | .icmpw o cond u comb => some
      { op := 0x066, slot := o, m := cond.code + 8 * bitNat u + 16 * comb.code, d := .prd, a := .vsiPair,
        b := .vsiPair, c := (if comb = .none then .no else .prd) }
  | .shlw o wrap => some
      { op := 0x067, slot := o, m := bitNat wrap, d := .vsPair, a := .vsiPair, b := .vsi, uniform := true }
  | .shrw o wrap => some
      { op := 0x068, slot := o, m := bitNat wrap, d := .vsPair, a := .vsiPair, b := .vsi, uniform := true }
  | .sarw o wrap => some
      { op := 0x069, slot := o, m := bitNat wrap, d := .vsPair, a := .vsiPair, b := .vsi, uniform := true }
  | .movw o => some { op := 0x06A, slot := o, d := .vsPair, a := .vsiPair, uniform := true }
  | .fadd o rm ftz na nb => some
      { op := 0x0C0, slot := o, m := rm.code + 8 * bitNat ftz + 32 * bitNat na + 64 * bitNat nb, d := .vs,
        a := .vsi, b := .vsi, c := (if rm = .rs then .vsi else .no), uniform := true }
  | .fmul o rm ftz na nb => some
      { op := 0x0C1, slot := o, m := rm.code + 8 * bitNat ftz + 32 * bitNat na + 64 * bitNat nb, d := .vs,
        a := .vsi, b := .vsi, c := (if rm = .rs then .vsi else .no), uniform := true }
  | .ffma o rm ftz na nc => some
      { op := 0x0C2, slot := o, m := rm.code + 8 * bitNat ftz + 32 * bitNat na + 64 * bitNat nc, d := .vs,
        a := .vsi, b := .vsi, c := .vsi, n := (if rm = .rs then .vsi else .no), eN := true, uniform := true }
  | .fmin o nanp ftz => some
      { op := 0x0C3, slot := o, m := bitNat nanp + 8 * bitNat ftz, d := .vs, a := .vsi, b := .vsi, uniform := true }
  | .fmax o nanp ftz => some
      { op := 0x0C4, slot := o, m := bitNat nanp + 8 * bitNat ftz, d := .vs, a := .vsi, b := .vsi, uniform := true }
  | .fcmp o cond ftz comb => some
      { op := 0x0C5, slot := o, m := cond.code + 8 * bitNat ftz + 16 * comb.code, d := .prd, a := .vsi, b := .vsi,
        c := (if comb = .none then .no else .prd) }
  | .frnd o rm ftz => some
      { op := 0x0C6, slot := o, m := rm.code + 8 * bitNat ftz, d := .vs, a := .vsi, legal := rm != .rs,
        uniform := true }
  | .fclass o f64 => some
      { op := 0x0C7, slot := o, m := bitNat f64, d := .vs, a := (if f64 then .vsPair else .vs), uniform := true }
  | .fdiv o rm ftz => some
      { op := 0x0C8, slot := o, m := rm.code + 8 * bitNat ftz, d := .vs, a := .vsi, b := .vsi,
        c := (if rm = .rs then .vsi else .no), uniform := true }
  | .frcp o rm ftz => some
      { op := 0x0C9, slot := o, m := rm.code + 8 * bitNat ftz, d := .vs, a := .vsi,
        c := (if rm = .rs then .vsi else .no), uniform := true }
  | .frsq o rm ftz => some
      { op := 0x0CA, slot := o, m := rm.code + 8 * bitNat ftz, d := .vs, a := .vsi,
        c := (if rm = .rs then .vsi else .no), uniform := true }
  | .fsqrt o rm ftz => some
      { op := 0x0CB, slot := o, m := rm.code + 8 * bitNat ftz, d := .vs, a := .vsi,
        c := (if rm = .rs then .vsi else .no), uniform := true }
  | .fexp2 o ftz => some { op := 0x0CC, slot := o, m := 8 * bitNat ftz, d := .vs, a := .vsi, uniform := true }
  | .flog2 o ftz => some { op := 0x0CD, slot := o, m := 8 * bitNat ftz, d := .vs, a := .vsi, uniform := true }
  | .fsin o ftz => some { op := 0x0CE, slot := o, m := 8 * bitNat ftz, d := .vs, a := .vsi, uniform := true }
  | .fcos o ftz => some { op := 0x0CF, slot := o, m := 8 * bitNat ftz, d := .vs, a := .vsi, uniform := true }
  | .dadd o rm na nb => some
      { op := 0x0D0, slot := o, m := rm.code + 32 * bitNat na + 64 * bitNat nb, d := .vsPair, a := .vsiPair,
        b := .vsiPair, c := (if rm = .rs then .vsi else .no), uniform := true }
  | .dmul o rm na nb => some
      { op := 0x0D1, slot := o, m := rm.code + 32 * bitNat na + 64 * bitNat nb, d := .vsPair, a := .vsiPair,
        b := .vsiPair, c := (if rm = .rs then .vsi else .no), uniform := true }
  | .dfma o rm na nc => some
      { op := 0x0D2, slot := o, m := rm.code + 32 * bitNat na + 64 * bitNat nc, d := .vsPair, a := .vsiPair,
        b := .vsiPair, c := .vsiPair, n := (if rm = .rs then .vsi else .no), eN := true, uniform := true }
  | .dcmp o cond comb => some
      { op := 0x0D3, slot := o, m := cond.code + 16 * comb.code, d := .prd, a := .vsiPair, b := .vsiPair,
        c := (if comb = .none then .no else .prd) }
  | .hadd2 o rm ftz bf na nb => some
      { op := 0x0D4, slot := o, m := rm.code + 8 * bitNat ftz + 16 * bitNat bf + 32 * bitNat na + 64 * bitNat nb,
        d := .vs, a := .vs, b := .vs, legal := rm != .rs, uniform := true }
  | .hmul2 o rm ftz bf na nb => some
      { op := 0x0D5, slot := o, m := rm.code + 8 * bitNat ftz + 16 * bitNat bf + 32 * bitNat na + 64 * bitNat nb,
        d := .vs, a := .vs, b := .vs, legal := rm != .rs, uniform := true }
  | .hfma2 o rm ftz bf na nc => some
      { op := 0x0D6, slot := o, m := rm.code + 8 * bitNat ftz + 16 * bitNat bf + 32 * bitNat na + 64 * bitNat nc,
        d := .vs, a := .vs, b := .vs, c := .vs, legal := rm != .rs, uniform := true }
  | .hmnx2 o max nanp ftz bf => some
      { op := 0x0D7, slot := o, m := bitNat max + 2 * bitNat nanp + 8 * bitNat ftz + 16 * bitNat bf, d := .vs,
        a := .vs, b := .vs, uniform := true }
  | .fdp4 o rm ftz ta tb => some
      { op := 0x0D8, slot := o, m := rm.code + 8 * bitNat ftz + 32 * bitNat ta + 64 * bitNat tb, d := .vs,
        a := .vs, b := .vs, c := .vsi, n := (if rm = .rs then .vsi else .no), eN := true, uniform := true }
  | .cvt o rm ftz satf td ts => some
      { op := 0x0D9, slot := o, m := rm.code + 8 * bitNat ftz + 16 * bitNat satf, e := td.code + 16 * ts.code,
        d := (.floatD td), a := (.floatA ts), c := (if rm = .rs then .vsi else .no), uniform := true }
  | .cvtfi o rm ftz ti tf => some
      { op := 0x0DA, slot := o, m := rm.code + 8 * bitNat ftz, e := ti.code + 16 * tf.code,
        d := (if ti.is64 then .vsPair else .vs), a := (.floatA tf), c := (if rm = .rs then .vsi else .no),
        legal := tf != .e8m0, uniform := true }
  | .cvtif o rm satf tf ti => some
      { op := 0x0DB, slot := o, m := rm.code + 16 * bitNat satf, e := tf.code + 16 * ti.code, d := (.floatD tf),
        a := (if ti.is64 then .vsiPair else .vsi), c := (if rm = .rs then .vsi else .no), legal := tf != .e8m0,
        uniform := true }
  | .pack o rm ftz satf td pos => some
      { op := 0x0DC, slot := o, m := rm.code + 8 * bitNat ftz + 16 * bitNat satf, e := td.code + 16 * pos.toNat,
        d := .vs, a := .vsi, b := .vsi, c := (if td = .f16 || td = .bf16 then .no else .vsi),
        legal := packLegal rm td pos, uniform := true }
  | .xadd o ta ftz => some
      { op := 0x0DD, slot := o, m := ta.code + 8 * bitNat ftz, d := (.vrun 10), a := (.vrun 10),
        b := (if ta = .f32 || ta = .s32 then .vsi else .vs), legal := ta != .xa, cross := runsApart o.d o.a }
  | .xrnd o rm ftz satf td => some
      { op := 0x0DE, slot := o, m := rm.code + 8 * bitNat ftz + 16 * bitNat satf, e := td.code, d := (.floatD td),
        a := (.vrun 10), c := (if rm = .rs then .vsi else .no), legal := td != .e8m0, uniform := true }
  | .xcmb o sub => some
      { op := 0x0DF, slot := o, m := bitNat sub, d := (.vrun 10), a := (.vrun 10), b := (.vrun 10),
        cross := runsApart o.d o.a && runsApart o.d o.b }
  | .xchk o test => some { op := 0x0E0, slot := o, m := test.code, d := .prd, a := (.vrun 10) }
  | .shfl o mode wc rot q => some
      { op := 0x140, slot := o, m := mode.code + 4 * wc.toNat + 32 * bitNat rot, e := optQCode q, d := .vec,
        a := .vec, b := .vsi, legal := !rot || mode == .back || mode == .fwd, preds := optQList q }
  | .rdlane o => some { op := 0x141, slot := o, d := .vs, a := .vec, b := .si }
  | .wrlane o => some { op := 0x142, slot := o, d := .vec, a := .si, b := .si }
  | .ballot o k => some { op := 0x143, slot := o, m := k.toNat, d := .vs, a := .prd }
  | .vote o mode => some { op := 0x144, slot := o, m := mode.code, d := .prd, a := .prd }
  | .vmatch o w64 cnt q => some
      { op := 0x145, slot := o, m := bitNat w64 + 2 * bitNat cnt, e := optQCode q, d := .vec,
        a := (if w64 then .vPair else .vec), preds := optQList q }
  | .pscan o op t incl ftz => some
      { op := 0x146, slot := o, m := op.code + 8 * t.code + 32 * bitNat incl + 64 * bitNat ftz, d := .vec,
        a := .vec, legal := laneLegal op t && (t == .f32 || !ftz) }
  | .redux o op t ex ftz => some
      { op := 0x147, slot := o, m := op.code + 8 * t.code + 32 * bitNat ex + 64 * bitNat ftz, d := .vs, a := .vec,
        legal := laneLegal op t && (t == .f32 || !ftz) && (!ex || (t == .f32 && op == .add)) }
  | .compact o q => some
      { op := 0x148, slot := o, e := optQCode q, d := .vec, a := .vec, b := .prd, preds := optQList q }
  | .ld o size acq tag => some
      { op := 0x180, slot := o, m := size.code + 8 * bitNat acq.isSome + 16 * bitNat tag, e := optScopeCode acq,
        d := (.ldData size tag), a := .vsPair, c := .vsi, uniform := true, long := true }
  | .st o size rel => some
      { op := 0x181, slot := o, m := size.code + 8 * bitNat rel.isSome, e := optScopeCode rel, a := .vsPair,
        b := (.stData size), c := .vsi }
  | .atom o op u w64 rtn ord scope tag => some
      { op := 0x182, slot := o, m := op.code + 16 * bitNat u + 32 * bitNat w64 + 64 * bitNat rtn,
        e := ord.code + 4 * scope.code + 32 * bitNat tag,
        d := (if rtn then .tagged (if w64 then .vsPair else .vs) tag else .no), a := .vsPair,
        b := (if w64 then .vsPair else .vsi), c := .vsi, legal := atomLegal op u w64 rtn ord scope tag,
        uniform := true, long := rtn }
  | .atomc o width ord scope tag q => some
      { op := 0x183, slot := o, m := width.code,
        e := ord.code + 4 * scope.code + 32 * bitNat tag + 64 * optQCode q, d := (.tagged (.casReg width) tag),
        a := .vsPair, b := (.casData width), c := (.casData width), legal := (ord != .rlx || scope == .team),
        uniform := true, long := true, preds := optQList q }
  | .atomx o ta ord scope => some
      { op := 0x184, slot := o, m := ta.code, e := ord.code + 4 * scope.code, a := .vsPair,
        b := (if ta = .xa then .vrun 10 else if ta = .f32 || ta = .s32 then .vsi else .vs), c := .vsi,
        legal := (ord != .rlx || scope == .team) && (ord == .rlx || ord == .rel) }
  | .atomv o op u rtn ord scope => some
      { op := 0x185, slot := o, m := op.code + 8 * bitNat u + 16 * bitNat rtn, e := ord.code + 4 * scope.code,
        d := (if rtn then .vsrun 4 else .no), a := .vsPair, b := (.vsrun 4), c := .vsi,
        legal := (ord != .rlx || scope == .team) && (!u || op == .add || op == .min || op == .max) && (rtn || ord == .rlx || ord == .rel), uniform := true, long := rtn }
  | .ldfut o w64 scope => some
      { op := 0x186, slot := o, m := bitNat w64, e := 4 * scope.code, d := (if w64 then .vsPair else .vs),
        a := .vsPair, c := .vsi, uniform := true, long := true }
  | .stfut o w64 scope => some
      { op := 0x187, slot := o, m := bitNat w64, e := 4 * scope.code, a := .vsPair,
        b := (if w64 then .vsPair else .vsi), c := .vsi }
  | .futrst o => some { op := 0x188, slot := o, a := .vsPair, c := .vsi }
  | .lds o size fe lvl off => some
      { op := 0x200, slot := o, m := size.code + 8 * fe.code + 32 * lvl.code, imm := some off.toNat,
        d := (.ldData size false), a := .vsi, legal := size != .xa, uniform := true, long := true }
  | .sts o size fe lvl off => some
      { op := 0x201, slot := o, m := size.code + 8 * fe.code + 32 * lvl.code, imm := some off.toNat, a := .vsi,
        b := (.stData size), legal := size != .xa }
  | .atoms o op u w64 rtn lvl => some
      { op := 0x202, slot := o, m := op.code + 16 * bitNat u + 32 * bitNat w64 + 64 * bitNat rtn, e := lvl.code,
        d := (if rtn then (if w64 then .vsPair else .vs) else .no), a := .vsi,
        b := (if w64 then .vsiPair else .vsi), c := (if op = .cas then (if w64 then .vsiPair else .vsi) else .no),
        legal := op != .fadd || (!u && !w64), uniform := true, long := rtn }
  | .tmov o sk dk bdone nb => some
      { op := 0x203, slot := o, m := sk.code + 8 * dk.code + 64 * bitNat bdone, e := optQCode nb, d := .scl,
        a := (if sk = .g then .sPair else .scl), b := (if dk = .g then .sPair else .scl), c := (.srun 3),
        legal := !(sk == dk && (sk == .g || sk == .col)), long := true }
  | .bufdec o => some { op := 0x204, slot := o, a := .si, b := (.srun 4) }
  | .bufdecDrop o => some { op := 0x204, slot := o, m := 1, a := .si }
  | .bufsetFill o => some { op := 0x205, slot := o, a := .si, b := .si }
  | .bufsetDrain o => some { op := 0x205, slot := o, m := 1, a := .si, b := .si }
  | .bufsetReset o => some { op := 0x205, slot := o, m := 2, a := .si }
  | .bufqry o state nb => some { op := 0x206, slot := o, m := state.code + 4 * nb.toNat, a := .si }
  | .mapr o lvl k => some { op := 0x207, slot := o, m := lvl.code + 4 * k.toNat, a := .si, b := .sPair, c := .scl }
  | .unmapr o k => some { op := 0x208, slot := o, m := k.toNat }
  | .flushr o k => some { op := 0x209, slot := o, m := k.toNat }
  | .feset o full lvl => some { op := 0x20A, slot := o, m := bitNat full + 2 * lvl.code, a := .vsi, b := .si }
  | .feqry o lvl => some { op := 0x20B, slot := o, m := lvl.code, d := .vs, a := .vsi, uniform := true, long := true }
  | .msub o t pri => some
      { op := 0x280, slot := o, m := t.toNat + 32 * pri.toNat, a := .si, b := .sRunOrImm, pool := .array }
  | .mrd o n => some
      { op := 0x281, slot := o, m := n.toNat, d := (.vrun (n.toNat + 1)), a := .si, b := .si, long := true,
        pool := .array }
  | .mwm o => some { op := 0x282, slot := o, a := .si, pool := .array }
  | .mlda o clus off => some
      { op := 0x290, slot := o, m := bitNat clus, imm := some off.toNat, a := .mimm, b := .mimm, pool := .stream }
  | .mldb o off => some { op := 0x291, slot := o, imm := some off.toNat, a := .mimm, pool := .stream }
  | .mma o ta tb last => some
      { op := 0x292, slot := o, m := ta.code + 8 * tb.code + 64 * bitNat last, a := .mimm, b := .mimm,
        legal := mmaLegal ta tb, pool := .stream }
  | .msclOff o => some { op := 0x293, slot := o, pool := .stream }
  | .mscl o clus => some
      { op := 0x293, slot := o, m := 1 + bitNat clus, a := .mimm, b := .mimm, c := .mimm, pool := .stream }
  | .msto o lvl td satf => some
      { op := 0x294, slot := o, m := lvl.code + 4 * td.code + 32 * bitNat satf, a := .mimm, b := .mimm, c := .mimm,
        legal := !(satf && td == .f32), pool := .stream }
  | .mzero o => some { op := 0x295, slot := o, a := .mimm, pool := .stream }
  | .mloopDec o t => some { op := 0x296, slot := o, imm := some t.toNat, d := .mreg, pool := .stream }
  | .mloopAdd o v => some
      { op := 0x296, slot := o, m := 1, imm := some v.toNat, d := .mreg, a := .mimm, pool := .stream }
  | .mbarw o nb => some { op := 0x297, slot := o, m := nb.toNat, a := .mimm, pool := .stream }
  | .mbara o nb => some { op := 0x298, slot := o, m := nb.toNat, pool := .stream }
  | .mend o => some { op := 0x299, slot := o, pool := .stream }
  | .emitPrim o cullb => some
      { op := 0x2C0, slot := o, m := 4 * bitNat cullb, a := (.vrun 9), b := .vPair, c := .si, pool := .helm }
  | .emitOpen o => some { op := 0x2C0, slot := o, m := 1, a := .si, b := (.srun 4), pool := .helm }
  | .emitClose o => some { op := 0x2C0, slot := o, m := 2, a := .si, pool := .helm }
  | .vbldLat o => some { op := 0x2C1, slot := o, d := .sPair, a := .si, b := .sPair, long := true }
  | .vbldSet o => some
      { op := 0x2C1, slot := o, m := 1, d := .sPair, a := .si, b := .sPair, c := .sPair, long := true }
  | .classify o clus => some { op := 0x2C2, slot := o, m := bitNat clus, a := .si, b := .sPair, pool := .helm }
  | .sample o lvl lin => some
      { op := 0x2C3, slot := o, m := lvl.code + 4 * bitNat lin, d := (.vrun 4), a := (.vrun 2), b := (.srun 4),
        long := true, pool := .array }
  | .chartxf o inv y => some
      { op := 0x2C4, slot := o, m := bitNat inv + 2 * bitNat y, d := .vs, a := .vsi, b := .si }
  | .tileout o clus => some { op := 0x2C5, slot := o, m := bitNat clus, a := .si, b := (.srun 3), pool := .array }
  | .raybatOpen o => some { op := 0x2D0, slot := o, a := .si, b := .sPair }
  | .raybatClose o => some { op := 0x2D0, slot := o, m := 1, a := .si }
  | .raygen o => some { op := 0x2D1, slot := o, a := .sPair, b := (.srun 4) }
  | .rayput o => some { op := 0x2D2, slot := o, a := (.vrun 8), b := (.vrun 5), c := .si }
  | .rayqryCnt o => some { op := 0x2D3, slot := o, d := .sPair, a := .si, long := true }
  | .rayqryWait o => some { op := 0x2D3, slot := o, m := 1, d := .sPair, a := .si, long := true }
  | .spawn o n => some { op := 0x300, slot := o, m := n.toNat, a := (.vrun (n.toNat + 1)), b := .si }
  | .launchQ o seq => some { op := 0x301, slot := o, imm := some seq.toNat, a := .sPair, b := .scl }
  | .launchWg o => some { op := 0x301, slot := o, m := 1, a := .sPair }
  | .recalloc o => some { op := 0x302, slot := o, d := .vPair, a := .vsi, long := true }
  | .reccommit o => some { op := 0x303, slot := o, a := .vPair }
  | .rinv o n pri trp s k8 => some
      { op := 0x310, slot := o, m := n.toNat, e := pri.toNat + 4 * bitNat trp + 8 * s.toNat + 8192 * k8.toNat,
        d := .vec, a := (.vrun (n.toNat + 1)), b := .vs, c := .vs, legal := k8.toNat ≤ 8 && (k8 != 0 || s == 0),
        long := true, srun := some (s.toNat, 2 * k8.toNat) }
  | .put o n w => some
      { op := 0x311, slot := o, m := n.toNat, e := w.toNat, a := (.vrun (n.toNat + 1)), b := .vs, c := .vs }
  | .wcnt o kind => some { op := 0x312, slot := o, m := kind.code, d := .vs, a := .si, b := .si, long := true }
  | .fence o ord scope => some { op := 0x340, slot := o, m := ord.code + 4 * scope.code, legal := ord != .rlx }
  | .barinit o scope clus => some
      { op := 0x341, slot := o, m := scope.code + 8 * bitNat clus, a := .si, b := .si, legal := scope != .sys }
  | .bararr o obj drop wait => some
      { op := 0x342, slot := o, m := bitNat obj + 2 * bitNat drop + 4 * bitNat wait,
        a := (if obj then .scl else .si), b := .si }
  | .barwait o obj cur => some
      { op := 0x343, slot := o, m := bitNat obj + 2 * bitNat cur, a := (if obj then .scl else .si) }
  | .barrel o => some { op := 0x344, slot := o, a := .scl }
  | .nbarSet o => some { op := 0x345, slot := o, a := .si, b := .si }
  | .waitm o kind => some
      { op := 0x346, slot := o, m := kind.code, a := (if kind = .slots then .no else .si),
        b := (if kind = .free then .no else .si) }
  | .clauseStart _ => none
  | .issueWaitEnd _ => none
  | .activeTimeExpiry _ => none
  | .sleepcExpiry _ => none
  | .flagCompletion _ => none
  | .writeAcknowledged _ => none
  | .silentCheckReplay _ _ => none
  | .homeSliceLineAction _ _ => none
  | .futureWalk _ => none
  | .deferredRecordGrant _ => none
  | .prqrespRetry _ _ => none
  | .prqrespFail _ _ => none
  | .prqtailWrite _ _ => none
  | .invalidateGo _ _ => none
  | .invalidateDone _ => none
  | .createContext _ _ => none
  | .destroyContext _ _ => none
  | .createQueue _ _ => none
  | .destroyQueue _ _ => none
  | .queueCommandDone _ => none
  | .tail _ _ _ => none
  | .skip _ _ => none
  | .stop _ _ => none
  | .queueFetch _ _ => none
  | .graphCheck _ _ => none
  | .nodeStart _ _ => none
  | .nodeComplete _ _ => none
  | .waitNodePoll _ _ => none
  | .launchQAppend _ _ => none
  | .gangServed _ _ => none
  | .codeLoadComplete _ => none
  | .placementHold _ => none
  | .wgLaunchAccept _ => none
  | .blockTimeoutSeal _ _ _ => none
  | .invReceived _ => none
  | .putReceived _ => none
  | .putLanded _ => none
  | .replyReceived _ => none
  | .retransmitTimeout _ => none
  | .packetForward _ => none
  | .landSlotFill _ _ => none
  | .handlerBatchLaunch _ _ => none
  | .tileMoveComplete _ => none
  | .regionFill _ _ _ => none
  | .writeBackComplete _ _ _ => none
  | .arbiterGrant _ => none
  | .passEnd _ => none
  | .tileCommit _ => none
  | .submissionComplete _ => none
  | .columnStoreGrant _ _ _ _ => none
  | .grantZeroDone _ => none
  | .primitiveBinned _ => none
  | .tileResolve _ _ => none
  | .classifyComplete _ => none
  | .brgsy _ _ => none
  | .bearingLatch _ => none
  | .stripDeadline _ => none
  | .stripScan _ => none
  | .tileoutComplete _ => none
  | .scanEnable _ _ => none
  | .scanDisable _ _ => none
  | .batchOpenDone _ => none
  | .rayAdmit _ => none
  | .rayPassChoose _ => none
  | .rayPass _ => none
  | .rayBatchComplete _ _ => none
  | .rayRecordCommit _ _ => none
  | .groupRetire _ => none
  | .teamRetire _ => none
  | .trapEnter _ => none
  | .engineStop _ _ _ => none
  | .haltcmdClear _ _ => none
  | .contextSave _ _ => none
  | .drainTimeout _ => none
  | .contextSaveDone _ => none
  | .contextRestore _ _ => none
  | .dropgo _ _ => none
  | .dropComplete _ => none
  | .commit _ => none
  | .apply _ => none
  | .governorThrottle _ _ => none
  | .sensorSample _ _ _ => none
  | .moduleReset _ _ => none
  | .bootStageTimeout _ => none
  | .flashImageWrite _ _ _ => none
  | .fscClear => none
  | .eventLogRead _ => none
  | .getVersion => none
  | .getCapabilities => none
  | .negotiateAlgorithms _ => none
  | .getDigests => none
  | .getCertificate _ _ => none
  | .challenge _ => none
  | .getMeasurements _ => none
  | .hostMemoryRequest _ _ _ _ => none
  | .wakeWrite _ _ _ => none
  | .fabricEnable _ _ => none
  | .routeWrite _ _ _ => none
  | .flitReceived _ _ _ => none
  | .linkDown _ => none
  | .registerWrite _ _ _ => none
  | .nonInstructionIssue _ => none
  | .linkUp _ => none
  | .powerFail => none
  | .hbmTestPath _ _ => none
  | .vfEnable _ => none

end Sys2Proof
end

