-- ==== Sys2Proof/WellFormed.lean ====
section
/-!
DEFINITION. When an instruction is one the spec lists: its modifiers in a combination its entry gives, its operands of
the classes and within the limits the entry accepts (R37 to R39), and the units a step names existing ones.
-/

namespace Sys2Proof


/-- Whether the unit numbers of a step exist: 8 partitions, 16 views, 12 links, 64 clusters, 8 stacks, 2 dies, 4,096
chips (R10, R11, R298, R426). An instruction of a program names none. -/
def Instr.unitsOk : Instr → Bool
  | .nop _ => true
  | .bra _ _ => true
  | .bri _ => true
  | .call _ _ => true
  | .calli _ => true
  | .ret _ => true
  | .exit _ => true
  | .yield _ => true
  | .trap _ _ => true
  | .swiWake _ => true
  | .swiClear _ => true
  | .swiMgmt _ => true
  | .bkpt _ _ => true
  | .getsr _ => true
  | .setsr _ => true
  | .sleepc _ => true
  | .waitc _ _ => true
  | .plop _ _ => true
  | .pmovGet _ => true
  | .pmovSet _ _ => true
  | .iadd _ _ _ _ => true
  | .isub _ _ _ _ => true
  | .iadd3 _ _ _ => true
  | .iaddc _ _ => true
  | .imul _ _ _ => true
  | .imulh _ _ => true
  | .imad _ _ _ => true
  | .isad _ _ => true
  | .imin _ _ => true
  | .imax _ _ => true
  | .iabs _ _ => true
  | .ineg _ _ => true
  | .icmp _ _ _ _ => true
  | .isel _ => true
  | .mov _ => true
  | .movi _ _ => true
  | .band _ => true
  | .bor _ => true
  | .bxor _ => true
  | .bnot _ => true
  | .lop3 _ _ => true
  | .shl _ _ => true
  | .shr _ _ => true
  | .sar _ _ => true
  | .shf _ _ _ => true
  | .bfe _ _ => true
  | .bfi _ => true
  | .brev _ => true
  | .popc _ => true
  | .clz _ => true
  | .ctz _ => true
  | .prmt _ => true
  | .lea _ _ _ _ => true
  | .cvti _ _ _ _ => true
  | .iaddw _ _ _ _ => true
  | .isubw _ _ _ _ => true
  | .imulw _ => true
  | .imadx _ _ => true
  | .icmpw _ _ _ _ => true
  | .shlw _ _ => true
  | .shrw _ _ => true
  | .sarw _ _ => true
  | .movw _ => true
  | .fadd _ _ _ _ _ => true
  | .fmul _ _ _ _ _ => true
  | .ffma _ _ _ _ _ => true
  | .fmin _ _ _ => true
  | .fmax _ _ _ => true
  | .fcmp _ _ _ _ => true
  | .frnd _ _ _ => true
  | .fclass _ _ => true
  | .fdiv _ _ _ => true
  | .frcp _ _ _ => true
  | .frsq _ _ _ => true
  | .fsqrt _ _ _ => true
  | .fexp2 _ _ => true
  | .flog2 _ _ => true
  | .fsin _ _ => true
  | .fcos _ _ => true
  | .dadd _ _ _ _ => true
  | .dmul _ _ _ _ => true
  | .dfma _ _ _ _ => true
  | .dcmp _ _ _ => true
  | .hadd2 _ _ _ _ _ _ => true
  | .hmul2 _ _ _ _ _ _ => true
  | .hfma2 _ _ _ _ _ _ => true
  | .hmnx2 _ _ _ _ _ => true
  | .fdp4 _ _ _ _ _ => true
  | .cvt _ _ _ _ _ _ => true
  | .cvtfi _ _ _ _ _ => true
  | .cvtif _ _ _ _ _ => true
  | .pack _ _ _ _ _ _ => true
  | .xadd _ _ _ => true
  | .xrnd _ _ _ _ _ => true
  | .xcmb _ _ => true
  | .xchk _ _ => true
  | .shfl _ _ _ _ _ => true
  | .rdlane _ => true
  | .wrlane _ => true
  | .ballot _ _ => true
  | .vote _ _ => true
  | .vmatch _ _ _ _ => true
  | .pscan _ _ _ _ _ => true
  | .redux _ _ _ _ _ => true
  | .compact _ _ => true
  | .ld _ _ _ _ => true
  | .st _ _ _ => true
  | .atom _ _ _ _ _ _ _ _ => true
  | .atomc _ _ _ _ _ _ => true
  | .atomx _ _ _ _ => true
  | .atomv _ _ _ _ _ _ => true
  | .ldfut _ _ _ => true
  | .stfut _ _ _ => true
  | .futrst _ => true
  | .lds _ _ _ _ _ => true
  | .sts _ _ _ _ _ => true
  | .atoms _ _ _ _ _ _ => true
  | .tmov _ _ _ _ _ => true
  | .bufdec _ => true
  | .bufdecDrop _ => true
  | .bufsetFill _ => true
  | .bufsetDrain _ => true
  | .bufsetReset _ => true
  | .bufqry _ _ _ => true
  | .mapr _ _ _ => true
  | .unmapr _ _ => true
  | .flushr _ _ => true
  | .feset _ _ _ => true
  | .feqry _ _ => true
  | .msub _ _ _ => true
  | .mrd _ _ => true
  | .mwm _ => true
  | .mlda _ _ _ => true
  | .mldb _ _ => true
  | .mma _ _ _ _ => true
  | .msclOff _ => true
  | .mscl _ _ => true
  | .msto _ _ _ _ => true
  | .mzero _ => true
  | .mloopDec _ _ => true
  | .mloopAdd _ _ => true
  | .mbarw _ _ => true
  | .mbara _ _ => true
  | .mend _ => true
  | .emitPrim _ _ => true
  | .emitOpen _ => true
  | .emitClose _ => true
  | .vbldLat _ => true
  | .vbldSet _ => true
  | .classify _ _ => true
  | .sample _ _ _ => true
  | .chartxf _ _ _ => true
  | .tileout _ _ => true
  | .raybatOpen _ => true
  | .raybatClose _ => true
  | .raygen _ => true
  | .rayput _ => true
  | .rayqryCnt _ => true
  | .rayqryWait _ => true
  | .spawn _ _ => true
  | .launchQ _ _ => true
  | .launchWg _ => true
  | .recalloc _ => true
  | .reccommit _ => true
  | .rinv _ _ _ _ _ _ => true
  | .put _ _ _ => true
  | .wcnt _ _ => true
  | .fence _ _ _ => true
  | .barinit _ _ _ => true
  | .bararr _ _ _ _ => true
  | .barwait _ _ _ => true
  | .barrel _ => true
  | .nbarSet _ => true
  | .waitm _ _ => true
  | .clauseStart _ => true
  | .issueWaitEnd _ => true
  | .activeTimeExpiry _ => true
  | .sleepcExpiry _ => true
  | .flagCompletion _ => true
  | .writeAcknowledged _ => true
  | .silentCheckReplay _ _ => true
  | .homeSliceLineAction _ _ => true
  | .futureWalk _ => true
  | .deferredRecordGrant _ => true
  | .prqrespRetry part _ => decide (part < 8)
  | .prqrespFail part _ => decide (part < 8)
  | .prqtailWrite part _ => decide (part < 8)
  | .invalidateGo part _ => decide (part < 8)
  | .invalidateDone part => decide (part < 8)
  | .createContext part _ => decide (part < 8)
  | .destroyContext part _ => decide (part < 8)
  | .createQueue part _ => decide (part < 8)
  | .destroyQueue part _ => decide (part < 8)
  | .queueCommandDone part => decide (part < 8)
  | .tail part _ _ => decide (part < 8)
  | .skip part _ => decide (part < 8)
  | .stop part _ => decide (part < 8)
  | .queueFetch part _ => decide (part < 8)
  | .graphCheck part _ => decide (part < 8)
  | .nodeStart part _ => decide (part < 8)
  | .nodeComplete part _ => decide (part < 8)
  | .waitNodePoll part _ => decide (part < 8)
  | .launchQAppend part _ => decide (part < 8)
  | .gangServed _ _ => true
  | .codeLoadComplete _ => true
  | .placementHold _ => true
  | .wgLaunchAccept _ => true
  | .blockTimeoutSeal _ _ _ => true
  | .invReceived _ => true
  | .putReceived _ => true
  | .putLanded _ => true
  | .replyReceived _ => true
  | .retransmitTimeout _ => true
  | .packetForward _ => true
  | .landSlotFill part _ => decide (part < 8)
  | .handlerBatchLaunch part _ => decide (part < 8)
  | .tileMoveComplete _ => true
  | .regionFill _ _ _ => true
  | .writeBackComplete _ _ _ => true
  | .arbiterGrant cluster => decide (cluster < 64)
  | .passEnd cluster => decide (cluster < 64)
  | .tileCommit cluster => decide (cluster < 64)
  | .submissionComplete _ => true
  | .columnStoreGrant part cluster _ _ => decide (part < 8) && decide (cluster < 64)
  | .grantZeroDone part => decide (part < 8)
  | .primitiveBinned _ => true
  | .tileResolve _ _ => true
  | .classifyComplete _ => true
  | .brgsy view _ => decide (view < 16)
  | .bearingLatch view => decide (view < 16)
  | .stripDeadline view => decide (view < 16)
  | .stripScan view => decide (view < 16)
  | .tileoutComplete _ => true
  | .scanEnable view _ => decide (view < 16)
  | .scanDisable view _ => decide (view < 16)
  | .batchOpenDone _ => true
  | .rayAdmit _ => true
  | .rayPassChoose cluster => decide (cluster < 64)
  | .rayPass cluster => decide (cluster < 64)
  | .rayBatchComplete die _ => decide (die < 2)
  | .rayRecordCommit die _ => decide (die < 2)
  | .groupRetire _ => true
  | .teamRetire _ => true
  | .trapEnter _ => true
  | .engineStop part _ _ => decide (part < 8)
  | .haltcmdClear part _ => decide (part < 8)
  | .contextSave part _ => decide (part < 8)
  | .drainTimeout _ => true
  | .contextSaveDone part => decide (part < 8)
  | .contextRestore part _ => decide (part < 8)
  | .dropgo part _ => decide (part < 8)
  | .dropComplete part => decide (part < 8)
  | .commit _ => true
  | .apply _ => true
  | .governorThrottle cluster _ => decide (cluster < 64)
  | .sensorSample _ _ _ => true
  | .moduleReset _ _ => true
  | .bootStageTimeout _ => true
  | .flashImageWrite _ _ _ => true
  | .fscClear => true
  | .eventLogRead _ => true
  | .getVersion => true
  | .getCapabilities => true
  | .negotiateAlgorithms _ => true
  | .getDigests => true
  | .getCertificate _ _ => true
  | .challenge _ => true
  | .getMeasurements _ => true
  | .hostMemoryRequest part _ _ _ => decide (part < 8)
  | .wakeWrite part _ _ => decide (part < 8)
  | .fabricEnable part _ => decide (part < 8)
  | .routeWrite part chip _ => decide (part < 8) && decide (chip < 4096)
  | .flitReceived link _ _ => decide (link < 12)
  | .linkDown link => decide (link < 12)
  | .registerWrite part _ _ => decide (part < 8)
  | .nonInstructionIssue _ => true
  | .linkUp link => decide (link < 12)
  | .powerFail => true
  | .hbmTestPath stack _ => decide (stack < 8)
  | .vfEnable _ => true

/-- The word of a program instruction is one of the instruction's encodings (R37 to R39). -/
def Form.wf (f : Form) : Bool := f.legal && f.operandsOk

/-- Whether an instruction is well formed. -/
def Instr.wf (i : Instr) : Bool :=
  i.unitsOk && (match i.form with
    | some f => f.wf
    | none => true)

/-- The instruction has a word: it is a form of one of the 160 operations (R51). -/
def Instr.isProgram (i : Instr) : Bool := i.form.isSome

end Sys2Proof
end

