-- ==== Sys2Proof/Decode.lean ====
section
/-!
DEFINITION. Decoding instruction words (R35 to R39, R50 to R57), total on any bytes, and the encoder. The decoder reads
the modifiers of a word leniently into an instruction and then refuses the word where the encoding table gives that
instruction other fields: one table decides both directions.
-/

namespace Sys2Proof


/-- The control and system operation that OPID, M, E and X name (R51). -/
def partsControl (op m e x : Nat) : Option (Slot → Instr) :=
  match op with
  | 0x000 => some (fun o => .nop o)
  | 0x001 => some (fun o => .bra o (BitVec.ofNat 32 x))
  | 0x002 => some (fun o => .bri o)
  | 0x003 => some (fun o => .call o (BitVec.ofNat 32 x))
  | 0x004 => some (fun o => .calli o)
  | 0x005 => some (fun o => .ret o)
  | 0x006 => some (fun o => .exit o)
  | 0x007 => some (fun o => .yield o)
  | 0x008 => some (fun o => .trap o (BitVec.ofNat 32 x))
  | 0x009 =>
    if m % 4 = 0 then some (fun o => .swiWake o)
    else if m % 4 = 1 then some (fun o => .swiClear o)
    else some (fun o => .swiMgmt o)
  | 0x00A => some (fun o => .bkpt o (BitVec.ofNat 32 x))
  | 0x00B => some (fun o => .getsr o)
  | 0x00C => some (fun o => .setsr o)
  | 0x00D => some (fun o => .sleepc o)
  | 0x00E => (Counter.ofCode (m % 8)).bind fun k => some (fun o => .waitc o k)
  | 0x00F => some (fun o => .plop o (BitVec.ofNat 8 e))
  | 0x010 =>
    if m % 128 = 0 then some (fun o => .pmovGet o)
    else some (fun o => .pmovSet o (BitVec.ofNat 16 x))
  | _ => none

/-- The integer, logic and address operation that OPID, M, E and X name (R51). -/
def partsInteger (op m e x : Nat) : Option (Slot → Instr) :=
  match op with
  | 0x040 => some (fun o => .iadd o (natBit m 0) (natBit m 1) (natBit m 2))
  | 0x041 => some (fun o => .isub o (natBit m 0) (natBit m 1) (natBit m 2))
  | 0x042 => some (fun o => .iadd3 o (natBit m 0) (natBit m 1))
  | 0x043 => some (fun o => .iaddc o (natBit m 2))
  | 0x044 => some (fun o => .imul o (natBit m 0) (natBit m 1))
  | 0x045 => some (fun o => .imulh o (natBit m 0))
  | 0x046 => some (fun o => .imad o (natBit m 0) (natBit m 1))
  | 0x047 => some (fun o => .isad o (natBit m 0))
  | 0x048 => some (fun o => .imin o (natBit m 0))
  | 0x049 => some (fun o => .imax o (natBit m 0))
  | 0x04A => some (fun o => .iabs o (natBit m 1))
  | 0x04B => some (fun o => .ineg o (natBit m 1))
  | 0x04C => (Cond.ofCode (m % 8)).bind fun cond => (Combine.ofCode ((m / 16) % 4)).bind fun comb => some
      (fun o => .icmp o cond (natBit m 3) comb)
  | 0x04D => some (fun o => .isel o)
  | 0x04E => some (fun o => .mov o)
  | 0x04F => some (fun o => .movi o (BitVec.ofNat 32 x))
  | 0x050 => some (fun o => .band o)
  | 0x051 => some (fun o => .bor o)
  | 0x052 => some (fun o => .bxor o)
  | 0x053 => some (fun o => .bnot o)
  | 0x054 => some (fun o => .lop3 o (BitVec.ofNat 8 e))
  | 0x055 => some (fun o => .shl o (natBit m 0))
  | 0x056 => some (fun o => .shr o (natBit m 0))
  | 0x057 => some (fun o => .sar o (natBit m 0))
  | 0x058 => some (fun o => .shf o (natBit m 0) (natBit m 1))
  | 0x059 => some (fun o => .bfe o (natBit m 0))
  | 0x05A => some (fun o => .bfi o)
  | 0x05B => some (fun o => .brev o)
  | 0x05C => some (fun o => .popc o)
  | 0x05D => some (fun o => .clz o)
  | 0x05E => some (fun o => .ctz o)
  | 0x05F => some (fun o => .prmt o)
  | 0x060 => some (fun o => .lea o (BitVec.ofNat 3 m) (natBit m 3) (natBit m 4))
  | 0x061 => (IntTy.ofCode (m % 8)).bind fun td => (IntTy.ofCode ((m / 8) % 8)).bind fun ts => some
      (fun o => .cvti o td ts (natBit m 6))
  | 0x062 => some (fun o => .iaddw o (natBit m 0) (natBit m 1) (natBit m 2))
  | 0x063 => some (fun o => .isubw o (natBit m 0) (natBit m 1) (natBit m 2))
  | 0x064 => some (fun o => .imulw o)
  | 0x065 => some (fun o => .imadx o (natBit m 0))
  | 0x066 => (Cond.ofCode (m % 8)).bind fun cond => (Combine.ofCode ((m / 16) % 4)).bind fun comb => some
      (fun o => .icmpw o cond (natBit m 3) comb)
  | 0x067 => some (fun o => .shlw o (natBit m 0))
  | 0x068 => some (fun o => .shrw o (natBit m 0))
  | 0x069 => some (fun o => .sarw o (natBit m 0))
  | 0x06A => some (fun o => .movw o)
  | _ => none

/-- The floating-point and exact-accumulation operation that OPID, M, E and X name (R51). -/
def partsFloat (op m e _x : Nat) : Option (Slot → Instr) :=
  match op with
  | 0x0C0 => (RMode.ofCode (m % 8)).bind fun rm => some (fun o => .fadd o rm (natBit m 3) (natBit m 5) (natBit m 6))
  | 0x0C1 => (RMode.ofCode (m % 8)).bind fun rm => some (fun o => .fmul o rm (natBit m 3) (natBit m 5) (natBit m 6))
  | 0x0C2 => (RMode.ofCode (m % 8)).bind fun rm => some (fun o => .ffma o rm (natBit m 3) (natBit m 5) (natBit m 6))
  | 0x0C3 => some (fun o => .fmin o (natBit m 0) (natBit m 3))
  | 0x0C4 => some (fun o => .fmax o (natBit m 0) (natBit m 3))
  | 0x0C5 => (FCond.ofCode (m % 8)).bind fun cond => (Combine.ofCode ((m / 16) % 4)).bind fun comb => some
      (fun o => .fcmp o cond (natBit m 3) comb)
  | 0x0C6 => (RMode.ofCode (m % 8)).bind fun rm => some (fun o => .frnd o rm (natBit m 3))
  | 0x0C7 => some (fun o => .fclass o (natBit m 0))
  | 0x0C8 => (RMode.ofCode (m % 8)).bind fun rm => some (fun o => .fdiv o rm (natBit m 3))
  | 0x0C9 => (RMode.ofCode (m % 8)).bind fun rm => some (fun o => .frcp o rm (natBit m 3))
  | 0x0CA => (RMode.ofCode (m % 8)).bind fun rm => some (fun o => .frsq o rm (natBit m 3))
  | 0x0CB => (RMode.ofCode (m % 8)).bind fun rm => some (fun o => .fsqrt o rm (natBit m 3))
  | 0x0CC => some (fun o => .fexp2 o (natBit m 3))
  | 0x0CD => some (fun o => .flog2 o (natBit m 3))
  | 0x0CE => some (fun o => .fsin o (natBit m 3))
  | 0x0CF => some (fun o => .fcos o (natBit m 3))
  | 0x0D0 => (RMode.ofCode (m % 8)).bind fun rm => some (fun o => .dadd o rm (natBit m 5) (natBit m 6))
  | 0x0D1 => (RMode.ofCode (m % 8)).bind fun rm => some (fun o => .dmul o rm (natBit m 5) (natBit m 6))
  | 0x0D2 => (RMode.ofCode (m % 8)).bind fun rm => some (fun o => .dfma o rm (natBit m 5) (natBit m 6))
  | 0x0D3 => (FCond.ofCode (m % 8)).bind fun cond => (Combine.ofCode ((m / 16) % 4)).bind fun comb => some
      (fun o => .dcmp o cond comb)
  | 0x0D4 => (RMode.ofCode (m % 8)).bind fun rm => some (fun o => .hadd2 o rm (natBit m 3) (natBit m 4)
      (natBit m 5) (natBit m 6))
  | 0x0D5 => (RMode.ofCode (m % 8)).bind fun rm => some (fun o => .hmul2 o rm (natBit m 3) (natBit m 4)
      (natBit m 5) (natBit m 6))
  | 0x0D6 => (RMode.ofCode (m % 8)).bind fun rm => some (fun o => .hfma2 o rm (natBit m 3) (natBit m 4)
      (natBit m 5) (natBit m 6))
  | 0x0D7 => some (fun o => .hmnx2 o (natBit m 0) (natBit m 1) (natBit m 3) (natBit m 4))
  | 0x0D8 => (RMode.ofCode (m % 8)).bind fun rm => some (fun o => .fdp4 o rm (natBit m 3) (natBit m 5) (natBit m 6))
  | 0x0D9 => (RMode.ofCode (m % 8)).bind fun rm => (Fmt.ofCode (e % 16)).bind fun td => (Fmt.ofCode
      ((e / 16) % 16)).bind fun ts => some (fun o => .cvt o rm (natBit m 3) (natBit m 4) td ts)
  | 0x0DA => (RMode.ofCode (m % 8)).bind fun rm => (IntTy.ofCode (e % 16)).bind fun ti => (Fmt.ofCode
      ((e / 16) % 16)).bind fun tf => some (fun o => .cvtfi o rm (natBit m 3) ti tf)
  | 0x0DB => (RMode.ofCode (m % 8)).bind fun rm => (Fmt.ofCode (e % 16)).bind fun tf => (IntTy.ofCode
      ((e / 16) % 16)).bind fun ti => some (fun o => .cvtif o rm (natBit m 4) tf ti)
  | 0x0DC => (RMode.ofCode (m % 8)).bind fun rm => (Fmt.ofCode (e % 16)).bind fun td => some (fun o => .pack o rm
      (natBit m 3) (natBit m 4) td (BitVec.ofNat 2 (e / 16)))
  | 0x0DD => (XTy.ofCode (m % 8)).bind fun ta => some (fun o => .xadd o ta (natBit m 3))
  | 0x0DE => (RMode.ofCode (m % 8)).bind fun rm => (Fmt.ofCode (e % 16)).bind fun td => some (fun o => .xrnd o rm
      (natBit m 3) (natBit m 4) td)
  | 0x0DF => some (fun o => .xcmb o (natBit m 0))
  | 0x0E0 => (XTest.ofCode (m % 4)).bind fun test => some (fun o => .xchk o test)
  | _ => none

/-- The cross-lane operation that OPID, M, E and X name (R51). -/
def partsCrossLane (op m e _x : Nat) : Option (Slot → Instr) :=
  match op with
  | 0x140 => (ShflMode.ofCode (m % 4)).bind fun mode => some (fun o => .shfl o mode (BitVec.ofNat 3 (m / 4))
      (natBit m 5) (optQOf e))
  | 0x141 => some (fun o => .rdlane o)
  | 0x142 => some (fun o => .wrlane o)
  | 0x143 => some (fun o => .ballot o (BitVec.ofNat 2 m))
  | 0x144 => (VoteMode.ofCode (m % 4)).bind fun mode => some (fun o => .vote o mode)
  | 0x145 => some (fun o => .vmatch o (natBit m 0) (natBit m 1) (optQOf e))
  | 0x146 => (LaneOp.ofCode (m % 8)).bind fun op => (LaneTy.ofCode ((m / 8) % 4)).bind fun t => some
      (fun o => .pscan o op t (natBit m 5) (natBit m 6))
  | 0x147 => (LaneOp.ofCode (m % 8)).bind fun op => (LaneTy.ofCode ((m / 8) % 4)).bind fun t => some
      (fun o => .redux o op t (natBit m 5) (natBit m 6))
  | 0x148 => some (fun o => .compact o (optQOf e))
  | _ => none

/-- The global-memory operation that OPID, M, E and X name (R51). -/
def partsGlobal (op m e _x : Nat) : Option (Slot → Instr) :=
  match op with
  | 0x180 => (LdSize.ofCode (m % 8)).bind fun size => (optScopeOf (natBit m 3) (e % 8)).bind fun acq => some
      (fun o => .ld o size acq (natBit m 4))
  | 0x181 => (StSize.ofCode (m % 8)).bind fun size => (optScopeOf (natBit m 3) (e % 8)).bind fun rel => some
      (fun o => .st o size rel)
  | 0x182 => (AtomOp.ofCode (m % 16)).bind fun op => (Ord.ofCode (e % 4)).bind fun ord => (Scope.ofCode
      ((e / 4) % 8)).bind fun scope => some (fun o => .atom o op (natBit m 4) (natBit m 5) (natBit m 6) ord scope
      (natBit e 5))
  | 0x183 => (AtomcW.ofCode (m % 4)).bind fun width => (Ord.ofCode (e % 4)).bind fun ord => (Scope.ofCode
      ((e / 4) % 8)).bind fun scope => some (fun o => .atomc o width ord scope (natBit e 5) (optQOf (e / 64)))
  | 0x184 => (XTy.ofCode (m % 8)).bind fun ta => (Ord.ofCode (e % 4)).bind fun ord => (Scope.ofCode
      ((e / 4) % 8)).bind fun scope => some (fun o => .atomx o ta ord scope)
  | 0x185 => (AtomvOp.ofCode (m % 8)).bind fun op => (Ord.ofCode (e % 4)).bind fun ord => (Scope.ofCode
      ((e / 4) % 8)).bind fun scope => some (fun o => .atomv o op (natBit m 3) (natBit m 4) ord scope)
  | 0x186 => (Scope.ofCode ((e / 4) % 8)).bind fun scope => some (fun o => .ldfut o (natBit m 0) scope)
  | 0x187 => (Scope.ofCode ((e / 4) % 8)).bind fun scope => some (fun o => .stfut o (natBit m 0) scope)
  | 0x188 => some (fun o => .futrst o)
  | _ => none

/-- The scratch, tile and buffer operation that OPID, M, E and X name (R51). -/
def partsScratch (op m e x : Nat) : Option (Slot → Instr) :=
  match op with
  | 0x200 => (LdSize.ofCode (m % 8)).bind fun size => (FeLd.ofCode ((m / 8) % 4)).bind fun fe => (Lvl.ofCode
      ((m / 32) % 4)).bind fun lvl => some (fun o => .lds o size fe lvl (BitVec.ofNat 32 x))
  | 0x201 => (StSize.ofCode (m % 8)).bind fun size => (FeSt.ofCode ((m / 8) % 4)).bind fun fe => (Lvl.ofCode
      ((m / 32) % 4)).bind fun lvl => some (fun o => .sts o size fe lvl (BitVec.ofNat 32 x))
  | 0x202 => (AtomsOp.ofCode (m % 16)).bind fun op => (Lvl.ofCode (e % 4)).bind fun lvl => some
      (fun o => .atoms o op (natBit m 4) (natBit m 5) (natBit m 6) lvl)
  | 0x203 => (TEnd.ofCode (m % 8)).bind fun sk => (TEnd.ofCode ((m / 8) % 8)).bind fun dk => some
      (fun o => .tmov o sk dk (natBit m 6) (optQOf e))
  | 0x204 =>
    if m % 128 = 0 then some (fun o => .bufdec o)
    else some (fun o => .bufdecDrop o)
  | 0x205 =>
    if m % 128 = 0 then some (fun o => .bufsetFill o)
    else if m % 128 = 1 then some (fun o => .bufsetDrain o)
    else some (fun o => .bufsetReset o)
  | 0x206 => (BufState.ofCode (m % 4)).bind fun state => some (fun o => .bufqry o state (BitVec.ofNat 4 (m / 4)))
  | 0x207 => (Lvl.ofCode (m % 4)).bind fun lvl => some (fun o => .mapr o lvl (BitVec.ofNat 3 (m / 4)))
  | 0x208 => some (fun o => .unmapr o (BitVec.ofNat 3 m))
  | 0x209 => some (fun o => .flushr o (BitVec.ofNat 3 m))
  | 0x20A => (Lvl.ofCode ((m / 2) % 4)).bind fun lvl => some (fun o => .feset o (natBit m 0) lvl)
  | 0x20B => (Lvl.ofCode (m % 4)).bind fun lvl => some (fun o => .feqry o lvl)
  | _ => none

/-- The matrix operation that OPID, M, E and X name (R51). -/
def partsMatrix (op m _e x : Nat) : Option (Slot → Instr) :=
  match op with
  | 0x280 => some (fun o => .msub o (BitVec.ofNat 5 m) (BitVec.ofNat 2 (m / 32)))
  | 0x281 => some (fun o => .mrd o (BitVec.ofNat 3 m))
  | 0x282 => some (fun o => .mwm o)
  | 0x290 => some (fun o => .mlda o (natBit m 0) (BitVec.ofNat 32 x))
  | 0x291 => some (fun o => .mldb o (BitVec.ofNat 32 x))
  | 0x292 => (MmaTy.ofCode (m % 8)).bind fun ta => (MmaTy.ofCode ((m / 8) % 8)).bind fun tb => some
      (fun o => .mma o ta tb (natBit m 6))
  | 0x293 =>
    if m % 128 = 0 then some (fun o => .msclOff o)
    else some (fun o => .mscl o (natBit (m - 1) 0))
  | 0x294 => (Lvl.ofCode (m % 4)).bind fun lvl => (StoTy.ofCode ((m / 4) % 8)).bind fun td => some
      (fun o => .msto o lvl td (natBit m 5))
  | 0x295 => some (fun o => .mzero o)
  | 0x296 =>
    if m % 128 = 0 then some (fun o => .mloopDec o (BitVec.ofNat 32 x))
    else some (fun o => .mloopAdd o (BitVec.ofNat 32 x))
  | 0x297 => some (fun o => .mbarw o (BitVec.ofNat 4 m))
  | 0x298 => some (fun o => .mbara o (BitVec.ofNat 4 m))
  | 0x299 => some (fun o => .mend o)
  | _ => none

/-- The graphics and ray operation that OPID, M, E and X name (R51). -/
def partsGraphics (op m _e _x : Nat) : Option (Slot → Instr) :=
  match op with
  | 0x2C0 =>
    if m % 4 = 0 then some (fun o => .emitPrim o (natBit m 2))
    else if m % 8 = 1 then some (fun o => .emitOpen o)
    else some (fun o => .emitClose o)
  | 0x2C1 =>
    if m % 128 = 0 then some (fun o => .vbldLat o)
    else some (fun o => .vbldSet o)
  | 0x2C2 => some (fun o => .classify o (natBit m 0))
  | 0x2C3 => (SampLvl.ofCode (m % 4)).bind fun lvl => some (fun o => .sample o lvl (natBit m 2))
  | 0x2C4 => some (fun o => .chartxf o (natBit m 0) (natBit m 1))
  | 0x2C5 => some (fun o => .tileout o (natBit m 0))
  | 0x2D0 =>
    if m % 128 = 0 then some (fun o => .raybatOpen o)
    else some (fun o => .raybatClose o)
  | 0x2D1 => some (fun o => .raygen o)
  | 0x2D2 => some (fun o => .rayput o)
  | 0x2D3 =>
    if m % 128 = 0 then some (fun o => .rayqryCnt o)
    else some (fun o => .rayqryWait o)
  | _ => none

/-- The launch, record and remote operation that OPID, M, E and X name (R51). -/
def partsLaunch (op m e x : Nat) : Option (Slot → Instr) :=
  match op with
  | 0x300 => some (fun o => .spawn o (BitVec.ofNat 3 m))
  | 0x301 =>
    if m % 128 = 0 then some (fun o => .launchQ o (BitVec.ofNat 32 x))
    else some (fun o => .launchWg o)
  | 0x302 => some (fun o => .recalloc o)
  | 0x303 => some (fun o => .reccommit o)
  | 0x310 => some (fun o => .rinv o (BitVec.ofNat 3 m) (BitVec.ofNat 2 e) (natBit e 2) (BitVec.ofNat 10 (e / 8))
      (BitVec.ofNat 4 (e / 8192)))
  | 0x311 => some (fun o => .put o (BitVec.ofNat 3 m) (BitVec.ofNat 8 e))
  | 0x312 => (WcntKind.ofCode (m % 4)).bind fun kind => some (fun o => .wcnt o kind)
  | _ => none

/-- The synchronisation operation that OPID, M, E and X name (R51). -/
def partsSync (op m _e _x : Nat) : Option (Slot → Instr) :=
  match op with
  | 0x340 => (Ord.ofCode (m % 4)).bind fun ord => (Scope.ofCode ((m / 4) % 8)).bind fun scope => some
      (fun o => .fence o ord scope)
  | 0x341 => (Scope.ofCode (m % 8)).bind fun scope => some (fun o => .barinit o scope (natBit m 3))
  | 0x342 => some (fun o => .bararr o (natBit m 0) (natBit m 1) (natBit m 2))
  | 0x343 => some (fun o => .barwait o (natBit m 0) (natBit m 1))
  | 0x344 => some (fun o => .barrel o)
  | 0x345 => some (fun o => .nbarSet o)
  | 0x346 => (WaitmKind.ofCode (m % 4)).bind fun kind => some (fun o => .waitm o kind)
  | _ => none

/-- The operation that OPID, M, E and X name, its modifiers read but not yet checked (R50, R51). -/
def instrParts (op m e x : Nat) : Option (Slot → Instr) :=
  if op < 0x040 then partsControl op m e x
  else if op < 0x0C0 then partsInteger op m e x
  else if op < 0x140 then partsFloat op m e x
  else if op < 0x180 then partsCrossLane op m e x
  else if op < 0x200 then partsGlobal op m e x
  else if op < 0x280 then partsScratch op m e x
  else if op < 0x2C0 then partsMatrix op m e x
  else if op < 0x300 then partsGraphics op m e x
  else if op < 0x340 then partsLaunch op m e x
  else if op < 0x380 then partsSync op m e x
  else none

/-- What a word is to the decoder: an instruction, a clause header, or one of the fates of R53. -/
inductive Decoded
  | ok (i : Instr)
  /-- OP = 0x3FF (R50). -/
  | header
  /-- The word raises UNDEF. -/
  | undef
  /-- The word raises ILLOPND at decode. -/
  | illopnd
  /-- Fewer than the twelve bytes of a word (R35). -/
  | short
  deriving DecidableEq, Repr, Inhabited

/-- The operand in a field: `none` where the field is unused, nothing where its entry refuses it (R39). -/
def Need.read (need : Need) (f : Nat) : Option Operand :=
  if need.used then (Operand.parse f).filter need.fits else some .none

/-- The guard, the hints and, before they are checked, D and A of a word. -/
def wordSlot (w : Nat) : Slot :=
  { p := BitVec.ofNat 4 (w / 2 ^ 10), neg := natBit w 14, stall := BitVec.ofNat 3 (w / 2 ^ 15), yield := natBit w 18,
    rel := natBit w 19, sel := natBit w 20, d := (Operand.parse (natField w 32 21)).getD .none,
    a := (Operand.parse (natField w 44 33)).getD .none }

/-- The fields of a word that an entry does not use are zero and its modifiers are listed (R37). -/
def Form.fieldsOk (f : Form) (w : Nat) : Bool :=
  f.legal && f.m == natField w 63 57
    && (f.d.used || natField w 32 21 == 0) && (f.a.used || natField w 44 33 == 0)
    && (f.b.used || natField w 56 45 == 0)
    && (match f.imm with
      | some v => v == natField w 95 64
      | none => (f.c.used || natField w 75 64 == 0)
        && (if f.eN then natField w 95 88 == 0 && (f.n.used || natField w 87 76 == 0) else f.e == natField w 95 76))

/-- The word as the operation OPID (R55): the fields first, then the operands in the order D, A, B, C (R54). -/
def decodeAs (opid w : Nat) : Decoded :=
  match instrParts opid (natField w 63 57) (natField w 95 76) (natField w 95 64) with
  | none => .undef
  | some mk =>
    match (mk (wordSlot w)).form with
    | none => .undef
    | some f =>
      if f.fieldsOk w then
        match f.d.read (natField w 32 21), f.a.read (natField w 44 33), f.b.read (natField w 56 45),
            f.c.read (natField w 75 64), f.n.read (natField w 87 76) with
        | some d, some a, some b, some c, some n =>
          if (((mk { wordSlot w with d := d, a := a, b := b, c := c, n := n }).form).map Form.operandsOk).getD false
          then .ok (mk { wordSlot w with d := d, a := a, b := b, c := c, n := n })
          else .illopnd
        | _, _, _, _, _ => .illopnd
      else .undef

/-- Whether an OPID is one of the 160 operations (R51). -/
def isOperation (opid : Nat) : Bool := (instrParts opid 0 0 0).isSome

/-- Map 1 (R57): each of the 160 opcodes names itself. -/
def mapOne (op : Nat) : Option Nat := if isOperation op then some op else none

/-- One entry of a context's decode table (R55). -/
def tableEntry (entry : Word) : Option Nat :=
  if natBit entry.toNat 31 then some (natField entry.toNat 9 0) else none

/-- The opcode map of a context: map 1, or its own table (R55, R56). -/
def opcodeMap : Option (List Word) → Nat → Option Nat
  | none, op => mapOne op
  | some t, op => (t[op]?).bind tableEntry

/-- The meaning of a word under an opcode map. -/
def decodeWord (map : Nat → Option Nat) (w : Nat) : Decoded :=
  if natField w 9 0 = 0x3FF then .header
  else match map (natField w 9 0) with
    | none => .undef
    | some opid => decodeAs opid w

/-- Decoding bytes as code stores them: a word is twelve bytes, the lowest first (R35). -/
def decodeBytes (map : Nat → Option Nat) (bs : List Byte) : Decoded :=
  if bs.length < 12 then .short else decodeWord map (leNat (bs.take 12))

/-- The word of an instruction, where it has one. -/
def encode (i : Instr) : Option (BitVec 96) := i.form.map (fun f => BitVec.ofNat 96 f.word)

/-- The instruction that the decoder reads, under map 1, from a word laid out as code stores it. -/
def decodeTableWord (_nbits w : Nat) : Option Instr :=
  match decodeBytes mapOne (leBytes 12 w) with
  | .ok i => some i
  | .header | .undef | .illopnd | .short => none

end Sys2Proof
end

