-- ==== Sys2Proof/Machine/Types.lean ====
section
/-!
DEFINITION. The components of the machine's state as plain data: groups, teams, cores, code copies and the records
that engines keep. Everything that may be absent by default is held in sorted tables.
-/

namespace Sys2Proof.Machine

/-- A table from numbers to values, sorted by key, each key once, no entry equal to the default its reader gives. -/
abbrev Tab (α : Type) := List (Nat × α)

/-- The causes of traps and faults (R384). -/
inductive Cause
  | undef | illopnd | illclause | hazard | frontierOvf | align | prot | nomap | bufstate | scratchRange | barStale
  | barOver | detViol | detXovf | codeRange | ueMem | rinvFail | trap | bkpt | recpool
  deriving DecidableEq, Repr, Inhabited

/-- Why a group waits (R138). -/
inductive WaitWhy
  /-- A clause's WAIT names a set flag, or a trap waits for its flags: the flags named. -/
  | flags (fs : List Nat)
  /-- WAITC: the counter and its threshold. -/
  | counter (k t : Nat)
  /-- SLEEPC: the core cycle at which the count ends, and the wake mask. -/
  | sleep (until_ : Nat) (mask : Word)
  /-- A full/empty access: the granule's key and the state it needs. -/
  | granule (key : Nat) (full : Bool)
  /-- A numbered barrier: the phase it waits to leave. -/
  | nbar (b : Nat) (phase : Word)
  /-- A barrier object: its handle and the phase it waits to leave. -/
  | obj (h phase : Word)
  /-- WAITM: the condition and its operands. -/
  | matrix (kind : WaitmKind) (tile n : Nat)
  /-- Operations that must complete first: release forms, acquire holds and fences. -/
  | ops (ids : List Nat)
  /-- A page request that must be answered. -/
  | page (req : Nat)
  /-- A translation fill, a write-back or a region under UNMAPR. -/
  | region
  /-- The retirement-clock condition (R95, R245). -/
  | clock
  /-- Room: launches, packets, counters, records, submissions, rays, slots. The condition is tested again at issue. -/
  | room
  deriving DecidableEq, Repr, Inhabited

/-- A wait: its reason, and whether the instruction has already acted, so that its end completes the slot. -/
structure Wait where
  why : WaitWhy := .room
  acted : Bool := false
  /-- The condition has ended, though what it read may since have changed. -/
  ended : Bool := false
  deriving DecidableEq, Repr, Inhabited

/-- One frontier entry (R132, R136); `handler` marks a handler entry (R387). -/
structure Entry where
  pc : Nat := 0
  prio : Nat := 0
  mask : Mask := 0
  handler : Bool := false
  deriving DecidableEq, Repr, Inhabited

/-- The clause a group is issuing (R43, R133): its header's offset, LEN, the set-flags, the current slot from 0, and
whether it is a handler clause. Its lanes are those of the frontier entry at `pc`. -/
structure Clause where
  pc : Nat := 0
  len : Nat := 0
  fa : Option Nat := none
  fb : Option Nat := none
  slot : Nat := 0
  handler : Bool := false
  deriving DecidableEq, Repr, Inhabited

/-- The name of a register in pending checks (R49). -/
inductive RegName
  | v (i : Nat)
  | s (i : Nat)
  | p (i : Nat)
  deriving DecidableEq, Repr, Inhabited

/-- A trap being taken: the slot, the cause, the information and the trapping entry (R385). -/
structure TrapReq where
  pc : Nat := 0
  cause : Cause := .trap
  info : Word := 0
  deriving DecidableEq, Repr, Inhabited

/-- What returns a group from its handler: the trapping entry with the clause it was in, and $trappc at entry. -/
structure TrapReturn where
  entry : Entry := {}
  clause : Clause := {}
  pcAtEntry : Word := 0
  deriving DecidableEq, Repr, Inhabited

/-- A gate that a FENCE sets (R365): the operations waited for, and whether every later access waits or only writes. -/
structure Gate where
  ids : List Nat := []
  all : Bool := false
  deriving DecidableEq, Repr, Inhabited

/-- One element of a store stream (R410): the operation whose data is still to come (0: none), its header's fields and
its data. -/
structure StoreEl where
  op : Nat := 0
  addr : Nat := 0
  kind : Nat := 0
  node : Nat := 0
  data : List Byte := []
  deriving DecidableEq, Repr, Inhabited

/-- A group (R21, R24, R30, R132, R166, R169). -/
structure Group where
  team : Nat := 0
  part : Nat := 0
  ctx : Nat := 0
  /-- The queue whose descriptor governs the group: the launching queue, or the receiving one of a handler. -/
  queue : Nat := 0
  number : Nat := 0
  role : Nat := 0
  core : Nat := 0
  /-- The group slot of its core that the group holds. -/
  gslot : Nat := 0
  /-- The group has raised a fault and stays at it. -/
  stopped : Bool := false
  lanes : Nat := 128
  vregs : Nat := 8
  sregs : Nat := 32
  frontier : List Entry := []
  clause : Option Clause := none
  preds : Tab Mask := []
  vec : Tab Word := []
  scl : Tab Word := []
  /-- Pending operations of each completion flag. -/
  flags : Tab (List Nat) := []
  /-- Counted operations of each engine counter, oldest first, with their completion marks. -/
  counters : Tab (List (Nat × Bool)) := []
  pending : List (RegName × Nat) := []
  clock : DWord := 0
  fpflags : Word := 0
  trapPc : Word := 0
  trapCause : Word := 0
  trapInfo : Word := 0
  detlevel : Nat := 0
  seed : DWord := 0
  trapping : Option TrapReq := none
  handler : Option TrapReturn := none
  draining : Bool := false
  /-- Arrival records of numbered barriers and of objects (R373). -/
  nbarArr : Tab Word := []
  objArr : List (Word × Word) := []
  /-- Acquire operations not yet returned (R260) and the gates of FENCEs (R365). -/
  acq : List Nat := []
  gates : List Gate := []
  /-- Consecutive misses of one page (R226): the page and the count. -/
  misses : Nat × Nat := (0, 0)
  /-- The record slots allocated and not yet committed (R99, R101): node and address. -/
  recs : List (Nat × Nat) := []
  /-- The page request whose answer the group acts on. -/
  request : Option Nat := none
  wait : Option Wait := none
  /-- The store stream of a team that is re-executed, or of its copy (R410). -/
  stores : List StoreEl := []
  /-- The traps and faults that a team under comparison has raised: slot and cause (R411). -/
  raised : List (Nat × Cause) := []
  /-- Executed instructions whose second execution is still to be compared, oldest first: slot and lanes (R143). -/
  checks : List (Nat × Mask) := []
  /-- The group has retired (R416). -/
  retired : Bool := false
  deriving DecidableEq, Repr, Inhabited

/-- One role of a code object (R27). -/
structure Role where
  groups : Nat := 1
  vregs : Nat := 8
  entry : Nat := 0
  deriving DecidableEq, Repr, Inhabited

/-- A checked code object (R27): its header, its roles and its buffer declarations, four words each. -/
structure CodeObj where
  addr : Nat := 0
  idem : Bool := false
  mstream : Bool := false
  pool : Nat := 0
  detmax : Nat := 0
  roles : List Role := []
  objSize : Nat := 0
  codeOff : Nat := 0
  codeSize : Nat := 0
  msOff : Nat := 0
  msSize : Nat := 0
  sregs : Nat := 32
  argBytes : Nat := 0
  coreScr : Nat := 0
  clusScr : Nat := 0
  dieScr : Nat := 0
  bufs : List (List Word) := []
  gangTeams : Nat := 1
  deriving DecidableEq, Repr, Inhabited

/-- One live scratch allocation (R128, R129, R229): its level, the core, cluster or die it lies on, its size and
its owner's partition. Its bytes are a memory space of their own, under the allocation's number. -/
structure Alloc where
  level : Lvl := .core
  unit : Nat := 0
  size : Nat := 0
  part : Nat := 0
  deriving DecidableEq, Repr, Inhabited

/-- One code copy (R131): on a cluster or a helm core, of a context's code object, with its handler copy (R386). -/
structure Copy where
  ctx : Nat := 0
  part : Nat := 0
  code : Nat := 0
  helm : Bool := false
  unit : Nat := 0
  codeSize : Nat := 0
  msSize : Nat := 0
  handlerSize : Option Nat := none
  handlerEntry : Nat := 0
  refs : Nat := 0
  loaded : Bool := false
  deriving DecidableEq, Repr, Inhabited

/-- A barrier (R366). -/
structure Bar where
  phase : Word := 0
  expect : Nat := 1
  pending : Nat := 1
  nextexp : Nat := 1
  scope : Scope := .team
  deriving DecidableEq, Repr, Inhabited

/-- One entry of a die's barrier-object table (R371): its generation, and while held its context and barrier. -/
structure BarObj where
  gen : Nat := 1
  held : Bool := false
  part : Nat := 0
  ctx : Nat := 0
  bar : Bar := {}
  deriving DecidableEq, Repr, Inhabited

/-- One armed buffer query (R247): the state, the numbered barrier, the group and the slot that armed it. -/
structure Query where
  state : BufState := .empty
  nb : Nat := 0
  group : Nat := 0
  pc : Nat := 0
  deriving DecidableEq, Repr, Inhabited

/-- A declared buffer (R236, R237). -/
structure Buf where
  lvl : Lvl := .core
  base : Nat := 0
  size : Nat := 0
  maxFills : Nat := 1
  maxDrains : Nat := 1
  state : BufState := .empty
  fills : Nat := 0
  drains : Nat := 0
  queries : List Query := []
  deriving DecidableEq, Repr, Inhabited

/-- A mapped region (R239, R240): its range, the offset of its MAPR, its lines that are not UNFILLED, its dirty
granules, its outstanding write-backs (granule, operation), its UNMAPR operation and the lines that held instructions
need. Lines and granules are numbered from the region's start. -/
structure Region where
  lvl : Lvl := .core
  off : Nat := 0
  va : Nat := 0
  size : Nat := 0
  pc : Nat := 0
  group : Nat := 0
  filled : List Nat := []
  dirty : List Nat := []
  wb : List (Nat × Nat) := []
  unmap : Option Nat := none
  want : List Nat := []
  deriving DecidableEq, Repr, Inhabited

/-- An accumulator tile (R275, R276): its watermark, the commits owed to it, its elements keyed 128 * row + column. -/
structure Tile where
  wm : Nat := 0
  commit : Bool := false
  /-- An MWM that waits for the commit in progress. -/
  clear : Bool := false
  acc : Tab Word := []
  deriving DecidableEq, Repr, Inhabited

/-- One matrix submission (R293): its operation, its start offset, its priority and the values of m0 to m7. -/
structure Sub where
  op : Nat := 0
  start : Nat := 0
  prio : Nat := 0
  m : List Word := []
  deriving DecidableEq, Repr, Inhabited

/-- Why a matrix stream waits (R280). -/
inductive MxWait
  | phase (nb : Nat) (p : Word)
  | tile (t : Nat)
  deriving DecidableEq, Repr, Inhabited

/-- The state of a reservation entry (R280). -/
inductive MxState
  | idle | ready | running | saved
  | wait (w : MxWait)
  /-- MEND has executed; the submission's effects are not yet complete. -/
  | ending
  | faulted
  deriving DecidableEq, Repr, Inhabited

/-- A reservation entry with its stream (R275, R278, R280, R285, R286): T once fixed, whether its tiles are mapped, the
submissions, PC and m registers of the running one, its descriptors, the steps done of a split MMA and of this pass, and
the passes granted to others since it became READY. -/
structure Mx where
  index : Nat := 0
  tiles : Option Nat := none
  mapped : Bool := false
  state : MxState := .idle
  subs : List Sub := []
  pc : Nat := 0
  m : Tab Word := []
  aLvl : Lvl := .core
  aBase : Nat := 0
  aStride : Nat := 0
  aStep : Nat := 0
  bLine : Nat := 0
  bStep : Nat := 0
  scale : Option Lvl := none
  scBase : Nat := 0
  scStride : Nat := 0
  scLine : Nat := 0
  scStep : Nat := 0
  done : Nat := 0
  passK : Nat := 0
  passI : Nat := 0
  passed : Nat := 0
  deriving DecidableEq, Repr, Inhabited

/-- A team's snapshot of one view (R311): the 192 bytes of the chart, the bearing and its LSEQ. -/
structure Snap where
  chart : List Byte := []
  px : Word := 0
  py : Word := 0
  lseq : Word := 0
  deriving DecidableEq, Repr, Inhabited

/-- A batch slot of a team (R343, R349): whether its open is in flight, its status, and its batch entry. -/
structure BatchSlot where
  opening : Bool := false
  status : Nat := 0
  entry : Option Nat := none
  deriving DecidableEq, Repr, Inhabited

/-- A team (R21 to R24, R128, R395, R397). -/
structure Team where
  launch : Nat := 0
  gang : Nat := 0
  part : Nat := 0
  ctx : Nat := 0
  queue : Nat := 0
  lin : Nat := 0
  x : Nat := 0
  y : Nat := 0
  z : Nat := 0
  gx : Nat := 0
  gy : Nat := 0
  gz : Nat := 0
  obj : CodeObj := {}
  helm : Bool := false
  core : Nat := 0
  gangPos : Nat := 0
  copy : Nat := 0
  /-- The scratch allocations of the team (0: none), and of its launch on this die and on the other. -/
  coreScr : Nat := 0
  clusScr : Nat := 0
  dieScr : Nat := 0
  otherScr : Nat := 0
  /-- Numbered barriers (R369), buffers with a malformed table entry's slot (R236), regions (R239), the matrix entry and
  its tiles (R275, R280), and the view snapshots (R311). -/
  nbars : Tab Bar := []
  bufs : Tab Buf := []
  badBuf : Option Nat := none
  regions : Tab Region := []
  mx : Option Mx := none
  accs : Tab Tile := []
  snaps : Tab Snap := []
  /-- Ray-batch slots (R343). -/
  batches : Tab BatchSlot := []
  groups : List Nat := []
  detlevel : Nat := 0
  /-- Whether the launch's queue takes traps (R389). -/
  trapen : Bool := false
  /-- A handler team or receiver batch: no launching queue (R393). -/
  receiver : Bool := false
  since : Nat := 0
  /-- Array cycles resident before it was last placed (R397). -/
  resided : Nat := 0
  kills : Nat := 0
  killed : Bool := false
  /-- A write that R397 counts against flush-and-restart has been made. -/
  wrote : Bool := false
  /-- A record has been committed (R395). -/
  committed : Bool := false
  /-- The team keeps its store stream (R410); the team of which it is a re-executed copy (R409). -/
  checked : Bool := false
  copyOf : Option Nat := none
  /-- A copy that consumed an uncorrectable error, or that a save or halt discarded: not compared (R411). -/
  skipped : Bool := false
  /-- It has retired, though its digest is still to be compared (R411); or it is saved, and takes no resource (R402). -/
  retired : Bool := false
  saved : Bool := false
  /-- How it leaves while its context is saved (R397): 1 it drains, 2 it is saved. -/
  way : Nat := 0
  deriving DecidableEq, Repr, Inhabited

/-- A cluster's matrix engine (R276, R281): the team running, and the commits in progress, oldest first. -/
structure Engine where
  running : Option Nat := none
  commits : List (Nat × Nat) := []
  deriving DecidableEq, Repr, Inhabited

/-- A core's two-level scheduler and its cycle count (R139, R171). Array cores are keyed 128 * die + 4 * cluster +
core, helm cores 256 + 32 * die + core. -/
structure CoreSt where
  active : List Nat := []
  ready : List Nat := []
  /-- When each active group entered the active set (R139), in the core's cycles. -/
  entered : Tab Nat := []
  cycles : Nat := 0
  /-- Sixteenths of a cycle carried over (R16). -/
  frac : Nat := 0
  /-- Slots issued since the halt line was asserted (R394). -/
  after : Nat := 0
  /-- Moments of the last disagreements (R412). -/
  disagreements : List Nat := []
  quarantined : Bool := false
  deriving DecidableEq, Repr, Inhabited

/-- What a lane's access reaches: memory, the register window or the kick window (R215). -/
inductive Reach
  | memory | register | kick
  deriving DecidableEq, Repr, Inhabited

/-- One lane's access in a line action: its virtual address, its key in memory or its offset in a window, its size, the
bytes it writes and compares. -/
structure LaneAcc where
  lane : Nat := 0
  va : Nat := 0
  key : Nat := 0
  n : Nat := 0
  reach : Reach := .memory
  data : List Byte := []
  cmp : List Byte := []
  deriving DecidableEq, Repr, Inhabited

/-- One line action of an operation (R250): the accesses of its lanes, ascending; `so` on a strongly ordered page. -/
structure LineAct where
  line : Nat := 0
  accs : List LaneAcc := []
  so : Bool := false
  done : Bool := false
  deriving DecidableEq, Repr, Inhabited

/-- What one lane has received: bytes, the tag of its action, and whether a compare matched. -/
structure LaneRes where
  lane : Nat := 0
  va : Nat := 0
  bytes : List Byte := []
  tag : Nat := 0
  ok : Bool := false
  deriving DecidableEq, Repr, Inhabited

/-- A triangle prepared for a tile slot (R306): the snapped display positions and the depths of its vertices as
fractions (numerator, denominator), and its identifier. -/
structure Prim where
  xs : List (Int × Nat) := []
  ys : List (Int × Nat) := []
  zs : List (Int × Nat) := []
  ident : Nat := 0
  deriving DecidableEq, Repr, Inhabited

/-- The state of a tile slot (R305). -/
inductive SlotState
  | free | opened | closing
  deriving DecidableEq, Repr, Inhabited

/-- A tile slot of a helm core (R305, R310): the team that holds it, the number of its opening, its descriptor and its
copy of the snapshot, the closes expected and made, the primitives binned and dropped, the operations its closing groups
had issued before they closed it, and the group, slot and operation of the final close. -/
structure TSlot where
  state : SlotState := .free
  team : Nat := 0
  opening : Nat := 0
  tile : Nat := 0
  bin : Nat := 0
  tx : Nat := 0
  ty : Nat := 0
  view : Nat := 0
  lvl : Lvl := .core
  closes : Nat := 0
  made : Nat := 0
  cap : Nat := 0
  snap : Snap := {}
  prims : List Prim := []
  binned : Nat := 0
  dropped : Nat := 0
  before : List Nat := []
  group : Nat := 0
  pc : Nat := 0
  op : Nat := 0
  deriving DecidableEq, Repr, Inhabited

/-- One lane's primitive of an EMIT that is still to be routed: its nine coordinates, its identifier and the slots open
for it at issue, with their openings. -/
structure Emitted where
  verts : List Word := []
  ident : Nat := 0
  cull : Bool := false
  slots : List (Nat × Nat) := []
  deriving DecidableEq, Repr, Inhabited

/-- An image descriptor of SAMPLE (R326). -/
structure Image where
  base : Nat := 0
  w : Nat := 1
  h : Nat := 1
  pitch : Nat := 16
  fmt : Nat := 0
  deriving DecidableEq, Repr, Inhabited

/-- A tile move (R246): its ends, its shape and the rows that it has moved. -/
structure Move where
  sk : TEnd := .g
  dk : TEnd := .g
  bdone : Bool := false
  nb : Option (BitVec 4) := none
  src : Nat := 0
  dst : Nat := 0
  rowBytes : Nat := 0
  rows : Nat := 0
  ss : Nat := 0
  ds : Nat := 0
  moved : Nat := 0
  deriving DecidableEq, Repr, Inhabited

/-- What an operation in flight does. -/
inductive OpBody
  | tmov (m : Move)
  /-- The write-backs of a FLUSHR or UNMAPR (R248). -/
  | writeBack
  /-- A matrix submission (R293). -/
  | msub
  | ld (size : LdSize)
  | st (size : StSize)
  | atom (op : AtomOp) (u w64 : Bool)
  | atomc (w : AtomcW)
  | atomx (ta : XTy)
  | atomv (op : AtomvOp) (u : Bool)
  | ldfut (w64 : Bool)
  | stfut (w64 : Bool)
  | futrst
  /-- A scratch result already formed, awaiting its write. -/
  | value
  /-- Primitives of an EMIT still to be routed, a close that waits for them, a view under construction (R310, R311):
  its number and the bearing given, if any. -/
  | emit (ps : List Emitted)
  | emitClose (before : List Nat) (final : Bool)
  | vbld (view : Nat) (set_ : Option (Word × Word))
  /-- A filtered image read (R326): the image, its filter, and each lane's coordinates. -/
  | sample (im : Image) (lin : Bool) (uv : List (Nat × Word × Word))
  /-- A tile on its way to the serialiser (R325): its level and address, latch, view and column, and status address. -/
  | tileout (lvl : Lvl) (tile : Nat) (k : Word) (view col status : Nat)
  /-- A classification (R313): the level, tile and descriptor, and once the tile is read the records still to be
  reserved, by node. -/
  | classify (lvl : Lvl) (tile desc : Nat) (work : Option (List (Nat × List (List Byte))))
  /-- Records to be written and committed in an instance (R97, R100): addresses and bytes. -/
  | commit (inst : Nat) (recs : List (Nat × List Byte))
  /-- A launch counted in cw (R98): an entry on its way to a queue, or a packet to be checked. -/
  | launchQ (queue gen graph : Nat) (seq : Word)
  | launchWg (packet : List Byte)
  /-- Invocations of a RINV (R120): whether it traps, and the replies still to come; and one packet of RINV or PUT. -/
  | rinv (trap : Bool) (left : Nat)
  | packet
  /-- An open of a batch slot with its descriptor's address (R349); rays being listed and queued, each with whether its
  chart sample is off the display (R350, R351); a wait for a batch (R352). -/
  | rayOpen (slot desc : Nat)
  | rays (batch : Nat) (recs : List (List Byte × Bool))
  | rayWait (batch : Nat)
  /-- A result of an engine already formed, awaiting its write. -/
  | engine
  deriving DecidableEq, Repr, Inhabited

/-- An operation in flight (R46, R166, R250): the group and slot that issued it, its flag or counter, its destination,
the operations it is not sent before, its line actions and the results so far. -/
structure Op where
  group : Nat := 0
  part : Nat := 0
  ctx : Nat := 0
  pc : Nat := 0
  body : OpBody := .value
  flag : Option Nat := none
  counter : Option Nat := none
  dest : Operand := .none
  /-- Registers of data at the destination, whether a tag register follows, and the predicate of a compare. -/
  destN : Nat := 1
  tag : Bool := false
  pq : Option (BitVec 4) := none
  after : List Nat := []
  lines : List LineAct := []
  res : List LaneRes := []
  /-- Lanes whose add was refused at level 3 (R264). -/
  refused : List Nat := []
  /-- An uncorrectable error was consumed (R252). -/
  ue : Bool := false
  deriving DecidableEq, Repr, Inhabited

/-- A deferred-read record (R266): its slice and index, the slot, the waiting operation and its lanes. -/
structure FutRec where
  slice : Nat := 0
  index : Nat := 0
  slot : Nat := 0
  op : Nat := 0
  lanes : List Nat := []
  deriving DecidableEq, Repr, Inhabited

/-- The readers that an STFUT has to answer (R268), in link order. -/
structure FutWalk where
  op : Nat := 0
  value : List Byte := []
  recs : List FutRec := []
  deriving DecidableEq, Repr, Inhabited

/-- A leaf of the page table as a walk finds it (R216, R217). -/
structure Leaf where
  pa : Nat := 0
  size : Nat := 4096
  w : Bool := false
  sro : Bool := false
  cow : Bool := false
  so : Bool := false
  deriving DecidableEq, Repr, Inhabited

/-- A translation that a unit holds (R221). -/
structure Held where
  unit : Nat := 0
  ctx : Nat := 0
  page : Nat := 0
  leaf : Leaf := {}
  deriving DecidableEq, Repr, Inhabited

/-- One page record of a request (R227), with the address and the lane of the access that found it missing. -/
structure PageRec where
  page : Nat := 0
  write : Bool := false
  cow : Bool := false
  va : Nat := 0
  lane : Nat := 0
  deriving DecidableEq, Repr, Inhabited

/-- A page request (R226 to R228): who asked, its pages, whether the ring entry has been written and the answer. -/
structure PageReq where
  part : Nat := 0
  ctx : Nat := 0
  kind : Nat := 1
  /-- The group, operation or queue that waits. -/
  who : Nat := 0
  sub : Nat := 0
  pc : Nat := 0
  origin : Word := 0
  pages : List PageRec := []
  posted : Bool := false
  /-- The answer: `some false` retry, `some true` FAIL. -/
  answer : Option Bool := none
  deriving DecidableEq, Repr, Inhabited

/-- A run-ahead (R224, R225): the speculative copy of the group, the poisoned registers, the pages recorded, the
instructions issued, and the offset of the missing instruction. -/
structure Spec where
  g : Group := {}
  poison : List RegName := []
  pages : List PageRec := []
  count : Nat := 0
  pc : Nat := 0
  deriving DecidableEq, Repr, Inhabited

/-- One entry of a handler table (R108). -/
structure Handler where
  code : Nat := 0
  valid : Bool := false
  helm : Bool := false
  maxSb : Nat := 0
  maxPw : Nat := 0
  deriving DecidableEq, Repr, Inhabited

/-- A registered window (R110). -/
structure Window where
  base : Nat := 0
  size : Nat := 0
  src : Bool := false
  dst : Bool := false
  deriving DecidableEq, Repr, Inhabited

/-- A context (R68, R70): its descriptor's address, page-table root, own decode table if it has one, trap handler, seed
and flags; its handlers, inbound settings and windows with their counters, keyed 4 * window + kind (R108 to R111); the
resident times of the last 16 teams of each code object that completed (R397), and when it was saved. -/
structure Context where
  live : Bool := false
  saved : Bool := false
  part : Nat := 0
  desc : Nat := 0
  ptroot : Nat := 0
  table : Option (List Word) := none
  traph : Nat := 0
  seed : DWord := 0
  isTemplate : Bool := false
  sechk : Bool := false
  handlers : List Handler := []
  inq : Nat := 0
  windows : List Window := []
  wcounts : Tab Word := []
  times : Tab (List Nat) := []
  savedAt : Nat := 0
  deriving DecidableEq, Repr, Inhabited

/-- The state of a queue (R82). -/
inductive QState
  | idle | fetch | check | node | waitNode | error | saved
  deriving DecidableEq, Repr, Inhabited

/-- The state of a LAND slot (R113). -/
inductive LandState
  | free | held | running
  deriving DecidableEq, Repr, Inhabited

/-- A LAND slot with the acceptance order of its invocation. -/
structure Land where
  state : LandState := .free
  order : Nat := 0
  deriving DecidableEq, Repr, Inhabited

/-- The inbound half of a queue (R109, R112, R113): its settings, its slots, the last one filled, the ring's head count
and the acceptance order of its entries, and the verdicts of the code-object check with the objects passed, by handler. -/
structure Inbound where
  recv : Bool := false
  hwdepth : Nat := 16
  rsize : Nat := 16
  land : Nat := 0
  ring : Nat := 0
  slots : Tab Land := []
  last : Nat := 15
  head : Nat := 0
  waiting : List Nat := []
  verdicts : Tab (Option (CodeObj × Option CodeObj)) := []
  deriving DecidableEq, Repr, Inhabited

/-- A queue (R71 to R74, R82, R98, R109, R164, R408): its descriptor, its counts, the stop latch, a rejected tail that
waits, its state and the one it was saved in, the entry it runs with the header it was checked with, the current node
with its bytes as read at its start, its loop counts, the launch it waits for, the launch.q entries held for it and its
count of eligible launches. -/
structure Queue where
  live : Bool := false
  gen : Nat := 0
  ctx : Nat := 0
  prio : Nat := 0
  realtime : Bool := false
  det : Nat := 0
  trapen : Bool := false
  die : Nat := 0
  ring : Nat := 0
  size : Nat := 16
  head : Nat := 0
  err : Nat := 0
  t : Word := 0
  h : Word := 0
  stop : Bool := false
  badTail : Option Word := none
  state : QState := .idle
  savedState : QState := .idle
  /-- The error that SKIP leaves drops no entry (R74). -/
  tailError : Bool := false
  graph : Nat := 0
  seq : Word := 0
  nodes : Nat := 0
  doneAddr : Nat := 0
  doneVal : Nat := 0
  node : Nat := 0
  cur : List Byte := []
  /-- The successor, once the current node is complete; 0x10000 once DONE is written and HEAD is to be, 0x10001 where HEAD
  is to be written and no entry dropped. -/
  succ : Option Nat := none
  loops : Tab Nat := []
  launch : Option Nat := none
  /-- An error whose record is being written: CODE, SUB, node index, address and SEQ (R83). -/
  fault : Option (Nat × Nat × Nat × Nat × Word) := none
  held : List (Nat × Word × Nat) := []
  count : Nat := 0
  wake : Word := 0
  inb : Inbound := {}
  deriving DecidableEq, Repr, Inhabited

/-- What started a launch (R77, R85, R114): a kernel node of a queue, the entry node of a work-graph instance, a batch of
one of its blocks, or invocations in the LAND slots of a queue, from a first one on. -/
inductive Source
  | node
  | entry (inst : Nat)
  | block (inst node block : Nat)
  | batch (first count : Nat)
  deriving DecidableEq, Repr, Inhabited

/-- A launch (R77, R84, R124 to R129, R408, R418): its source, its queue's properties, its checked code object, its grid,
its arguments, its placement map (none: "any"), the next gang, the teams retired, the copies not yet compared, the index
of the teams copied, and its die-scratch allocations. For a batch: the address of the first record or image, the records
or images, the batch's number, the shared argument bytes and each lane's. -/
structure Launch where
  src : Source := .node
  part : Nat := 0
  ctx : Nat := 0
  queue : Nat := 0
  die : Nat := 0
  prio : Nat := 0
  realtime : Bool := false
  det : Nat := 0
  trapen : Bool := false
  code : Nat := 0
  obj : CodeObj := {}
  /-- The trap handler's object beside it (R386). -/
  hobj : Option CodeObj := none
  helm : Bool := false
  x : Nat := 0
  y : Nat := 0
  z : Nat := 0
  args : List Byte := []
  map : Option (List Nat) := none
  next : Nat := 0
  done : Nat := 0
  copies : Nat := 0
  sel : Option Nat := none
  dieScr : Tab Nat := []
  recs : Nat := 0
  recBase : Nat := 0
  seq : Nat := 0
  shared : List Byte := []
  laneArgs : List (List Byte) := []
  deriving DecidableEq, Repr, Inhabited

/-- The state of a gang (R128). -/
inductive GState
  | waiting | loading | resident
  deriving DecidableEq, Repr, Inhabited

/-- A gang, or a helm team, or one team of a gang that is placed again (R128): its launch and index, the linear indexes
of its teams, its state, since when it waits, its cluster or helm core, its teams once placed, whether it is placed again
for saved teams, how often it was killed, and the team of which it is a re-executed copy. -/
structure Gang where
  launch : Nat := 0
  index : Nat := 0
  lins : List Nat := []
  state : GState := .waiting
  since : Nat := 0
  unit : Nat := 0
  teams : List Nat := []
  restores : Bool := false
  kills : Nat := 0
  copyOf : Option Nat := none
  /-- The team that it starts afresh after a kill or a flush (R395, R397). -/
  again : Option Nat := none
  clusScr : Nat := 0
  deriving DecidableEq, Repr, Inhabited

/-- The state of a block of a record pool (R91). -/
inductive BState
  | free | opened | sealed | ready | running
  deriving DecidableEq, Repr, Inhabited

/-- A block (R91, R95): its state, its node, its allocation count, the slots committed, the moment of its first commit,
its order of sealing, the number of its batch, and the producer team for which it is set aside or which opened it. -/
structure Block where
  state : BState := .free
  node : Nat := 0
  count : Nat := 0
  commits : List Nat := []
  first : Option Nat := none
  order : Nat := 0
  seq : Nat := 0
  producer : Option Nat := none
  deriving DecidableEq, Repr, Inhabited

/-- A node of a work graph (R85), its code object checked, with the number of batches sealed. -/
structure WNode where
  entry : Bool := false
  helm : Bool := false
  depth : Nat := 0
  recBytes : Nat := 0
  batch : Nat := 0
  code : Nat := 0
  obj : CodeObj := {}
  hobj : Option CodeObj := none
  targets : Nat := 0
  timeout : Nat := 0
  reserve : Nat := 0
  map : Option (List Nat) := none
  seq : Nat := 0
  deriving DecidableEq, Repr, Inhabited

/-- A work-graph instance (R85 to R95): who launched it, its header, its nodes and blocks, whether it runs or is held
behind a pending launch, the entry launch's extents and arguments, whether the entry launch has completed, and the groups
that wait for a FREE block, in order. -/
structure WInst where
  part : Nat := 0
  ctx : Nat := 0
  queue : Nat := 0
  die : Nat := 0
  prio : Nat := 0
  realtime : Bool := false
  det : Nat := 0
  trapen : Bool := false
  addr : Nat := 0
  scope : Nat := 2
  pool : Nat := 0
  nblocks : Nat := 2
  blklog : Nat := 12
  doneAddr : Nat := 0
  doneVal : Nat := 0
  nodes : List WNode := []
  entry : Nat := 0
  blocks : Tab Block := []
  running : Bool := false
  x : Nat := 0
  y : Nat := 0
  z : Nat := 0
  args : List Byte := []
  entryDone : Bool := false
  waiting : List Nat := []
  deriving DecidableEq, Repr, Inhabited

/-- The per-partition state of one function's register blocks. -/
structure Func where
  -- translation control (R222)
  invVa : Nat := 0
  invPages : Word := 0
  invBusy : Bool := false
  invCmd : Word := 0
  invOps : List Nat := []
  prqBase : Nat := 0
  prqSize : Word := 16
  prqHead : Word := 0
  prqTail : Word := 0
  nextReq : Nat := 0
  -- faults (R390 to R393)
  stopBase : Nat := 0
  halted : Bool := false
  stopped : Bool := false
  fcount : Nat := 0
  haltMoment : Nat := 0
  haltCtxs : List Nat := []
  stoppedEngines : List Nat := []
  haltIdle : List Nat := []
  engFaults : Tab (Nat × Word) := []
  -- pseudo-channels dropped and requested (R414)
  dropped : List Nat := []
  -- moments of the last uncorrectable errors of each pseudo-channel (R414)
  ueAt : Tab (List Nat) := []
  -- interrupts signalled, newest last, and the words of the MSI-X table (R423)
  vectors : List Nat := []
  msix : Tab Word := []
  -- the event ring (R425)
  evBase : Nat := 0
  evSize : Word := 16
  evHead : Word := 0
  evTail : Word := 0
  evDrop : Word := 0
  -- column-store grants (R274): the lines still to be zeroed (cluster, first, count), and the refusal bit
  csgBusy : Bool := false
  csgRefused : Bool := false
  csgZero : List (Nat × Nat × Nat) := []
  -- queue control (R69)
  qArg : Nat := 0
  qCmd : Option (Word × Nat) := none
  qResult : Nat := 0
  qNumber : Nat := 0
  -- realtime reservation and ray stages (R321, R339)
  rtClus : Nat := 0
  rtHelm : Nat := 0
  rayStage : Nat := 0
  -- context switch (R396)
  cswArea : Nat := 0
  cswSize : Nat := 0
  cswDrain : Nat := 0
  cswCmd : Option Word := none
  cswResult : Nat := 0
  cswInuse : List Nat := []
  cswAt : Nat := 0
  cswCtx : Nat := 0
  cswNeed : Nat := 0
  -- result checking (R413)
  chkRuns : Word := 0
  chkMismatch : Word := 0
  chkSkip : Word := 0
  sechkDis : Word := 0
  -- channel repair (R414, R415): the channels requested, the command in progress and its result
  dropReq : List Nat := []
  dropCmd : Option Nat := none
  dropResult : Nat := 0
  -- fabric (R427, R428)
  fabEn : Bool := false
  seqBase : Nat := 0
  routes : Tab Word := []
  deriving DecidableEq, Repr, Inhabited

/-- An entry of a die's batch table (R343, R344, R345): its generation; while held the opening team and group with its
RAYBAT's offset, the scene slot, the descriptor's fields, the counts, the INDEXes whose result writes were lost, the records
still to be committed (node, INDEX, bytes), whether the records of a completed batch have been formed, whether it is
complete, and the order of its opening. -/
structure Batch where
  gen : Nat := 0
  held : Bool := false
  part : Nat := 0
  ctx : Nat := 0
  team : Nat := 0
  group : Nat := 0
  pc : Nat := 0
  det : Nat := 0
  scene : Nat := 0
  result : Nat := 0
  count : Nat := 0
  hitNode : Nat := 0xFF
  missNode : Nat := 0xFF
  submitted : Nat := 0
  completed : Nat := 0
  hits : Nat := 0
  lost : List Nat := []
  recs : List (Nat × Nat × List Byte) := []
  reaped : Bool := false
  complete : Bool := false
  order : Nat := 0
  deriving DecidableEq, Repr, Inhabited

/-- One subtree entry of a loaded scene (R329): its box, its image and its mask. -/
structure Subtree where
  box : List Word := []
  image : Nat := 0
  bytes : Nat := 0
  mask : Nat := 0
  deriving DecidableEq, Repr, Inhabited

/-- A subtree queue (R336, R340): its age and its chain of blocks with the rays in each. -/
structure SQueue where
  age : Nat := 0
  blocks : List (Nat × Nat) := []
  deriving DecidableEq, Repr, Inhabited

/-- A loaded scene (R336, R337): its key, its pool, its subtrees and queues, its held rays, and the producers that wait for
admission with their rays, in order. -/
structure Scene where
  part : Nat := 0
  ctx : Nat := 0
  addr : Nat := 0
  pool : Nat := 0
  blocks : Nat := 0
  links : Nat := 0
  subs : List Subtree := []
  queues : Tab SQueue := []
  held : Nat := 0
  waiting : List (Nat × Nat) := []
  deriving DecidableEq, Repr, Inhabited

/-- A pass on a stage cluster (R342): its scene slot and subtree, the blocks taken, and those behind a broken link. -/
structure Pass where
  scene : Nat := 0
  sub : Nat := 0
  blocks : List (Nat × Nat) := []
  broken : List (Nat × Nat) := []
  deriving DecidableEq, Repr, Inhabited

/-- A packet that is not yet answered (R105, R107): its number, its bytes, the moment it was last sent, the operation that
counts it in cr, the RINV and lane whose status its reply is, and for a PUT its context and source window. -/
structure Sent where
  seq : Word := 0
  bytes : List Byte := []
  at_ : Nat := 0
  op : Nat := 0
  main : Option (Nat × Nat) := none
  ctx : Nat := 0
  win : Nat := 0
  deriving DecidableEq, Repr, Inhabited

/-- A partition pair at its source (R105, R107): the next number, the unanswered packets in order, and the link in use. -/
structure Pair where
  next : Word := 0
  sent : List Sent := []
  link : Option Nat := none
  deriving DecidableEq, Repr, Inhabited

/-- A packet that has arrived: its bytes, its link (none: sent by this chip to itself), and whether it is a PUT whose data
has been written and whose writes are not yet acknowledged (R116). -/
structure Packet where
  bytes : List Byte := []
  link : Option Nat := none
  landing : Bool := false
  deriving DecidableEq, Repr, Inhabited

/-- A Feldin link (R426, R427): UP, its error and replay counts, consecutive failed flits, the moment of the last good flit,
and the packets sent on it, oldest first. -/
structure Link where
  up : Bool := false
  errors : Word := 0
  replays : Word := 0
  fails : Nat := 0
  lastGood : Nat := 0
  out : List (List Byte) := []
  deriving DecidableEq, Repr, Inhabited

/-- A view: its bearing block and live pair (R299, R300), its scan block (R317), its mode block (R430), and for the
strips in flight the number of the last latch whose deadline has passed, the tiles delivered (latch, column), the tiles
of passed deadlines that were missing, and the pixels of the last strip sent. -/
structure View where
  brgsx : Word := 0
  brgsy : Word := 0
  livex : Word := 0
  livey : Word := 0
  brgx : Word := 0
  brgy : Word := 0
  lseq : Word := 0
  frameBase : Nat := 0
  scanen : Bool := false
  streamen : Bool := false
  fmt : Nat := 0
  lseq0 : Word := 0
  lateStrips : Word := 0
  missTiles : Word := 0
  strDrop : Word := 0
  strBase : Nat := 0
  strSize : Word := 16
  strHead : Word := 0
  strTail : Word := 0
  pclk : Nat := 0
  hact : Nat := 0
  vact : Nat := 0
  htotal : Nat := 0
  vtotal : Nat := 0
  port : Nat := 7
  mst : Nat := 0
  dscbpp : Nat := 0
  /-- SCANEN has been cleared; it takes effect at the end of the frame. -/
  ending : Bool := false
  latched : Bool := false
  passed : Word := 0
  delivered : List (Word × Nat) := []
  toScan : List (Word × List Nat) := []
  sent : List Byte := []
  deriving DecidableEq, Repr, Inhabited

/-- A display port's trained link (R429, R430): lanes, rate in Mb/s and whether it is UHBR. -/
structure Port where
  lanes : Nat := 4
  rate : Nat := 20000
  uhbr : Bool := true
  deriving DecidableEq, Repr, Inhabited

/-- A firmware slot of the flash (R433): its image with its SVN and version, and whether its signature verifies. -/
structure FlashSlot where
  image : List Byte := []
  svn : Nat := 0
  version : Nat := 0
  ok : Bool := true
  deriving DecidableEq, Repr, Inhabited

/-- What an entry of the event log records (R411, R412, R431, R432, R436, R439, R440). -/
inductive LogKind
  /-- A start: the BOOTREASON it ends with; and a failed start with its stage. -/
  | start (bootReason : Word)
  | failedStart (stage : Nat)
  /-- A disagreement under R143: core, context, PC and lanes; and a quarantine of a core. -/
  | disagreement (core ctx pc : Nat) (lanes : Mask)
  | quarantine (core : Nat)
  | channelDrop (part ch : Nat)
  /-- A copy that differed: context, code object, team and both digests. -/
  | mismatch (ctx code team d1 d2 : Nat)
  | softDropped (count : Nat)
  | hbmTest (stack : Nat) (pass : Bool)
  deriving DecidableEq, Repr, Inhabited

/-- One entry of the event log (R440): its sequence number, its management-cycle time and what it records. -/
structure LogEntry where
  seq : Nat := 0
  time : Nat := 0
  kind : LogKind := .softDropped 0
  deriving DecidableEq, Repr, Inhabited

/-- Where the module stands between resets (R431, R432). -/
inductive BootMode
  | up
  /-- The stages before this one have ended. -/
  | starting (stage : Nat)
  | anchorage
  deriving DecidableEq, Repr, Inhabited

/-- What Binnacle last answered to its reader (R440, R441). -/
inductive Response
  | none
  | log (entries : List LogEntry) (signature : List Byte)
  | version | capabilities
  /-- Whether the one asymmetric algorithm and the one hash are among those offered. -/
  | algorithms (rsassa4096 sha512 : Bool)
  | digests (d : List Byte)
  | certificate (bytes : List Byte)
  | challengeAuth (signature : List Byte)
  | measurements (m1 m2 m3 signature : List Byte)
  deriving DecidableEq, Repr, Inhabited

/-- Binnacle: the soft-interrupt queue (R439), value, partition and context, and the count of writes it dropped; where the
module stands and why its last start ran (R431, R436), the reason of a reset that is due, the running slot; in flash the
failed-start count, anchorage mode, the slots, the active one, the boot record's SVN, the slot before an update that has not
yet started, and the flags of the start (R432, R433); the error counts (R436); the governor (R438); the sensors as last
read (R437); the event log (R440); the virtual functions enabled (R421); and the last answer. -/
structure Mgmt where
  softQ : List (Word × Nat × Nat) := []
  softDropped : Nat := 0
  mode : BootMode := .up
  reason : Nat := 0
  due : Option Nat := none
  running : Bool := false
  fsc : Nat := 0
  anchor : Bool := false
  lastStage : Nat := 0
  slotA : FlashSlot := {}
  slotB : FlashSlot := { ok := false }
  active : Bool := false
  svn : Nat := 0
  before : Option Bool := none
  fallback : Bool := false
  rollback : Bool := false
  corrected : Word := 0
  uncorr : Word := 0
  budgets : Tab Nat := [(0, 2000)]
  budgetsNow : Tab Nat := [(0, 2000)]
  budgetErr : Bool := false
  thermal : Bool := false
  power : Nat := 0
  temps : List Nat := []
  volts : List Nat := []
  current : Nat := 0
  ptRefused : Bool := false
  log : List LogEntry := []
  logSeq : Nat := 0
  vfs : Nat := 0
  response : Response := .none
  deriving DecidableEq, Repr, Inhabited

/-- One image of the partition table (R424): the partition of each unit. -/
structure PartTable where
  unit : Tab Nat := []
  mem : Tab Nat := []
  port : Tab Nat := []
  link : Tab Nat := []
  view : Tab Nat := []
  chipid : Nat := 0
  deriving DecidableEq, Repr, Inhabited

/-- What one turn does: a group's next issue, a matrix stream's next instruction, or a step of an engine, the host or
the management subsystem. -/
inductive Act
  | group (g : Nat)
  | stream (team : Nat)
  | event (i : Instr)
  deriving DecidableEq, Repr, Inhabited

/-- One turn of the module: the array cycles that pass before it, the memory units that have become uncorrectable, the
errors that have been corrected, the bytes that the host has changed in its own memory, and what happens. -/
structure Turn where
  dt : Nat := 0
  poison : List Nat := []
  corrected : Nat := 0
  host : List (Nat × Byte) := []
  act : Act := .group 0
  deriving DecidableEq, Repr, Inhabited

/-- Who is issuing in the current step. -/
inductive Cur
  | none
  | group (g : Nat)
  /-- The speculative copy of a group in run-ahead. -/
  | spec (g : Nat)
  | stream (team : Nat)
  deriving DecidableEq, Repr, Inhabited

end Sys2Proof.Machine
end

