-- ==== Sys2Proof/Config.lean ====
section
/-!
DEFINITION. What the spec leaves to an implementation or leaves open, as constants with no body: a statement about one
of them holds whatever its value is.
-/

namespace Sys2Proof.Config

/-- Which turn comes next where the agenda is empty. -/
opaque schedule : Nat → Machine.Turn
/-- A value that the spec leaves open, a fresh one for each number. -/
opaque freeValue : Nat → Nat
/-- The home slice of a line of global memory after a number of dropped channels (R251: the hash is not architectural). -/
opaque homeSlice : Nat → Nat → Nat
/-- Which free deferred-read record a new link takes (R266), among the indexes given. -/
opaque freeRecord : Nat → List Nat → Nat
/-- Which free index a new queue takes (R71), among the indexes given. -/
opaque freeQueue : Nat → List Nat → Nat
/-- The bytes of a context section of a save area beyond its first 16 and its CHECK (R400: their layout is not
architectural). -/
opaque contextBytes : Nat
/-- Whether an access uses a held translation that differs from the walked one (R221). -/
opaque useHeld : Nat → Bool
/-- The binary32 result of an approximate function outside its exact cases (R196): the OP, the operand. -/
opaque approx : Nat → Word → Word

/-- The pseudo-channel, of its partition, that holds an address of global memory, after a number of dropped channels. -/
opaque channelOf : Nat → Nat → Nat → Nat
/-- The clusters nearest to a temperature sensor: the 64 die sites, then the eight stacks (R437). -/
opaque nearest : Nat → List Nat
/-- The silicon stepping (R436). -/
opaque stepping : Nat
/-- SHA-512, and the RSA-4096 signature over a digest by the identity key (R435, R440). -/
opaque sha512 : List Byte → BitVec 512
opaque sign : BitVec 512 → BitVec 4096
/-- Whether the signature of an image with its SVN and version verifies (R433). -/
opaque verifies : List Byte → Nat → Nat → Bool
/-- The signed configuration records, and whether they verify (R434). -/
opaque configRecords : List Byte
opaque configOk : Bool
/-- The identity public key and the device certificate (R435). -/
opaque identityKey : List Byte
opaque certificate : List Byte
/-- The bytes of the boot record: the active slot and the SVN (R433). -/
opaque bootRecord : Bool → Nat → List Byte
/-- The 64 bytes of a log entry (R440: the fields of its 48 bytes of data are not given). -/
opaque logBytes : Machine.LogEntry → List Byte
/-- What an SPDM response is signed over: the request's code and its nonce (R441). -/
opaque transcript : Nat → List Byte → List Byte

end Sys2Proof.Config
end

