-- ==== Sys2Proof/Machine/State.lean ====
section
/-!
DEFINITION. The machine's state as plain data, the state after reset, and the reasons a step can stop.
-/

namespace Sys2Proof.Machine

/-- Reasons a step stops with a fault of the model. The faults and traps of the spec (R384) are no such stop: they are
next states. -/
inductive Fault
  /-- Raised by the meaning of a program instruction when no group or stream is issuing; safe: no step of the part
  executes an instruction without an issuer. -/
  | noIssuer
  deriving DecidableEq, Repr, Inhabited

/-- Reasons a step is refused. -/
inductive Refusal
  /-- Raised by an arm of the dispatch whose instruction has no meaning in the model; safe. -/
  | notModelled (mnemonic : String)
  deriving DecidableEq, Repr, Inhabited

/-- The state of the module (INVENTORY.md lists each field with its rule). -/
structure State where
  -- the model's own
  agenda : List Turn := []
  fresh : Nat := 1
  now : Nat := 0
  cur : Cur := .none
  -- memory: bytes by key, full granules, uncorrectable units, sequence tags
  mem : List Host.Cell := []
  full : List Nat := []
  poison : List Nat := []
  tags : Tab Word := []
  -- work in residence
  groups : Tab Group := []
  teams : Tab Team := []
  cores : Tab CoreSt := []
  copies : Tab Copy := []
  allocs : Tab Alloc := []
  spec : Tab Spec := []
  barObjs : Tab BarObj := []
  engines : Tab Engine := []
  grants : Tab (Nat × Nat) := []
  -- operations in flight
  ops : Tab Op := []
  futs : List FutRec := []
  futHeld : List FutRec := []
  walks : List FutWalk := []
  tlb : List Held := []
  preqs : Tab PageReq := []
  -- partitions: contexts keyed 64 * partition + context, queues keyed 1,024 * partition + index
  contexts : Tab Context := []
  queues : Tab Queue := []
  /-- The queue last served by a die's engine at a priority, keyed 8 * die + priority (R82). -/
  qServed : Tab Nat := []
  funcs : Tab Func := []
  -- launches, their gangs, the holds on clusters (keyed by cluster, helm cores from 64), and work-graph instances
  launches : Tab Launch := []
  gangs : Tab Gang := []
  holds : Tab Nat := []
  insts : Tab WInst := []
  -- ray batches keyed 256 * die + entry, scene slots keyed 16 * die + slot, passes keyed by stage cluster
  batches : Tab Batch := []
  scenes : Tab Scene := []
  passes : Tab Pass := []
  -- the fabric: pairs at their source, keyed (4,096 * partition + chip) * 8 + destination partition; packets arrived; links
  pairs : Tab Pair := []
  packets : Tab Packet := []
  links : Tab Link := []
  -- the module: partition table staged and in force, clock steps of the clusters
  ptStaged : PartTable := {}
  pt : PartTable := {}
  clkStep : Tab Nat := []
  views : Tab View := []
  ports : Tab Port := []
  tslots : Tab TSlot := []
  mgmt : Mgmt := {}
  deriving DecidableEq, Repr, Inhabited

/-- The module right after reset: every register at its reset value, nothing in residence, nothing in flight, memory
listing nothing. -/
def State.reset : State := {}

end Sys2Proof.Machine
end

