-- ==== Sys2Proof/Machine/Table.lean ====
section
/-!
DEFINITION. Operations on sorted tables and on memory. A table keeps its keys in rising order, and memory keeps no
entry equal to what an unlisted address reads as, so that equal contents are equal data.
-/

namespace Sys2Proof.Machine

/-- The entry of a key, if it is listed. -/
def Tab.get? {α : Type} : Tab α → Nat → Option α
  | [], _ => none
  | (k', v) :: t, k => if k' = k then some v else Tab.get? t k

/-- The entry of a key, or a default. -/
def Tab.getD {α : Type} (t : Tab α) (k : Nat) (d : α) : α := (Tab.get? t k).getD d

/-- The table without a key. -/
def Tab.erase {α : Type} : Tab α → Nat → Tab α
  | [], _ => []
  | (k', v) :: t, k => if k' = k then Tab.erase t k else (k', v) :: Tab.erase t k

/-- Insertion before the first larger key. -/
def Tab.insert {α : Type} : Tab α → Nat → α → Tab α
  | [], k, v => [(k, v)]
  | (k', v') :: t, k, v => if k < k' then (k, v) :: (k', v') :: t else (k', v') :: Tab.insert t k v

/-- The table with a key set. -/
def Tab.put {α : Type} (t : Tab α) (k : Nat) (v : α) : Tab α := Tab.insert (Tab.erase t k) k v

/-- The table with a key set, where entries equal to `d` are not listed. -/
def Tab.set {α : Type} [DecidableEq α] (d : α) (t : Tab α) (k : Nat) (v : α) : Tab α :=
  if v = d then Tab.erase t k else Tab.put t k v

/-- The table with one entry changed, where it is listed. -/
def Tab.modify {α : Type} (t : Tab α) (k : Nat) (f : α → α) : Tab α :=
  match Tab.get? t k with
  | some v => Tab.put t k (f v)
  | none => t

/-- The keys of a table. -/
def Tab.keys {α : Type} (t : Tab α) : List Nat := t.map Prod.fst

/-- What a byte of memory that nothing has written reads as. -/
def unlistedByte : Byte := 0

/-- The byte of a memory at a key. -/
def Memory.get (m : List Host.Cell) (k : Nat) : Byte := Tab.getD m k unlistedByte

/-- The memory with one byte written. -/
def Memory.set (m : List Host.Cell) (k : Nat) (b : Byte) : List Host.Cell := Tab.set unlistedByte m k b

/-- The memory with consecutive bytes written, the first at `k`. -/
def Memory.setBytes (m : List Host.Cell) (k : Nat) : List Byte → List Host.Cell
  | [] => m
  | b :: bs => Memory.setBytes (Memory.set m k b) (k + 1) bs

/-- `n` consecutive bytes of a memory, the first at `k`. -/
def Memory.bytes (m : List Host.Cell) (k : Nat) : Nat → List Byte
  | 0 => []
  | n + 1 => Memory.get m k :: Memory.bytes m (k + 1) n

/-- The canonical form of memory: addresses strictly rising, and no entry that an unlisted address reads as. -/
def Memory.wf (m : List Host.Cell) : Bool :=
  (m.all (fun c => c.2 != unlistedByte)) && decide ((m.map Prod.fst).Pairwise (· < ·))

/-- Insertion into a sorted set of numbers. -/
def NatSet.insert (s : List Nat) (k : Nat) : List Nat :=
  if s.contains k then s else s.filter (· < k) ++ k :: s.filter (k < ·)

/-- Removal from a set of numbers. -/
def NatSet.erase (s : List Nat) (k : Nat) : List Nat := s.filter (· != k)

/-- Bytes of memory from a key on. -/
def State.bytes (s : State) (k n : Nat) : List Byte := Memory.bytes s.mem k n

/-- The state with bytes of memory written from a key on. -/
def State.setBytes (s : State) (k : Nat) (bs : List Byte) : State := { s with mem := Memory.setBytes s.mem k bs }

/-- The little-endian number in `n` bytes of memory (R1). -/
def State.nat (s : State) (k n : Nat) : Nat := leNat (s.bytes k n)

/-- The state with an `n`-byte little-endian number written. -/
def State.setNat (s : State) (k n v : Nat) : State := s.setBytes k (leBytes n v)

/-- The values of a list of options, where every one has a value. -/
def allSome {α : Type} : List (Option α) → Option (List α)
  | [] => some []
  | none :: _ => none
  | some a :: t => (allSome t).map (a :: ·)

/-- A number not used before, for identifiers and free values. -/
def State.tick (s : State) : State := { s with fresh := s.fresh + 1 }

end Sys2Proof.Machine
end

