-- ==== Sys2Proof/Machine/Mem.lean ====
section
/-!
DEFINITION. The places of memory: which key a physical address, a scratch offset or a code offset has, the partition's
share of the module, and the targets of physical addresses (R18, R125, R215).
-/

namespace Sys2Proof.Machine

/-- The key of a byte of a partition's global memory. -/
def globalKey (part pa : Nat) : Nat := 2 ^ 52 * part + pa
/-- The key of a byte of host memory. -/
def hostKey (hpa : Nat) : Nat := 2 ^ 55 + hpa
/-- The key of a byte of a cluster's column store. -/
def columnKey (cluster off : Nat) : Nat := 2 ^ 56 + 2 ^ 25 * cluster + off
/-- The key of a byte of an allocation or a code copy. -/
def spaceKey (id off : Nat) : Nat := 2 ^ 57 + 2 ^ 32 * id + off
/-- Where a matrix stream lies in the space of its code copy. -/
def streamBase : Nat := 2 ^ 30
/-- Where the handler's code lies in the space of a code copy (R386). -/
def handlerBase : Nat := 2 ^ 31

/-- The function block of a partition. -/
def State.func (s : State) (p : Nat) : Func := Tab.getD s.funcs p {}
/-- The state with a function block replaced. -/
def State.putFunc (s : State) (p : Nat) (f : Func) : State := { s with funcs := Tab.set {} s.funcs p f }
/-- The state with a function block changed. -/
def State.modFunc (s : State) (p : Nat) (f : Func → Func) : State := s.putFunc p (f (s.func p))

/-- The clusters of a partition, in order of die and number (R125, R424). -/
def State.clusters (s : State) (p : Nat) : List Nat :=
  (List.range 64).filter (fun c => Tab.getD s.pt.unit (c / 4) 0 == p)
/-- The helm cores of a partition, in the same order. -/
def State.helmCores (s : State) (p : Nat) : List Nat :=
  (List.range 64).filter (fun c => Tab.getD s.pt.unit (c / 4) 0 == p)
/-- The number of a cluster or helm core within its partition (R125). -/
def State.relUnit (s : State) (c : Nat) : Nat :=
  ((List.range c).filter (fun d => Tab.getD s.pt.unit (d / 4) 0 == Tab.getD s.pt.unit (c / 4) 0)).length
/-- The partition's memory units (R18). -/
def State.memUnits (s : State) (p : Nat) : Nat :=
  ((List.range 128).filter (fun m => Tab.getD s.pt.mem m 0 == p)).length
/-- The capacity of a partition's global memory in bytes (R215). -/
def State.capacity (s : State) (p : Nat) : Nat :=
  3 * 2 ^ 28 * (4 * s.memUnits p - (s.func p).dropped.length)

/-- Whether a core key is a helm core. -/
def coreIsHelm (core : Nat) : Bool := decide (256 ≤ core)
/-- The cluster of an array core, or the helm core's own number. -/
def coreUnit (core : Nat) : Nat := if 256 ≤ core then core - 256 else core / 4
/-- The die of a core. -/
def coreDie (core : Nat) : Nat := coreUnit core / 32
/-- A core's scheduler. -/
def State.core (s : State) (c : Nat) : CoreSt := Tab.getD s.cores c {}
/-- The state with a core's scheduler replaced. -/
def State.putCore (s : State) (c : Nat) (k : CoreSt) : State := { s with cores := Tab.set {} s.cores c k }

/-- The number of an engine of a partition among its stop records (R394): 64 times its partition unit, plus its record
there: array cores from 0, helm cores from 16, matrix engines from 20, ray units from 24, the raster unit 28, tile-move
engines from 29. -/
def State.stopKey (s : State) (unit base : Nat) : Nat := 64 * (s.relUnit unit / 4) + base + s.relUnit unit % 4
/-- That of a core. -/
def State.coreStopKey (s : State) (core : Nat) : Nat :=
  if coreIsHelm core then s.stopKey (coreUnit core) 16
  else 64 * (s.relUnit (coreUnit core) / 4) + 4 * (s.relUnit (coreUnit core) % 4) + core % 4
/-- The cores, and every engine, of a partition by their stop records (R391, R394). -/
def State.partCores (s : State) (part : Nat) : List Nat :=
  ((s.clusters part).map (fun c => (List.range 4).map (4 * c + ·))).flatten ++ (s.helmCores part).map (256 + ·)
def State.engineKeys (s : State) (part : Nat) : List Nat :=
  ((List.range ((s.clusters part).length / 4)).map (fun u => (List.range 34).map (64 * u + ·))).flatten
/-- Whether an engine has stopped on a halt of its partition (R391). -/
def State.hasStopped (s : State) (part key : Nat) : Bool :=
  (s.func part).halted && (s.func part).stoppedEngines.contains key

/-- What a physical address reaches (R215): a byte of memory, a byte of the register window, of the kick window, or
nothing. -/
inductive Target
  | mem (key : Nat)
  | host (key : Nat)
  | reg (off : Nat)
  | kick (off : Nat)
  | nothing
  deriving DecidableEq, Repr, Inhabited

/-- The target of a physical address of a partition (R215). -/
def State.target (s : State) (part pa : Nat) : Target :=
  if pa < s.capacity part then .mem (globalKey part pa)
  else if 2 ^ 51 ≤ pa ∧ pa < 2 ^ 52 then .host (hostKey (pa - 2 ^ 51))
  else if 2 ^ 50 ≤ pa ∧ pa < 2 ^ 50 + 0x4000000 then .reg (pa - 2 ^ 50)
  else if 2 ^ 50 + 2 ^ 32 ≤ pa ∧ pa < 2 ^ 50 + 2 ^ 32 + 0x400000 then .kick (pa - (2 ^ 50 + 2 ^ 32))
  else .nothing

/-- The key of a physical address that is memory, global or host. -/
def State.physKey? (s : State) (part pa : Nat) : Option Nat :=
  match s.target part pa with
  | .mem k | .host k => some k
  | .reg _ | .kick _ | .nothing => none

/-- Bytes written by an engine at a physical address; where it reaches no memory, nothing is written. -/
def State.physWrite (s : State) (part pa : Nat) (bs : List Byte) : State :=
  match s.physKey? part pa with
  | some k => s.setBytes k bs
  | none => s

/-- Bytes read by an engine at a physical address; zeros where it reaches no memory. -/
def State.physRead (s : State) (part pa n : Nat) : List Byte :=
  match s.physKey? part pa with
  | some k => s.bytes k n
  | none => leBytes n 0

/-- A context of a partition. -/
def State.context (s : State) (part ctx : Nat) : Context := Tab.getD s.contexts (64 * part + ctx) {}
/-- A queue of a partition. -/
def State.queue (s : State) (part q : Nat) : Queue := Tab.getD s.queues (1024 * part + q) {}
/-- A team. -/
def State.team (s : State) (t : Nat) : Team := Tab.getD s.teams t {}
/-- The state with a team changed. -/
def State.modTeam (s : State) (t : Nat) (f : Team → Team) : State := { s with teams := Tab.modify s.teams t f }
/-- A code copy. -/
def State.copy (s : State) (c : Nat) : Copy := Tab.getD s.copies c {}

/-! ### The event log -/

/-- Management cycles since reset (R2). -/
def State.mgmtTime (s : State) : Nat := s.now * 16 / 25

/-- An entry written to the event log (R440). -/
def State.logEntry (s : State) (k : LogKind) : State :=
  { s with mgmt := { s.mgmt with log := s.mgmt.log ++ [⟨s.mgmt.logSeq, s.mgmtTime, k⟩], logSeq := s.mgmt.logSeq + 1 } }

end Sys2Proof.Machine
end

