-- ==== Sys2Proof/Machine/Operands.lean ====
section
/-!
DEFINITION. A group's registers and predicates, the operand forms that read them, and writes per lane (R30, R38 to R41,
R146, R147).
-/

namespace Sys2Proof.Machine

/-- One lane's word of a vector register. -/
def Group.readV (g : Group) (r l : Nat) : Word := Tab.getD g.vec (128 * r + l) 0
/-- A scalar register. -/
def Group.readS (g : Group) (r : Nat) : Word := Tab.getD g.scl r 0
/-- The group with one lane's word of a vector register written. -/
def Group.writeV (g : Group) (r l : Nat) (w : Word) : Group := { g with vec := Tab.set 0 g.vec (128 * r + l) w }
/-- The group with a scalar register written. -/
def Group.writeS (g : Group) (r : Nat) (w : Word) : Group := { g with scl := Tab.set 0 g.scl r w }
/-- One lane's predicate; p0 reads as true (R30). -/
def Group.pred (g : Group) (p l : Nat) : Bool := p == 0 || (Tab.getD g.preds p 0).getLsbD l
/-- A mask with one lane's bit set to a value. -/
def maskSet (m : Mask) (l : Nat) (b : Bool) : Mask :=
  if b then m ||| BitVec.twoPow 128 l else m &&& ~~~ (BitVec.twoPow 128 l)
/-- The group with one lane's predicate written; a write to p0 is ignored (R30). -/
def Group.writePred (g : Group) (p l : Nat) (b : Bool) : Group :=
  if p = 0 then g else { g with preds := Tab.set 0 g.preds p (maskSet (Tab.getD g.preds p 0) l b) }

/-- An immediate sign-extended (R38). -/
def immWord (v : BitVec 10) : Word := v.signExtend 32

/-- The 32-bit value of an operand in a lane (R38, R147). -/
def Group.value (g : Group) (o : Operand) (l : Nat) : Word :=
  match o with
  | .vec k => g.readV k.toNat l
  | .scl k => g.readS k.toNat
  | .imm v => immWord v
  | .prd p => if g.pred p.toNat l then 1 else 0
  | .spc _ | .none => 0

/-- Word `j` of the run that an operand names; an immediate is sign-extended over the run (R38, R39). -/
def Group.valueAt (g : Group) (o : Operand) (j l : Nat) : Word :=
  match o with
  | .vec k => g.readV (k.toNat + j) l
  | .scl k => g.readS (k.toNat + j)
  | .imm v => if j = 0 then immWord v else if v.msb then BitVec.allOnes 32 else 0
  | .prd _ | .spc _ | .none => 0

/-- The 64-bit value of a pair, the low word in the lower register (R39). -/
def Group.value64 (g : Group) (o : Operand) (l : Nat) : DWord := g.valueAt o 1 l ++ g.valueAt o 0 l

/-- The words of a run of `n` registers, lowest first. -/
def Group.valueRun (g : Group) (o : Operand) (n l : Nat) : List Word := (List.range n).map (fun j => g.valueAt o j l)

/-- A run of words as one number (R181). -/
def wordsNat : List Word → Nat
  | [] => 0
  | w :: ws => w.toNat + 2 ^ 32 * wordsNat ws

/-- A number as `n` words, lowest first. -/
def natWords : Nat → Nat → List Word
  | 0, _ => []
  | n + 1, v => BitVec.ofNat 32 v :: natWords n (v / 2 ^ 32)

/-- The words of little-endian bytes, zero-padded. -/
def bytesWords (n : Nat) (bs : List Byte) : List Word := natWords n (leNat bs)

/-- Whether a predicate operand holds in a lane. -/
def Group.holds (g : Group) (o : Operand) (l : Nat) : Bool :=
  match o with
  | .prd p => g.pred p.toNat l
  | .vec _ | .scl _ | .spc _ | .imm _ | .none => false

/-- The run of words at a destination written in one lane. -/
def Group.putRun (g : Group) (d : Operand) (j l : Nat) : List Word → Group
  | [] => g
  | w :: ws =>
    match d with
    | .vec k => (g.writeV (k.toNat + j) l w).putRun d (j + 1) l ws
    | .scl k => (g.writeS (k.toNat + j) w).putRun d (j + 1) l ws
    | .prd _ | .spc _ | .imm _ | .none => g

/-- A destination written in every lane of a set: a vector register lane by lane, a scalar once, from the lowest lane
(R147). -/
def Group.writeRuns (g : Group) (d : Operand) (ls : List Nat) (f : Nat → List Word) : Group :=
  match d with
  | .scl _ =>
    match ls with
    | [] => g
    | l :: _ => g.putRun d 0 l (f l)
  | .vec _ => ls.foldl (fun g l => g.putRun d 0 l (f l)) g
  | .prd _ | .spc _ | .imm _ | .none => g

/-- A 32-bit destination written in every lane of a set. -/
def Group.writeWords (g : Group) (d : Operand) (ls : List Nat) (f : Nat → Word) : Group :=
  g.writeRuns d ls (fun l => [f l])

/-- A 64-bit destination written in every lane of a set. -/
def Group.writePairs (g : Group) (d : Operand) (ls : List Nat) (f : Nat → DWord) : Group :=
  g.writeRuns d ls (fun l => [(f l).setWidth 32, ((f l) >>> 32).setWidth 32])

/-- A predicate destination written in every lane of a set (R147). -/
def Group.writePreds (g : Group) (d : Operand) (ls : List Nat) (f : Nat → Bool) : Group :=
  match d with
  | .prd p => ls.foldl (fun g l => g.writePred p.toNat l (f l)) g
  | .vec _ | .scl _ | .spc _ | .imm _ | .none => g

/-- The optional predicate pQ written in every lane of a set (R206). -/
def Group.writeOptPred (g : Group) (q : Option (BitVec 4)) (ls : List Nat) (f : Nat → Bool) : Group :=
  match q with
  | none => g
  | some p => g.writePreds (.prd p) ls f

/-- The lanes of a mask, ascending, among the first `n`. -/
def maskLanes (n : Nat) (m : Mask) : List Nat := (List.range n).filter (fun l => m.getLsbD l)

/-- The mask of a set of lanes. -/
def lanesMask : List Nat → Mask
  | [] => 0
  | l :: ls => lanesMask ls ||| BitVec.twoPow 128 l

/-- The frontier entry whose clause the group is issuing (R133). -/
def Group.entry? (g : Group) : Option Entry :=
  match g.clause with
  | none => none
  | some c => g.frontier.find? (fun e => e.pc == c.pc && e.handler == c.handler)

/-- The active lanes: those of the issuing entry (R145). -/
def Group.active (g : Group) : List Nat :=
  match g.entry? with
  | none => []
  | some e => maskLanes g.lanes e.mask

/-- A lane's guard (R40). -/
def Group.guard (g : Group) (o : Slot) (l : Nat) : Bool := g.pred o.p.toNat l != o.neg

/-- The active lanes whose guard is true. -/
def Group.guarded (g : Group) (o : Slot) : List Nat := g.active.filter (g.guard o)

/-- The registers a run names. -/
def operandRegs (o : Operand) (n : Nat) : List RegName :=
  match o with
  | .vec k => (List.range n).map (fun j => .v (k.toNat + j))
  | .scl k => (List.range n).map (fun j => .s (k.toNat + j))
  | .prd p => [.p p.toNat]
  | .spc _ | .imm _ | .none => []

/-- The registers a form reads: its sources, N included, and the run named in E. -/
def formSources (f : Form) : List RegName :=
  operandRegs f.slot.a f.a.n ++ operandRegs f.slot.b f.b.n ++ operandRegs f.slot.c f.c.n ++ operandRegs f.slot.n f.n.n
    ++ (match f.srun with
      | none => []
      | some (k, n) => (List.range n).map (fun j => .s (k + j)))

/-- The registers a form writes: D and the predicates named in E. -/
def formDests (f : Form) : List RegName := operandRegs f.slot.d f.d.n ++ f.preds.map (fun p => .p p.toNat)

/-- Every register a form names (R26, R49). -/
def formNames (f : Form) : List RegName := formDests f ++ formSources f

/-- Whether a register lies within a group's budget (R26). -/
def Group.inBudget (g : Group) : RegName → Bool
  | .v i => decide (i < g.vregs)
  | .s i => decide (i < g.sregs)
  | .p _ => true

/-- Whether a register is pending (R49). -/
def Group.isPending (g : Group) (r : RegName) : Bool := g.pending.any (fun x => x.1 == r)

/-- The pending operations of a completion flag (R46). -/
def Group.flagOps (g : Group) (f : Nat) : List Nat := Tab.getD g.flags f []
/-- The counted operations of an engine counter, oldest first (R166). -/
def Group.counterOps (g : Group) (k : Nat) : List (Nat × Bool) := Tab.getD g.counters k []
/-- The value of an engine counter (R166). -/
def Group.counter (g : Group) (k : Nat) : Nat := (g.counterOps k).length

end Sys2Proof.Machine
end

