-- ==== Sys2Proof/Machine/Xlate.lean ====
section
/-!
DEFINITION. Address translation: the page-table walk, held translations and the checks on one access (R215 to R223).
-/

namespace Sys2Proof.Machine

/-- What a walk finds (R216 to R218). -/
inductive WalkRes
  | leaf (l : Leaf)
  | miss
  | malformed
  deriving DecidableEq, Repr, Inhabited

/-- Whether a physical range reaches one kind of target throughout, and whether that target is memory (R218). -/
def State.rangeTarget (s : State) (part pa size : Nat) : Target :=
  match s.target part pa, s.target part (pa + size - 1) with
  | .mem k, .mem _ => .mem k
  | .host k, .host _ => .host k
  | .reg o, .reg _ => .reg o
  | .kick o, .kick _ => .kick o
  | _, _ => .nothing

/-- What one entry of the walk is, at the level whose index begins at bit `sh` (R217, R218): a leaf, the next table
with its shared and copy-on-write marks, a miss or a malformed entry. -/
inductive EntryRes
  | leaf (l : Leaf)
  | next (base : Nat) (sro cow : Bool)
  | miss
  | malformed
  deriving DecidableEq, Repr, Inhabited

/-- One page-table entry read (R217, R218). -/
def State.readEntry (s : State) (part sh e : Nat) : EntryRes :=
  if !natBit e 0 then .miss
  else if natField e 11 6 != 0 || natField e 63 52 != 0 then .malformed
  else if natBit e 1 then
    if sh != 12 && sh != 21 && sh != 30 then .malformed
    else if natField e 51 12 * 4096 % 2 ^ sh != 0 then .malformed
    else if natBit e 2 && (natBit e 3 || natBit e 4) then .malformed
    else match s.rangeTarget part (natField e 51 12 * 4096) (2 ^ sh) with
      | .nothing => .malformed
      | .reg _ | .kick _ =>
        if natBit e 5 then .leaf ⟨natField e 51 12 * 4096, 2 ^ sh, natBit e 2, natBit e 3, natBit e 4, true⟩
        else .malformed
      | .mem _ | .host _ =>
        .leaf ⟨natField e 51 12 * 4096, 2 ^ sh, natBit e 2, natBit e 3, natBit e 4, natBit e 5⟩
  else
    if sh == 12 || natBit e 2 || natBit e 5 then .malformed
    else match s.rangeTarget part (natField e 51 12 * 4096) 4096 with
      | .mem _ | .host _ => .next (natField e 51 12 * 4096) (natBit e 3) (natBit e 4)
      | .reg _ | .kick _ | .nothing => .malformed

/-- The walk over the levels given by their lowest index bits, from a table on; marks of pointers apply to every leaf
beneath (R216, R217). -/
def State.walkFrom (s : State) (part va : Nat) : List Nat → Nat → Bool → Bool → WalkRes
  | [], _, _, _ => .malformed
  | sh :: rest, base, sro, cow =>
    match s.readEntry part sh (leNat (s.physRead part (base + 8 * (va / 2 ^ sh % (if sh = 48 then 64 else 512))) 8)) with
    | .miss => .miss
    | .malformed => .malformed
    | .leaf l => .leaf { l with sro := l.sro || sro, cow := l.cow || cow }
    | .next b r c => s.walkFrom part va rest b (sro || r) (cow || c)

/-- The walk of a virtual address in a context (R216). -/
def State.walk (s : State) (part ctx va : Nat) : WalkRes :=
  s.walkFrom part va [48, 39, 30, 21, 12] (s.context part ctx).ptroot false false

/-- The translating unit of a core (R221): its cluster's map unit, or the helm core itself. -/
def coreTransUnit (core : Nat) : Nat := if coreIsHelm core then 64 + coreUnit core else coreUnit core
/-- The translating unit of a die's queue engine, of its receiver and of a raster unit (R221). -/
def queueTransUnit (die : Nat) : Nat := 128 + die
def receiverTransUnit (die : Nat) : Nat := 130 + die
def rasterTransUnit (u : Nat) : Nat := 132 + u

/-- The translation a unit holds for an address, if any (R221). -/
def State.held? (s : State) (unit part ctx va : Nat) : Option Leaf :=
  (s.tlb.find? (fun h => h.unit == unit && h.ctx == 64 * part + ctx && h.page == va / h.leaf.size * h.leaf.size)).map
    Held.leaf

/-- The translation of an address for a unit: a held one, or the walk (R221). -/
def State.translate (s : State) (unit part ctx va : Nat) : WalkRes :=
  match s.held? unit part ctx va with
  | none => s.walk part ctx va
  | some l => if Config.useHeld s.fresh then .leaf l else s.walk part ctx va

/-- The state in which a unit holds the translation that it has just used (R221); misses are never held. -/
def State.hold (s : State) (unit part ctx va : Nat) : State :=
  match s.walk part ctx va with
  | .leaf l =>
    if (s.held? unit part ctx va).isSome then s
    else { s with tlb := ⟨unit, 64 * part + ctx, va / l.size * l.size, l⟩ :: s.tlb }
  | .miss | .malformed => s

/-- The outcome of the checks on one access (R223): its target, a fault with its reason, or a recoverable miss. -/
inductive Xl
  | ok (t : Target) (so : Bool)
  | bad (c : Cause) (reason : Nat)
  | miss (r : PageRec)
  deriving DecidableEq, Repr, Inhabited

/-- The checks of R223 on one address, steps 2 to 6, with R254's check. -/
def State.access (s : State) (unit part ctx va : Nat) (write soOk hostOk : Bool) : Xl :=
  if 2 ^ 54 ≤ va then .bad .prot 0x05
  else match s.translate unit part ctx va with
    | .malformed => .bad .nomap 2
    | .miss => .miss { page := va / 4096 * 4096, write := write, va := va }
    | .leaf l =>
      if write && !(l.w && !l.sro) then
        if l.cow then .miss { page := va / 4096 * 4096, write := true, cow := true, va := va } else .bad .prot 0x10
      else if l.so && !soOk then .bad .prot 0x11
      else match s.target part (l.pa + va % l.size) with
        | .host k => if hostOk then .ok (.host k) l.so else .bad .prot 0x12
        | .mem k => .ok (.mem k) l.so
        | .reg o => .ok (.reg o) l.so
        | .kick o => .ok (.kick o) l.so
        | .nothing => .bad .nomap 2

end Sys2Proof.Machine
end

