-- ==== Sys2Proof/Machine/Ops.lean ====
section
/-!
DEFINITION. The shared operations of issue: the frontier and the ends of clauses, the two-level scheduler, taking a
trap or a fault and returning from a handler, run-ahead, and the issue of one slot with its checks (R40 to R54, R132 to
R145, R224 to R227, R384 to R393).
-/

namespace Sys2Proof.Machine

/-- The code of a cause (R384). -/
def Cause.code : Cause → Nat
  | .undef => 0x01 | .illopnd => 0x02 | .illclause => 0x03 | .hazard => 0x04 | .frontierOvf => 0x05
  | .align => 0x06 | .prot => 0x07 | .nomap => 0x08 | .bufstate => 0x09 | .scratchRange => 0x0A
  | .barStale => 0x0B | .barOver => 0x0C | .detViol => 0x0D | .detXovf => 0x0E | .codeRange => 0x0F
  | .ueMem => 0x10 | .rinvFail => 0x11 | .trap => 0x12 | .bkpt => 0x13 | .recpool => 0x14

/-- Whether a cause is a trap when a handler can run (R384). -/
def Cause.isTrap : Cause → Bool
  | .detViol | .detXovf | .rinvFail | .trap | .bkpt => true
  | .undef | .illopnd | .illclause | .hazard | .frontierOvf | .align | .prot | .nomap | .bufstate | .scratchRange
  | .barStale | .barOver | .codeRange | .ueMem | .recpool => false

/-! ### Groups in the state -/

/-- A group. -/
def State.group (s : State) (g : Nat) : Group := Tab.getD s.groups g {}
/-- The state with a group replaced. -/
def State.putGroup (s : State) (id : Nat) (g : Group) : State := { s with groups := Tab.put s.groups id g }
/-- The state with a listed group changed. -/
def State.modGroup (s : State) (id : Nat) (f : Group → Group) : State :=
  { s with groups := Tab.modify s.groups id f }

/-- The number of the issuing group. -/
def State.curId (s : State) : Nat :=
  match s.cur with
  | .group g | .spec g => g
  | .none | .stream _ => 0

/-- The issuing group: in run-ahead its speculative copy (R224). -/
def State.curGroup? (s : State) : Option Group :=
  match s.cur with
  | .group g => Tab.get? s.groups g
  | .spec g => (Tab.get? s.spec g).map Spec.g
  | .none | .stream _ => none

/-- The state with the issuing group replaced. -/
def State.putCur (s : State) (g : Group) : State :=
  match s.cur with
  | .group id => s.putGroup id g
  | .spec id => { s with spec := Tab.modify s.spec id (fun sp => { sp with g := g }) }
  | .none | .stream _ => s

/-! ### Code -/

/-- The size of the code that a group runs, its kernel's or its handler's (R131, R386). -/
def State.codeSize (s : State) (g : Group) (handler : Bool) : Nat :=
  if handler then ((s.copy (s.team g.team).copy).handlerSize).getD 0 else (s.copy (s.team g.team).copy).codeSize

/-- The word at an offset of a group's code, where it lies below CODESIZE. -/
def State.codeWord? (s : State) (g : Group) (handler : Bool) (off : Nat) : Option Nat :=
  if off + 12 ≤ s.codeSize g handler then
    some (s.nat (spaceKey (s.team g.team).copy ((if handler then handlerBase else 0) + off)) 12)
  else none

/-- The priority of the clause at an offset: bits [51:44] of the word there (R134). -/
def State.prioAt (s : State) (g : Group) (handler : Bool) (off : Nat) : Nat :=
  match s.codeWord? g handler off with
  | some w => natField w 51 44
  | none => 0

/-! ### The frontier -/

/-- The ranking of entries (R132). -/
def Entry.above (a b : Entry) : Bool := decide (b.prio < a.prio) || (a.prio == b.prio && decide (a.pc < b.pc))

/-- The highest-ranked of a list of entries. -/
def topEntry : List Entry → Option Entry
  | [] => none
  | e :: es =>
    match topEntry es with
    | none => some e
    | some t => if t.above e then some t else some e

/-- The entry that the group takes next: while any handler entry exists, no other (R133, R387). -/
def Group.next? (g : Group) : Option Entry :=
  if g.frontier.any Entry.handler then topEntry (g.frontier.filter Entry.handler) else topEntry g.frontier

/-- A frontier with one lane handed to a PC: merged into the entry there, or a new entry (R134). -/
def addLane (fr : List Entry) (handler : Bool) (pc prio l : Nat) : List Entry :=
  if fr.any (fun e => e.pc == pc && e.handler == handler) then
    fr.map (fun e => if e.pc == pc && e.handler == handler then { e with mask := maskSet e.mask l true, prio := prio }
      else e)
  else fr ++ [⟨pc, prio, maskSet 0 l true, handler⟩]

/-- The frontier after the end of the issuing clause: the issuing entry removed, its lanes that stay handed to their
next PCs (R134). -/
def Group.handOn (g : Group) (prio : Nat → Nat) (leave : Nat → Bool) (next : Nat → Nat) : List Entry :=
  match g.clause, g.entry? with
  | some c, some e =>
    ((maskLanes g.lanes e.mask).filter (fun l => !leave l)).foldl
      (fun fr l => addLane fr c.handler (next l) (prio (next l)) l)
      (g.frontier.filter (fun x => !(x.pc == c.pc && x.handler == c.handler)))
  | _, _ => g.frontier

/-- The offset of the word that follows the issuing clause. -/
def Clause.follow (c : Clause) : Nat := c.pc + 12 * (c.len + 1)
/-- The offset of the current slot. -/
def Clause.slotPc (c : Clause) : Nat := c.pc + 12 * (c.slot + 1)
/-- The current slot is the last. -/
def Clause.last (c : Clause) : Bool := decide (c.len ≤ c.slot + 1)

/-! ### The two-level scheduler -/

/-- The size of a core's active set (R139). -/
def activeSize (core : Nat) : Nat := if coreIsHelm core then 4 else 8

/-- Whether a condition of R138 holds a group, or it can issue no more. -/
def Group.waiting (g : Group) : Bool := g.wait.isSome || g.trapping.isSome || g.stopped

/-- The moment of entry into the active set recorded (R139). -/
def CoreSt.enter (k : CoreSt) (g : Nat) : CoreSt := { k with entered := Tab.put k.entered g k.cycles }

/-- One exchange of an active group with the head of the ready queue (R139). -/
def CoreSt.swap (k : CoreSt) (g : Nat) (toTail : Bool) : CoreSt :=
  match k.ready with
  | [] => k
  | h :: t =>
    if k.active.contains g then
      ({ k with active := k.active.map (fun x => if x == g then h else x),
                ready := if toTail then t ++ [g] else t, entered := Tab.erase k.entered g }).enter h
    else k

/-- Free places of the active set filled from the ready queue (R139). -/
def CoreSt.fill (size : Nat) : Nat → CoreSt → CoreSt
  | 0, k => k
  | n + 1, k =>
    match k.ready with
    | [] => k
    | h :: t =>
      if k.active.length < size then
        CoreSt.fill size n (({ k with active := k.active ++ [h], ready := t }).enter h)
      else k

/-- The core after a change of its sets: free places filled, and waiting active groups swapped while the ready queue is
non-empty (R139). -/
def State.settle (s : State) (core : Nat) : State :=
  s.putCore core
    (((CoreSt.fill (activeSize core) (s.core core).ready.length (s.core core)).active.filter
        (fun g => (s.group g).waiting)).foldl (fun k g => k.swap g false)
      (CoreSt.fill (activeSize core) (s.core core).ready.length (s.core core)))

/-- A group begins to wait (R138, R139). -/
def State.beginWait (s : State) (g : Nat) (w : Wait) : State :=
  (s.modGroup g (fun x => { x with wait := some w })).settle (s.group g).core

/-- A group that has become ready joins the tail of the ready queue unless it is active (R139). -/
def State.becomeReady (s : State) (g : Nat) : State :=
  if (s.core (s.group g).core).active.contains g || (s.core (s.group g).core).ready.contains g then s
  else (s.putCore (s.group g).core
      { s.core (s.group g).core with ready := (s.core (s.group g).core).ready ++ [g] }).settle (s.group g).core

/-- A group's wait ends (R138). -/
def State.endWait (s : State) (g : Nat) : State :=
  (s.modGroup g (fun x => { x with wait := none })).becomeReady g

/-- A group leaves its core's sets (R139). -/
def State.leaveCore (s : State) (g : Nat) : State :=
  (s.putCore (s.group g).core
    { s.core (s.group g).core with
      active := (s.core (s.group g).core).active.filter (· != g)
      ready := (s.core (s.group g).core).ready.filter (· != g)
      entered := Tab.erase (s.core (s.group g).core).entered g }).settle (s.group g).core

/-- An offered place: swapped with the head of the ready queue, if there is one (R139). -/
def State.offerPlace (s : State) (g : Nat) : State :=
  s.putCore (s.group g).core ((s.core (s.group g).core).swap g true)

/-- Every lane has left the frontier: the group begins to drain (R134, R139). -/
def State.drain (s : State) (g : Nat) : State :=
  (s.modGroup g (fun x => { x with draining := true, clause := none })).leaveCore g

/-! ### Faults -/

/-- The ORIGIN of a group (R227): its partition-relative cluster or helm core, its core, slot and die. -/
def State.origin (s : State) (g : Group) : Nat :=
  s.relUnit (coreUnit g.core) + 128 * bitNat (coreIsHelm g.core)
    + 256 * (if coreIsHelm g.core then 0 else g.core % 4) + 1024 * g.gslot + 65536 * coreDie g.core

/-- What a fault record says (R393). -/
structure FaultInfo where
  cause : Cause := .undef
  precise : Bool := true
  nested : Bool := false
  stream : Bool := false
  engine : Bool := false
  queue : Nat := 0xFFFF
  pc : Nat := 0
  info : Word := 0
  ctx : Nat := 0
  group : Nat := 0
  team : Nat := 0
  origin : Nat := 0
  va : Nat := 0
  handle : Word := 0
  cycles : Nat := 0
  deriving DecidableEq, Repr, Inhabited

/-- The 64 bytes of a fault record (R393). -/
def FaultInfo.bytes (f : FaultInfo) (fcount : Nat) : List Byte :=
  leBytes 1 f.cause.code
    ++ leBytes 1 (bitNat f.precise + 2 * bitNat f.nested + 4 * bitNat f.stream + 8 * bitNat f.engine)
    ++ leBytes 2 f.queue ++ leBytes 4 f.pc ++ leBytes 4 f.info.toNat ++ leBytes 1 f.ctx ++ leBytes 1 f.group
    ++ leBytes 2 0 ++ leBytes 8 f.team ++ leBytes 4 f.origin ++ leBytes 4 fcount ++ leBytes 8 f.va
    ++ leBytes 4 f.handle.toNat ++ leBytes 8 f.cycles ++ leBytes 12 0

/-- The live contexts of a partition. -/
def State.liveContexts (s : State) (part : Nat) : List Nat :=
  (List.range 64).filter (fun c => (s.context part c).live)

/-- An interrupt vector of a function is signalled (R423). -/
def State.signal (s : State) (part vec : Nat) : State :=
  s.modFunc part (fun f => { f with vectors := f.vectors ++ [vec] })

/-- The engines of a partition that are idle, by their stop records (R394): cores without a group, matrix engines without a
pass or commit, ray units without a pass, raster units without a slot in use, tile-move engines without a move. -/
def State.idleEngines (s : State) (part : Nat) : List Nat :=
  let on := fun (core : Nat) => s.groups.any (fun g => g.2.core == core && !g.2.retired)
  let moves := fun (p : Nat → Bool) => s.ops.any (fun o => (match o.2.body with
    | .tmov _ => true
    | _ => false) && p (s.group o.2.group).core)
  ((s.partCores part).filter (fun k => !on k)).map s.coreStopKey
    ++ ((s.clusters part).filter (fun c => Tab.getD s.engines c {} == {})).map (fun c => s.stopKey c 20)
    ++ ((s.clusters part).filter (fun c => (Tab.get? s.passes c).isNone)).map (fun c => s.stopKey c 24)
    ++ ((s.clusters part).filter (fun c => c % 4 == 0 && !(s.tslots.any (fun x => x.1 / 16 / 4 == 64 + c / 4)))).map
      (fun c => s.stopKey c 28)
    ++ ((s.clusters part).filter (fun c => !moves (fun k => !coreIsHelm k && coreUnit k == c))).map (fun c => s.stopKey c 29)
    ++ ((s.clusters part).filter (fun c => c % 4 == 0 && !moves (fun k => coreIsHelm k && coreUnit k / 4 == c / 4))).map
      (fun c => s.stopKey c 33)

/-- A fault asserts the partition's halt line (R390, R393): the first writes the fault record; one within the skid adds
to FCOUNT. -/
def State.haltAssert (s : State) (part : Nat) (f : FaultInfo) : State :=
  if (s.func part).halted then
    let n := (s.func part).fcount + 1
    let s := s.modFunc part (fun b => { b with fcount := n })
    if (s.func part).stopBase = 0 then s else s.physWrite part ((s.func part).stopBase + 28) (leBytes 4 n)
  else
    let s := (s.modFunc part (fun b =>
      { b with halted := true, stopped := false, fcount := 0, haltMoment := s.now,
               haltCtxs := s.liveContexts part, stoppedEngines := [], engFaults := []
               haltIdle := s.idleEngines part })).signal part 3
    let s : State := { s with cores := s.cores.map (fun k =>
      if (s.partCores part).contains k.1 then (k.1, { k.2 with after := 0 }) else k) }
    if (s.func part).stopBase = 0 then s else s.physWrite part (s.func part).stopBase (f.bytes 0)

/-- The fault record of a group's fault. -/
def State.groupFault (s : State) (g : Group) (pc : Nat) (c : Cause) (info : Word) (va : Nat) (handle : Word) :
    FaultInfo :=
  { cause := c, nested := c.isTrap && g.handler.isSome, queue := if (s.team g.team).receiver then 0xFFFF else g.queue,
    pc := pc, info := info, ctx := g.ctx, group := g.number, team := (s.team g.team).lin, origin := s.origin g,
    va := va, handle := handle, cycles := (s.core g.core).cycles }

/-- The group at the slot where its fault was raised: its trap registers hold the fault, and it stays there. -/
def Group.faulted (g : Group) (pc : Nat) (c : Cause) (info : Word) : Group :=
  { g with trapPc := BitVec.ofNat 32 pc, trapCause := BitVec.ofNat 32 c.code, trapInfo := info, stopped := true }

/-- A cause noted for a team under comparison (R411). -/
def Group.note (checked : Bool) (pc : Nat) (c : Cause) (g : Group) : Group :=
  if checked then { g with raised := g.raised ++ [(pc, c)] } else g

/-- A precise fault of a group (R54, R390). A re-executed copy never asserts the halt line (R411). -/
def State.raiseFault (s : State) (id pc : Nat) (c : Cause) (info : Word) (va : Nat) (handle : Word) : State :=
  (((if (s.team (s.group id).team).copyOf.isSome then s
      else s.haltAssert (s.group id).part (s.groupFault (s.group id) pc c info va handle))).putGroup id
    (((s.group id).faulted pc c info).note (s.team (s.group id).team).checked pc c)).settle (s.group id).core

/-- Whether a trap of a group can run a handler (R389). -/
def State.canTrap (s : State) (g : Group) : Bool :=
  (s.team g.team).trapen && (s.context g.part g.ctx).traph != 0 && g.handler.isNone

/-- One slot issued (R142). -/
def Group.countSlot (g : Group) : Group := { g with clock := g.clock + 1, misses := (0, 0) }

/-- A cause raised by a group: a trap where it is one and a handler can run, else a fault (R384, R385, R389). A trapping
slot has issued, and counts in $clock. -/
def State.raise (s : State) (id pc : Nat) (c : Cause) (info : Word) (va : Nat) (handle : Word) : State :=
  if c.isTrap && s.canTrap (s.group id) then
    (s.modGroup id (fun g =>
      { (g.note (s.team g.team).checked pc c).countSlot with trapping := some ⟨pc, c, info⟩ })).settle (s.group id).core
  else s.raiseFault id pc c info va handle

/-- Entering the handler (R385): the trapping entry leaves the frontier, a handler entry takes its lanes, and the trap
registers are set. -/
def State.enterHandler (s : State) (id : Nat) (r : TrapReq) : State :=
  let g := s.group id
  match g.clause, g.entry? with
  | some c, some e =>
    let entry := (s.copy (s.team g.team).copy).handlerEntry
    (s.putGroup id
      { g with trapping := none, trapPc := BitVec.ofNat 32 r.pc, trapCause := BitVec.ofNat 32 r.cause.code,
               trapInfo := r.info, clause := none
               handler := some ⟨e, c, BitVec.ofNat 32 r.pc⟩
               frontier := g.frontier.filter (fun x => !(x.pc == c.pc && x.handler == c.handler))
                 ++ [⟨entry, s.prioAt g true entry, e.mask, true⟩] }).becomeReady id
  | _, _ => s

/-- A frontier with an entry restored: merged where one holds its PC (R132, R388). -/
def restoreEntry (fr : List Entry) (e : Entry) : List Entry :=
  if fr.any (fun x => x.pc == e.pc && x.handler == e.handler) then
    fr.map (fun x => if x.pc == e.pc && x.handler == e.handler then { x with mask := x.mask ||| e.mask } else x)
  else fr ++ [e]

/-- The return from a handler (R388): the trapped lanes resume after the trapping slot, or enter the clause that a
changed $trappc names. -/
def Group.handlerReturn (g : Group) : Group :=
  match g.handler with
  | none => g
  | some r =>
    if g.trapPc = r.pcAtEntry then
      if r.clause.last then
        { g with handler := none, clause := none,
                 frontier := restoreEntry g.frontier { r.entry with pc := r.clause.follow } }
      else
        { g with handler := none, clause := some { r.clause with slot := r.clause.slot + 1 },
                 frontier := g.frontier ++ [r.entry] }
    else
      { g with handler := none, clause := none,
               frontier := restoreEntry g.frontier { r.entry with pc := g.trapPc.toNat } }

/-! ### The end of a slot -/

/-- The state after a clause of the issuing group has ended with a new frontier: the handler returns when its last lane
has left (R388), and a group without lanes drains (R134). -/
def State.afterClause (s : State) (g : Group) (fr : List Entry) : State :=
  let g1 : Group := { g with frontier := fr, clause := none }
  if g.handler.isSome && !(fr.any Entry.handler) then s.putCur g1.handlerReturn
  else if fr.isEmpty then (s.putCur g1).drain s.curId
  else s.putCur g1

/-- A slot issued while the halt line is asserted is counted for its core's stop record (R394). -/
def State.countAfter (s : State) (id : Nat) : State :=
  if (s.func (s.group id).part).halted then
    s.putCore (s.group id).core { s.core (s.group id).core with after := (s.core (s.group id).core).after + 1 }
  else s

/-- The issuing group moves past its slot: to the next slot, or by sequential flow to the following header (R45, R134);
an instruction with yield then offers its place (R42, R139). -/
def State.finishSlot (s : State) (yield : Bool) : State :=
  match s.curGroup? with
  | none => s
  | some g =>
    match g.clause with
    | none => s
    | some c =>
      let s1 :=
        if c.last then
          s.afterClause g.countSlot
            (g.handOn (s.prioAt g c.handler) (fun _ => false) (fun _ => c.follow))
        else s.putCur { g.countSlot with clause := some { c with slot := c.slot + 1 } }
      match s.cur with
      | .group id => if yield then (s1.countAfter id).offerPlace id else s1.countAfter id
      | .spec _ | .stream _ | .none => s1

/-! ### Page requests and run-ahead -/

/-- The ring size in entries (R222): a power of two from 16 to 4,096, else 16. -/
def ringSize (w : Word) (max : Nat) : Nat :=
  if w &&& (w - 1) = 0 ∧ 16 ≤ w.toNat ∧ w.toNat ≤ max then w.toNat else 16

/-- The 256 bytes of a page-request entry (R227). -/
def PageReq.bytes (r : PageReq) (id : Nat) : List Byte :=
  leBytes 1 r.ctx ++ leBytes 1 r.kind ++ leBytes 1 r.pages.length ++ leBytes 1 0 ++ leBytes 4 id ++ leBytes 4 r.pc
    ++ leBytes 4 r.origin.toNat ++ leBytes 16 0
    ++ (r.pages.map (fun p => leBytes 8 (p.page + bitNat p.write + 2 * bitNat p.cow))).flatten
    ++ leBytes (8 * (28 - r.pages.length)) 0

/-- The vector of the page-request interrupt (R423). -/
def prqVector : Nat := 2

/-- A request enters the ring if there is room (R227). -/
def State.postRequest (s : State) (key : Nat) : State :=
  match Tab.get? s.preqs key with
  | none => s
  | some r =>
    let f := s.func r.part
    let size := ringSize f.prqSize 4096
    if r.posted ∨ f.prqHead - f.prqTail = BitVec.ofNat 32 size then s
    else
      let s := s.physWrite r.part (f.prqBase + 256 * (f.prqHead.toNat % size)) (r.bytes (key % 2 ^ 32))
      let s := { s with preqs := Tab.put s.preqs key { r with posted := true } }
      (s.modFunc r.part (fun f => { f with prqHead := f.prqHead + 1 })).signal r.part prqVector

/-- A page request made (R225, R228): its key holds its partition above its REQID. -/
def State.makeRequest (s : State) (r : PageReq) : State × Nat :=
  let id := (s.func r.part).nextReq
  let key := 2 ^ 32 * r.part + id
  let s := s.modFunc r.part (fun f => { f with nextReq := (id + 1) % 2 ^ 32 })
  let s := { s with preqs := Tab.put s.preqs key r }
  if s.preqs.any (fun x => x.2.part == r.part && !x.2.posted && x.1 != key) then (s, key) else (s.postRequest key, key)

/-- What the issue of an instruction comes to. -/
inductive Eff
  /-- It has acted: the slot is complete. -/
  | done (s : State)
  /-- It waits at issue; nothing has acted. -/
  | hold (w : WaitWhy)
  /-- It has acted and the group waits; the slot is complete when the wait ends. -/
  | acted (s : State) (w : WaitWhy)
  /-- It waits at issue, and an engine has been asked for what it waits for. -/
  | held (s : State) (w : WaitWhy)
  /-- It raises a trap or a fault; nothing has acted. The virtual address and the handle go to the fault record. -/
  | raise (c : Cause) (info : Word) (va : Nat := 0) (handle : Word := 0)
  /-- It meets a recoverable miss. -/
  | miss (r : PageRec)
  /-- It has acted and ended its clause by itself: a control transfer. -/
  | jump (s : State)

/-- Run-ahead ends: the copy is dropped, a request is made for its pages and the group waits for the answer (R225). -/
def State.endRunAhead (s : State) (id : Nat) : State :=
  match Tab.get? s.spec id with
  | none => s
  | some sp =>
    let g := s.group id
    let s := { s with spec := Tab.erase s.spec id }
    let r := s.makeRequest { part := g.part, ctx := g.ctx, kind := 1, who := id, pc := sp.pc,
                             origin := BitVec.ofNat 32 (s.origin g), pages := sp.pages }
    (r.1.modGroup id (fun g => { g with request := some r.2 })).beginWait id { why := .page r.2 }

/-- The information of a target failure: the lane in [15:8] (R160). -/
def laneInfo (code lane : Nat) : Word := BitVec.ofNat 32 (code + 256 * lane)

/-- A recoverable miss of a group (R224 to R226): the sixteenth in a row of one page, or one that the ring cannot take,
is NOMAP; else the group takes a checkpoint and runs ahead with its destinations and pending registers poisoned. -/
def State.startRunAhead (s : State) (id pc : Nat) (f : Form) (r : PageRec) : State :=
  let g := s.group id
  if (s.func g.part).prqBase = 0 then s.raiseFault id pc .nomap (laneInfo 3 r.lane) r.va 0
  else if g.misses.1 = r.page + 1 ∧ 15 ≤ g.misses.2 then s.raiseFault id pc .nomap (laneInfo 4 r.lane) r.va 0
  else
    let g := { g with misses := if g.misses.1 = r.page + 1 then (r.page + 1, g.misses.2 + 1) else (r.page + 1, 0) }
    let s := s.putGroup id g
    let sp : Spec := { g := g, poison := formDests f ++ g.pending.map Prod.fst, pages := [r], count := 0, pc := pc }
    ({ s with spec := Tab.put s.spec id sp, cur := .spec id }).finishSlot false

/-- Pages added to a run-ahead, each once, in discovery order (R225). -/
def Spec.record (sp : Spec) (rs : List PageRec) : Spec :=
  rs.foldl (fun sp r => if sp.pages.any (fun p => p.page == r.page) then sp else { sp with pages := sp.pages ++ [r] }) sp

/-! ### The issue of one slot -/

/-- The control transfers (R45). -/
def isTransferOp (op : Nat) : Bool := decide (1 ≤ op ∧ op ≤ 6)

/-- The set-flag that H[20] selects (R46). -/
def Clause.flag (c : Clause) (sel : Bool) : Option Nat := if sel then c.fb else c.fa

/-- Whether an operation executes on a group's pool, in group code (R52). -/
def poolOk (p : Pool) (core : Nat) : Bool :=
  match p with
  | .both => true
  | .array => !coreIsHelm core
  | .helm => coreIsHelm core
  | .stream => false

/-- The fate of a slot by R54, up to the guard's hazard. -/
def slotFate (f : Form) (g : Group) (c : Clause) : Option Cause :=
  if isTransferOp f.op && !c.last then some .illclause
  else if f.long && (c.flag f.slot.sel).isNone then some .illclause
  else if !f.legal || !poolOk f.pool g.core then some .undef
  else if !f.operandsOk then some .illopnd
  else if !(formNames f).all g.inBudget then some .illopnd
  else if f.slot.p != 0 && g.isPending (.p f.slot.p.toNat) then some .hazard
  else none

/-- The accesses that FENCE and acquire forms hold (R260, R365): OP 0x180 to 0x37F. -/
def isAccessOp (op : Nat) : Bool := decide (0x180 ≤ op ∧ op ≤ 0x37F)

/-- The accesses that are no writes: LD, LDFUT, LDS, FEQRY, SAMPLE, WCNT and RAYQRY (R365). -/
def isReadOp (op : Nat) : Bool :=
  op == 0x180 || op == 0x186 || op == 0x200 || op == 0x20B || op == 0x2C3 || op == 0x312 || op == 0x2D3

/-- Operations that are not yet complete. -/
def State.pendingOps (s : State) (ids : List Nat) : List Nat := ids.filter (fun i => (Tab.get? s.ops i).isSome)

/-- What holds an instruction of a group behind its acquires and fences (R260, R365). -/
def State.gate (s : State) (g : Group) (op : Nat) : List Nat :=
  (if isAccessOp op then s.pendingOps g.acq else [])
    ++ (g.gates.map (fun t =>
        if (isAccessOp op || op == 9) && (t.all || !isReadOp op) then s.pendingOps t.ids else [])).flatten

/-- Fixed-latency operations (R48): CALL, CALLI, GETSR, PLOP, PMOV, the integer, float and cross-lane ranges, CHARTXF. -/
def isFixedOp (op : Nat) : Bool :=
  op == 3 || op == 4 || op == 0x0B || op == 0x0F || op == 0x10 || decide (0x40 ≤ op ∧ op < 0x180) || op == 0x2C4

/-- A fixed-latency instruction of a context with SECHK = 1 waits to be compared with its second execution (R143). -/
def State.noteCheck (s : State) (id pc : Nat) (f : Form) (lanes : List Nat) : State :=
  if isFixedOp f.op && (s.context (s.group id).part (s.group id).ctx).sechk then
    s.modGroup id (fun g => { g with checks := g.checks ++ [(pc, lanesMask lanes)] })
  else s

/-- The outcome of an effect of the issuing group at a slot. -/
def State.applyEff (s : State) (id pc : Nat) (f : Form) (e : Eff) : State :=
  match e with
  | .done t => (t.noteCheck id pc f ((s.group id).guarded f.slot)).finishSlot (f.slot.yield || f.op == 7)
  | .hold w => s.beginWait id { why := w }
  | .held t w => t.beginWait id { why := w }
  | .acted t w => t.beginWait id { why := w, acted := true }
  | .raise c info va h => s.raise id pc c info va h
  | .miss r => s.startRunAhead id pc f r
  | .jump t =>
    let t := (t.noteCheck id pc f ((s.group id).guarded f.slot)).countAfter id
    if f.slot.yield then t.offerPlace id else t

/-- The end of one instruction of a run-ahead: the count, and the poison of its destinations. -/
def State.specStep (s : State) (id : Nat) (dests : List RegName) (bad : Bool) (rs : List PageRec) : State :=
  { s with spec := Tab.modify s.spec id (fun sp =>
      { (sp.record rs) with count := sp.count + 1
                            poison := if bad then sp.poison ++ dests
                              else sp.poison.filter (fun r => !dests.contains r) }) }

/-- Operations at which a run-ahead ends (R225). -/
def endsRunAhead (op : Nat) : Bool :=
  op == 6 || op == 13 || op == 14 || op == 8 || op == 9 || op == 10 || decide (0x300 ≤ op)

/-- One slot of a run-ahead (R224, R225). `pages` gives the missing pages of the instruction's global accesses, or
nothing where one meets a strongly ordered page. -/
def State.issueSpec (s : State) (id : Nat) (f : Form) (sp : Spec) (body : Group → List Nat → State → Eff)
    (pages : Group → List Nat → State → Option (List PageRec)) : State :=
  match sp.g.clause with
  | none => s.endRunAhead id
  | some c =>
    let g := { sp.g with pending := [] }
    let bad := (formSources f).any (fun r => sp.poison.contains r)
    if 256 ≤ sp.count || 17 ≤ sp.pages.length || endsRunAhead f.op || (slotFate f g c).isSome then s.endRunAhead id
    else if f.slot.p != 0 && sp.poison.contains (.p f.slot.p.toNat) then
      if isTransferOp f.op then s.endRunAhead id
      else (s.finishSlot false).specStep id (formDests f) true []
    else if (g.guarded f.slot).isEmpty then (s.finishSlot false).specStep id [] false []
    else if isAccessOp f.op && f.op != 0x2C4 then
      if bad then (s.finishSlot false).specStep id (formDests f) true []
      else match pages g (g.guarded f.slot) s with
        | none => s.endRunAhead id
        | some rs => (s.finishSlot false).specStep id (formDests f) true rs
    else if bad then
      if isTransferOp f.op then s.endRunAhead id else (s.finishSlot false).specStep id (formDests f) true []
    else match body g (g.guarded f.slot) s with
      | .done t => (t.finishSlot false).specStep id (formDests f) false []
      | .jump t => t.specStep id (formDests f) false []
      | .hold _ | .held _ _ | .acted _ _ | .raise _ _ _ _ | .miss _ => s.endRunAhead id

/-- The issue of one slot by the issuing group (R40 to R54): the fates in their order, the gates, the guard, the
hazards, then the instruction's own effect on the lanes whose guard is true. -/
def issueWith (i : Instr) (s : State) (pages : Group → List Nat → State → Option (List PageRec))
    (body : Group → List Nat → State → Eff) : Host.Outcome State Fault Refusal :=
  match s.cur, s.curGroup?, i.form with
  | .group id, some g, some f =>
    match g.clause with
    | none => .fault .noIssuer
    | some c =>
      match (if g.number = 0 then (s.team g.team).badBuf else none), slotFate f g c with
      | some k, _ => .next (s.raiseFault id c.slotPc .bufstate (BitVec.ofNat 32 (1 + 65536 * k)) 0 0)
      | none, some cause => .next (s.raiseFault id c.slotPc cause 0 0 0)
      | none, none =>
        if !(s.gate g f.op).isEmpty then .next (s.beginWait id { why := .ops (s.gate g f.op) })
        else if (g.guarded f.slot).isEmpty then .next (s.finishSlot (f.slot.yield || f.op == 7))
        else if (formNames f).any g.isPending then .next (s.raiseFault id c.slotPc .hazard 0 0 0)
        else .next (s.applyEff id c.slotPc f (body g (g.guarded f.slot) s))
  | .spec id, some _, some f =>
    match Tab.get? s.spec id with
    | none => .fault .noIssuer
    | some sp => .next (s.issueSpec id f sp body pages)
  | _, _, _ => .fault .noIssuer

/-- The issue of an instruction that makes no global access. -/
def issue (i : Instr) (s : State) (body : Group → List Nat → State → Eff) : Host.Outcome State Fault Refusal :=
  issueWith i s (fun _ _ _ => some []) body

/-- The issue of an instruction that only changes its group's registers. -/
def issueRegs (i : Instr) (s : State) (body : Group → List Nat → Group) : Host.Outcome State Fault Refusal :=
  issue i s (fun g ls s => .done (s.putCur (body g ls)))

end Sys2Proof.Machine
end

