-- ==== Sys2Proof/Machine/Flags.lean ====
section
/-!
DEFINITION. The float flags (R180) and the carries and comparisons of integer instructions (R151, R152).
-/

namespace Sys2Proof.Machine

/-- The bits of $fpflags that one operation raises (R180). -/
abbrev FFlags := BitVec 32

def flagNV : FFlags := 0x01
def flagDZ : FFlags := 0x02
def flagOF : FFlags := 0x04
def flagUF : FFlags := 0x08
def flagNX : FFlags := 0x10
def flagXOVF : FFlags := 0x20

/-- A flag raised where a condition holds. -/
def flagIf (b : Bool) (f : FFlags) : FFlags := if b then f else 0

/-- The group with flags ORed into $fpflags (R180). -/
def Group.orFlags (g : Group) (f : FFlags) : Group := { g with fpflags := g.fpflags ||| f }

/-- The OR of the flags of several lanes. -/
def allFlags (fs : List FFlags) : FFlags := fs.foldl (· ||| ·) 0

/-- The carry out of an unsigned `w`-bit addition (R151). -/
def carryOut (w a b c : Nat) : Bool := decide (2 ^ w ≤ a % 2 ^ w + b % 2 ^ w + c)

/-- An integer condition on exact values (R152). -/
def condHolds (c : Cond) (a b : Int) : Bool :=
  match c with
  | .eq => decide (a = b)
  | .ne => decide (a ≠ b)
  | .lt => decide (a < b)
  | .le => decide (a ≤ b)
  | .gt => decide (b < a)
  | .ge => decide (b ≤ a)

/-- A comparison combined with pC (R152). -/
def combineWith (k : Combine) (t p : Bool) : Bool :=
  match k with
  | .none => t
  | .and => t && p
  | .or => t || p
  | .xor => t != p

end Sys2Proof.Machine
end

