-- ==== Sys2Proof/Machine/Num.lean ====
section
/-!
DEFINITION. The floating formats and the exact accumulator: exact values, rounding, and the arithmetic that rounds once
(R173 to R185, R190 to R203).
-/

namespace Sys2Proof.Machine

/-- An exact value: a NaN, an infinity, or `± (m + d) * 2 ^ e` where `d` is 0, or lies strictly between 0 and 1 where
`st` holds. -/
inductive FVal
  | nan (signalling : Bool)
  | inf (neg : Bool)
  | fin (neg : Bool) (m : Nat) (e : Int) (st : Bool)
  deriving DecidableEq, Repr, Inhabited

/-- The fraction width of a format (R173). -/
def fmtW : Fmt → Nat
  | .f64 => 52 | .f32 => 23 | .f16 => 10 | .bf16 => 7 | .e4m3 => 3 | .e5m2 => 2 | .e2m1 => 1 | .e8m0 => 0
/-- The exponent width (R173). -/
def fmtE : Fmt → Nat
  | .f64 => 11 | .f32 => 8 | .f16 => 5 | .bf16 => 8 | .e4m3 => 4 | .e5m2 => 5 | .e2m1 => 2 | .e8m0 => 8
/-- The bias (R173). -/
def fmtBias : Fmt → Nat
  | .f64 => 1023 | .f32 => 127 | .f16 => 15 | .bf16 => 127 | .e4m3 => 7 | .e5m2 => 15 | .e2m1 => 1 | .e8m0 => 127
/-- The canonical NaN (R174); E2M1 has none and takes 0 (R179). -/
def fmtNaN : Fmt → Nat
  | .f64 => 0x7FF8000000000000 | .f32 => 0x7FC00000 | .f16 => 0x7E00 | .bf16 => 0x7FC0 | .e4m3 => 0x7F
  | .e5m2 => 0x7E | .e8m0 => 0xFF | .e2m1 => 0
/-- Whether a format has infinities, as binary64 has (R173). -/
def fmtHasInf : Fmt → Bool
  | .f64 | .f32 | .f16 | .bf16 | .e5m2 => true
  | .e4m3 | .e2m1 | .e8m0 => false
/-- The pattern of the largest finite magnitude (R173). -/
def fmtMax (f : Fmt) : Nat :=
  match f with
  | .e4m3 => 0x7E
  | .e2m1 => 0x7
  | .e8m0 => 0xFE
  | .f64 | .f32 | .f16 | .bf16 | .e5m2 => (2 ^ fmtE f - 1) * 2 ^ fmtW f - 1
/-- The bits of a format: an element's size in a register (R188). -/
def fmtBits (f : Fmt) : Nat :=
  match f with
  | .e8m0 => 8
  | .f64 | .f32 | .f16 | .bf16 | .e4m3 | .e5m2 | .e2m1 => 1 + fmtE f + fmtW f
/-- Whether .ftz concerns a format (R176). -/
def fmtFlushes : Fmt → Bool
  | .f32 | .f16 | .bf16 => true
  | .f64 | .e4m3 | .e5m2 | .e2m1 | .e8m0 => false

/-- The exact value of a pattern (R173, R174); under `ftz` a subnormal counts as a zero of its sign (R176). -/
def fpValue (f : Fmt) (ftz : Bool) (bits : Nat) : FVal :=
  match f with
  | .e8m0 => if bits % 256 = 255 then .nan false else .fin false 1 ((bits % 256 : Nat) - 127) false
  | .f64 | .f32 | .f16 | .bf16 | .e4m3 | .e5m2 | .e2m1 =>
    let w := fmtW f
    let m := bits % 2 ^ w
    let e := bits / 2 ^ w % 2 ^ fmtE f
    let neg := natBit bits (w + fmtE f)
    if fmtHasInf f && e == 2 ^ fmtE f - 1 then
      if m = 0 then .inf neg else .nan (f != .e5m2 && !natBit m (w - 1))
    else if f = .e4m3 && e == 15 && m == 7 then .nan false
    else if e = 0 then
      if ftz && fmtFlushes f then .fin neg 0 0 false else .fin neg m (1 - (fmtBias f : Int) - w) false
    else .fin neg (m + 2 ^ w) ((e : Int) - fmtBias f - w) false

/-- The sign of an exact value. -/
def FVal.neg? : FVal → Bool
  | .nan _ => false
  | .inf n => n
  | .fin n _ _ _ => n
/-- Whether an exact value is zero. -/
def FVal.isZero : FVal → Bool
  | .fin _ m _ st => m == 0 && !st
  | .nan _ | .inf _ => false
/-- Whether an exact value is a NaN. -/
def FVal.isNaN : FVal → Bool
  | .nan _ => true
  | .inf _ | .fin _ _ _ _ => false
/-- Whether an exact value is a signalling NaN. -/
def FVal.isSNaN : FVal → Bool
  | .nan b => b
  | .inf _ | .fin _ _ _ _ => false
/-- Whether an exact value is infinite. -/
def FVal.isInf : FVal → Bool
  | .inf _ => true
  | .nan _ | .fin _ _ _ _ => false
/-- The value with its sign flipped; a NaN keeps its kind (R187). -/
def FVal.flip : FVal → FVal
  | .nan b => .nan b
  | .inf n => .inf (!n)
  | .fin n m e st => .fin (!n) m e st
/-- The value negated under a modifier. -/
def FVal.flipIf (b : Bool) (x : FVal) : FVal := if b then x.flip else x

/-- Whether a magnitude between `k` and `k + 1` units, at `rem / 2 ^ sh` (and beyond it where `st`), rounds to
`k + 1` (R177). -/
def roundsUp (mode : RMode) (neg : Bool) (k rem sh : Nat) (st : Bool) (rnd : Nat) : Bool :=
  if rem = 0 && !st then false
  else match mode with
    | .rn => decide (2 ^ sh < 2 * rem) || (2 * rem == 2 ^ sh && (st || k % 2 == 1))
    | .rz => false
    | .ru => !neg
    | .rd => neg
    | .rs => decide (2 ^ 16 ≤ rem * 2 ^ 16 / 2 ^ sh + rnd % 2 ^ 16)

/-- A magnitude `m * 2 ^ e` (with `st`) rounded to a multiple of `2 ^ q`: the multiple, and whether it is inexact. -/
def roundAt (mode : RMode) (neg : Bool) (m : Nat) (e : Int) (st : Bool) (q : Int) (rnd : Nat) : Nat × Bool :=
  if q ≤ e then
    (m * 2 ^ (e - q).toNat + bitNat (roundsUp mode neg (m * 2 ^ (e - q).toNat) 0 0 st rnd), st)
  else
    let sh := (q - e).toNat
    let k := m / 2 ^ sh
    (k + bitNat (roundsUp mode neg k (m % 2 ^ sh) sh st rnd), m % 2 ^ sh != 0 || st)

/-- The pattern of `± k * 2 ^ q` in a format, `k` at most `2 ^ (w + 1)`, `q` at least the subnormal unit. -/
def fmtPattern (f : Fmt) (neg : Bool) (k : Nat) (q : Int) : Nat :=
  let w := fmtW f
  let s := bitNat neg * 2 ^ (w + fmtE f)
  if k < 2 ^ w then s + k
  else if k = 2 ^ (w + 1) then s + ((q + 1 + w + fmtBias f).toNat) * 2 ^ w
  else s + ((q + w + fmtBias f).toNat) * 2 ^ w + (k - 2 ^ w)

/-- The pattern of an infinity of a sign, or of a NaN of a sign in a format without infinities. -/
def fmtInf (f : Fmt) (neg : Bool) : Nat :=
  bitNat neg * 2 ^ (fmtW f + fmtE f)
    + (if f = .e4m3 then 0x7F else (2 ^ fmtE f - 1) * 2 ^ fmtW f)

/-- The largest finite value of a sign. -/
def fmtMaxOf (f : Fmt) (neg : Bool) : Nat := bitNat neg * 2 ^ (fmtW f + fmtE f) + fmtMax f

/-- The value written on overflow (R179); the NaN of E4M3 is the canonical one. -/
def overflowValue (f : Fmt) (neg sat : Bool) (mode : RMode) : Nat :=
  if sat || f = .e2m1 then fmtMaxOf f neg
  else
    let far := if f = .e4m3 then fmtNaN f else fmtInf f neg
    match mode with
    | .rn | .rs => far
    | .rz => fmtMaxOf f neg
    | .ru => if neg then fmtMaxOf f neg else far
    | .rd => if neg then far else fmtMaxOf f neg

/-- E8M0's rounding on the grid of powers of two (R198). -/
def roundE8m0 (neg : Bool) (m : Nat) (e : Int) (st : Bool) (mode : RMode) (sat : Bool) (rnd : Nat) : Nat × FFlags :=
  if m = 0 && !st then (0, flagUF ||| flagNX)
  else
    let top : Int := e + Nat.log2 m
    let rem := m - 2 ^ Nat.log2 m
    let up := roundsUp mode neg ((top + 127) % 2).toNat rem (Nat.log2 m) st rnd
    let r : Int := top + bitNat up
    let nx := flagIf (rem != 0 || st) flagNX
    if r < -127 then (0, flagUF ||| flagNX)
    else if 127 < r then
      (if sat || mode = .rz || mode = .rd then 0xFE else 0xFF, flagOF ||| flagNX)
    else ((r + 127).toNat, nx)

/-- The exact value rounded to a format, with the flags raised (R176 to R180, R183). -/
def roundFmt (f : Fmt) (x : FVal) (mode : RMode) (sat ftz : Bool) (rnd : Nat) : Nat × FFlags :=
  match x with
  | .nan sg =>
    (fmtNaN f, if f = .e2m1 || f = .e8m0 then flagNV else flagIf sg flagNV)
  | .inf neg =>
    match f with
    | .e4m3 => (if sat then fmtMaxOf f neg else fmtNaN f, flagNV)
    | .e2m1 => (fmtMaxOf f neg, flagNV)
    | .e8m0 => (0xFF, flagNV)
    | .f64 | .f32 | .f16 | .bf16 | .e5m2 => (fmtInf f neg, 0)
  | .fin neg m e st =>
    if f = .e8m0 then roundE8m0 false m e st (match mode with | .ru => .ru | .rd => .rd | r => r) sat rnd
    else if m = 0 && !st then (bitNat neg * 2 ^ (fmtW f + fmtE f), 0)
    else
      let w := fmtW f
      let emin : Int := 1 - fmtBias f
      let top : Int := e + Nat.log2 m
      let free := roundAt mode neg m e st (top - w) rnd
      let tiny := decide ((free.1 : Int) * 2 ^ (top - w + 2000).toNat < 2 ^ (emin + 2000).toNat)
      if tiny && ftz && fmtFlushes f then (bitNat neg * 2 ^ (w + fmtE f), flagUF ||| flagNX)
      else
        let q := max (top - w) (emin - w)
        let r := roundAt mode neg m e st q rnd
        if fmtMax f % 2 ^ (w + fmtE f) < fmtPattern f false r.1 q then
          (overflowValue f neg sat mode, flagOF ||| flagNX)
        else (fmtPattern f neg r.1 q, flagIf r.2 flagNX ||| flagIf (tiny && r.2) flagUF)

/-- Two dyadic magnitudes brought to one exponent. -/
def alignExp (e1 e2 : Int) : Int := min e1 e2

/-- The exact sum of two finite dyadic values as a signed number of units `2 ^ e`. -/
def dySum (n1 : Bool) (m1 : Nat) (e1 : Int) (n2 : Bool) (m2 : Nat) (e2 : Int) : Int × Int :=
  let e := alignExp e1 e2
  let a : Int := (m1 * 2 ^ (e1 - e).toNat : Nat)
  let b : Int := (m2 * 2 ^ (e2 - e).toNat : Nat)
  ((if n1 then -a else a) + (if n2 then -b else b), e)

/-- The flag of NaN operands (R174, R191). -/
def nanFlags (xs : List FVal) : FFlags := flagIf (xs.any FVal.isSNaN) flagNV

/-- The exact sum (R190, R191): an exact zero from opposite signs is +0, or -0 under RD. -/
def fAdd (mode : RMode) (a b : FVal) : FVal × FFlags :=
  match a, b with
  | .nan _, _ => (.nan false, nanFlags [a, b])
  | _, .nan _ => (.nan false, nanFlags [a, b])
  | .inf n1, .inf n2 => if n1 = n2 then (.inf n1, 0) else (.nan false, flagNV)
  | .inf n1, .fin _ _ _ _ => (.inf n1, 0)
  | .fin _ _ _ _, .inf n2 => (.inf n2, 0)
  | .fin n1 m1 e1 _, .fin n2 m2 e2 _ =>
    let s := dySum n1 m1 e1 n2 m2 e2
    if s.1 = 0 then (.fin (if m1 = 0 && m2 = 0 && n1 = n2 then n1 else mode = .rd) 0 0 false, 0)
    else (.fin (decide (s.1 < 0)) s.1.natAbs s.2 false, 0)

/-- The exact product (R190, R191). -/
def fMul (a b : FVal) : FVal × FFlags :=
  match a, b with
  | .nan _, _ => (.nan false, nanFlags [a, b])
  | _, .nan _ => (.nan false, nanFlags [a, b])
  | .inf n1, .inf n2 => (.inf (n1 != n2), 0)
  | .inf n1, .fin n2 m2 _ _ => if m2 = 0 then (.nan false, flagNV) else (.inf (n1 != n2), 0)
  | .fin n1 m1 _ _, .inf n2 => if m1 = 0 then (.nan false, flagNV) else (.inf (n1 != n2), 0)
  | .fin n1 m1 e1 _, .fin n2 m2 e2 _ => (.fin (n1 != n2) (m1 * m2) (e1 + e2) false, 0)

/-- The exact `a * b + c` (R190, R191): an invalid product gives NaN even when c is a quiet NaN. -/
def fFma (mode : RMode) (a b c : FVal) : FVal × FFlags :=
  let p := fMul a b
  let r := fAdd mode p.1 c
  (r.1, p.2 ||| r.2)

/-- The quotient (R190, R191), its fraction kept to more bits than any format rounds on. -/
def fDiv (a b : FVal) : FVal × FFlags :=
  match a, b with
  | .nan _, _ => (.nan false, nanFlags [a, b])
  | _, .nan _ => (.nan false, nanFlags [a, b])
  | .inf _, .inf _ => (.nan false, flagNV)
  | .inf n1, .fin n2 _ _ _ => (.inf (n1 != n2), 0)
  | .fin n1 _ _ _, .inf n2 => (.fin (n1 != n2) 0 0 false, 0)
  | .fin n1 m1 e1 _, .fin n2 m2 e2 _ =>
    if m2 = 0 then (if m1 = 0 then (.nan false, flagNV) else (.inf (n1 != n2), flagDZ))
    else
      let k := Nat.log2 m2 + 140
      (.fin (n1 != n2) (m1 * 2 ^ k / m2) (e1 - e2 - k) (m1 * 2 ^ k % m2 != 0), 0)

/-- The integer square root, bit by bit from bit `n - 1` down. -/
def isqrtFrom (m : Nat) : Nat → Nat → Nat
  | 0, r => r
  | n + 1, r => isqrtFrom m n (if (r + 2 ^ n) * (r + 2 ^ n) ≤ m then r + 2 ^ n else r)

/-- The integer square root. -/
def isqrt (m : Nat) : Nat := isqrtFrom m (Nat.log2 m / 2 + 1) 0

/-- The square root (R190, R191). -/
def fSqrt (a : FVal) : FVal × FFlags :=
  match a with
  | .nan _ => (.nan false, nanFlags [a])
  | .inf n => if n then (.nan false, flagNV) else (.inf false, 0)
  | .fin n m e _ =>
    if m = 0 then (.fin n 0 0 false, 0)
    else if n then (.nan false, flagNV)
    else
      let sh := 280 + (e % 2).toNat
      let x := m * 2 ^ sh
      (.fin false (isqrt x) ((e - sh) / 2) (isqrt x * isqrt x != x), 0)

/-- The reciprocal square root (R190, R191). -/
def fRsqrt (a : FVal) : FVal × FFlags :=
  match a with
  | .nan _ => (.nan false, nanFlags [a])
  | .inf n => if n then (.nan false, flagNV) else (.fin false 0 0 false, 0)
  | .fin n m e _ =>
    if m = 0 then (.inf n, flagDZ)
    else if n then (.nan false, flagNV)
    else
      -- 1 / sqrt (m * 2 ^ e) = sqrt (2 ^ sh / m) * 2 ^ -((sh + e) / 2), with sh + e even
      let k := 2 * Nat.log2 m + 300
      let sh := k + ((k + e) % 2).toNat
      let r := isqrt (2 ^ sh / m)
      (.fin false r (-((sh + e) / 2)) (r * r * m != 2 ^ sh), 0)

/-- The order of two values that are no NaN: less, equal or greater, with -0 equal to +0. -/
def fCompare (a b : FVal) : Ordering :=
  match a, b with
  | .inf n1, .inf n2 => if n1 = n2 then .eq else if n1 then .lt else .gt
  | .inf n1, _ => if n1 then .lt else .gt
  | _, .inf n2 => if n2 then .gt else .lt
  | .fin n1 m1 e1 _, .fin n2 m2 e2 _ =>
    let s := dySum n1 m1 e1 (!n2) m2 e2
    if s.1 < 0 then .lt else if s.1 = 0 then .eq else .gt
  | .nan _, _ => .eq
  | _, .nan _ => .eq

/-- A float condition and its flag (R193). -/
def fCond (c : FCond) (a b : FVal) : Bool × FFlags :=
  if a.isNaN || b.isNaN then
    (match c with
      | .ne | .un => (true, nanFlags [a, b])
      | .eq | .ord => (false, nanFlags [a, b])
      | .lt | .le | .gt | .ge => (false, flagNV))
  else
    (match c, fCompare a b with
      | .eq, o => o == .eq
      | .ne, o => o != .eq
      | .lt, o => o == .lt
      | .le, o => o != .gt
      | .gt, o => o == .gt
      | .ge, o => o != .lt
      | .un, _ => false
      | .ord, _ => true, 0)

/-- The choice of FMIN and FMAX (R192): -0 orders below +0, and a NaN loses unless NANP. -/
def fMinMax (isMax nanp : Bool) (a b : FVal) : FVal × FFlags :=
  let fl := nanFlags [a, b]
  if a.isNaN && b.isNaN then (.nan false, fl)
  else if a.isNaN then (if nanp then .nan false else b, fl)
  else if b.isNaN then (if nanp then .nan false else a, fl)
  else
    let aLess := match fCompare a b with
      | .lt => true
      | .gt => false
      | .eq => a.neg?
    (if aLess != isMax then a else b, fl)

/-- The pattern of a value that a format holds exactly. -/
def exactPattern (f : Fmt) (x : FVal) : Nat := (roundFmt f x .rn false false 0).1

/-- A value rounded to an integer (R194, R199): the magnitude and whether it is inexact. -/
def fToInt (mode : RMode) (neg : Bool) (m : Nat) (e : Int) (st : Bool) (rnd : Nat) : Nat × Bool :=
  roundAt mode neg m e st 0 rnd

/-! ### The exact accumulator -/

/-- The signed integer of a 320-bit pattern (R181). -/
def xaInt (n : Nat) : Int := toSigned 320 n
/-- The pattern of an integer of 320 bits. -/
def xaBits (x : Int) : Nat := wrapInt 320 x
/-- The patterns of R182. -/
def xaPosSat : Nat := 2 ^ 319 - 1
def xaNegSat : Nat := 2 ^ 319 + 1
def xaInvalid : Nat := 2 ^ 319
/-- The saturation of a sign. -/
def xaSat (neg : Bool) : Nat := if neg then xaNegSat else xaPosSat
/-- Whether a pattern is a saturation. -/
def xaIsSat (n : Nat) : Bool := n == xaPosSat || n == xaNegSat
/-- Whether a pattern is special (R182). -/
def xaIsSpecial (n : Nat) : Bool := xaIsSat n || n == xaInvalid

/-- An addend of xa_add (R184): a NaN, one of the special patterns, or an exact number of units 2 ^ -160. -/
inductive XAddend
  | nan
  | special (n : Nat)
  | units (x : Int)
  deriving DecidableEq, Repr, Inhabited

/-- A float or integer value as an addend; every finite value of the formats of R184 lies on the grid. -/
def FVal.addend : FVal → XAddend
  | .nan _ => .nan
  | .inf n => .special (xaSat n)
  | .fin n m e _ =>
    let u : Int := (m * 2 ^ (e + 160).toNat : Nat)
    .units (if n then -u else u)

/-- An accumulator pattern as an addend. -/
def xaAddend (n : Nat) : XAddend := if xaIsSpecial n then .special n else .units (xaInt n)

/-- xa_add (R184): the sum, the flags, and whether it saturates anew (which level 3 refuses). -/
def xaAdd (acc : Nat) (x : XAddend) : Nat × FFlags × Bool :=
  if acc = xaInvalid then (acc, 0, false)
  else match x with
    | .nan => (xaInvalid, flagNV, false)
    | .special s =>
      if xaIsSat acc && xaIsSat s && acc != s then (xaInvalid, flagNV, false)
      else if s = xaInvalid then (xaInvalid, flagNV, false)
      else if xaIsSat acc then (s, 0, false)
      else (s, flagXOVF ||| flagOF, true)
    | .units u =>
      if xaIsSat acc then (acc, 0, false)
      else if (xaInt acc + u).natAbs ≤ 2 ^ 319 - 2 then (xaBits (xaInt acc + u), 0, false)
      else (xaSat (decide (xaInt acc + u < 0)), flagXOVF ||| flagOF, true)

/-- An accumulator negated (R202). -/
def xaNegate (n : Nat) : Nat :=
  if n = xaInvalid then n else xaBits (-(xaInt n))

/-- xa_round (R185). -/
def xaRound (f : Fmt) (n : Nat) (mode : RMode) (sat ftz : Bool) (rnd : Nat) : Nat × FFlags :=
  if n = xaInvalid then (fmtNaN f, flagNV)
  else if xaIsSat n then
    if fmtHasInf f then (fmtInf f (n == xaNegSat), 0)
    else (overflowValue f (n == xaNegSat) sat mode, flagOF ||| flagNX)
  else roundFmt f (.fin (decide (xaInt n < 0)) (xaInt n).natAbs (-160) false) mode sat ftz rnd

/-- mx_apply (R175): an element under a block scale. -/
def mxApply (scale : Nat) (x : FVal) : FVal :=
  if scale % 256 = 255 then .nan false
  else match x with
    | .nan b => .nan b
    | .inf n => .inf n
    | .fin n m e st => .fin n m (e + (scale % 256 : Nat) - 127) st

/-- Whether infinities of both signs are among some values. -/
def bothInfs (xs : List FVal) : Bool := xs.contains (.inf false) && xs.contains (.inf true)

/-- The exact sum of exact values (R183, R197, R213): NaN for any NaN, and with NV for infinities of both signs. -/
def fSum (mode : RMode) (xs : List FVal) : FVal × FFlags :=
  (match xs with
    | [] => .fin false 0 0 false
    | x :: rest => rest.foldl (fun acc y => (fAdd mode acc y).1) x,
   nanFlags xs ||| flagIf (bothInfs xs) flagNV)

end Sys2Proof.Machine
end

