-- ==== Sys2Proof/Machine/Approx.lean ====
section
/-!
DEFINITION. The approximate functions (R196). Outside the exact cases the result is a free value of Config, as long as
it lies within the bound of the spec; the bound is tested against fixed-point series of 160 fraction bits, whose value,
rounded, stands in for a free value outside the bound.
-/

namespace Sys2Proof.Machine

/-- The unit of the fixed-point series. -/
def fxOne : Int := 2 ^ 160
/-- ln 2 in fixed point. -/
def fxLn2 : Int := 1013035739299659071135698605846798551586536899366
/-- 2 * pi in fixed point. -/
def fxTwoPi : Int := 9182885614096437842769610399486622256908310048836

/-- `n` terms of the series of `exp t`, from a term on. -/
def expTerms (t : Int) : Nat → Nat → Int → Int → Int
  | 0, _, _, acc => acc
  | n + 1, k, term, acc => expTerms t n (k + 1) (term * t / fxOne / ((k : Int) + 1)) (acc + term)

/-- `2 ^ f` for a fraction `f` in fixed point. -/
def fxExp2 (f : Int) : Int := expTerms (f * fxLn2 / fxOne) 48 0 fxOne 0

/-- `n` terms of the series of `atanh y`, from a power on. -/
def atanhTerms (y2 : Int) : Nat → Nat → Int → Int → Int
  | 0, _, _, acc => acc
  | n + 1, k, pow, acc => atanhTerms y2 n (k + 2) (pow * y2 / fxOne) (acc + pow / (k : Int))

/-- `log2 x` for `x` in [1, 2) in fixed point. -/
def fxLog2 (x : Int) : Int :=
  let y := (x - fxOne) * fxOne / (x + fxOne)
  2 * atanhTerms (y * y / fxOne) 56 1 y 0 * fxOne / fxLn2

/-- `n` terms of a sine or cosine series, from a term on. -/
def trigTerms (t2 : Int) : Nat → Nat → Int → Int → Int
  | 0, _, _, acc => acc
  | n + 1, k, term, acc =>
    trigTerms t2 n (k + 2) (-(term * t2 / fxOne / (((k : Int) + 1) * ((k : Int) + 2)))) (acc + term)

/-- The sine of a fraction of a revolution in fixed point. -/
def fxSin (f : Int) : Int :=
  let t := f * fxTwoPi / fxOne
  trigTerms (t * t / fxOne) 48 1 t 0

/-- The cosine of a fraction of a revolution in fixed point. -/
def fxCos (f : Int) : Int :=
  let t := f * fxTwoPi / fxOne
  trigTerms (t * t / fxOne) 48 0 fxOne 0

/-- A fixed-point number times `2 ^ n` as an exact value. -/
def fxValue (x n : Int) : FVal := .fin (decide (x < 0)) x.natAbs (n - 160) false

/-- The distance of a finite binary32 pattern from a value is at most `k * 2 ^ q`. -/
def withinBound (v : Word) (x : FVal) (k : Nat) (q : Int) : Bool :=
  match fpValue .f32 false v.toNat, x with
  | .fin n1 m1 e1 _, .fin n2 m2 e2 _ =>
    let d := dySum n1 m1 e1 (!n2) m2 e2
    fCompare (.fin false d.1.natAbs d.2 false) (.fin false k q false) != .gt
  | _, _ => false

/-- The unit in the last place of the binary32 value nearest to a value (R196). -/
def ulpExp (x : FVal) : Int :=
  match x with
  | .fin _ m e _ => max (e + Nat.log2 m - 23) (-149)
  | .nan _ | .inf _ => 0

/-- The free result of an approximate function, held to its bound; tiny results are flushed under FTZ (R176, R196). -/
def approxResult (op : Nat) (a : Word) (x : FVal) (k : Nat) (q : Int) (ftz : Bool) : Nat × FFlags :=
  let v := (if withinBound (Config.approx op a) x k q then Config.approx op a
    else BitVec.ofNat 32 (roundFmt .f32 x .rn false false 0).1).toNat
  if natField v 30 23 = 0 then
    (if ftz then (natField v 31 31 * 2 ^ 31, flagUF ||| flagNX)
      else (v, flagNX ||| flagIf (natField v 22 0 != 0) flagUF))
  else (v, flagNX)

/-- The fraction of a dyadic value in fixed point, and its integer part rounded down. -/
def splitFraction (neg : Bool) (m : Nat) (e : Int) : Int × Int :=
  let x : Int := (m * 2 ^ (e + 160).toNat : Nat)
  let x := if neg then -x else x
  (x / fxOne, x % fxOne)

/-- FEXP2 (R196). -/
def fExp2 (ftz : Bool) (a : Word) : Nat × FFlags :=
  match fpValue .f32 ftz a.toNat with
  | .nan sg => (fmtNaN .f32, flagIf sg flagNV)
  | .inf n => (if n then 0 else fmtInf .f32 false, 0)
  | .fin n m e _ =>
    let r := splitFraction n m e
    if 128 ≤ r.1 then (fmtInf .f32 false, flagOF ||| flagNX)
    else if r.1 < -150 then (0, flagUF ||| flagNX)
    else if r.2 = 0 && decide (-126 ≤ r.1) then (fmtPattern .f32 false (2 ^ 23) (r.1 - 23), 0)
    else
      let x := fxValue (fxExp2 r.2) r.1
      approxResult 0x0CC a x 2 (ulpExp x) ftz

/-- FLOG2 (R196). -/
def fLog2 (ftz : Bool) (a : Word) : Nat × FFlags :=
  match fpValue .f32 ftz a.toNat with
  | .nan sg => (fmtNaN .f32, flagIf sg flagNV)
  | .inf n => if n then (fmtNaN .f32, flagNV) else (fmtInf .f32 false, 0)
  | .fin n m e _ =>
    if m = 0 then (fmtInf .f32 true, flagDZ)
    else if n then (fmtNaN .f32, flagNV)
    else
      let t : Int := e + Nat.log2 m
      if m = 2 ^ Nat.log2 m then (exactPattern .f32 (.fin (decide (t < 0)) t.natAbs 0 false), 0)
      else
        let x := fxValue (fxLog2 ((m * 2 ^ 160 / 2 ^ Nat.log2 m : Nat)) + t * fxOne) 0
        if t = 0 || t = -1 then approxResult 0x0CD a x 1 (-22) ftz
        else approxResult 0x0CD a x 2 (ulpExp x) ftz

/-- FSIN and FCOS (R196): the argument in revolutions, reduced exactly. -/
def fTrig (cos ftz : Bool) (a : Word) : Nat × FFlags :=
  match fpValue .f32 ftz a.toNat with
  | .nan sg => (fmtNaN .f32, flagIf sg flagNV)
  | .inf _ => (fmtNaN .f32, flagNV)
  | .fin n m e _ =>
    let r := (splitFraction n m e).2
    let q := (r * 4 / fxOne).toNat
    if r * 4 % fxOne = 0 then
      (match (q + bitNat cos) % 4 with
        | 1 => 0x3F800000
        | 3 => 0xBF800000
        | _ => 0, 0)
    else approxResult (if cos then 0x0CF else 0x0CE) a (fxValue (if cos then fxCos r else fxSin r) 0) 1 (-22) ftz

end Sys2Proof.Machine
end

