-- ==== Sys2Proof/Machine/Integer.lean ====
section
/-!
DEFINITION. The integer, logic and address instructions (R146 to R158).
-/

namespace Sys2Proof.Machine

/-- The value of a word under U (R146). -/
def intOf (u : Bool) (w : Word) : Int := if u then (w.toNat : Int) else w.toInt
/-- The value of a pair under U (R146). -/
def intOf64 (u : Bool) (w : DWord) : Int := if u then (w.toNat : Int) else w.toInt

/-- The range of a type of `w` bits, and the nearest value in it (R150). -/
def satTo (w : Nat) (u : Bool) (r : Int) : Int :=
  if u then max 0 (min r (2 ^ w - 1)) else max (-(2 ^ (w - 1))) (min r (2 ^ (w - 1) - 1))

/-- An exact result narrowed to a word, saturated first where SAT is set (R150). -/
def narrow (u sat : Bool) (r : Int) : Word := BitVec.ofInt 32 (if sat then satTo 32 u r else r)
/-- An exact result narrowed to a pair (R150). -/
def narrow64 (u sat : Bool) (r : Int) : DWord := BitVec.ofInt 64 (if sat then satTo 64 u r else r)

/-- A 32-bit operation on A and B (R150). -/
def intBin (i : Instr) (s : State) (o : Slot) (u sat : Bool) (op : Int → Int → Int) :
    Host.Outcome State Fault Refusal :=
  issueRegs i s fun g ls =>
    g.writeWords o.d ls (fun l => narrow u sat (op (intOf u (g.value o.a l)) (intOf u (g.value o.b l))))

/-- A 32-bit operation on A, B and C (R150). -/
def intTern (i : Instr) (s : State) (o : Slot) (u sat : Bool) (op : Int → Int → Int → Int) :
    Host.Outcome State Fault Refusal :=
  issueRegs i s fun g ls =>
    g.writeWords o.d ls (fun l =>
      narrow u sat (op (intOf u (g.value o.a l)) (intOf u (g.value o.b l)) (intOf u (g.value o.c l))))

/-- A bitwise or bit-counting operation on words. -/
def wordBin (i : Instr) (s : State) (o : Slot) (op : Word → Word → Word) : Host.Outcome State Fault Refusal :=
  issueRegs i s fun g ls => g.writeWords o.d ls (fun l => op (g.value o.a l) (g.value o.b l))

/-- A three-operand operation on words. -/
def wordTern (i : Instr) (s : State) (o : Slot) (op : Word → Word → Word → Word) :
    Host.Outcome State Fault Refusal :=
  issueRegs i s fun g ls => g.writeWords o.d ls (fun l => op (g.value o.a l) (g.value o.b l) (g.value o.c l))

/-- A one-operand operation on words. -/
def wordUn (i : Instr) (s : State) (o : Slot) (op : Word → Word) : Host.Outcome State Fault Refusal :=
  issueRegs i s fun g ls => g.writeWords o.d ls (fun l => op (g.value o.a l))

/-- The carry of an addition or subtraction of words written to pC under CC (R151). -/
def Group.writeCarry (g : Group) (cc : Bool) (c : Operand) (ls : List Nat) (f : Nat → Bool) : Group :=
  if cc then g.writePreds c ls f else g

/-! ### Arithmetic -/

def execIadd (o : Slot) (u sat cc : Bool) (s : State) : Host.Outcome State Fault Refusal :=
  issueRegs (.iadd o u sat cc) s fun g ls =>
    (g.writeWords o.d ls (fun l => narrow u sat (intOf u (g.value o.a l) + intOf u (g.value o.b l)))).writeCarry cc o.c
      ls (fun l => carryOut 32 (g.value o.a l).toNat (g.value o.b l).toNat 0)

def execIsub (o : Slot) (u sat cc : Bool) (s : State) : Host.Outcome State Fault Refusal :=
  issueRegs (.isub o u sat cc) s fun g ls =>
    (g.writeWords o.d ls (fun l => narrow u sat (intOf u (g.value o.a l) - intOf u (g.value o.b l)))).writeCarry cc o.c
      ls (fun l => carryOut 32 (g.value o.a l).toNat (~~~ (g.value o.b l)).toNat 1)

def execIadd3 (o : Slot) (u sat : Bool) (s : State) : Host.Outcome State Fault Refusal :=
  intTern (.iadd3 o u sat) s o u sat (fun a b c => a + b + c)

def execIaddc (o : Slot) (cc : Bool) (s : State) : Host.Outcome State Fault Refusal :=
  issueRegs (.iaddc o cc) s fun g ls =>
    (g.writeWords o.d ls (fun l =>
        g.value o.a l + g.value o.b l + BitVec.ofNat 32 (bitNat (g.holds o.c l)))).writeCarry cc o.c
      ls (fun l => carryOut 32 (g.value o.a l).toNat (g.value o.b l).toNat (bitNat (g.holds o.c l)))

def execImul (o : Slot) (u sat : Bool) (s : State) : Host.Outcome State Fault Refusal :=
  intBin (.imul o u sat) s o u sat (fun a b => a * b)

def execImulh (o : Slot) (u : Bool) (s : State) : Host.Outcome State Fault Refusal :=
  intBin (.imulh o u) s o u false (fun a b => (a * b) / 2 ^ 32)

def execImad (o : Slot) (u sat : Bool) (s : State) : Host.Outcome State Fault Refusal :=
  intTern (.imad o u sat) s o u sat (fun a b c => a * b + c)

def execIsad (o : Slot) (u : Bool) (s : State) : Host.Outcome State Fault Refusal :=
  intTern (.isad o u) s o u false (fun a b c => ((a - b).natAbs : Int) + c)

def execImin (o : Slot) (u : Bool) (s : State) : Host.Outcome State Fault Refusal :=
  intBin (.imin o u) s o u false (fun a b => min a b)

def execImax (o : Slot) (u : Bool) (s : State) : Host.Outcome State Fault Refusal :=
  intBin (.imax o u) s o u false (fun a b => max a b)

def execIabs (o : Slot) (sat : Bool) (s : State) : Host.Outcome State Fault Refusal :=
  wordUn (.iabs o sat) s o (fun a => narrow false sat (a.toInt.natAbs : Int))

def execIneg (o : Slot) (sat : Bool) (s : State) : Host.Outcome State Fault Refusal :=
  wordUn (.ineg o sat) s o (fun a => narrow false sat (-a.toInt))

/-- The body of ICMP and ICMPW (R152). -/
def icmpBody (o : Slot) (cond : Cond) (comb : Combine) (a b : Group → Nat → Int) (g : Group) (ls : List Nat) : Group :=
  g.writePreds o.d ls (fun l => combineWith comb (condHolds cond (a g l) (b g l)) (g.holds o.c l))

def execIcmp (o : Slot) (cond : Cond) (u : Bool) (comb : Combine) (s : State) : Host.Outcome State Fault Refusal :=
  issueRegs (.icmp o cond u comb) s
    (icmpBody o cond comb (fun g l => intOf u (g.value o.a l)) (fun g l => intOf u (g.value o.b l)))

def execIsel (o : Slot) (s : State) : Host.Outcome State Fault Refusal :=
  issueRegs (.isel o) s fun g ls =>
    g.writeWords o.d ls (fun l => if g.holds o.c l then g.value o.a l else g.value o.b l)

def execMov (o : Slot) (s : State) : Host.Outcome State Fault Refusal :=
  wordUn (.mov o) s o (fun a => a)

def execMovi (o : Slot) (v : Word) (s : State) : Host.Outcome State Fault Refusal :=
  issueRegs (.movi o v) s fun g ls => g.writeWords o.d ls (fun _ => v)

/-! ### Logic and shifts -/

def execAnd (o : Slot) (s : State) : Host.Outcome State Fault Refusal :=
  wordBin (.band o) s o (fun a b => a &&& b)

def execOr (o : Slot) (s : State) : Host.Outcome State Fault Refusal :=
  wordBin (.bor o) s o (fun a b => a ||| b)

def execXor (o : Slot) (s : State) : Host.Outcome State Fault Refusal :=
  wordBin (.bxor o) s o (fun a b => a ^^^ b)

def execNot (o : Slot) (s : State) : Host.Outcome State Fault Refusal :=
  wordUn (.bnot o) s o (fun a => ~~~ a)

/-- One word or one bit under a three-input table: A is the lowest bit of the index (R153). -/
def lut3 (lut : BitVec 8) (a b c : Word) : Word :=
  let t (i : Nat) : Word := if lut.getLsbD i then BitVec.allOnes 32 else 0
  (~~~ a &&& ~~~ b &&& ~~~ c &&& t 0) ||| (a &&& ~~~ b &&& ~~~ c &&& t 1) ||| (~~~ a &&& b &&& ~~~ c &&& t 2)
    ||| (a &&& b &&& ~~~ c &&& t 3) ||| (~~~ a &&& ~~~ b &&& c &&& t 4) ||| (a &&& ~~~ b &&& c &&& t 5)
    ||| (~~~ a &&& b &&& c &&& t 6) ||| (a &&& b &&& c &&& t 7)

def execLop3 (o : Slot) (lut : BitVec 8) (s : State) : Host.Outcome State Fault Refusal :=
  wordTern (.lop3 o lut) s o (lut3 lut)

/-- A shift amount, taken modulo the width under WRAP (R154). -/
def shiftAmount (w : Nat) (wrap : Bool) (n : Word) : Nat := if wrap then n.toNat % w else n.toNat

def execShl (o : Slot) (wrap : Bool) (s : State) : Host.Outcome State Fault Refusal :=
  wordBin (.shl o wrap) s o (fun a n => if shiftAmount 32 wrap n < 32 then a <<< shiftAmount 32 wrap n else 0)

def execShr (o : Slot) (wrap : Bool) (s : State) : Host.Outcome State Fault Refusal :=
  wordBin (.shr o wrap) s o (fun a n => if shiftAmount 32 wrap n < 32 then a >>> shiftAmount 32 wrap n else 0)

def execSar (o : Slot) (wrap : Bool) (s : State) : Host.Outcome State Fault Refusal :=
  wordBin (.sar o wrap) s o (fun a n => a.sshiftRight (min (shiftAmount 32 wrap n) 32))

/-- The funnel shift of R154: `hi` and `lo` as one value, by an amount up to 32. -/
def funnel (right : Bool) (hi lo : Word) (n : Nat) : Word :=
  if right then BitVec.ofNat 32 ((hi.toNat * 2 ^ 32 + lo.toNat) / 2 ^ n)
  else BitVec.ofNat 32 ((hi.toNat * 2 ^ 32 + lo.toNat) * 2 ^ n / 2 ^ 32)

def execShf (o : Slot) (right wrap : Bool) (s : State) : Host.Outcome State Fault Refusal :=
  wordTern (.shf o right wrap) s o
    (fun hi lo n => funnel right hi lo (if wrap then n.toNat % 32 else min n.toNat 32))

/-- The field of BFE (R155). -/
def bitExtract (u : Bool) (a b : Word) : Word :=
  let p := b.toNat % 256
  let k := min (b.toNat / 256 % 256) 32
  let src : Int := if u then (a.toNat : Int) else a.toInt
  if k = 0 then 0
  else
    let f := wrapInt k (src / 2 ^ p)
    if u then BitVec.ofNat 32 f else BitVec.ofInt 32 (toSigned k f)

def execBfe (o : Slot) (u : Bool) (s : State) : Host.Outcome State Fault Refusal :=
  wordBin (.bfe o u) s o (bitExtract u)

/-- The insertion of BFI (R155): the mask of the bits replaced, and the field in its place. -/
def bitInsert (a b c : Word) : Word :=
  let p := b.toNat % 256
  let k := min (b.toNat / 256 % 256) 32
  let mask : Word := BitVec.ofNat 32 ((2 ^ k - 1) * 2 ^ p)
  (c &&& ~~~ mask) ||| (BitVec.ofNat 32 (a.toNat * 2 ^ p) &&& mask)

def execBfi (o : Slot) (s : State) : Host.Outcome State Fault Refusal :=
  wordTern (.bfi o) s o bitInsert

def execBrev (o : Slot) (s : State) : Host.Outcome State Fault Refusal :=
  wordUn (.brev o) s o BitVec.reverse

/-- The number of set bits (R156). -/
def popCount (w : Word) : Nat := ((List.range 32).filter (fun i => w.getLsbD i)).length

def execPopc (o : Slot) (s : State) : Host.Outcome State Fault Refusal :=
  wordUn (.popc o) s o (fun a => BitVec.ofNat 32 (popCount a))

def execClz (o : Slot) (s : State) : Host.Outcome State Fault Refusal :=
  wordUn (.clz o) s o (fun a => if a = 0 then 32 else BitVec.ofNat 32 (31 - Nat.log2 a.toNat))

/-- The zeros below the lowest set bit (R156). -/
def trailingZeros (w : Word) : Nat := ((List.range 32).takeWhile (fun i => !w.getLsbD i)).length

def execCtz (o : Slot) (s : State) : Host.Outcome State Fault Refusal :=
  wordUn (.ctz o) s o (fun a => BitVec.ofNat 32 (trailingZeros a))

/-- Byte `j` of PRMT (R156). -/
def permuteByte (a b c : Word) (j : Nat) : Nat :=
  let k := natField c.toNat (3 * j + 2) (3 * j)
  let byte := (b.toNat * 2 ^ 32 + a.toNat) / 2 ^ (8 * k) % 256
  if natBit c.toNat (12 + j) then 0
  else if natBit c.toNat (16 + j) then (if natBit byte 7 then 255 else 0)
  else byte

def execPrmt (o : Slot) (s : State) : Host.Outcome State Fault Refusal :=
  wordTern (.prmt o) s o (fun a b c =>
    BitVec.ofNat 32 (permuteByte a b c 0 + 256 * permuteByte a b c 1 + 65536 * permuteByte a b c 2
      + 16777216 * permuteByte a b c 3))

/-! ### Addresses, conversions and pairs -/

/-- The sum of LEA (R157). -/
def leaSum (u : Bool) (n : Nat) (a : DWord) (b : Word) : DWord :=
  a + ((if u then b.setWidth 64 else b.signExtend 64) <<< n)

def execLea (o : Slot) (n : BitVec 3) (u chk : Bool) (s : State) : Host.Outcome State Fault Refusal :=
  issue (.lea o n u chk) s fun g ls s =>
    match (if chk then ls.find? (fun l => decide (2 ^ 54 ≤ (leaSum u n.toNat (g.value64 o.a l) (g.value o.b l)).toNat))
      else none) with
    | some l => .raise .prot (BitVec.ofNat 32 (0x04 + 256 * l))
    | none => .done (s.putCur (g.writePairs o.d ls (fun l => leaSum u n.toNat (g.value64 o.a l) (g.value o.b l))))

/-- The width of an integer type and whether it is unsigned (R158). -/
def intTyWidth : IntTy → Nat
  | .s8 | .z8 => 8 | .s16 | .z16 => 16 | .s32 | .z32 => 32 | .s64 | .z64 => 64
def intTyUnsigned : IntTy → Bool
  | .z8 | .z16 | .z32 | .z64 => true
  | .s8 | .s16 | .s32 | .s64 => false

/-- A value read under an integer type from the low bits of a number (R158). -/
def intTyRead (t : IntTy) (n : Nat) : Int :=
  if intTyUnsigned t then ((n % 2 ^ intTyWidth t : Nat) : Int) else toSigned (intTyWidth t) n

/-- A value as a result of an integer type: reduced or clamped, then extended over 64 bits (R158). -/
def intTyWrite (t : IntTy) (sat : Bool) (x : Int) : DWord :=
  BitVec.ofInt 64
    (intTyRead t (wrapInt (intTyWidth t) (if sat then satTo (intTyWidth t) (intTyUnsigned t) x else x)))

/-- A 32-bit or 64-bit result written to its register or pair. -/
def Group.writeSized (g : Group) (wide : Bool) (d : Operand) (ls : List Nat) (f : Nat → DWord) : Group :=
  if wide then g.writePairs d ls f else g.writeWords d ls (fun l => (f l).setWidth 32)

/-- A 32-bit or 64-bit source as a number; an immediate is sign-extended to the width. -/
def Group.sizedNat (g : Group) (wide : Bool) (o : Operand) (l : Nat) : Nat :=
  if wide then (g.value64 o l).toNat else (g.value o l).toNat

/-- The result of CVTI on the bits of its source: a conversion to the same type acts as MOV, and any other reads, reduces or
clamps, and extends (R158). -/
def cvtiValue (td ts : IntTy) (sat : Bool) (n : Nat) : DWord :=
  if td = ts then BitVec.ofNat 64 n else intTyWrite td sat (intTyRead ts n)

def execCvti (o : Slot) (td ts : IntTy) (sat : Bool) (s : State) : Host.Outcome State Fault Refusal :=
  issueRegs (.cvti o td ts sat) s fun g ls =>
    g.writeSized td.is64 o.d ls (fun l => cvtiValue td ts sat (g.sizedNat ts.is64 o.a l))

def execIaddw (o : Slot) (u sat cc : Bool) (s : State) : Host.Outcome State Fault Refusal :=
  issueRegs (.iaddw o u sat cc) s fun g ls =>
    (g.writePairs o.d ls (fun l =>
        narrow64 u sat (intOf64 u (g.value64 o.a l) + intOf64 u (g.value64 o.b l)))).writeCarry cc o.c
      ls (fun l => carryOut 64 (g.value64 o.a l).toNat (g.value64 o.b l).toNat 0)

def execIsubw (o : Slot) (u sat cc : Bool) (s : State) : Host.Outcome State Fault Refusal :=
  issueRegs (.isubw o u sat cc) s fun g ls =>
    (g.writePairs o.d ls (fun l =>
        narrow64 u sat (intOf64 u (g.value64 o.a l) - intOf64 u (g.value64 o.b l)))).writeCarry cc o.c
      ls (fun l => carryOut 64 (g.value64 o.a l).toNat (~~~ (g.value64 o.b l)).toNat 1)

def execImulw (o : Slot) (s : State) : Host.Outcome State Fault Refusal :=
  issueRegs (.imulw o) s fun g ls => g.writePairs o.d ls (fun l => g.value64 o.a l * g.value64 o.b l)

def execImadx (o : Slot) (u : Bool) (s : State) : Host.Outcome State Fault Refusal :=
  issueRegs (.imadx o u) s fun g ls =>
    g.writePairs o.d ls (fun l =>
      narrow64 u false (intOf u (g.value o.a l) * intOf u (g.value o.b l) + intOf64 u (g.value64 o.c l)))

def execIcmpw (o : Slot) (cond : Cond) (u : Bool) (comb : Combine) (s : State) : Host.Outcome State Fault Refusal :=
  issueRegs (.icmpw o cond u comb) s
    (icmpBody o cond comb (fun g l => intOf64 u (g.value64 o.a l)) (fun g l => intOf64 u (g.value64 o.b l)))

/-- A shift of a pair (R154). -/
def pairShift (i : Instr) (s : State) (o : Slot) (op : DWord → Word → DWord) : Host.Outcome State Fault Refusal :=
  issueRegs i s fun g ls => g.writePairs o.d ls (fun l => op (g.value64 o.a l) (g.value o.b l))

def execShlw (o : Slot) (wrap : Bool) (s : State) : Host.Outcome State Fault Refusal :=
  pairShift (.shlw o wrap) s o (fun a n => if shiftAmount 64 wrap n < 64 then a <<< shiftAmount 64 wrap n else 0)

def execShrw (o : Slot) (wrap : Bool) (s : State) : Host.Outcome State Fault Refusal :=
  pairShift (.shrw o wrap) s o (fun a n => if shiftAmount 64 wrap n < 64 then a >>> shiftAmount 64 wrap n else 0)

def execSarw (o : Slot) (wrap : Bool) (s : State) : Host.Outcome State Fault Refusal :=
  pairShift (.sarw o wrap) s o (fun a n => a.sshiftRight (min (shiftAmount 64 wrap n) 64))

def execMovw (o : Slot) (s : State) : Host.Outcome State Fault Refusal :=
  issueRegs (.movw o) s fun g ls => g.writePairs o.d ls (fun l => g.value64 o.a l)

end Sys2Proof.Machine
end

