-- ==== Sys2Proof/Machine/Float.lean ====
section
/-!
DEFINITION. The floating-point and exact-accumulation instructions (R186 to R204).
-/

namespace Sys2Proof.Machine

/-- The exact value of an operand in a format: an immediate is converted exactly (R38), a narrow element is read from
the low bits (R188). -/
def Group.fval (g : Group) (f : Fmt) (ftz : Bool) (o : Operand) (l : Nat) : FVal :=
  match o with
  | .imm v => .fin (decide (v.toInt < 0)) v.toInt.natAbs 0 false
  | .vec _ | .scl _ | .prd _ | .spc _ | .none =>
    fpValue f ftz (if f = .f64 then (g.value64 o l).toNat else (g.value o l).toNat % 2 ^ fmtBits f)

/-- The random bits of RS (R178, R187). -/
def Group.rnd (g : Group) (n : Operand) (l : Nat) : Nat := (g.value n l).toNat % 2 ^ 16

/-- A float result per lane written to D with the flags of every lane (R180). -/
def Group.writeFloat (g : Group) (wide : Bool) (d : Operand) (ls : List Nat) (f : Nat → Nat × FFlags) : Group :=
  (g.writeSized wide d ls (fun l => BitVec.ofNat 64 (f l).1)).orFlags (allFlags (ls.map (fun l => (f l).2)))

/-- One rounded result of an exact one (R190): the flags of both. -/
def rounded (f : Fmt) (x : FVal × FFlags) (rm : RMode) (sat ftz : Bool) (rnd : Nat) : Nat × FFlags :=
  let r := roundFmt f x.1 rm sat ftz rnd
  (r.1, r.2 ||| x.2)

/-- A float instruction with one rounding (R190). -/
def floatOp (i : Instr) (s : State) (fmt : Fmt) (d : Operand) (rm : RMode) (ftz : Bool) (n : Operand)
    (x : Group → Nat → FVal × FFlags) : Host.Outcome State Fault Refusal :=
  issueRegs i s fun g ls =>
    g.writeFloat (fmt = .f64) d ls (fun l => rounded fmt (x g l) rm false ftz (g.rnd n l))

/-- A float instruction that gives a pattern and flags per lane. -/
def floatRaw (i : Instr) (s : State) (d : Operand) (f : Group → Nat → Nat × FFlags) :
    Host.Outcome State Fault Refusal :=
  issueRegs i s fun g ls => g.writeFloat false d ls (f g)

/-! ### Arithmetic with one rounding -/

def execFadd (o : Slot) (rm : RMode) (ftz na nb : Bool) (s : State) : Host.Outcome State Fault Refusal :=
  floatOp (.fadd o rm ftz na nb) s .f32 o.d rm ftz o.c fun g l =>
    fAdd rm ((g.fval .f32 ftz o.a l).flipIf na) ((g.fval .f32 ftz o.b l).flipIf nb)

def execFmul (o : Slot) (rm : RMode) (ftz na nb : Bool) (s : State) : Host.Outcome State Fault Refusal :=
  floatOp (.fmul o rm ftz na nb) s .f32 o.d rm ftz o.c fun g l =>
    fMul ((g.fval .f32 ftz o.a l).flipIf na) ((g.fval .f32 ftz o.b l).flipIf nb)

def execFfma (o : Slot) (rm : RMode) (ftz na nc : Bool) (s : State) : Host.Outcome State Fault Refusal :=
  floatOp (.ffma o rm ftz na nc) s .f32 o.d rm ftz o.n fun g l =>
    fFma rm ((g.fval .f32 ftz o.a l).flipIf na) (g.fval .f32 ftz o.b l) ((g.fval .f32 ftz o.c l).flipIf nc)

/-- FMIN and FMAX (R192). -/
def fminmax (i : Instr) (s : State) (o : Slot) (isMax nanp ftz : Bool) : Host.Outcome State Fault Refusal :=
  floatRaw i s o.d fun g l =>
    let r := fMinMax isMax nanp (g.fval .f32 ftz o.a l) (g.fval .f32 ftz o.b l)
    (exactPattern .f32 r.1, r.2)

def execFmin (o : Slot) (nanp ftz : Bool) (s : State) : Host.Outcome State Fault Refusal :=
  fminmax (.fmin o nanp ftz) s o false nanp ftz

def execFmax (o : Slot) (nanp ftz : Bool) (s : State) : Host.Outcome State Fault Refusal :=
  fminmax (.fmax o nanp ftz) s o true nanp ftz

/-- FCMP and DCMP (R193). -/
def floatCompare (i : Instr) (s : State) (o : Slot) (fmt : Fmt) (cond : FCond) (ftz : Bool) (comb : Combine) :
    Host.Outcome State Fault Refusal :=
  issueRegs i s fun g ls =>
    (g.writePreds o.d ls (fun l =>
        combineWith comb (fCond cond (g.fval fmt ftz o.a l) (g.fval fmt ftz o.b l)).1 (g.holds o.c l))).orFlags
      (allFlags (ls.map (fun l => (fCond cond (g.fval fmt ftz o.a l) (g.fval fmt ftz o.b l)).2)))

def execFcmp (o : Slot) (cond : FCond) (ftz : Bool) (comb : Combine) (s : State) :
    Host.Outcome State Fault Refusal :=
  floatCompare (.fcmp o cond ftz comb) s o .f32 cond ftz comb

/-- FRND (R194): an integral value of the operand's sign. -/
def fRound (rm : RMode) (x : FVal) : Nat × FFlags :=
  match x with
  | .nan sg => (fmtNaN .f32, flagIf sg flagNV)
  | .inf n => (fmtInf .f32 n, 0)
  | .fin n m e st =>
    if 0 ≤ e then (exactPattern .f32 x, 0)
    else (exactPattern .f32 (.fin n (fToInt rm n m e st 0).1 0 false), 0)

def execFrnd (o : Slot) (rm : RMode) (ftz : Bool) (s : State) : Host.Outcome State Fault Refusal :=
  floatRaw (.frnd o rm ftz) s o.d fun g l => fRound rm (g.fval .f32 ftz o.a l)

/-- The class bit of FCLASS (R195). -/
def classBit (f : Fmt) (bits : Nat) : Nat :=
  match fpValue f false bits with
  | .nan sg => if sg then 1 else 2
  | .inf n => if n then 4 else 512
  | .fin n m _ _ =>
    if m = 0 then (if n then 32 else 64)
    else if m < 2 ^ fmtW f then (if n then 16 else 128)
    else (if n then 8 else 256)

def execFclass (o : Slot) (f64 : Bool) (s : State) : Host.Outcome State Fault Refusal :=
  floatRaw (.fclass o f64) s o.d fun g l =>
    (classBit (if f64 then .f64 else .f32) (g.sizedNat f64 o.a l), 0)

def execFdiv (o : Slot) (rm : RMode) (ftz : Bool) (s : State) : Host.Outcome State Fault Refusal :=
  floatOp (.fdiv o rm ftz) s .f32 o.d rm ftz o.c fun g l => fDiv (g.fval .f32 ftz o.a l) (g.fval .f32 ftz o.b l)

def execFrcp (o : Slot) (rm : RMode) (ftz : Bool) (s : State) : Host.Outcome State Fault Refusal :=
  floatOp (.frcp o rm ftz) s .f32 o.d rm ftz o.c fun g l => fDiv (.fin false 1 0 false) (g.fval .f32 ftz o.a l)

def execFrsq (o : Slot) (rm : RMode) (ftz : Bool) (s : State) : Host.Outcome State Fault Refusal :=
  floatOp (.frsq o rm ftz) s .f32 o.d rm ftz o.c fun g l => fRsqrt (g.fval .f32 ftz o.a l)

def execFsqrt (o : Slot) (rm : RMode) (ftz : Bool) (s : State) : Host.Outcome State Fault Refusal :=
  floatOp (.fsqrt o rm ftz) s .f32 o.d rm ftz o.c fun g l => fSqrt (g.fval .f32 ftz o.a l)

/-! ### Approximate functions -/

/-- An approximate function: refused at determinism level 3 (R196, R204). -/
def approxOp (i : Instr) (s : State) (o : Slot) (op : Nat) (f : Word → Nat × FFlags) :
    Host.Outcome State Fault Refusal :=
  issue i s fun g ls s =>
    if g.detlevel = 3 then .raise .detViol (BitVec.ofNat 32 op)
    else .done (s.putCur (g.writeFloat false o.d ls (fun l =>
      f (match o.a with
        | .imm _ => BitVec.ofNat 32 (exactPattern .f32 (g.fval .f32 false o.a l))
        | .vec _ | .scl _ | .prd _ | .spc _ | .none => g.value o.a l))))

def execFexp2 (o : Slot) (ftz : Bool) (s : State) : Host.Outcome State Fault Refusal :=
  approxOp (.fexp2 o ftz) s o 0x0CC (fExp2 ftz)

def execFlog2 (o : Slot) (ftz : Bool) (s : State) : Host.Outcome State Fault Refusal :=
  approxOp (.flog2 o ftz) s o 0x0CD (fLog2 ftz)

def execFsin (o : Slot) (ftz : Bool) (s : State) : Host.Outcome State Fault Refusal :=
  approxOp (.fsin o ftz) s o 0x0CE (fTrig false ftz)

def execFcos (o : Slot) (ftz : Bool) (s : State) : Host.Outcome State Fault Refusal :=
  approxOp (.fcos o ftz) s o 0x0CF (fTrig true ftz)

/-! ### binary64 -/

def execDadd (o : Slot) (rm : RMode) (na nb : Bool) (s : State) : Host.Outcome State Fault Refusal :=
  floatOp (.dadd o rm na nb) s .f64 o.d rm false o.c fun g l =>
    fAdd rm ((g.fval .f64 false o.a l).flipIf na) ((g.fval .f64 false o.b l).flipIf nb)

def execDmul (o : Slot) (rm : RMode) (na nb : Bool) (s : State) : Host.Outcome State Fault Refusal :=
  floatOp (.dmul o rm na nb) s .f64 o.d rm false o.c fun g l =>
    fMul ((g.fval .f64 false o.a l).flipIf na) ((g.fval .f64 false o.b l).flipIf nb)

def execDfma (o : Slot) (rm : RMode) (na nc : Bool) (s : State) : Host.Outcome State Fault Refusal :=
  floatOp (.dfma o rm na nc) s .f64 o.d rm false o.n fun g l =>
    fFma rm ((g.fval .f64 false o.a l).flipIf na) (g.fval .f64 false o.b l) ((g.fval .f64 false o.c l).flipIf nc)

def execDcmp (o : Slot) (cond : FCond) (comb : Combine) (s : State) : Host.Outcome State Fault Refusal :=
  floatCompare (.dcmp o cond comb) s o .f64 cond false comb

/-! ### Packed elements -/

/-- The packed format of BF (R190). -/
def packFmt (bf : Bool) : Fmt := if bf then .bf16 else .f16

/-- Element `e` of a packed word. -/
def packElem (w : Word) (e : Nat) : Nat := w.toNat / 2 ^ (16 * e) % 2 ^ 16

/-- A packed result from the patterns of its two elements, with their flags. -/
def packTwo (x y : Nat × FFlags) : Nat × FFlags := (x.1 + 2 ^ 16 * y.1, x.2 ||| y.2)

/-- A packed operation, element by element (R190). -/
def packedOp (i : Instr) (s : State) (o : Slot) (f : Group → Nat → Nat → Nat × FFlags) :
    Host.Outcome State Fault Refusal :=
  floatRaw i s o.d fun g l => packTwo (f g l 0) (f g l 1)

/-- The exact value of an element of a packed operand. -/
def Group.felem (g : Group) (bf ftz : Bool) (o : Operand) (l e : Nat) : FVal :=
  fpValue (packFmt bf) ftz (packElem (g.value o l) e)

def execHadd2 (o : Slot) (rm : RMode) (ftz bf na nb : Bool) (s : State) : Host.Outcome State Fault Refusal :=
  packedOp (.hadd2 o rm ftz bf na nb) s o fun g l e =>
    rounded (packFmt bf) (fAdd rm ((g.felem bf ftz o.a l e).flipIf na) ((g.felem bf ftz o.b l e).flipIf nb)) rm false
      ftz 0

def execHmul2 (o : Slot) (rm : RMode) (ftz bf na nb : Bool) (s : State) : Host.Outcome State Fault Refusal :=
  packedOp (.hmul2 o rm ftz bf na nb) s o fun g l e =>
    rounded (packFmt bf) (fMul ((g.felem bf ftz o.a l e).flipIf na) ((g.felem bf ftz o.b l e).flipIf nb)) rm false
      ftz 0

def execHfma2 (o : Slot) (rm : RMode) (ftz bf na nc : Bool) (s : State) : Host.Outcome State Fault Refusal :=
  packedOp (.hfma2 o rm ftz bf na nc) s o fun g l e =>
    rounded (packFmt bf)
      (fFma rm ((g.felem bf ftz o.a l e).flipIf na) (g.felem bf ftz o.b l e) ((g.felem bf ftz o.c l e).flipIf nc))
      rm false ftz 0

def execHmnx2 (o : Slot) (max nanp ftz bf : Bool) (s : State) : Host.Outcome State Fault Refusal :=
  packedOp (.hmnx2 o max nanp ftz bf) s o fun g l e =>
    let r := fMinMax max nanp (g.felem bf ftz o.a l e) (g.felem bf ftz o.b l e)
    (exactPattern (packFmt bf) r.1, r.2)

/-- The four products of FDP4 (R197): element `k` in byte `k`. -/
def dotProducts (ta tb : Bool) (a b : Word) : List (FVal × FFlags) :=
  (List.range 4).map (fun k =>
    fMul (fpValue (if ta then .e5m2 else .e4m3) false (a.toNat / 2 ^ (8 * k) % 256))
      (fpValue (if tb then .e5m2 else .e4m3) false (b.toNat / 2 ^ (8 * k) % 256)))

def execFdp4 (o : Slot) (rm : RMode) (ftz ta tb : Bool) (s : State) : Host.Outcome State Fault Refusal :=
  floatOp (.fdp4 o rm ftz ta tb) s .f32 o.d rm ftz o.n fun g l =>
    let ps := dotProducts ta tb (g.value o.a l) (g.value o.b l)
    let r := fSum rm (ps.map Prod.fst ++ [g.fval .f32 ftz o.c l])
    (r.1, r.2 ||| allFlags (ps.map Prod.snd))

/-! ### Conversions -/

def execCvt (o : Slot) (rm : RMode) (ftz satf : Bool) (td ts : Fmt) (s : State) : Host.Outcome State Fault Refusal :=
  issueRegs (.cvt o rm ftz satf td ts) s fun g ls =>
    g.writeFloat (td = .f64) o.d ls (fun l => roundFmt td (g.fval ts ftz o.a l) rm satf ftz (g.rnd o.c l))

/-- The least and the greatest value of an integer type. -/
def intTyMin (t : IntTy) : Int := if intTyUnsigned t then 0 else -(2 ^ (intTyWidth t - 1))
def intTyMax (t : IntTy) : Int := if intTyUnsigned t then 2 ^ intTyWidth t - 1 else 2 ^ (intTyWidth t - 1) - 1

/-- A float rounded to an integer of a type (R199). -/
def floatToInt (t : IntTy) (rm : RMode) (x : FVal) (rnd : Nat) : Int × FFlags :=
  match x with
  | .nan _ => (0, flagNV)
  | .inf n => (if n then intTyMin t else intTyMax t, flagNV)
  | .fin n m e st =>
    let r := fToInt rm n m e st rnd
    let v : Int := if n then -(r.1 : Int) else r.1
    if v < intTyMin t then (intTyMin t, flagNV)
    else if intTyMax t < v then (intTyMax t, flagNV)
    else (v, flagIf r.2 flagNX)

def execCvtfi (o : Slot) (rm : RMode) (ftz : Bool) (ti : IntTy) (tf : Fmt) (s : State) :
    Host.Outcome State Fault Refusal :=
  issueRegs (.cvtfi o rm ftz ti tf) s fun g ls =>
    let r := fun l => floatToInt ti rm (g.fval tf ftz o.a l) (g.rnd o.c l)
    (g.writeSized ti.is64 o.d ls (fun l => intTyWrite ti false (r l).1)).orFlags (allFlags (ls.map (fun l => (r l).2)))

def execCvtif (o : Slot) (rm : RMode) (satf : Bool) (tf : Fmt) (ti : IntTy) (s : State) :
    Host.Outcome State Fault Refusal :=
  issueRegs (.cvtif o rm satf tf ti) s fun g ls =>
    g.writeFloat (tf = .f64) o.d ls (fun l =>
      let x := intTyRead ti (g.sizedNat ti.is64 o.a l)
      roundFmt tf (.fin (decide (x < 0)) x.natAbs 0 false) rm satf false (g.rnd o.c l))

/-- The word of PACK from the two converted elements and the base (R201). -/
def packWord (td : Fmt) (pos : Nat) (base y0 y1 : Nat) : Nat :=
  match td with
  | .f16 | .bf16 => y1 * 2 ^ 16 + y0
  | .e4m3 | .e5m2 => base - base / 2 ^ (16 * pos) % 2 ^ 16 * 2 ^ (16 * pos) + (y1 * 256 + y0) * 2 ^ (16 * pos)
  | .e2m1 => base - base / 2 ^ (8 * pos) % 2 ^ 8 * 2 ^ (8 * pos) + (y1 * 16 + y0) * 2 ^ (8 * pos)
  | .f64 | .f32 | .e8m0 => base

def execPack (o : Slot) (rm : RMode) (ftz satf : Bool) (td : Fmt) (pos : BitVec 2) (s : State) :
    Host.Outcome State Fault Refusal :=
  floatRaw (.pack o rm ftz satf td pos) s o.d fun g l =>
    let y0 := roundFmt td (g.fval .f32 ftz o.a l) rm satf ftz 0
    let y1 := roundFmt td (g.fval .f32 ftz o.b l) rm satf ftz 0
    (packWord td pos.toNat (g.value o.c l).toNat y0.1 y1.1, y0.2 ||| y1.2)

/-! ### Exact accumulation -/

/-- The accumulator in a run of ten registers (R181). -/
def Group.accum (g : Group) (o : Operand) (l : Nat) : Nat := wordsNat (g.valueRun o 10 l)

/-- The addend that XADD and ATOMX read from a word (R202, R264). -/
def addendOf (ta : XTy) (ftz : Bool) (w : Word) : XAddend :=
  match ta with
  | .f32 => (fpValue .f32 ftz w.toNat).addend
  | .bf16 => (fpValue .bf16 ftz (w.toNat % 2 ^ 16)).addend
  | .f16 => (fpValue .f16 ftz (w.toNat % 2 ^ 16)).addend
  | .e4m3 => (fpValue .e4m3 false (w.toNat % 256)).addend
  | .e5m2 => (fpValue .e5m2 false (w.toNat % 256)).addend
  | .s32 => .units (w.toInt * 2 ^ 160)
  | .xa => .units 0

/-- The pattern of an immediate addend: a binary32 value or an integer (R38, R189). -/
def Group.addendWord (g : Group) (ta : XTy) (o : Operand) (l : Nat) : Word :=
  match o, ta with
  | .imm _, .f32 => BitVec.ofNat 32 (exactPattern .f32 (g.fval .f32 false o l))
  | _, _ => g.value o l

/-- XADD and XCMB (R202): at level 3 a saturating add is refused before any lane writes. -/
def accumOp (i : Instr) (s : State) (o : Slot) (f : Group → Nat → Nat × FFlags × Bool) :
    Host.Outcome State Fault Refusal :=
  issue i s fun g ls s =>
    if g.detlevel = 3 && ls.any (fun l => (f g l).2.2) then .raise .detXovf 0
    else .done (s.putCur ((g.writeRuns o.d ls (fun l => natWords 10 (f g l).1)).orFlags
      (allFlags (ls.map (fun l => (f g l).2.1)))))

def execXadd (o : Slot) (ta : XTy) (ftz : Bool) (s : State) : Host.Outcome State Fault Refusal :=
  accumOp (.xadd o ta ftz) s o fun g l => xaAdd (g.accum o.a l) (addendOf ta ftz (g.addendWord ta o.b l))

def execXrnd (o : Slot) (rm : RMode) (ftz satf : Bool) (td : Fmt) (s : State) : Host.Outcome State Fault Refusal :=
  issueRegs (.xrnd o rm ftz satf td) s fun g ls =>
    g.writeFloat (td = .f64) o.d ls (fun l => xaRound td (g.accum o.a l) rm satf ftz (g.rnd o.c l))

def execXcmb (o : Slot) (sub : Bool) (s : State) : Host.Outcome State Fault Refusal :=
  accumOp (.xcmb o sub) s o fun g l =>
    xaAdd (g.accum o.a l) (xaAddend (if sub then xaNegate (g.accum o.b l) else g.accum o.b l))

/-- The tests of XCHK (R203). -/
def xaTest (t : XTest) (n : Nat) : Bool :=
  match t with
  | .sat => xaIsSat n
  | .inv => n == xaInvalid
  | .spec => xaIsSpecial n
  | .zero => n == 0

def execXchk (o : Slot) (test : XTest) (s : State) : Host.Outcome State Fault Refusal :=
  issueRegs (.xchk o test) s fun g ls => g.writePreds o.d ls (fun l => xaTest test (g.accum o.a l))

end Sys2Proof.Machine
end

