-- ==== Sys2Proof/Machine/CrossLane.lean ====
section
/-!
DEFINITION. The cross-lane instructions (R205 to R213).
-/

namespace Sys2Proof.Machine

/-- The segment width of SHFL (R206): code 0 and any width above the lane count give the lane count. -/
def segWidth (lanes wc : Nat) : Nat := if wc = 0 then lanes else min lanes (2 ^ wc)

/-- The source lane of SHFL, where it is valid (R207). -/
def shflSource (mode : ShflMode) (rot : Bool) (w l b : Nat) : Option Nat :=
  let r := l % w
  let sg := l - r
  match mode with
  | .lane => if b < w then some (sg + b) else none
  | .back => if rot then some (sg + ((r : Int) - b).emod w |>.toNat) else if b ≤ r then some (l - b) else none
  | .fwd => if rot then some (sg + (r + b) % w) else if r + b < w then some (l + b) else none
  | .xor => if b < w then some (sg + (r ^^^ b)) else none

def execShfl (o : Slot) (mode : ShflMode) (wc : BitVec 3) (rot : Bool) (q : Option (BitVec 4)) (s : State) :
    Host.Outcome State Fault Refusal :=
  issueRegs (.shfl o mode wc rot q) s fun g ls =>
    let src := fun l => shflSource mode rot (segWidth g.lanes wc.toNat) l (g.value o.b l).toNat
    (g.writeWords o.d ls (fun l => g.value o.a ((src l).getD l))).writeOptPred q ls
      (fun l => (src l).any (fun j => ls.contains j))

/-- A lane number from an operand, modulo the lane count (R208). -/
def laneIndex (lanes : Nat) (w : Word) : Nat := w.toNat % lanes

def execRdlane (o : Slot) (s : State) : Host.Outcome State Fault Refusal :=
  issueRegs (.rdlane o) s fun g ls =>
    g.writeWords o.d ls (fun l => g.value o.a (laneIndex g.lanes (g.value o.b l)))

def execWrlane (o : Slot) (s : State) : Host.Outcome State Fault Refusal :=
  issueRegs (.wrlane o) s fun g ls =>
    g.writeWords o.d (ls.filter (fun l => l == laneIndex g.lanes (g.value o.b l))) (fun l => g.value o.a l)

/-- The lanes of a set in which a predicate operand holds. -/
def Group.lanesWhere (g : Group) (p : Operand) (ls : List Nat) : List Nat := ls.filter (fun l => g.holds p l)

def execBallot (o : Slot) (k : BitVec 2) (s : State) : Host.Outcome State Fault Refusal :=
  issueRegs (.ballot o k) s fun g ls =>
    g.writeWords o.d ls (fun _ => ((lanesMask (g.lanesWhere o.a ls)) >>> (32 * k.toNat)).setWidth 32)

/-- The result of VOTE (R209). -/
def voteResult (mode : VoteMode) (n yes : Nat) : Bool :=
  match mode with
  | .all => yes == n
  | .any => yes != 0
  | .same => yes == n || yes == 0

def execVote (o : Slot) (mode : VoteMode) (s : State) : Host.Outcome State Fault Refusal :=
  issueRegs (.vote o mode) s fun g ls =>
    g.writePreds o.d ls (fun _ => voteResult mode ls.length (g.lanesWhere o.a ls).length)

/-- The lanes of a set that hold the value of a lane, bit for bit (R210). -/
def Group.matching (g : Group) (w64 : Bool) (a : Operand) (ls : List Nat) (l : Nat) : List Nat :=
  ls.filter (fun m => g.sizedNat w64 a m == g.sizedNat w64 a l)

def execMatch (o : Slot) (w64 cnt : Bool) (q : Option (BitVec 4)) (s : State) : Host.Outcome State Fault Refusal :=
  issueRegs (.vmatch o w64 cnt q) s fun g ls =>
    (g.writeWords o.d ls (fun l =>
        let ms := g.matching w64 o.a ls l
        BitVec.ofNat 32 (if cnt then ms.length else ms.headD l))).writeOptPred q ls
      (fun l => (g.matching w64 o.a ls l).headD l == l)

/-! ### Scans and reductions -/

/-- The identity of an operation (R212). -/
def laneIdentity (op : LaneOp) (t : LaneTy) : Word :=
  match op, t with
  | .add, _ => 0
  | .min, .s32 => 0x7FFFFFFF
  | .min, .z32 => 0xFFFFFFFF
  | .min, .f32 => 0x7F800000
  | .max, .s32 => 0x80000000
  | .max, .z32 => 0
  | .max, .f32 => 0xFF800000
  | .and, _ => 0xFFFFFFFF
  | .or, _ => 0
  | .xor, _ => 0

/-- The first lane's value of a fold (R213): unrounded, but a NaN is canonical and a subnormal flushed under FTZ. -/
def laneStart (t : LaneTy) (ftz : Bool) (w : Word) : Word × FFlags :=
  match t with
  | .s32 | .z32 => (w, 0)
  | .f32 =>
    let x := fpValue .f32 ftz w.toNat
    (BitVec.ofNat 32 (exactPattern .f32 x), nanFlags [x])

/-- One step of a combination in ascending lane order (R212, R213). -/
def laneStep (op : LaneOp) (t : LaneTy) (ftz : Bool) (acc w : Word) : Word × FFlags :=
  match t with
  | .f32 =>
    let x := fpValue .f32 ftz acc.toNat
    let y := fpValue .f32 ftz w.toNat
    (match op with
      | .add =>
        let r := rounded .f32 (fAdd .rn x y) .rn false ftz 0
        (BitVec.ofNat 32 r.1, r.2)
      | .min => let r := fMinMax false false x y; (BitVec.ofNat 32 (exactPattern .f32 r.1), r.2)
      | .max => let r := fMinMax true false x y; (BitVec.ofNat 32 (exactPattern .f32 r.1), r.2)
      | .and | .or | .xor => (acc, 0))
  | .s32 =>
    (match op with
      | .add => acc + w
      | .min => if w.toInt < acc.toInt then w else acc
      | .max => if acc.toInt < w.toInt then w else acc
      | .and => acc &&& w
      | .or => acc ||| w
      | .xor => acc ^^^ w, 0)
  | .z32 =>
    (match op with
      | .add => acc + w
      | .min => if w.toNat < acc.toNat then w else acc
      | .max => if acc.toNat < w.toNat then w else acc
      | .and => acc &&& w
      | .or => acc ||| w
      | .xor => acc ^^^ w, 0)

/-- The running combinations of a list of values: after each lane, with the flags so far. -/
def laneScan (op : LaneOp) (t : LaneTy) (ftz : Bool) : List Word → Option (Word × FFlags) → List (Word × FFlags)
  | [], _ => []
  | w :: ws, none => laneStart t ftz w :: laneScan op t ftz ws (some (laneStart t ftz w))
  | w :: ws, some acc =>
    let r := laneStep op t ftz acc.1 w
    (r.1, acc.2 ||| r.2) :: laneScan op t ftz ws (some (r.1, acc.2 ||| r.2))

/-- The flags of a scan: those after its last lane. -/
def scanFlags (rs : List (Word × FFlags)) : FFlags := (rs.getLastD (0, 0)).2

def execPscan (o : Slot) (op : LaneOp) (t : LaneTy) (incl ftz : Bool) (s : State) :
    Host.Outcome State Fault Refusal :=
  issueRegs (.pscan o op t incl ftz) s fun g ls =>
    let rs := laneScan op t ftz (ls.map (fun l => g.value o.a l)) none
    let out := if incl then rs.map Prod.fst else laneIdentity op t :: rs.map Prod.fst
    (g.writeWords o.d ls (fun l => out.getD (ls.idxOf l) 0)).orFlags
      (scanFlags (if incl then rs else rs.dropLast))

def execRedux (o : Slot) (op : LaneOp) (t : LaneTy) (ex ftz : Bool) (s : State) : Host.Outcome State Fault Refusal :=
  issueRegs (.redux o op t ex ftz) s fun g ls =>
    if ex then
      g.writeFloat false o.d ls (fun _ =>
        rounded .f32 (fSum .rn (ls.map (fun l => fpValue .f32 ftz (g.value o.a l).toNat))) .rn false ftz 0)
    else
      let rs := laneScan op t ftz (ls.map (fun l => g.value o.a l)) none
      (g.writeWords o.d ls (fun _ => (rs.getLastD (0, 0)).1)).orFlags (scanFlags rs)

def execCompact (o : Slot) (q : Option (BitVec 4)) (s : State) : Host.Outcome State Fault Refusal :=
  issueRegs (.compact o q) s fun g ls =>
    let us := g.lanesWhere o.b ls
    (g.writeWords o.d (ls.take us.length) (fun l => g.value o.a (us.getD (ls.idxOf l) 0))).writeOptPred q ls
      (fun l => decide (ls.idxOf l < us.length))

end Sys2Proof.Machine
end

