-- ==== Sys2Proof/Machine/Control.lean ====
section
/-!
DEFINITION. The control and system instructions (R159 to R172): control transfers, traps, queue wake-ups, waits,
predicates and special registers.
-/

namespace Sys2Proof.Machine

/-! ### Control transfers -/

/-- Whether an operand can be read at issue: within the budget and not pending. -/
def Group.readable (g : Group) (o : Operand) : Bool :=
  (operandRegs o 1).all (fun r => g.inBudget r && !g.isPending r)

/-- The lowest of a set of lanes whose target fails, with CODE_RANGE before ILLCLAUSE (R45, R160). -/
def State.targetFate (s : State) (g : Group) (c : Clause) (ls : List Nat) (target : Nat → Nat) : Option (Cause × Nat) :=
  match ls.find? (fun l => decide (s.codeSize g c.handler ≤ target l)) with
  | some l => some (.codeRange, l)
  | none =>
    match ls.find? (fun l => target l % 12 != 0 ||
        (match s.codeWord? g c.handler (target l) with
          | none => true
          | some w => natField w 9 0 != 0x3FF)) with
    | some l => some (.illclause, l)
    | none => none

/-- The end of a clause by a control transfer: `leave` lanes leave the frontier, the others go to `next` (R134, R135). -/
def State.transferEnd (s : State) (g : Group) (c : Clause) (leave : Nat → Bool) (next : Nat → Nat) : Eff :=
  let fr := g.handOn (s.prioAt g c.handler) leave next
  if 80 < fr.length then .raise .frontierOvf (BitVec.ofNat 32 (fr.length - 80))
  else .jump (s.afterClause g.countSlot fr)

/-- A control transfer to per-lane targets, linking in D where it links (R160, R161). Its target failures precede the
other fates of R54. -/
def transfer (i : Instr) (s : State) (o : Slot) (reads : Operand) (target : Group → Nat → Nat) (link : Bool) :
    Host.Outcome State Fault Refusal :=
  let body : Group → List Nat → State → Eff := fun g ls s =>
    match g.clause with
    | none => .done s
    | some c =>
      match s.targetFate g c ls (target g) with
      | some (cause, l) => .raise cause (laneInfo 0 l)
      | none =>
        s.transferEnd (if link then g.writeWords o.d ls (fun _ => BitVec.ofNat 32 c.follow) else g) c (fun _ => false)
          (fun l => if ls.contains l then target g l else c.follow)
  match s.cur, s.curGroup? with
  | .group id, some g =>
    match g.clause with
    | none => issue i s body
    | some c =>
      if g.readable reads && g.readable (.prd o.p) && (s.gate g 1).isEmpty then
        match s.targetFate g c (g.guarded o) (target g) with
        | some (cause, l) => .next (s.raiseFault id c.slotPc cause (laneInfo 0 l) 0 0)
        | none => issue i s body
      else issue i s body
  | _, _ => issue i s body

def execBra (o : Slot) (t : Word) (s : State) : Host.Outcome State Fault Refusal :=
  transfer (.bra o t) s o .none (fun _ _ => t.toNat) false

def execBri (o : Slot) (s : State) : Host.Outcome State Fault Refusal :=
  transfer (.bri o) s o o.a (fun g l => (g.value o.a l).toNat) false

def execCall (o : Slot) (t : Word) (s : State) : Host.Outcome State Fault Refusal :=
  transfer (.call o t) s o .none (fun _ _ => t.toNat) true

def execCalli (o : Slot) (s : State) : Host.Outcome State Fault Refusal :=
  transfer (.calli o) s o o.a (fun g l => (g.value o.a l).toNat) true

def execRet (o : Slot) (s : State) : Host.Outcome State Fault Refusal :=
  transfer (.ret o) s o o.a (fun g l => (g.value o.a l).toNat) false

def execExit (o : Slot) (s : State) : Host.Outcome State Fault Refusal :=
  issue (.exit o) s fun g ls s =>
    match g.clause with
    | none => .done s
    | some c =>
      if !g.recs.isEmpty then .raise .recpool 7
      else s.transferEnd g c (fun l => ls.contains l) (fun _ => c.follow)

/-! ### Hints, traps and queue wake-ups -/

def execNop (o : Slot) (s : State) : Host.Outcome State Fault Refusal :=
  issue (.nop o) s fun _ _ s => .done s

/-- YIELD changes nothing; the end of its slot offers the place whatever its H[18] (R162, `State.applyEff`). -/
def execYield (o : Slot) (s : State) : Host.Outcome State Fault Refusal :=
  issue (.yield o) s fun _ _ s => .done s

def execTrap (o : Slot) (code : Word) (s : State) : Host.Outcome State Fault Refusal :=
  issue (.trap o code) s fun _ _ _ => .raise .trap code

def execBkpt (o : Slot) (code : Word) (s : State) : Host.Outcome State Fault Refusal :=
  issue (.bkpt o code) s fun _ _ _ => .raise .bkpt code

/-- The index of a queue handle, and its generation (R72). -/
def handleIndex (h : Word) : Nat := natField h.toNat 15 0
def handleGen (h : Word) : Nat := natField h.toNat 31 16

/-- Whether a handle names a live queue of a context (R72, R164). -/
def State.handleLive (s : State) (part ctx : Nat) (h : Word) : Bool :=
  decide (handleIndex h < 1024) && (s.queue part (handleIndex h)).live && (s.queue part (handleIndex h)).ctx == ctx
    && (s.queue part (handleIndex h)).gen == handleGen h

/-- Whether a WAKE register ends a group's sleep (R165). -/
def Group.wakesOn (g : Group) (part q : Nat) (wake : Word) : Bool :=
  match g.wait with
  | some ⟨.sleep _ mask, _, _⟩ => g.part == part && g.queue == q && (wake &&& mask) != 0
  | _ => false

/-- A queue's WAKE register set, and the sleeps that this ends marked (R164, R165). -/
def State.setWake (s : State) (part q : Nat) (wake : Word) : State :=
  { s with queues := Tab.modify s.queues (1024 * part + q) (fun x => { x with wake := wake })
           groups := s.groups.map (fun x =>
             if x.2.wakesOn part q wake then (x.1, { x.2 with wait := x.2.wait.map (fun w => { w with ended := true }) })
             else x) }

/-- SWI on a WAKE register (R164). -/
def swiQueue (i : Instr) (s : State) (o : Slot) (f : Word → Word → Word) : Host.Outcome State Fault Refusal :=
  issue i s fun g ls s =>
    let h := g.value o.a (ls.headD 0)
    if s.handleLive g.part g.ctx h then
      if (s.team g.team).copyOf.isSome then .done s
      else .done (s.setWake g.part (handleIndex h) (f (s.queue g.part (handleIndex h)).wake (g.value o.b (ls.headD 0))))
    else .raise .prot 0x06 0 h

def execSwiWake (o : Slot) (s : State) : Host.Outcome State Fault Refusal :=
  swiQueue (.swiWake o) s o (fun w b => w ||| b)

def execSwiClear (o : Slot) (s : State) : Host.Outcome State Fault Refusal :=
  swiQueue (.swiClear o) s o (fun w b => w &&& ~~~b)

/-- A write to Binnacle's soft-interrupt queue: dropped, and counted by a log entry, where its 64 entries are taken
(R439). -/
def State.softWrite (s : State) (v : Word) (part ctx : Nat) : State :=
  if s.mgmt.softQ.length < 64 then { s with mgmt := { s.mgmt with softQ := s.mgmt.softQ ++ [(v, part, ctx)] } }
  else
    let n := s.mgmt.softDropped + 1
    ({ s with mgmt := { s.mgmt with softDropped := n } } : State).logEntry (.softDropped n)

def execSwiMgmt (o : Slot) (s : State) : Host.Outcome State Fault Refusal :=
  issue (.swiMgmt o) s fun g ls s =>
    if (s.team g.team).copyOf.isSome then .done s
    else .done (s.softWrite (g.value o.b (ls.headD 0)) g.part g.ctx)

/-! ### Special registers -/

/-- The counts of $frontier (R137): the entries, and those beyond the 16 in the core. -/
def Group.frontierWord (g : Group) : Word := BitVec.ofNat 32 (g.frontier.length + 256 * (g.frontier.length - 16))

/-- A special register as GETSR reads it in a lane (R169 to R171). -/
def State.special (s : State) (g : Group) (r : Nat) (b : Word) (l : Nat) : DWord :=
  let t := s.team g.team
  let v := Tab.getD s.views (b.toNat % 16) {}
  if r = 0x00 then BitVec.ofNat 64 l
  else if r = 0x01 then BitVec.ofNat 64 g.lanes
  else if r = 0x02 then BitVec.ofNat 64 g.number
  else if r = 0x03 then BitVec.ofNat 64 g.role
  else if r = 0x04 then BitVec.ofNat 64 t.x
  else if r = 0x05 then BitVec.ofNat 64 t.y
  else if r = 0x06 then BitVec.ofNat 64 t.z
  else if r = 0x07 then BitVec.ofNat 64 t.gx
  else if r = 0x08 then BitVec.ofNat 64 t.gy
  else if r = 0x09 then BitVec.ofNat 64 t.gz
  else if r = 0x10 then BitVec.ofNat 64 (if coreIsHelm g.core then s.relUnit (coreUnit g.core) else g.core % 4)
  else if r = 0x11 then BitVec.ofNat 64 (s.relUnit (coreUnit g.core))
  else if r = 0x12 then BitVec.ofNat 64 (coreDie g.core)
  else if r = 0x13 then BitVec.ofNat 64 g.part
  else if r = 0x14 then BitVec.ofNat 64 g.ctx
  else if r = 0x15 then BitVec.ofNat 64 s.pt.chipid
  else if r = 0x20 then BitVec.ofNat 64 (s.core g.core).cycles
  else if r = 0x21 then g.clock
  else if r = 0x30 then g.fpflags.setWidth 64
  else if r = 0x31 then BitVec.ofNat 64 g.detlevel
  else if r = 0x32 then g.seed
  else if r = 0x40 then g.trapPc.setWidth 64
  else if r = 0x41 then g.trapCause.setWidth 64
  else if r = 0x42 then g.trapInfo.setWidth 64
  else if r = 0x48 then g.frontierWord.setWidth 64
  else if r = 0x50 then v.brgx.setWidth 64
  else if r = 0x51 then v.brgy.setWidth 64
  else 0

/-- The determinism level from which GETSR of a register is refused (R172). -/
def specialDet (r : Nat) : Nat :=
  if r = 0x20 then 1 else if 0x10 ≤ r ∧ r ≤ 0x12 then 2 else if r = 0x13 ∨ r = 0x15 then 3 else 4

/-- The index of a special-register operand. -/
def specialIndex (o : Operand) : Nat :=
  match o with
  | .spc r => r.toNat
  | .vec _ | .scl _ | .prd _ | .imm _ | .none => 0

/-- Whether GETSR names a view that the group's partition does not reach (R169, R299). -/
def State.viewDenied (s : State) (g : Group) (r : Nat) (b : Word) : Bool :=
  (r == 0x50 || r == 0x51) && Tab.getD s.pt.view (b.toNat % 16) 0 != g.part

def execGetsr (o : Slot) (s : State) : Host.Outcome State Fault Refusal :=
  issue (.getsr o) s fun g ls s =>
    let r := specialIndex o.a
    let b := g.value o.b (ls.headD 0)
    if specialDet r ≤ g.detlevel then .raise .detViol (BitVec.ofNat 32 (0x00B + 65536 * r))
    else if s.viewDenied g r b then .raise .prot 0x13
    else if Operand.is64 o.a then .done (s.putCur (g.writePairs o.d ls (s.special g r b)))
    else .done (s.putCur (g.writeWords o.d ls (fun l => (s.special g r b l).setWidth 32)))

/-- A special register written by SETSR (R169). -/
def Group.setSpecial (g : Group) (r : Nat) (w : Word) : Group :=
  if r = 0x30 then { g with fpflags := w &&& 0x3F }
  else if r = 0x40 then { g with trapPc := w }
  else if r = 0x41 then { g with trapCause := w &&& 0xFF }
  else if r = 0x42 then { g with trapInfo := w }
  else g

def execSetsr (o : Slot) (s : State) : Host.Outcome State Fault Refusal :=
  issueRegs (.setsr o) s fun g ls => g.setSpecial (specialIndex o.d) (g.value o.a (ls.headD 0))

/-! ### Waits -/

def execSleepc (o : Slot) (s : State) : Host.Outcome State Fault Refusal :=
  issue (.sleepc o) s fun g ls s =>
    let a := (g.value o.a (ls.headD 0)).toNat
    let b := g.value o.b (ls.headD 0)
    if a = 0 ∨ (s.queue g.part g.queue).wake &&& b ≠ 0 then .done s
    else .acted s (.sleep ((s.core g.core).cycles + a) b)


def execWaitc (o : Slot) (k : Counter) (s : State) : Host.Outcome State Fault Refusal :=
  issue (.waitc o k) s fun g ls s =>
    let t := min (g.value o.a (ls.headD 0)).toNat 0xFFFF
    if g.counter (k.code) ≤ t then .done s else .hold (.counter (k.code) t)

/-! ### Predicates -/

def execPlop (o : Slot) (lut : BitVec 8) (s : State) : Host.Outcome State Fault Refusal :=
  issueRegs (.plop o lut) s fun g ls =>
    g.writePreds o.d ls (fun l =>
      lut.getLsbD (bitNat (g.holds o.a l) + 2 * bitNat (g.holds o.b l) + 4 * bitNat (g.holds o.c l)))

/-- A lane's sixteen predicates as a word, bit 0 set (R168). -/
def Group.predWord (g : Group) (l : Nat) : Word :=
  BitVec.ofNat 32 (((List.range 16).map (fun p => bitNat (g.pred p l) * 2 ^ p)).sum)

def execPmovGet (o : Slot) (s : State) : Host.Outcome State Fault Refusal :=
  issueRegs (.pmovGet o) s fun g ls => g.writeWords o.d ls g.predWord

/-- One lane's predicates of a mask set from a word (R168). -/
def Group.setPreds (g : Group) (mask : BitVec 16) (l : Nat) (w : Word) : Group :=
  ((List.range 16).filter (fun p => mask.getLsbD p)).foldl (fun g p => g.writePred p l (w.getLsbD p)) g

def execPmovSet (o : Slot) (mask : BitVec 16) (s : State) : Host.Outcome State Fault Refusal :=
  issueRegs (.pmovSet o mask) s fun g ls => ls.foldl (fun h l => h.setPreds mask l (g.value o.a l)) g

end Sys2Proof.Machine
end

