-- ==== Sys2Proof/Machine/Engine.lean ====
section
/-!
DEFINITION. The operations that groups start and engines finish: completion flags and engine counters, faults and
context error events that engines raise, page requests of engines, and a team's end under an uncorrectable error (R46,
R166, R228, R384, R395, R425).
-/

namespace Sys2Proof.Machine

/-! ### Events and faults of engines -/

/-- A context error event written to the function's event ring (R425): its code, context, INFO, ADDR and DATA. -/
def State.ctxEvent (s : State) (part ctx code info addr : Nat) (data : List Byte := []) : State :=
  let f := s.func part
  let size := ringSize f.evSize 4096
  if f.evBase = 0 ∨ f.evHead - f.evTail = BitVec.ofNat 32 size then
    s.modFunc part (fun f => { f with evDrop := f.evDrop + 1 })
  else
    ((s.setBytes (hostKey (f.evBase + 32 * (f.evHead.toNat % size)))
        (leBytes 2 code ++ leBytes 1 ctx ++ leBytes 1 0 ++ leBytes 4 info ++ leBytes 8 addr
          ++ (data ++ leBytes 16 0).take 16)).modFunc part (fun f => { f with evHead := f.evHead + 1 })).signal part 0

/-- A fault that engine work raises against the group whose instruction started it: not precise, $trappc holding that
instruction's offset (R384). A re-executed copy never asserts the halt line (R411): it ends there. `base` is the
first stop record of the kind of engine that raises it (R394), where it has one. -/
def State.engineFault (s : State) (id pc : Nat) (c : Cause) (info : Word) (va : Nat := 0) (handle : Word := 0)
    (base : Nat := 0) : State :=
  if (s.team (s.group id).team).copyOf.isSome then
    (s.modGroup id (fun g => (g.faulted pc c info).note true pc c)).settle (s.group id).core
  else
    let s1 := s.haltAssert (s.group id).part
        { s.groupFault (s.group id) pc c info va handle with precise := false, engine := true, nested := false }
    let unit := coreUnit (s.group id).core
    let key := s.stopKey (if base = 28 ∨ coreIsHelm (s.group id).core then unit / 4 * 4 else unit)
      (if base = 29 ∧ coreIsHelm (s.group id).core then 33 else base)
    (s1.modFunc (s.group id).part (fun f =>
        { f with engFaults := if base = 0 ∨ (Tab.get? f.engFaults key).isSome then f.engFaults
                              else Tab.put f.engFaults key (c.code, info) })).modGroup
      id (fun g =>
        { g.note (s.team g.team).checked pc c with
          trapPc := BitVec.ofNat 32 pc, trapCause := BitVec.ofNat 32 c.code, trapInfo := info })

/-! ### Operations -/

/-- The group with an operation added to a completion flag (R46). -/
def Group.addFlag (g : Group) (f : Option Nat) (op : Nat) : Group :=
  match f with
  | none => g
  | some f => { g with flags := Tab.put g.flags f (g.flagOps f ++ [op]) }

/-- The group with an operation counted in an engine counter (R166). -/
def Group.addCounter (g : Group) (k : Option Nat) (op : Nat) : Group :=
  match k with
  | none => g
  | some k => { g with counters := Tab.put g.counters k (g.counterOps k ++ [(op, false)]) }

/-- Whether a flag can take one more operation, and a counter one more count (R46, R166). -/
def Group.roomFor (g : Group) (f k : Option Nat) : Bool :=
  (f.all fun f => decide ((g.flagOps f).length < 255)) && (k.all fun k => decide (g.counter k < 0xFFFF))

/-- An effect that needs room in a flag or counter: it waits at issue where there is none (R138). -/
def withRoom (g : Group) (f k : Option Nat) (e : Eff) : Eff := if g.roomFor f k then e else .hold .room

/-- The flag that a slot's instruction sets (R46). -/
def Group.slotFlag (g : Group) (o : Slot) : Option Nat :=
  match g.clause with
  | some c => c.flag o.sel
  | none => none

/-- The offset of the issuing slot. -/
def Group.slotPc (g : Group) : Nat :=
  match g.clause with
  | some c => c.slotPc
  | none => 0

/-- The group with an operation in its flag and counter, and its destinations pending on it. -/
def Group.beginOp (g : Group) (op : Op) (id : Nat) (dests : List RegName) : Group :=
  { (g.addFlag op.flag id).addCounter op.counter id with pending := g.pending ++ dests.map (fun r => (r, id)) }

/-- An operation started by the issuing group: its flag and counter take it, and its destinations become pending. -/
def State.startOp (s : State) (op : Op) (dests : List RegName) : State :=
  match s.curGroup? with
  | none => s
  | some g => ({ s with ops := Tab.put s.ops s.fresh op }.putCur (g.beginOp op s.fresh dests)).tick

/-- The oldest counted operations that are complete, removed from a counter (R166). -/
def dropDone : List (Nat × Bool) → List (Nat × Bool)
  | (_, true) :: t => dropDone t
  | l => l

/-- The group after an operation has completed: out of its flag, out of its counter once every older one is, its
registers no longer pending. -/
def Group.endOp (g : Group) (op : Op) (id : Nat) : Group :=
  { g with
    flags := match op.flag with
      | none => g.flags
      | some f => Tab.set [] g.flags f ((g.flagOps f).filter (· != id))
    counters := match op.counter with
      | none => g.counters
      | some k => Tab.set [] g.counters k
          (dropDone ((g.counterOps k).map (fun x => if x.1 == id then (x.1, true) else x)))
    pending := g.pending.filter (fun x => x.2 != id) }

/-- An operation completes. -/
def State.finishOp (s : State) (id : Nat) : State :=
  match Tab.get? s.ops id with
  | none => s
  | some op => { s.modGroup op.group (fun g => g.endOp op id) with ops := Tab.erase s.ops id }

/-- An operation changed. -/
def State.modOp (s : State) (id : Nat) (f : Op → Op) : State := { s with ops := Tab.modify s.ops id f }

/-- The words of a lane's result: the data registers, then the tag where there is one. -/
def LaneRes.words (n : Nat) (tag : Bool) (r : LaneRes) : List Word :=
  bytesWords n r.bytes ++ if tag then [BitVec.ofNat 32 r.tag] else []

/-- The registers of a group with an operation's results written, a scalar from the lowest lane (R46). -/
def Group.writeResults (g : Group) (op : Op) : Group :=
  let of := fun l => (op.res.find? (fun r => r.lane == l)).getD {}
  let ls := (List.range 128).filter (fun l => op.res.any (fun r => r.lane == l))
  (g.writeRuns op.dest ls (fun l => (of l).words op.destN op.tag)).writeOptPred op.pq ls (fun l => (of l).ok)

/-! ### Store streams -/

/-- An element noted in a group's store stream, where its team is under comparison (R410). -/
def State.noteStore (s : State) (id : Nat) (e : StoreEl) : State :=
  if (s.team (s.group id).team).checked then s.modGroup id (fun g => { g with stores := g.stores ++ [e] }) else s

/-- Data appended to the element that an operation placed in its group's store stream. -/
def State.fillStore (s : State) (id op : Nat) (bs : List Byte) : State :=
  if (s.team (s.group id).team).checked then
    s.modGroup id (fun g =>
      { g with stores := g.stores.map (fun e => if e.op == op then { e with data := e.data ++ bs } else e) })
  else s

/-- An element placed after the last one of an operation. -/
def insertStore (op : Nat) (e : StoreEl) : List StoreEl → List StoreEl
  | [] => [e]
  | x :: xs => if x.op == op && !(xs.any (fun y => y.op == op)) then x :: e :: xs else x :: insertStore op e xs

/-- An element of an operation's later write, placed where the operation issued. -/
def State.addStore (s : State) (id op addr : Nat) (bs : List Byte) : State :=
  if (s.team (s.group id).team).checked then
    s.modGroup id (fun g => { g with stores := insertStore op ⟨op, addr, 4, 0, bs⟩ g.stores })
  else s

/-! ### Page requests of engines -/

/-- What an engine access that once missed may do: go on, wait for its answer, or end as FAIL states (R228). -/
inductive Answer
  | go
  | wait
  | fail
  deriving DecidableEq, Repr, Inhabited

/-- The page requests of one engine access. -/
def State.requestsOf (s : State) (who sub : Nat) : List (Nat × PageReq) :=
  s.preqs.filter (fun x => x.2.who == who && x.2.sub == sub && x.2.kind != 1)

/-- Where an engine access stands with its requests. -/
def State.answerOf (s : State) (who sub : Nat) : Answer :=
  match s.requestsOf who sub with
  | [] => .go
  | (_, r) :: _ =>
    match r.answer with
    | none => .wait
    | some true => .fail
    | some false => .go

/-- The answered requests of an engine access forgotten. -/
def State.clearRequests (s : State) (who sub : Nat) : State :=
  { s with preqs := s.preqs.filter (fun x => !(x.2.who == who && x.2.sub == sub && x.2.kind != 1)) }

/-- A one-page request of an engine for a group's instruction (R228). -/
def State.engineRequest (s : State) (id pc who sub : Nat) (p : PageRec) : State :=
  ((s.clearRequests who sub).makeRequest
    { part := (s.group id).part, ctx := (s.group id).ctx, kind := 2, who := who, sub := sub, pc := pc,
      origin := BitVec.ofNat 32 (s.origin (s.group id)), pages := [p] }).1

/-! ### Teams -/

/-- The keys of a team's groups. -/
def State.teamGroups (s : State) (t : Nat) : List Nat := (s.team t).groups

/-- The team has made a write that keeps it from a flush-and-restart (R397). -/
def State.markWrote (s : State) (t : Nat) : State := s.modTeam t (fun x => { x with wrote := true })

/-- Whether a killed team is relaunched (R395). -/
def State.relaunches (s : State) (t : Nat) : Bool :=
  (s.team t).obj.idem && (s.teamGroups t).all (fun g => (s.group g).recs.isEmpty)
    && ((s.team t).detlevel == 0 || !(s.team t).committed) && decide ((s.team t).kills < 3)

/-- A group taken off its core for good: its lanes leave the frontier (R395). -/
def State.stopGroup (s : State) (id : Nat) : State :=
  { (s.modGroup id (fun g =>
      { g with frontier := [], clause := none, wait := none, trapping := none, handler := none, recs := [],
               draining := true, request := none })).leaveCore id with
    spec := Tab.erase s.spec id
    scenes := s.scenes.map (fun x => (x.1, { x.2 with waiting := x.2.waiting.filter (fun w => w.1 != id) }))
    insts := s.insts.map (fun x => (x.1, { x.2 with waiting := x.2.waiting.filter (· != id) }))
    preqs := s.preqs.filter (fun x => !(x.2.kind == 1 && x.2.who == id)) }

/-- Whether an operation is engine work that a kill ends: tile moves, write-backs, matrix submissions, primitives,
tiles and classifications. -/
def OpBody.isEngineWork : OpBody → Bool
  | .tmov _ | .writeBack | .msub | .emit _ | .emitClose _ _ | .tileout _ _ _ _ _ _ | .classify _ _ _ _ => true
  | .ld _ | .st _ | .atom _ _ _ | .atomc _ | .atomx _ | .atomv _ _ | .ldfut _ | .stfut _ | .futrst | .value | .engine
  | .vbld _ _ | .sample _ _ _ | .commit _ _ | .launchQ _ _ _ _ | .launchWg _ | .rinv _ _ | .packet | .rayOpen _ _
  | .rays _ _ | .rayWait _ => false

/-- A team killed: its groups leave, and its engine work ends (R395). -/
def State.killTeam (s : State) (t : Nat) : State :=
  let s := (s.teamGroups t).foldl State.stopGroup s
  let s := (Tab.keys (s.ops.filter (fun x => x.2.body.isEngineWork && (s.group x.2.group).team == t))).foldl
    State.finishOp s
  let s := { s with tslots := s.tslots.filter (fun x => x.2.team != t) }
  s.modTeam t (fun x => { x with killed := true, kills := x.kills + 1, regions := []
                                 mx := x.mx.map (fun m => { m with subs := [], state := .idle }) })

/-- A group's access consumes an uncorrectable error (R235, R252, R395): its team is killed to be relaunched, or the
kill becomes the fault UE_MEM. -/
def State.consumeUE (s : State) (id pc : Nat) (engine : Bool) : State :=
  if (s.team (s.group id).team).copyOf.isSome then
    (s.killTeam (s.group id).team).modTeam (s.group id).team (fun t => { t with skipped := true })
  else if s.relaunches (s.group id).team then s.killTeam (s.group id).team
  else if engine then s.engineFault id pc .ueMem 0
  else s.raiseFault id pc .ueMem 0 0 0

end Sys2Proof.Machine
end

