-- ==== Sys2Proof/Machine/Barrier.lean ====
section
/-!
DEFINITION. Barriers: phases and arrivals, numbered barriers and barrier objects (R366 to R375), the waits of matrix
streams on them (R276, R280, R290), and what releases and fences wait for (R357, R365).
-/

namespace Sys2Proof.Machine

/-- Whether a phase of a barrier is complete (R366). -/
def Bar.complete (b : Bar) (p : Word) : Bool := decide (1 ≤ (b.phase - p).toNat ∧ (b.phase - p).toNat ≤ 2 ^ 31 - 1)

/-- An arrival of count `k` (R367): the barrier after it, or the sub-code of its refusal. -/
def Bar.arrive (b : Bar) (k : Nat) (drop : Bool) : Except Nat Bar :=
  if k = 0 ∨ 65535 < k then .error 2
  else if b.pending < k then .error 1
  else
    let next := if drop then b.nextexp - k else b.nextexp
    if b.pending = k then .ok { b with phase := b.phase + 1, expect := next, pending := next, nextexp := next }
    else .ok { b with pending := b.pending - k, nextexp := next }

/-- The information of BAR_OVER and BAR_STALE (R375). -/
def barInfo (sub nb pending : Nat) : Word := BitVec.ofNat 32 (sub + 256 * nb + 65536 * pending)

/-- A numbered barrier of a team (R369). -/
def Team.nbar (t : Team) (nb : Nat) : Bar := Tab.getD t.nbars nb {}
/-- The team with a numbered barrier set. -/
def Team.putNbar (t : Team) (nb : Nat) (b : Bar) : Team := { t with nbars := Tab.set {} t.nbars nb b }

/-- Every group of a team has left the frontier for good. -/
def State.teamLeft (s : State) (t : Nat) : Bool := (s.teamGroups t).all (fun g => (s.group g).draining)

/-- Whether a stream write may enter a tile's order: its watermark is 0, or every group has left (R276). -/
def State.tileFree (s : State) (t tile : Nat) : Bool :=
  (Tab.getD (s.team t).accs tile {}).wm == 0 && !(Tab.getD (s.team t).accs tile {}).commit || s.teamLeft t

/-- Whether a stream's wait has ended (R280). -/
def State.mxWaitOver (s : State) (t : Nat) : MxWait → Bool
  | .phase nb p => ((s.team t).nbar nb).complete p
  | .tile n => s.tileFree t n

/-- A stream whose wait has ended becomes READY (R280). -/
def State.wakeStream (s : State) (t : Nat) : State :=
  match (s.team t).mx with
  | none => s
  | some m =>
    match m.state with
    | .wait w =>
      if s.mxWaitOver t w then s.modTeam t (fun x => { x with mx := some { m with state := .ready, passed := 0 } }) else s
    | .idle | .ready | .running | .saved | .ending | .faulted => s

/-- An arrival on a team's numbered barrier. -/
def State.nbArrive (s : State) (t nb k : Nat) (drop : Bool) : Except Nat State :=
  (((s.team t).nbar nb).arrive k drop).map (fun b => (s.modTeam t (fun x => x.putNbar nb b)).wakeStream t)

/-- An engine's arrival on a numbered barrier, with count 1 and no drop; a refusal is charged to the group (R369). -/
def State.engineArrive (s : State) (id pc nb : Nat) : State :=
  match s.nbArrive (s.group id).team nb 1 false with
  | .ok s' => s'
  | .error sub => s.engineFault id pc .barOver (barInfo sub nb ((s.team (s.group id).team).nbar nb).pending)

/-! ### Barrier objects -/

/-- The entry that a handle names: its die above its index (R371). -/
def handleEntry (h : Word) : Nat := 1024 * natField h.toNat 15 15 + natField h.toNat 9 0
/-- The handle of an entry at a generation (R371). -/
def handleOf (entry gen : Nat) : Word := BitVec.ofNat 32 (entry % 1024 + 32768 * (entry / 1024) + 65536 * gen)
/-- A barrier object's entry. -/
def State.barObj (s : State) (e : Nat) : BarObj := Tab.getD s.barObjs e {}
/-- The state with a barrier object's entry set. -/
def State.putObj (s : State) (e : Nat) (b : BarObj) : State := { s with barObjs := Tab.set {} s.barObjs e b }

/-- The sub-code by which a handle is stale for a context, if it is (R371, R375). -/
def State.staleCode (s : State) (part ctx : Nat) (h : Word) : Option Nat :=
  if natField h.toNat 14 10 ≠ 0 then some 2
  else if !(s.barObj (handleEntry h)).held || (s.barObj (handleEntry h)).gen != natField h.toNat 31 16 then some 1
  else if (s.barObj (handleEntry h)).part != part || (s.barObj (handleEntry h)).ctx != ctx then some 2
  else none

/-- An entry freed: its generation advances, with 0xFFFF taken to 1 (R371). -/
def BarObj.freed (b : BarObj) : BarObj := { gen := if b.gen = 0xFFFF then 1 else b.gen + 1 }

/-- An object's arrival recorded: the four most recent objects are kept (R373). -/
def Group.recordObj (g : Group) (h phase : Word) : Group :=
  let l := g.objArr.filter (fun x => x.1 != h) ++ [(h, phase)]
  { g with objArr := l.drop (l.length - 4) }

/-- Whether a group waits on an object. -/
def Group.waitsOn (g : Group) (h : Word) : Bool :=
  match g.wait with
  | some ⟨.obj h' _, _, _⟩ => h' == h
  | _ => false

/-! ### What releases and fences wait for -/

/-- Whether an operation has an access to HBM4 memory; one whose every access is to host memory has not (R254, R357). -/
def Op.touchesHbm (o : Op) : Bool := o.lines.isEmpty || o.lines.any (fun l => decide (l.line < 2 ^ 55))

/-- Operations that write global memory (R356). -/
def OpBody.isGlobalWrite : OpBody → Bool
  | .st _ | .atom _ _ _ | .atomc _ | .atomx _ | .atomv _ _ | .stfut _ | .futrst => true
  | _ => false

/-- Global loads and returning atomics, futures included (R260). -/
def OpBody.isGlobalRead : OpBody → Bool
  | .ld _ | .ldfut _ | .atom _ _ _ | .atomc _ | .atomv _ _ => true
  | _ => false

/-- The operations of a group, oldest first. -/
def State.groupOps (s : State) (id : Nat) : Tab Op := s.ops.filter (fun x => x.2.group == id)

/-- The earlier writes that a release of a group waits for at a scope (R357): host writes only at .sys. -/
def State.releaseWrites (s : State) (id : Nat) (scope : Scope) : List Nat :=
  Tab.keys ((s.groupOps id).filter (fun x => x.2.body.isGlobalWrite && (scope == .sys || x.2.touchesHbm)))

/-- What a release form of global memory waits for (R260): those writes, and every earlier load and returning atomic. -/
def State.releaseOps (s : State) (id : Nat) (scope : Scope) : List Nat :=
  Tab.keys ((s.groupOps id).filter (fun x => x.2.body.isGlobalRead
    || (x.2.body.isGlobalWrite && (scope == .sys || x.2.touchesHbm))))

/-- Scratch results and SAMPLE (R365). -/
def OpBody.isScratchRead : OpBody → Bool
  | .value | .sample _ _ _ => true
  | _ => false

/-- The set L of a FENCE: loads and returning atomics, scratch and SAMPLE reads not yet written (R365). -/
def State.fenceLoads (s : State) (id : Nat) : List Nat :=
  Tab.keys ((s.groupOps id).filter (fun x => x.2.flag.isSome && (x.2.body.isGlobalRead || x.2.body.isScratchRead)))

/-- The set W of a FENCE: writes not yet acknowledged; scratch writes are performed at issue (R365). -/
def State.fenceWrites (s : State) (id : Nat) (scope : Scope) : List Nat :=
  Tab.keys ((s.groupOps id).filter (fun x => x.2.counter == some 0 && x.2.body.isGlobalWrite
    && (scope == .sys || x.2.touchesHbm)))

end Sys2Proof.Machine
end

