-- ==== Sys2Proof/Machine/Line.lean ====
section
/-!
DEFINITION. Lines of global memory and accesses of engines to them: sequence tags, uncorrectable words, slots with
linked readers, and ranges of virtual addresses (R228, R250 to R253, R269).
-/

namespace Sys2Proof.Machine

/-- Bytes written at keys, one each. -/
def State.setKeys (s : State) : List (Nat × Byte) → State
  | [] => s
  | (k, b) :: t => State.setKeys { s with mem := Memory.set s.mem k b } t

/-- A line's tag raised by a writing action (R253): HBM4 lines only. -/
def State.bumpTag (s : State) (line : Nat) : State :=
  if line < 2 ^ 55 then { s with tags := Tab.set 0 s.tags line (Tab.getD s.tags line 0 + 1) } else s

/-- The slots of a line that have linked readers (R265), among those whose bytes 0 to 11 a set of keys meets. -/
def State.linkedHit (s : State) (ks : List Nat) : Option Nat :=
  (s.futs.find? (fun r => ks.any (fun k => decide (r.slot ≤ k ∧ k < r.slot + 12)))).map FutRec.slot

/-- The uncorrectable words among a set of keys: 32-byte words of HBM4, granules of scratch (R235, R252). -/
def wordKey (k : Nat) : Nat := if k < 2 ^ 55 then k / 32 * 32 else k / 16 * 16
/-- The size of that word. -/
def wordSize (k : Nat) : Nat := if k < 2 ^ 55 then 32 else 16

/-- Whether a read of keys meets an uncorrectable word. -/
def State.readsPoison (s : State) (ks : List Nat) : Bool := ks.any (fun k => s.poison.contains (wordKey k))
/-- Whether a write of keys meets an uncorrectable word that it does not replace whole. -/
def State.writesPoison (s : State) (ks : List Nat) : Bool :=
  ks.any (fun k => s.poison.contains (wordKey k)
    && !((List.range (wordSize k)).all (fun i => ks.contains (wordKey k + i))))
/-- The error of every word that a write of keys replaces whole is cleared. -/
def State.clearPoison (s : State) (ks : List Nat) : State :=
  if s.poison.isEmpty then s
  else { s with poison := s.poison.filter (fun w =>
    !(ks.contains w && (List.range (wordSize w)).all (fun i => ks.contains (w + i)))) }

/-- One line action that writes bytes (R250, R253, R269): dropped with FUTWRITE where it would write a slot with linked
readers; `va` is the virtual address of the line. -/
def State.writeLine (s : State) (part ctx va line : Nat) (bs : List (Nat × Byte)) : State :=
  match s.linkedHit (bs.map Prod.fst) with
  | some slot => s.ctxEvent part ctx 5 0 (va + (slot - line))
  | none => ((s.clearPoison (bs.map Prod.fst)).setKeys bs).bumpTag line

/-- Bytes at keys grouped by line, in order of first touch. -/
def byLine (bs : List (Nat × Nat × Byte)) : List (Nat × List (Nat × Nat × Byte)) :=
  ((bs.map (fun b => b.2.1 / 128 * 128)).eraseDups).map
    (fun line => (line, bs.filter (fun b => b.2.1 / 128 * 128 == line)))

/-- Bytes written by an engine at translated places (virtual address, key), one action for each line. -/
def State.writePlaces (s : State) (part ctx : Nat) (ps : List (Nat × Nat)) (bs : List Byte) : State :=
  (byLine ((ps.zip bs).map (fun x => (x.1.1, x.1.2, x.2)))).foldl
    (fun s l => s.writeLine part ctx (match l.2 with | [] => 0 | b :: _ => b.1 - (b.2.1 - l.1)) l.1
      (l.2.map (fun b => b.2)))
    s

/-- Why an engine's access to a range does not translate. -/
inductive Refused
  | bad (c : Cause) (reason va : Nat)
  | miss (r : PageRec)
  deriving DecidableEq, Repr, Inhabited

/-- The places (virtual address, key) of `n` bytes from a virtual address on, page by page, for an engine that reaches
global and host memory. -/
def State.places (s : State) (unit part ctx : Nat) (write : Bool) : Nat → Nat → Nat → Except Refused (List (Nat × Nat))
  | 0, _, _ => .ok []
  | fuel + 1, va, n =>
    if n = 0 then .ok []
    else
      let k := min n (4096 - va % 4096)
      match s.access unit part ctx va write false true with
      | .bad c r => .error (.bad c r va)
      | .miss r => .error (.miss r)
      | .ok t _ =>
        match t with
        | .mem key | .host key =>
          (s.places unit part ctx write fuel (va + k) (n - k)).map
            (fun rest => (List.range k).map (fun i => (va + i, key + i)) ++ rest)
        | .reg _ | .kick _ | .nothing => .error (.bad .nomap 2 va)

/-- The places of a range of virtual addresses. -/
def State.range (s : State) (unit part ctx va n : Nat) (write : Bool) : Except Refused (List (Nat × Nat)) :=
  s.places unit part ctx write (n / 4096 + 2) va n

/-- The bytes at places. -/
def State.bytesAt (s : State) (ps : List (Nat × Nat)) : List Byte := ps.map (fun p => Memory.get s.mem p.2)

/-- Bytes that an engine reads at a virtual address. -/
def State.readRange (s : State) (unit part ctx va n : Nat) : Except Refused (List Byte) :=
  (s.range unit part ctx va n false).map s.bytesAt

/-- Bytes that an engine writes at a virtual address. -/
def State.writeRange (s : State) (unit part ctx va : Nat) (bs : List Byte) : Except Refused State :=
  (s.range unit part ctx va bs.length true).map (fun ps => s.writePlaces part ctx ps bs)

/-- The translating unit of a group's engines: its cluster's map unit, or its helm core (R221). -/
def Group.unit (g : Group) : Nat := coreTransUnit g.core

end Sys2Proof.Machine
end

