-- ==== Sys2Proof/Machine/Scratch.lean ====
section
/-!
DEFINITION. Scratch memory: views and granules, declared buffers, mapped regions, and the scratch, buffer and region
instructions (R229 to R249).
-/

namespace Sys2Proof.Machine

/-! ### Views -/

/-- One access of an instruction: its lane, its address in the team's view of a level, its bytes. -/
structure Acc where
  lane : Nat := 0
  a : Nat := 0
  n : Nat := 0
  deriving DecidableEq, Repr, Inhabited

/-- The size of an allocation; 0 where there is none. -/
def State.allocSize (s : State) (id : Nat) : Nat := if id = 0 then 0 else (Tab.getD s.allocs id {}).size

/-- The allocation and offset of a range of a team's view of a level, or the level code of its SCRATCH_RANGE (R229,
R231). -/
def State.view (s : State) (t : Team) (lvl : Lvl) (a n : Nat) : Except Nat (Nat × Nat) :=
  match lvl with
  | .core => if a + n ≤ s.allocSize t.coreScr then .ok (t.coreScr, a) else .error 0
  | .clus => if a + n ≤ s.allocSize t.clusScr then .ok (t.clusScr, a) else .error 1
  | .die =>
    if a < 2 ^ 31 then
      if a + n ≤ s.allocSize t.dieScr then .ok (t.dieScr, a) else .error 2
    else if t.otherScr = 0 then .error 4
    else if a - 2 ^ 31 + n ≤ s.allocSize t.otherScr then .ok (t.otherScr, a - 2 ^ 31)
    else .error 2

/-- The key of a byte of a team's view of a level that lies within it. -/
def State.viewKey (s : State) (t : Team) (lvl : Lvl) (a : Nat) : Nat :=
  match s.view t lvl a 1 with
  | .ok (id, off) => spaceKey id off
  | .error _ => 0

/-- The SCRATCH_RANGE of the lowest failing access (R231). -/
def State.rangeFate (s : State) (t : Team) (lvl : Lvl) (accs : List Acc) : Option Eff :=
  accs.findSome? fun x =>
    match s.view t lvl x.a x.n with
    | .ok _ => none
    | .error e => some (.raise .scratchRange (laneInfo e x.lane))

/-- The determinism refusals of scratch accesses (R231). -/
def Team.scratchDet (t : Team) (lvl : Lvl) (atoms : Bool) (accs : List Acc) : Option Eff :=
  if t.detlevel = 0 then none
  else if lvl == .die && atoms then some (.raise .detViol 0x40)
  else if lvl == .clus && !(accs.all fun x => decide (t.gangPos * t.obj.clusScr ≤ x.a)
      && decide (x.a + x.n ≤ (t.gangPos + 1) * t.obj.clusScr)) then some (.raise .detViol 0x40)
  else if 2 ≤ t.detlevel ∧ lvl = .die ∧ accs.any (fun x => decide (2 ^ 31 ≤ x.a)) then some (.raise .detViol 0x41)
  else none

/-! ### Declared buffers -/

/-- The buffer of a team that contains an address, and its slot. -/
def Team.bufAt (t : Team) (lvl : Lvl) (a : Nat) : Option (Nat × Buf) :=
  t.bufs.find? (fun x => x.2.lvl == lvl && decide (x.2.base ≤ a) && decide (a < x.2.base + x.2.size))

/-- A buffer moved to a state: the counts that the state clears, and the queries armed for it fire in order (R237,
R247). -/
def State.enterBuf (s : State) (t slot : Nat) (b : Buf) (st : BufState) : State :=
  let b1 : Buf := { b with state := st, fills := if st = .empty then 0 else b.fills
                           drains := if st = .empty ∨ st = .full then 0 else b.drains
                           queries := b.queries.filter (fun q => q.state != st) }
  (b.queries.filter (fun q => q.state == st)).foldl (fun s q => s.engineArrive q.group q.pc q.nb)
    (s.modTeam t (fun x => { x with bufs := Tab.put x.bufs slot b1 }))

/-- Whether a buffer admits a write or a read (R233). -/
def Buf.admits (b : Buf) (write : Bool) : Bool :=
  match b.state with
  | .empty | .filling => write
  | .full | .draining => !write

/-- The transition of a buffer at an access of R233. -/
def State.touchBuf (s : State) (t : Nat) (lvl : Lvl) (a : Nat) (write : Bool) : State :=
  match (s.team t).bufAt lvl a with
  | none => s
  | some (slot, b) =>
    match b.state, write with
    | .empty, true => s.enterBuf t slot b .filling
    | .full, false => s.enterBuf t slot b .draining
    | _, _ => s

/-- A fill completion of `k`, or nothing where R237 refuses it. -/
def State.fillBuf (s : State) (t slot k : Nat) : Option State :=
  match Tab.get? (s.team t).bufs slot with
  | none => none
  | some b =>
    if b.state = .full ∨ b.state = .draining ∨ b.maxFills < b.fills + k then none
    else if b.fills + k = b.maxFills then some (s.enterBuf t slot { b with fills := b.fills + k } .full)
    else if b.state = .filling then
      some (s.modTeam t (fun x => { x with bufs := Tab.put x.bufs slot { b with fills := b.fills + k } }))
    else some (s.enterBuf t slot { b with fills := b.fills + k } .filling)

/-- A drain release of `k`, or nothing where R237 refuses it. -/
def State.drainBuf (s : State) (t slot k : Nat) : Option State :=
  match Tab.get? (s.team t).bufs slot with
  | none => none
  | some b =>
    if b.state = .empty ∨ b.state = .filling ∨ b.maxDrains < b.drains + k then none
    else if b.drains + k = b.maxDrains then some (s.enterBuf t slot { b with drains := b.drains + k } .empty)
    else if b.state = .draining then
      some (s.modTeam t (fun x => { x with bufs := Tab.put x.bufs slot { b with drains := b.drains + k } }))
    else some (s.enterBuf t slot { b with drains := b.drains + k } .draining)

/-- The information of BUFSTATE: the sub-code, the lane, the slot (R238). -/
def bufInfo (sub lane slot : Nat) : Word := BitVec.ofNat 32 (sub + 256 * lane + 65536 * slot)

/-! ### Mapped regions -/

/-- The region of a team that contains an address, and its index. -/
def Team.regionAt (t : Team) (lvl : Lvl) (a : Nat) : Option (Nat × Region) :=
  t.regions.find? (fun x => x.2.lvl == lvl && decide (x.2.off ≤ a) && decide (a < x.2.off + x.2.size))

/-- A line of a region that an access needs. -/
def State.wantLine (s : State) (t k line : Nat) : State :=
  s.modTeam t (fun x =>
    { x with regions := Tab.modify x.regions k (fun r => { r with want := NatSet.insert r.want line }) })

/-- The granules of a region that an access meets, from its start. -/
def Region.granules (r : Region) (a n : Nat) : List Nat :=
  (List.range ((a + n - 1) / 16 - a / 16 + 1)).map (fun i => (a - r.off) / 16 + i)

/-- What a region makes of an access that may not act yet: it waits for a write-back, or for a fill that it asks for
(R240). -/
def State.regionHold (s : State) (t : Nat) (lvl : Lvl) (write fills : Bool) (x : Acc) : Option Eff :=
  match (s.team t).regionAt lvl x.a with
  | none => none
  | some (k, r) =>
    if r.unmap.isSome then some (.hold .region)
    else if write && (r.granules x.a x.n).any (fun i => r.wb.any (fun w => w.1 == i)) then some (.hold .region)
    else
      match if fills then (r.granules x.a x.n).find? (fun i => !r.filled.contains (i / 8)) else none with
      | some i => some (.held (s.wantLine t k (i / 8)) .region)
      | none => none

/-- Granules of a region marked dirty, and their lines no longer UNFILLED. -/
def Region.dirtied (r : Region) (is : List Nat) : Region :=
  { r with dirty := is.foldl NatSet.insert r.dirty, filled := (is.map (· / 8)).foldl NatSet.insert r.filled }

/-- A write's granules marked dirty in the region that holds them (R233). -/
def State.dirtyRegion (s : State) (t : Nat) (lvl : Lvl) (a n : Nat) : State :=
  match (s.team t).regionAt lvl a with
  | none => s
  | some (k, r) => s.modTeam t (fun x => { x with regions := Tab.put x.regions k (r.dirtied (r.granules a n)) })

/-! ### Granules -/

/-- A granule's full/empty bit. -/
def State.isFull (s : State) (key : Nat) : Bool := s.full.contains (key / 16 * 16)
/-- A granule's full/empty bit set. -/
def State.setFull (s : State) (key : Nat) (full : Bool) : State :=
  { s with full := if full then NatSet.insert s.full (key / 16 * 16) else NatSet.erase s.full (key / 16 * 16) }

/-- The standing of a kind of access in the table of R233. -/
structure Standing where
  /-- The bit it needs; it blocks until it finds it. -/
  needs : Option Bool := none
  /-- The bit it leaves. -/
  leaves : Option Bool := none
  /-- It is a write for buffers and regions. -/
  write : Bool := false
  /-- Buffers admit it in any state. -/
  free : Bool := false
  /-- It is an error in a mapped region. -/
  modifier : Bool := false
  deriving DecidableEq, Repr, Inhabited

/-- The buffer and region rules of R233 on an instruction's accesses, after the range checks: errors in ascending lane
order first, then what it waits for. -/
def State.standingFate (s : State) (t : Nat) (lvl : Lvl) (k : Standing) (accs : List Acc) : Option Eff :=
  (accs.findSome? fun x =>
    if k.modifier && ((s.team t).regionAt lvl x.a).isSome then some (.raise .bufstate (bufInfo 7 x.lane 0))
    else match (s.team t).bufAt lvl x.a with
      | some (slot, b) =>
        if !k.free && k.needs.isNone && !b.admits k.write then some (.raise .bufstate (bufInfo 6 x.lane slot)) else none
      | none => none)
  <|> (accs.findSome? fun x => s.regionHold t lvl k.write (!k.free) x)
  <|> (if k.needs.isSome then
      accs.findSome? fun x =>
        if some (s.isFull (s.viewKey (s.team t) lvl x.a)) != k.needs then
          some (.hold (.granule (s.viewKey (s.team t) lvl x.a / 16 * 16) (k.needs.getD true)))
        else match (s.team t).bufAt lvl x.a with
          | some (_, b) => if b.admits k.write then none else some (.hold .room)
          | none => none
    else none)

/-- All the checks of a per-lane scratch access after ALIGN (R231, R233, R243). -/
def State.scratchFate (s : State) (t : Nat) (lvl : Lvl) (k : Standing) (atoms : Bool) (accs : List Acc) : Option Eff :=
  s.rangeFate (s.team t) lvl accs <|> (s.team t).scratchDet lvl atoms accs <|> s.standingFate t lvl k accs

/-- The effect of a kind of access on buffers, bits and dirty marks, once its bytes are read or written. -/
def State.applyStanding (s : State) (t : Nat) (lvl : Lvl) (k : Standing) (accs : List Acc) : State :=
  accs.foldl (fun s x =>
    let key := s.viewKey (s.team t) lvl x.a
    let s := match k.leaves with
      | some b => s.setFull key b
      | none => s
    let s := if k.write then s.dirtyRegion t lvl x.a x.n else s
    if k.free then s else s.touchBuf t lvl x.a k.write) s

/-- The keys of an access that lies within the view. -/
def State.accKeys (s : State) (t : Nat) (lvl : Lvl) (x : Acc) : List Nat :=
  (List.range x.n).map (fun i => s.viewKey (s.team t) lvl x.a + i)

/-- Whether a scratch write leaves the team's own core scratch and cluster share (R397). -/
def Team.escapes (t : Team) (lvl : Lvl) (a n : Nat) : Bool :=
  match lvl with
  | .core => false
  | .clus => !(decide (t.gangPos * t.obj.clusScr ≤ a) && decide (a + n ≤ (t.gangPos + 1) * t.obj.clusScr))
  | .die => true

/-- One scratch write for a group; in a re-executed copy's die scratch it is suppressed (R409). -/
def State.scratchWrite (s : State) (id : Nat) (lvl : Lvl) (a : Nat) (bs : List Byte) : State :=
  let t := (s.group id).team
  let s := if (s.team t).escapes lvl a bs.length then s.markWrote t else s
  if lvl = .die ∧ (s.team t).copyOf.isSome then s
  else
    let ks := (List.range bs.length).map (fun i => s.viewKey (s.team t) lvl a + i)
    (s.clearPoison ks).setKeys (ks.zip bs)

/-- One lane's scratch write, noted where it is to die scratch (R410). -/
def State.laneStore (s : State) (lvl : Lvl) (a : Nat) (bs : List Byte) : State :=
  (if lvl = .die then s.noteStore s.curId ⟨0, a, 3, 0, bs⟩ else s).scratchWrite s.curId lvl a bs

/-- Bytes of a team's view. -/
def State.scratchRead (s : State) (t : Nat) (lvl : Lvl) (a n : Nat) : List Byte :=
  s.bytes (s.viewKey (s.team t) lvl a) n

/-! ### LDS, STS and ATOMS -/

/-- The bytes of a load's size (R242, R255). -/
def loadBytes : LdSize → Nat
  | .s8 | .z8 => 1
  | .s16 | .z16 => 2
  | .b32 => 4
  | .b64 => 8
  | .b128 => 16
  | .xa => 40

/-- The registers that a load's data takes. -/
def loadRegs : LdSize → Nat
  | .s8 | .z8 | .s16 | .z16 | .b32 => 1
  | .b64 => 2
  | .b128 => 4
  | .xa => 10

/-- A load's bytes extended to whole registers (R243, R259). -/
def loadExtend (size : LdSize) (bs : List Byte) : List Byte :=
  match size with
  | .s8 => leBytes 4 (wrapInt 32 (toSigned 8 (leNat bs)))
  | .s16 => leBytes 4 (wrapInt 32 (toSigned 16 (leNat bs)))
  | .z8 | .z16 => leBytes 4 (leNat bs)
  | .b32 | .b64 | .b128 | .xa => bs

/-- The bytes of a store's size. -/
def storeBytes : StSize → Nat
  | .b8 => 1
  | .b16 => 2
  | .b32 => 4
  | .b64 => 8
  | .b128 => 16
  | .xa => 40

/-- The bytes that a lane stores from a register run. -/
def Group.storeData (g : Group) (o : Operand) (n l : Nat) : List Byte :=
  leBytes n (wordsNat (g.valueRun o ((n + 3) / 4) l))

/-- The accesses of a per-lane scratch instruction. -/
def Group.scratchAccs (g : Group) (a : Operand) (off : Word) (n : Nat) (ls : List Nat) : List Acc :=
  ls.map (fun l => ⟨l, (g.value a l + off).toNat, n⟩)

/-- ALIGN of the lowest lane whose address is not a multiple of `n`. -/
def alignFate (code n : Nat) (accs : List Acc) : Option Eff :=
  (accs.find? (fun x => x.a % n != 0)).map (fun x => .raise .align (laneInfo code x.lane))

/-- The issuing group kills its team or faults by an uncorrectable error. -/
def ueEffect (s : State) (g : Group) : Eff := .jump (s.consumeUE s.curId g.slotPc false)

def FeLd.standing : FeLd → Standing
  | .plain => {}
  | .full => { needs := some true, leaves := some true, modifier := true }
  | .take => { needs := some true, leaves := some false, modifier := true }

def FeSt.standing : FeSt → Standing
  | .plain => { write := true }
  | .fill => { leaves := some true, write := true, modifier := true }
  | .empty => { needs := some false, leaves := some true, write := true, modifier := true }

/-- The start of a scratch operation whose results are already formed. -/
def State.startResults (s : State) (g : Group) (o : Slot) (f : Form) (body : OpBody) (n : Nat) (q : Option (BitVec 4))
    (res : List LaneRes) : State :=
  s.startOp { group := s.curId, part := g.part, ctx := g.ctx, pc := g.slotPc, body := body, flag := g.slotFlag o,
                dest := o.d, destN := n, pq := q, res := res } (formDests f)

def execLds (o : Slot) (size : LdSize) (fe : FeLd) (lvl : Lvl) (off : Word) (s : State) :
    Host.Outcome State Fault Refusal :=
  issue (.lds o size fe lvl off) s fun g ls s =>
    let accs := g.scratchAccs o.a off (loadBytes size) ls
    match alignFate 0x36 (loadBytes size) accs <|> s.scratchFate g.team lvl (FeLd.standing fe) false accs,
        (Instr.lds o size fe lvl off).form with
    | some e, _ => e
    | none, none => .done s
    | none, some f =>
      if s.readsPoison (accs.map (fun x => s.accKeys g.team lvl x)).flatten then ueEffect s g
      else withRoom g (g.slotFlag o) none
        (.done ((s.applyStanding g.team lvl (FeLd.standing fe) accs).startResults g o f .value (loadRegs size) none
          (accs.map (fun x => { lane := x.lane, bytes := loadExtend size (s.scratchRead g.team lvl x.a x.n) }))))

def execSts (o : Slot) (size : StSize) (fe : FeSt) (lvl : Lvl) (off : Word) (s : State) :
    Host.Outcome State Fault Refusal :=
  issue (.sts o size fe lvl off) s fun g ls s =>
    let accs := g.scratchAccs o.a off (storeBytes size) ls
    match alignFate 0x36 (storeBytes size) accs <|> s.scratchFate g.team lvl (FeSt.standing fe) false accs with
    | some e => e
    | none =>
      if accs.any (fun x => s.writesPoison (s.accKeys g.team lvl x)) then ueEffect s g
      else .done ((accs.foldl (fun s x => s.laneStore lvl x.a (g.storeData o.b (storeBytes size) x.lane)) s)
        |>.applyStanding g.team lvl (FeSt.standing fe) accs)

/-- Whether a group's retirement clock is the least of its team's, by the comparison of R245. -/
def State.clockLeast (s : State) (id : Nat) : Bool :=
  let g := s.group id
  (s.teamGroups g.team).all fun j =>
    let h := s.group j
    j == id || h.draining
      || (match h.wait with
          | some ⟨.nbar nb _, _, _⟩ => Tab.get? g.nbarArr nb != some ((s.team g.team).nbar nb).phase
          | some ⟨.obj b _, _, _⟩ =>
            (g.objArr.find? (fun x => x.1 == b)).map Prod.snd != some (s.barObj (handleEntry b)).bar.phase
          | _ => false)
      || decide (g.clock.toNat < h.clock.toNat) || (g.clock == h.clock && decide (g.number < h.number))

/-- A binary32 sum as the atomics form it (R244, R261): no flush, round to nearest even. -/
def atomSum (f : Fmt) (a b : Nat) : Nat × FFlags :=
  let r := fAdd .rn (fpValue f false a) (fpValue f false b)
  let z := roundFmt f r.1 .rn false false 0
  (z.1, r.2 ||| z.2)

/-- The new value of ATOMS, and the flags of .fadd (R244). -/
def atomsNew (op : AtomsOp) (u : Bool) (w old b c : Nat) : Nat × FFlags :=
  match op with
  | .add => ((old + b) % 2 ^ w, 0)
  | .min => (if u then min old b else if toSigned w old ≤ toSigned w b then old else b, 0)
  | .max => (if u then max old b else if toSigned w b ≤ toSigned w old then old else b, 0)
  | .and => (old &&& b, 0)
  | .or => (old ||| b, 0)
  | .xor => (old ^^^ b, 0)
  | .exch => (b, 0)
  | .cas => (if old = c then b else old, 0)
  | .fadd => atomSum .f32 old b

/-- One lane's read-modify-write of ATOMS: the state, the results so far and the flags (R244). -/
def atomsLane (g : Group) (o : Slot) (op : AtomsOp) (u w64 : Bool) (lvl : Lvl) (n : Nat)
    (r : State × List LaneRes × FFlags) (x : Acc) : State × List LaneRes × FFlags :=
  let old := leNat (r.1.scratchRead g.team lvl x.a n)
  let new := atomsNew op u (8 * n) old (g.sizedNat w64 o.b x.lane) (g.sizedNat w64 o.c x.lane)
  (r.1.laneStore lvl x.a (leBytes n new.1), r.2.1 ++ [{ lane := x.lane, bytes := leBytes n old }],
    r.2.2 ||| new.2)

def execAtoms (o : Slot) (op : AtomsOp) (u w64 rtn : Bool) (lvl : Lvl) (s : State) :
    Host.Outcome State Fault Refusal :=
  issue (.atoms o op u w64 rtn lvl) s fun g ls s =>
    let n := if w64 then 8 else 4
    let accs := g.scratchAccs o.a 0 n ls
    match alignFate 0x36 n accs <|> s.scratchFate g.team lvl { write := true } true accs,
        (Instr.atoms o op u w64 rtn lvl).form with
    | some e, _ => e
    | none, none => .done s
    | none, some f =>
      if 1 ≤ g.detlevel && !s.clockLeast s.curId then .hold .clock
      else if s.readsPoison (accs.map (fun x => s.accKeys g.team lvl x)).flatten then ueEffect s g
      else
        let r := accs.foldl (atomsLane g o op u w64 lvl n) (s, [], 0)
        let s1 := r.1.applyStanding g.team lvl { write := true } accs
        let g1 := (s1.curGroup?.getD g).orFlags r.2.2
        if rtn then
          withRoom g (g.slotFlag o) none
            (.done ((s1.putCur g1).startResults g1 o f .value (if w64 then 2 else 1) none r.2.1))
        else .done (s1.putCur g1)

/-! ### FESET and FEQRY -/

def execFeset (o : Slot) (full : Bool) (lvl : Lvl) (s : State) : Host.Outcome State Fault Refusal :=
  issue (.feset o full lvl) s fun g ls s =>
    let n := (g.value o.b (ls.headD 0)).toNat
    let accs := g.scratchAccs o.a 0 n ls
    let k : Standing := { free := true, modifier := true }
    if n % 16 ≠ 0 ∨ n < 16 ∨ 65536 < n then .raise .align 0x32
    else
      match alignFate 0x32 16 accs <|> s.rangeFate (s.team g.team) lvl accs
          <|> (s.team g.team).scratchDet lvl false accs
          <|> ((accs.find? (fun x => (List.range (n / 16)).any (fun i =>
                ((s.team g.team).regionAt lvl (x.a + 16 * i)).isSome))).map
              (fun x => Eff.raise .bufstate (bufInfo 7 x.lane 0))) with
      | some e => e
      | none =>
        .done (accs.foldl (fun s x => (List.range (n / 16)).foldl
          (fun s i => s.applyStanding g.team lvl { k with leaves := some full } [⟨x.lane, x.a + 16 * i, 16⟩]) s) s)

def execFeqry (o : Slot) (lvl : Lvl) (s : State) : Host.Outcome State Fault Refusal :=
  issue (.feqry o lvl) s fun g ls s =>
    let accs := g.scratchAccs o.a 0 512 ls
    match alignFate 0x36 16 accs <|> s.rangeFate (s.team g.team) lvl accs
        <|> (s.team g.team).scratchDet lvl false accs
        <|> (accs.findSome? fun x => (List.range 32).findSome? fun i =>
            s.regionHold g.team lvl false false ⟨x.lane, x.a + 16 * i, 16⟩), (Instr.feqry o lvl).form with
    | some e, _ => e
    | none, none => .done s
    | none, some f =>
      if s.readsPoison (accs.map (fun x => s.accKeys g.team lvl x)).flatten then ueEffect s g
      else withRoom g (g.slotFlag o) none
        (.done (s.startResults g o f .value 1 none (accs.map (fun x =>
          { lane := x.lane
            bytes := leBytes 4 (((List.range 32).map (fun i =>
              bitNat (s.isFull (s.viewKey (s.team g.team) lvl (x.a + 16 * i))) * 2 ^ i)).sum) }))))

/-! ### Buffer instructions -/

/-- Whether two ranges overlap. -/
def rangesMeet (a n b m : Nat) : Bool := decide (a < b + m) && decide (b < a + n)

/-- Whether a declaration from four words is malformed (R236), its own slot left out of the overlaps. -/
def State.badDecl (s : State) (t : Team) (slot : Nat) (w : List Word) : Bool :=
  let w0 := (w.getD 0 0).toNat
  let base := (w.getD 1 0).toNat
  let size := (w.getD 2 0).toNat
  let w3 := (w.getD 3 0).toNat
  natField w0 15 2 != 0 || natField w3 31 16 != 0 || natField w0 1 0 == 3 || natField w0 31 16 == 0
    || natField w3 15 0 == 0 || size % 16 != 0 || size == 0 || base % 16 != 0
    || (match Lvl.ofCode (natField w0 1 0) with
        | none => true
        | some lvl =>
          (match s.view t lvl base size with
            | .ok _ => false
            | .error _ => true)
            || t.bufs.any (fun x => x.1 != slot && x.2.lvl == lvl && rangesMeet base size x.2.base x.2.size)
            || t.regions.any (fun x => x.2.lvl == lvl && rangesMeet base size x.2.off x.2.size))

/-- The buffer that four words declare (R236). -/
def declBuf (w : List Word) : Buf :=
  { lvl := (Lvl.ofCode (natField (w.getD 0 0).toNat 1 0)).getD .core, base := (w.getD 1 0).toNat,
    size := (w.getD 2 0).toNat, maxFills := natField (w.getD 0 0).toNat 31 16,
    maxDrains := natField (w.getD 3 0).toNat 15 0 }

def execBufdec (o : Slot) (s : State) : Host.Outcome State Fault Refusal :=
  issue (.bufdec o) s fun g ls s =>
    let l := ls.headD 0
    let slot := (g.value o.a l).toNat
    let w := g.valueRun o.b 4 l
    let bad : Bool := match Tab.get? (s.team g.team).bufs slot with
      | some b => b.state != .empty
      | none => false
    if 63 < slot ∨ bad then .raise .bufstate (bufInfo 2 0 (slot % 256))
    else if s.badDecl (s.team g.team) slot w then .raise .bufstate (bufInfo 3 0 slot)
    else .done (s.modTeam g.team (fun t => { t with bufs := Tab.put t.bufs slot (declBuf w) }))

def execBufdecDrop (o : Slot) (s : State) : Host.Outcome State Fault Refusal :=
  issue (.bufdecDrop o) s fun g ls s =>
    let slot := (g.value o.a (ls.headD 0)).toNat
    match Tab.get? (s.team g.team).bufs slot with
    | none => .raise .bufstate (bufInfo (if 63 < slot then 2 else 3) 0 (slot % 256))
    | some b =>
      if b.state != .empty then .raise .bufstate (bufInfo 2 0 slot)
      else .done (s.modTeam g.team (fun t => { t with bufs := Tab.erase t.bufs slot }))

/-- BUFSET with a count event (R247). -/
def bufEvent (i : Instr) (o : Slot) (s : State) (ev : State → Nat → Nat → Nat → Option State) :
    Host.Outcome State Fault Refusal :=
  issue i s fun g ls s =>
    let slot := (g.value o.a (ls.headD 0)).toNat
    let k := (g.value o.b (ls.headD 0)).toNat
    if (Tab.get? (s.team g.team).bufs slot).isNone then .raise .bufstate (bufInfo 3 0 (slot % 256))
    else if k = 0 ∨ 65535 < k then .raise .bufstate (bufInfo 4 0 slot)
    else match ev s g.team slot k with
      | none => .raise .bufstate (bufInfo 4 0 slot)
      | some s' => .done s'

def execBufsetFill (o : Slot) (s : State) : Host.Outcome State Fault Refusal :=
  bufEvent (.bufsetFill o) o s State.fillBuf

def execBufsetDrain (o : Slot) (s : State) : Host.Outcome State Fault Refusal :=
  bufEvent (.bufsetDrain o) o s State.drainBuf

def execBufsetReset (o : Slot) (s : State) : Host.Outcome State Fault Refusal :=
  issue (.bufsetReset o) s fun g ls s =>
    let slot := (g.value o.a (ls.headD 0)).toNat
    match Tab.get? (s.team g.team).bufs slot with
    | none => .raise .bufstate (bufInfo 3 0 (slot % 256))
    | some b => .done (s.enterBuf g.team slot b .empty)

def execBufqry (o : Slot) (st : BufState) (nb : BitVec 4) (s : State) : Host.Outcome State Fault Refusal :=
  issue (.bufqry o st nb) s fun g ls s =>
    let slot := (g.value o.a (ls.headD 0)).toNat
    match Tab.get? (s.team g.team).bufs slot with
    | none => .raise .bufstate (bufInfo 3 0 (slot % 256))
    | some b =>
      if b.state = st then .done (s.engineArrive s.curId g.slotPc nb.toNat)
      else if 4 ≤ b.queries.length then .raise .bufstate (bufInfo 5 0 slot)
      else .done (s.modTeam g.team (fun t =>
        { t with bufs := Tab.put t.bufs slot { b with queries := b.queries ++ [⟨st, nb.toNat, s.curId, g.slotPc⟩] } }))

/-! ### Region instructions -/

def execMapr (o : Slot) (lvl : Lvl) (k : BitVec 3) (s : State) : Host.Outcome State Fault Refusal :=
  issue (.mapr o lvl k) s fun g ls s =>
    let l := ls.headD 0
    let off := (g.value o.a l).toNat
    let va := (g.value64 o.b l).toNat
    let size := (g.value o.c l).toNat
    let t := s.team g.team
    if off % 4096 ≠ 0 ∨ va % 4096 ≠ 0 ∨ size % 4096 ≠ 0 ∨ size = 0 then .raise .align 0x31 va
    else match s.rangeFate t lvl [⟨0, off, size⟩] with
      | some e => e
      | none =>
        if 2 ^ 54 ≤ va then .raise .prot 0x05 va
        else if (Tab.get? t.regions k.toNat).isSome
            || t.bufs.any (fun x => x.2.lvl == lvl && rangesMeet off size x.2.base x.2.size)
            || t.regions.any (fun x => x.2.lvl == lvl && rangesMeet off size x.2.off x.2.size) then
          .raise .bufstate (bufInfo 7 0 0)
        else .done (s.modTeam g.team (fun t =>
          { t with
            regions := Tab.put t.regions k.toNat
              { lvl := lvl, off := off, va := va, size := size, pc := g.slotPc, group := s.curId } }))

/-- The write-backs of a region started under an operation (R240, R248): every dirty granule, and for UNMAPR the end of
the mapping. -/
def State.startWriteBack (s : State) (t k op : Nat) (unmap : Bool) : State :=
  s.modTeam t (fun x => { x with regions := Tab.modify x.regions k (fun r =>
    { r with wb := r.wb ++ r.dirty.map (fun i => (i, op)), dirty := [], unmap := if unmap then some op else r.unmap }) })

/-- A write-back operation completes once none of its granules is outstanding; an unmapped region then goes (R240). -/
def State.settleRegion (s : State) (t k op : Nat) : State :=
  match Tab.get? (s.team t).regions k with
  | none => s.finishOp op
  | some r =>
    let s := if r.wb.any (fun w => w.2 == op) || r.unmap == some op && !r.wb.isEmpty then s else s.finishOp op
    if r.unmap.isSome && r.wb.isEmpty then
      s.modTeam t (fun x => { x with regions := Tab.erase x.regions k })
    else s

/-- FLUSHR and UNMAPR (R248). -/
def writeBackRegion (i : Instr) (s : State) (k : BitVec 3) (unmap : Bool) : Host.Outcome State Fault Refusal :=
  issue i s fun g _ s =>
    match Tab.get? (s.team g.team).regions k.toNat with
    | none => .raise .bufstate (bufInfo 7 0 0)
    | some r =>
      if r.unmap.isSome then .hold .region
      else withRoom g none (some 1)
        (.done ((((s.markWrote g.team).startOp
            { group := s.curId, part := g.part, ctx := g.ctx, pc := g.slotPc, body := .writeBack, counter := some 1 } [])
            |>.startWriteBack g.team k.toNat s.fresh unmap).settleRegion g.team k.toNat s.fresh))

def execUnmapr (o : Slot) (k : BitVec 3) (s : State) : Host.Outcome State Fault Refusal :=
  writeBackRegion (.unmapr o k) s k true

def execFlushr (o : Slot) (k : BitVec 3) (s : State) : Host.Outcome State Fault Refusal :=
  writeBackRegion (.flushr o k) s k false

end Sys2Proof.Machine
end

