-- ==== Sys2Proof/Machine/Sync.lean ====
section
/-!
DEFINITION. FENCE and the barrier and waiting instructions (R364, R365, R376 to R382).
-/

namespace Sys2Proof.Machine

/-- The information of a determinism refusal: the OP (R377, R407). -/
def detInfo (op : Nat) : Word := BitVec.ofNat 32 op

def execFence (o : Slot) (ord : Ord) (scope : Scope) (s : State) : Host.Outcome State Fault Refusal :=
  issue (.fence o ord scope) s fun g _ s =>
    let l := s.fenceLoads s.curId
    let w := s.fenceWrites s.curId scope
    let gate : Gate :=
      match ord with
      | .rel => ⟨l ++ w, false⟩
      | .acq => ⟨l, true⟩
      | .acqrel => ⟨l ++ w, true⟩
      | .rlx => {}
    .done (s.putCur { g with gates := (g.gates ++ [gate]).filter (fun t => !(s.pendingOps t.ids).isEmpty) })

/-! ### Barrier objects -/

/-- The lowest free entry of a die's table (R378). -/
def State.freeObj (s : State) (die : Nat) : Option Nat :=
  ((List.range 1024).map (fun i => 1024 * die + i)).find? (fun e => !(s.barObj e).held)

def execBarinit (o : Slot) (scope : Scope) (clus : Bool) (s : State) : Host.Outcome State Fault Refusal :=
  issue (.barinit o scope clus) s fun g ls s =>
    let k := (g.value o.a (ls.headD 0)).toNat
    let b := (g.value o.b (ls.headD 0)).toNat
    let lvl : Lvl := if clus then .clus else .core
    let acc : List Acc := [⟨0, b, 16⟩]
    if 1 ≤ g.detlevel then .raise .detViol (detInfo 0x341)
    else if b % 16 ≠ 0 then .raise .align 0x3C
    else match s.scratchFate g.team lvl (FeSt.standing .fill) false acc with
      | some e => e
      | none =>
        if k = 0 ∨ 65535 < k then .raise .barOver (barInfo 2 0xFF 0)
        else
          let write := fun (s : State) (h : Word) =>
            Eff.done ((s.scratchWrite s.curId lvl b (leBytes 16 h.toNat)).applyStanding g.team lvl (FeSt.standing .fill) acc)
          match s.freeObj (coreDie g.core) with
          | none => write s 0
          | some e =>
            write (s.putObj e { s.barObj e with held := true, part := g.part, ctx := g.ctx, bar := ⟨0, k, k, k, scope⟩ })
              (handleOf e (s.barObj e).gen)

/-- BARARR on a numbered barrier (R379). -/
def arriveNb (g : Group) (ls : List Nat) (o : Slot) (drop wait : Bool) (s : State) : Eff :=
  let nb := (g.value o.a (ls.headD 0)).toNat
  let k := (g.value o.b (ls.headD 0)).toNat
  let bar := (s.team g.team).nbar nb
  if 15 < nb then .raise .barStale (barInfo 4 (nb % 256) 0)
  else if !(s.releaseWrites s.curId .team).isEmpty then .hold (.ops (s.releaseWrites s.curId .team))
  else match s.nbArrive g.team nb k drop with
    | .error sub => .raise .barOver (barInfo sub nb bar.pending)
    | .ok s1 =>
      let s2 := s1.putCur { g with nbarArr := Tab.put g.nbarArr nb bar.phase }
      if wait && !((s2.team g.team).nbar nb).complete bar.phase then .acted s2 (.nbar nb bar.phase) else .done s2

/-- BARARR on a barrier object (R379). -/
def arriveObj (g : Group) (ls : List Nat) (o : Slot) (drop wait : Bool) (s : State) : Eff :=
  let h := g.value o.a (ls.headD 0)
  let k := (g.value o.b (ls.headD 0)).toNat
  let e := handleEntry h
  if 1 ≤ g.detlevel then .raise .detViol (detInfo 0x342)
  else match s.staleCode g.part g.ctx h with
    | some sub => .raise .barStale (barInfo sub 0xFF 0) 0 h
    | none =>
      let obj := s.barObj e
      if !(s.releaseWrites s.curId obj.bar.scope).isEmpty then .hold (.ops (s.releaseWrites s.curId obj.bar.scope))
      else match obj.bar.arrive k drop with
        | .error sub => .raise .barOver (barInfo sub 0xFF obj.bar.pending) 0 h
        | .ok b =>
          let s2 := ((s.markWrote g.team).putObj e { obj with bar := b }).putCur (g.recordObj h obj.bar.phase)
          if wait && !b.complete obj.bar.phase then .acted s2 (.obj h obj.bar.phase) else .done s2

def execBararr (o : Slot) (obj drop wait : Bool) (s : State) : Host.Outcome State Fault Refusal :=
  issue (.bararr o obj drop wait) s fun g ls s => if obj then arriveObj g ls o drop wait s else arriveNb g ls o drop wait s

/-- The wait of BARWAIT on a phase of a barrier (R380). -/
def waitPhase (s : State) (b : Bar) (p : Word) (w : WaitWhy) : Eff :=
  if b.expect = 0 ∨ b.complete p then .done s else .acted s w

/-- BARWAIT on a numbered barrier (R380). -/
def waitNb (g : Group) (ls : List Nat) (o : Slot) (cur : Bool) (s : State) : Eff :=
  let nb := (g.value o.a (ls.headD 0)).toNat
  let bar := (s.team g.team).nbar nb
  if 15 < nb then .raise .barStale (barInfo 4 (nb % 256) 0)
  else match if cur then some bar.phase else Tab.get? g.nbarArr nb with
    | none => .raise .barStale (barInfo 5 nb 0)
    | some p => waitPhase s bar p (.nbar nb p)

/-- BARWAIT on a barrier object (R380). -/
def waitObj (g : Group) (ls : List Nat) (o : Slot) (cur : Bool) (s : State) : Eff :=
  let h := g.value o.a (ls.headD 0)
  if 1 ≤ g.detlevel then .raise .detViol (detInfo 0x343)
  else match s.staleCode g.part g.ctx h with
    | some sub => .raise .barStale (barInfo sub 0xFF 0) 0 h
    | none =>
      let bar := (s.barObj (handleEntry h)).bar
      match if cur then some bar.phase else (g.objArr.find? (fun x => x.1 == h)).map Prod.snd with
      | none => .raise .barStale (barInfo 5 0xFF 0) 0 h
      | some p => waitPhase s bar p (.obj h p)

def execBarwait (o : Slot) (obj cur : Bool) (s : State) : Host.Outcome State Fault Refusal :=
  issue (.barwait o obj cur) s fun g ls s => if obj then waitObj g ls o cur s else waitNb g ls o cur s

/-- Every group that waits on a released object raises BAR_STALE(3) at its own slot (R381). -/
def State.staleWaiters (s : State) (h : Word) : State :=
  (Tab.keys (s.groups.filter (fun x => x.2.waitsOn h))).foldl
    (fun s id => (s.modGroup id (fun g => { g with wait := none })).raiseFault id (s.group id).slotPc .barStale
      (barInfo 3 0xFF 0) 0 h) s

def execBarrel (o : Slot) (s : State) : Host.Outcome State Fault Refusal :=
  issue (.barrel o) s fun g ls s =>
    let h := g.value o.a (ls.headD 0)
    if 1 ≤ g.detlevel then .raise .detViol (detInfo 0x344)
    else match s.staleCode g.part g.ctx h with
      | some sub => .raise .barStale (barInfo sub 0xFF 0) 0 h
      | none =>
        .done ((s.staleWaiters h).putObj (handleEntry h) (s.barObj (handleEntry h)).freed)

/-! ### NBAR and WAITM -/

def execNbarSet (o : Slot) (s : State) : Host.Outcome State Fault Refusal :=
  issue (.nbarSet o) s fun g ls s =>
    let nb := (g.value o.a (ls.headD 0)).toNat
    let k := (g.value o.b (ls.headD 0)).toNat
    let bar := (s.team g.team).nbar nb
    if 15 < nb then .raise .barStale (barInfo 4 (nb % 256) 0)
    else if k = 0 ∨ 65535 < k then .raise .barOver (barInfo 2 nb bar.pending)
    else if k = bar.expect then .done s
    else if bar.pending = bar.expect then
      .done (s.modTeam g.team (fun t => t.putNbar nb { bar with expect := k, pending := k, nextexp := k }))
    else .raise .barOver (barInfo 3 nb bar.pending)

/-- Whether a matrix condition of a team holds (R382). -/
def State.matrixHolds (s : State) (t : Nat) (kind : WaitmKind) (tile n : Nat) : Bool :=
  match kind with
  | .wm => decide (n ≤ (Tab.getD (s.team t).accs tile {}).wm)
  | .free => (Tab.getD (s.team t).accs tile {}).wm == 0
  | .slots => (s.team t).mx.all (fun m => decide (m.subs.length ≤ n))

/-- The tile count of a team: none before its first MSUB (R275). -/
def Team.tileCount (t : Team) : Option Nat := t.mx.bind Mx.tiles

def execWaitm (o : Slot) (kind : WaitmKind) (s : State) : Host.Outcome State Fault Refusal :=
  issue (.waitm o kind) s fun g ls s =>
    let tile := (g.value o.a (ls.headD 0)).toNat
    let n := (g.value o.b (ls.headD 0)).toNat
    let t := s.team g.team
    if !t.obj.mstream || t.helm then .raise .prot 0x07
    else match t.tileCount with
      | none => .raise .scratchRange 5
      | some k =>
        if kind != .slots && decide (k ≤ tile) then .raise .scratchRange 5
        else if kind = .wm ∧ (n = 0 ∨ 128 < n) ∨ kind = .slots ∧ 3 < n then .raise .align 0x3D
        else if s.matrixHolds g.team kind tile n then .done s
        else .hold (.matrix kind tile n)

end Sys2Proof.Machine
end

