-- ==== Sys2Proof/Machine/Global.lean ====
section
/-!
DEFINITION. The global-memory instructions: their checks and the operations that they start (R250 to R269, R215 to
R228), and the driver's answers, ring writes and invalidations.
-/

namespace Sys2Proof.Machine

/-- One lane's access as an instruction makes it: its virtual address, and the bytes it writes and compares. -/
structure Want where
  lane : Nat := 0
  va : Nat := 0
  data : List Byte := []
  cmp : List Byte := []
  deriving DecidableEq, Repr, Inhabited

/-- What a global-memory instruction asks for. -/
structure Ask where
  /-- The bytes of each access and their alignment. -/
  n : Nat := 4
  align : Nat := 4
  write : Bool := false
  /-- Whether strongly ordered pages and host pages accept it (R220, R254). -/
  soOk : Bool := false
  hostOk : Bool := false
  /-- A determinism level refuses it (R258). -/
  det : Bool := false
  body : OpBody := .value
  /-- It returns results to its flag; else it counts in cw. -/
  returns : Bool := false
  regs : Nat := 1
  tag : Bool := false
  q : Option (BitVec 4) := none
  /-- The scopes of its release and acquire. -/
  release : Option Scope := none
  acquire : Bool := false
  deriving DecidableEq, Repr, Inhabited

/-- A lane's address: A plus the signed offset in C, modulo 2^64 (R255). -/
def Group.address (g : Group) (o : Slot) (l : Nat) : Nat := (g.value64 o.a l + (g.value o.c l).signExtend 64).toNat

/-- The checked places of an instruction's lanes, or the fate of the lowest that fails (R223). -/
def State.translateAll (s : State) (g : Group) (k : Ask) : List Want → Except Eff (List (LaneAcc × Bool))
  | [] => .ok []
  | w :: ws =>
    match s.access g.unit g.part g.ctx w.va k.write k.soOk k.hostOk with
    | .bad c r => .error (.raise c (laneInfo r w.lane) w.va)
    | .miss p => .error (.miss { p with lane := w.lane })
    | .ok t so =>
      match t with
      | .mem key | .host key =>
        (s.translateAll g k ws).map (fun r => (⟨w.lane, w.va, key, k.n, .memory, w.data, w.cmp⟩, so) :: r)
      | .reg off => (s.translateAll g k ws).map (fun r => (⟨w.lane, w.va, off, k.n, .register, w.data, w.cmp⟩, so) :: r)
      | .kick off => (s.translateAll g k ws).map (fun r => (⟨w.lane, w.va, off, k.n, .kick, w.data, w.cmp⟩, so) :: r)
      | .nothing => .error (.raise .nomap (laneInfo 2 w.lane) w.va)

/-- The line actions of an instruction: one for each line, and one for each strongly ordered access (R220, R250). -/
def lineActs (xs : List (LaneAcc × Bool)) : List LineAct :=
  let plain := (xs.filter (fun x => !x.2)).map Prod.fst
  ((plain.map (fun a => a.key / 128 * 128)).eraseDups.map
      (fun line => { line := line, accs := plain.filter (fun a => a.key / 128 * 128 == line) }))
    ++ (xs.filter Prod.snd).map (fun x => { line := x.1.key / 128 * 128, accs := [x.1], so := true })

/-- The start of a global-memory operation, once its checks have passed (R250, R259, R260). -/
def State.startGlobal (s : State) (g : Group) (o : Slot) (f : Form) (k : Ask) (xs : List (LaneAcc × Bool)) : State :=
  let id := s.fresh
  let s := xs.foldl (fun s x => s.hold g.unit g.part g.ctx x.1.va) s
  let s := if k.write then s.markWrote g.team else s
  let s := if k.returns then s else xs.foldl (fun s x =>
    s.noteStore s.curId ⟨0, x.1.va, if k.body matches .atomx _ then 2 else 1, 0, x.1.data⟩) s
  if k.write && (s.team g.team).copyOf.isSome then s
  else
    let s := s.startOp
      { group := s.curId, part := g.part, ctx := g.ctx, pc := g.slotPc, body := k.body
        flag := if k.returns then g.slotFlag o else none
        counter := if k.returns then none else some 0
        dest := o.d, destN := k.regs, tag := k.tag, pq := k.q
        after := match k.release with
          | some sc => s.releaseOps s.curId sc
          | none => []
        lines := lineActs xs } (formDests f)
    if k.acquire then s.modGroup s.curId (fun g => { g with acq := s.pendingOps g.acq ++ [id] }) else s

/-- A global-memory instruction issued (R257): determinism, alignment in every lane, translation lane by lane, room,
and the start of its operation. -/
def globalEff (i : Instr) (o : Slot) (k : Ask) (wants : List Want) (g : Group) (s : State) : Eff :=
  if k.det && 1 ≤ g.detlevel then .raise .detViol (BitVec.ofNat 32 ((i.form.map Form.op).getD 0))
  else match wants.find? (fun w => w.va % k.align != 0) with
    | some w => .raise .align (laneInfo 0x20 w.lane) w.va
    | none =>
      match s.translateAll g k wants, i.form with
      | .error e, _ => e
      | .ok _, none => .done s
      | .ok xs, some f =>
        withRoom g (if k.returns then g.slotFlag o else none) (if k.returns then none else some 0)
          (.done (s.startGlobal g o f k xs))

/-- The missing pages that an instruction of a run-ahead meets, or nothing where it would fault or meets a strongly
ordered page (R224, R225). -/
def globalPages (k : Ask) (wants : List Want) (g : Group) (s : State) : Option (List PageRec) :=
  if k.det && 1 ≤ g.detlevel || wants.any (fun w => w.va % k.align != 0) then none
  else wants.foldl (fun r w =>
    match r, s.access g.unit g.part g.ctx w.va k.write k.soOk k.hostOk with
    | none, _ => none
    | some _, .bad _ _ => none
    | some ps, .miss p => some (ps ++ [p])
    | some ps, .ok _ so => if so then none else some ps) (some [])

/-- The lanes in which a global-memory instruction acts: the lowest alone where every operand is scalar or immediate (R255). -/
def actingLanes (o : Slot) (ls : List Nat) : List Nat :=
  if o.d.perLane || o.a.perLane || o.b.perLane || o.c.perLane then ls else ls.take 1

/-- A global-memory instruction: what it asks for, and each acting lane's access. -/
def global (i : Instr) (s : State) (o : Slot) (k : Ask) (want : Group → Nat → Want) : Host.Outcome State Fault Refusal :=
  issueWith i s (fun g ls s => globalPages k ((actingLanes o ls).map (want g)) g s)
    (fun g ls s => globalEff i o k ((actingLanes o ls).map (want g)) g s)

/-! ### Loads and stores -/

def execLd (o : Slot) (size : LdSize) (acq : Option Scope) (tag : Bool) (s : State) : Host.Outcome State Fault Refusal :=
  global (.ld o size acq tag) s o
    { n := loadBytes size, align := if size = .xa then 64 else loadBytes size, soOk := size = .b32 ∨ size = .b64
      hostOk := true, det := tag, body := .ld size, returns := true, regs := loadRegs size, tag := tag
      acquire := acq.isSome }
    fun g l => { lane := l, va := g.address o l }

def execSt (o : Slot) (size : StSize) (rel : Option Scope) (s : State) : Host.Outcome State Fault Refusal :=
  global (.st o size rel) s o
    { n := storeBytes size, align := if size = .xa then 64 else storeBytes size, write := true
      soOk := size = .b32 ∨ size = .b64, hostOk := true, body := .st size, release := rel }
    fun g l => { lane := l, va := g.address o l, data := g.storeData o.b (storeBytes size) l }

/-! ### Atomics -/

/-- Whether an order acquires, and the scope of its release (R256, R260). -/
def ordAcquires : Ord → Bool
  | .acq | .acqrel => true
  | .rlx | .rel => false
def ordRelease (ord : Ord) (scope : Scope) : Option Scope :=
  match ord with
  | .rel | .acqrel => some scope
  | .rlx | .acq => none

def execAtom (o : Slot) (op : AtomOp) (u w64 rtn : Bool) (ord : Ord) (scope : Scope) (tag : Bool) (s : State) :
    Host.Outcome State Fault Refusal :=
  let n := if w64 then 8 else 4
  global (.atom o op u w64 rtn ord scope tag) s o
    { n := n, align := n, write := true, det := true, body := .atom op u w64, returns := rtn, regs := n / 4, tag := tag
      release := ordRelease ord scope, acquire := ordAcquires ord }
    fun g l => { lane := l, va := g.address o l, data := leBytes n (g.sizedNat w64 o.b l) }

/-- The bytes of ATOMC's width (R262). -/
def atomcBytes : AtomcW → Nat
  | .b32 => 4
  | .b64 => 8
  | .b128 => 16

def execAtomc (o : Slot) (width : AtomcW) (ord : Ord) (scope : Scope) (tag : Bool) (q : Option (BitVec 4)) (s : State) :
    Host.Outcome State Fault Refusal :=
  let n := atomcBytes width
  global (.atomc o width ord scope tag q) s o
    { n := n, align := n, write := true, det := true, body := .atomc width, returns := true, regs := n / 4, tag := tag
      q := q, release := ordRelease ord scope, acquire := ordAcquires ord }
    fun g l =>
      { lane := l, va := (g.value64 o.a l).toNat, data := g.storeData o.b n l, cmp := g.storeData o.c n l }

def execAtomx (o : Slot) (ta : XTy) (ord : Ord) (scope : Scope) (s : State) : Host.Outcome State Fault Refusal :=
  let i := Instr.atomx o ta ord scope
  let k : Ask := { n := 64, align := 64, write := true, body := .atomx ta, release := ordRelease ord scope }
  let want := fun (g : Group) (l : Nat) =>
    { lane := l, va := g.address o l
      data := if ta = .xa then g.storeData o.b 40 l else leBytes 4 (g.addendWord ta o.b l).toNat : Want }
  issueWith i s (fun g ls s => globalPages k ((actingLanes o ls).map (want g)) g s) fun g ls s =>
    match globalEff i o k ((actingLanes o ls).map (want g)) g s with
    | .done t => if g.detlevel = 3 && (Tab.get? t.ops s.fresh).isSome then .acted t (.ops [s.fresh]) else .done t
    | e => e

def execAtomv (o : Slot) (op : AtomvOp) (u rtn : Bool) (ord : Ord) (scope : Scope) (s : State) :
    Host.Outcome State Fault Refusal :=
  global (.atomv o op u rtn ord scope) s o
    { n := 16, align := 16, write := true, det := true, body := .atomv op u, returns := rtn, regs := 4
      release := ordRelease ord scope, acquire := ordAcquires ord }
    fun g l => { lane := l, va := g.address o l, data := g.storeData o.b 16 l }

/-! ### Futures -/

def execLdfut (o : Slot) (w64 : Bool) (scope : Scope) (s : State) : Host.Outcome State Fault Refusal :=
  global (.ldfut o w64 scope) s o
    { n := 16, align := 16, body := .ldfut w64, returns := true, regs := if w64 then 2 else 1, acquire := true }
    fun g l => { lane := l, va := g.address o l }

def execStfut (o : Slot) (w64 : Bool) (scope : Scope) (s : State) : Host.Outcome State Fault Refusal :=
  global (.stfut o w64 scope) s o
    { n := 16, align := 16, write := true, det := true, body := .stfut w64, release := some scope }
    fun g l => { lane := l, va := g.address o l, data := leBytes 8 (g.sizedNat w64 o.b l) }

def execFutrst (o : Slot) (s : State) : Host.Outcome State Fault Refusal :=
  global (.futrst o) s o { n := 16, align := 16, write := true, det := true, body := .futrst }
    fun g l => { lane := l, va := g.address o l }

/-! ### Page requests answered, and invalidations -/

/-- The held translations of a unit for some pages of a context dropped (R226). -/
def State.dropHeld (s : State) (unit part ctx : Nat) (pages : List Nat) : State :=
  { s with tlb := s.tlb.filter (fun h => !(h.unit == unit && h.ctx == 64 * part + ctx
      && pages.any (fun p => decide (h.page ≤ p) && decide (p < h.page + h.leaf.size)))) }

/-- A group acts on the answer to its request (R226). -/
def State.groupAnswer (s : State) (key : Nat) (r : PageReq) (fail : Bool) : State :=
  let g := s.group r.who
  let s := { s with preqs := Tab.erase s.preqs key }
  let s := s.modGroup r.who (fun g => { g with request := none })
  if fail then
    (s.modGroup r.who (fun g => { g with wait := none })).raiseFault r.who r.pc .nomap (laneInfo 1 (r.pages.headD {}).lane)
      ((r.pages.headD {}).va) 0
  else (s.dropHeld g.unit r.part r.ctx (r.pages.map PageRec.page)).endWait r.who

/-- An answer through PRQRESP: ignored where it names no outstanding request (R226, R227). That of a saved context is
recorded. -/
def State.answerRequest (s : State) (part req : Nat) (fail : Bool) : State :=
  let key := 2 ^ 32 * part + req % 2 ^ 32
  match Tab.get? s.preqs key with
  | none => s
  | some r =>
    if !r.posted || r.answer.isSome then s
    else if r.kind == 1 && (!(s.context part r.ctx).saved || (s.team (s.group r.who).team).way == 1) then s.groupAnswer key r fail
    else { s with preqs := Tab.put s.preqs key { r with answer := some fail } }

/-- PRQTAIL_WRITE: the waiting requests of the function enter the ring in order while there is room (R227). -/
def execPrqtailWrite (part : Nat) (v : Word) (s : State) : Host.Outcome State Fault Refusal :=
  .next ((Tab.keys (s.preqs.filter (fun x => x.2.part == part && !x.2.posted))).foldl State.postRequest
    (s.modFunc part (fun f => { f with prqTail := v })))

/-- Whether an invalidation command covers an address of a context (R222). -/
def invCovers (f : Func) (ctx va size : Nat) : Bool :=
  (natBit f.invCmd.toNat 6 || natField f.invCmd.toNat 5 0 == ctx)
    && (f.invPages == 0 || rangesMeet va size (natField f.invVa 53 12 * 4096) (4096 * f.invPages.toNat))

/-- INVALIDATE_GO: a write of INVCMD with GO, ignored while BUSY (R222). -/
def execInvalidateGo (part : Nat) (cmd : Word) (s : State) : Host.Outcome State Fault Refusal :=
  if (s.func part).invBusy || !natBit cmd.toNat 7 then .next s
  else
    let f := { s.func part with invBusy := true, invCmd := cmd }
    .next (s.putFunc part
      { f with
        invOps := Tab.keys (s.ops.filter (fun x => x.2.part == part
          && x.2.lines.any (fun l => !l.done && l.accs.any (fun a => invCovers f x.2.ctx a.va a.n)))) })

/-- INVALIDATE_DONE: every access that used a covered translation is complete, every unit drops what it holds, and BUSY
clears (R222). -/
def execInvalidateDone (part : Nat) (s : State) : Host.Outcome State Fault Refusal :=
  let f := s.func part
  if !f.invBusy || !(s.pendingOps f.invOps).isEmpty then .next s
  else
    .next ({ s with tlb := s.tlb.filter (fun h =>
        !(h.ctx / 64 == part && invCovers f (h.ctx % 64) h.page h.leaf.size)) }.putFunc part
      { f with invBusy := false, invOps := [] })

end Sys2Proof.Machine
end

