-- ==== Sys2Proof/Machine/Futures.lean ====
section
/-!
DEFINITION. Futures at their home slices: slots, deferred-read records and the walks that answer them (R265 to R270).
-/

namespace Sys2Proof.Machine

/-- The records of a slot, in link order. -/
def State.readers (s : State) (slot : Nat) : List FutRec := s.futs.filter (fun r => r.slot == slot)

/-- The indexes of a slice's deferred-read table that are free (R266): 256, less those linked and those still to be
walked. -/
def State.freeRecs (s : State) (slice : Nat) : List Nat :=
  let used := ((s.futs ++ (s.walks.map FutWalk.recs).flatten).filter (fun r => r.slice == slice)).map FutRec.index
  (List.range 256).filter (fun i => !used.contains i)

/-- The fields of a slot as memory holds them. -/
def State.slotValue (s : State) (slot : Nat) : Nat := s.nat slot 8
def State.slotCtrl (s : State) (slot : Nat) : Nat := s.nat (slot + 8) 4

/-- Whether a slot is malformed (R265). -/
def State.slotBad (s : State) (slot : Nat) : Bool :=
  let c := s.slotCtrl slot
  c / 4 != 0 || c == 3 || (c == 2 && (s.readers slot).isEmpty)

/-- Whether a slot is full. -/
def State.slotFull (s : State) (slot : Nat) : Bool := s.slotCtrl slot % 2 == 1

/-- The stored VALUE and CTRL of a slot made to show its linked readers; all zero where it has none (R265, R270). -/
def State.mirrorSlot (s : State) (slot : Nat) : State :=
  match s.readers slot with
  | [] => s.setBytes slot (leBytes 16 0)
  | r :: rs => (s.setNat slot 8 (r.index + 65536 * (rs.length + 1))).setNat (slot + 8) 4 2

/-- A record linked at the tail of a slot's list (R267). -/
def State.linkReader (s : State) (slice slot op : Nat) (lanes : List Nat) (index : Nat) : State :=
  ({ s with futs := s.futs ++ [⟨slice, index, slot, op, lanes⟩] } : State).mirrorSlot slot

/-- The results of some lanes of an operation added. -/
def State.addRes (s : State) (op : Nat) (rs : List LaneRes) : State := s.modOp op (fun o => { o with res := o.res ++ rs })

/-- Whether an operation reads or writes 64-bit futures. -/
def Op.fut64 (op : Op) : Bool :=
  match op.body with
  | .ldfut w | .stfut w => w
  | _ => false

/-- The bytes that an operation reads of a future's value. -/
def Op.futBytes (op : Op) (v : Nat) : List Byte := leBytes (if op.fut64 then 8 else 4) v

/-- LDFUT at one slot, in its lanes (R267): a malformed slot gives all ones and FUTBAD, a full one its value; for any other a
record is linked, or the request is held where the table has none free (R266). -/
def State.readFuture (s : State) (id : Nat) (op : Op) (slot va : Nat) (lanes : List Nat) : State :=
  let give := fun (s : State) (bs : List Byte) => s.addRes id (lanes.map (fun l => { lane := l, va := va, bytes := bs }))
  let slice := Config.homeSlice (s.func op.part).dropped.length (slot / 128)
  if s.slotBad slot then (give s (op.futBytes (2 ^ 64 - 1))).ctxEvent op.part op.ctx 3 0 va
  else if s.slotFull slot then give s (op.futBytes (s.slotValue slot))
  else match s.freeRecs slice with
    | [] => { s with futHeld := s.futHeld ++ [⟨slice, 0, slot, id, lanes⟩] }
    | free =>
      let i := Config.freeRecord s.fresh free
      (s.linkReader slice slot id lanes (if free.contains i then i else free.headD 0)).tick

/-- STFUT at one slot (R268): whether it writes, and the state. A malformed slot gives FUTBAD, a full one FUTFULL; any other
is filled, and its readers are to be walked. -/
def State.fillFuture (s : State) (id : Nat) (op : Op) (slot va : Nat) (data : List Byte) : State × Bool :=
  if s.slotBad slot then (s.ctxEvent op.part op.ctx 3 0 va, false)
  else if s.slotFull slot then (s.ctxEvent op.part op.ctx 4 0 va, false)
  else
    let rs := s.readers slot
    let s1 := (s.setBytes slot data).setNat (slot + 8) 4 1
    ({ s1 with futs := s1.futs.filter (fun r => r.slot != slot)
               walks := if rs.isEmpty then s1.walks else s1.walks ++ [⟨id, data, rs⟩] }, true)

/-- FUTRST at one slot (R269). -/
def State.resetFuture (s : State) (op : Op) (slot va : Nat) : State × Bool :=
  if s.slotBad slot then (s.ctxEvent op.part op.ctx 3 0 va, false)
  else if !(s.readers slot).isEmpty then (s, false)
  else (s.setBytes slot (leBytes 16 0), true)

/-- FUTURE_WALK: the slice answers the next reader of a value that an STFUT stored, and frees its record (R268). -/
def execFutureWalk (op : Nat) (s : State) : Host.Outcome State Fault Refusal :=
  match s.walks.find? (fun w => w.op == op) with
  | none => .next s
  | some w =>
    match w.recs with
    | [] => .next { s with walks := s.walks.filter (· != w) }
    | r :: rs =>
      let o := (Tab.get? s.ops r.op).getD {}
      let s1 : State := { s with walks := if rs.isEmpty then s.walks.filter (· != w)
                                          else s.walks.map (fun x => if x = w then { w with recs := rs } else x) }
      .next (s1.addRes r.op (r.lanes.map (fun l => { lane := l, bytes := o.futBytes (leNat w.value) })))

/-- DEFERRED_RECORD_GRANT: the oldest request that a slice holds is served again, once a record of its table is free
(R266). -/
def execDeferredRecordGrant (op : Nat) (s : State) : Host.Outcome State Fault Refusal :=
  let first := fun (r : FutRec) => s.futHeld.find? (fun x => x.slice == r.slice) == some r
  match s.futHeld.find? (fun r => r.op == op && first r && !(s.freeRecs r.slice).isEmpty), Tab.get? s.ops op with
  | some h, some o =>
    let va := ((o.lines.map LineAct.accs).flatten.find? (fun a => a.key == h.slot)).elim 0 LaneAcc.va
    .next ({ s with futHeld := s.futHeld.erase h }.readFuture op o h.slot va h.lanes)
  | _, _ => .next s

/-- The records of an operation unlinked as its context is saved, and its held requests dropped (R270); its unanswered
lanes are read anew at restoration. -/
def State.unlinkOp (s : State) (id : Nat) : State :=
  let slots := ((s.futs.filter (fun r => r.op == id)).map FutRec.slot).eraseDups
  let s1 : State := { s with futs := s.futs.filter (fun r => r.op != id), futHeld := s.futHeld.filter (fun r => r.op != id) }
  let s2 := slots.foldl State.mirrorSlot s1
  s2.modOp id (fun o =>
    { o with lines := (o.lines.map (fun l =>
        { l with done := l.accs.all (fun a => o.res.any (fun r => r.lane == a.lane)) })) })

end Sys2Proof.Machine
end

