-- ==== Sys2Proof/Machine/Frac.lean ====
section
/-!
DEFINITION. Exact fractions, for the positions, depths and parameters that the spec computes exactly before it rounds
once (R302, R306, R307, R312, R332, R333).
-/

namespace Sys2Proof.Machine

/-- A fraction in lowest terms, its denominator positive. -/
structure Frac where
  num : Int := 0
  den : Nat := 1
  deriving DecidableEq, Repr, Inhabited

/-- A quotient of integers in lowest terms. -/
def Frac.make (n : Int) (d : Nat) : Frac :=
  let g := Nat.gcd n.natAbs d
  if g = 0 then ⟨0, 1⟩ else ⟨n / g, d / g⟩

def Frac.ofInt (n : Int) : Frac := ⟨n, 1⟩
def Frac.ofNat (n : Nat) : Frac := ⟨n, 1⟩
def Frac.add (a b : Frac) : Frac := Frac.make (a.num * b.den + b.num * a.den) (a.den * b.den)
def Frac.neg (a : Frac) : Frac := ⟨-a.num, a.den⟩
def Frac.sub (a b : Frac) : Frac := a.add b.neg
def Frac.mul (a b : Frac) : Frac := Frac.make (a.num * b.num) (a.den * b.den)
/-- A quotient; 0 where the divisor is 0. -/
def Frac.div (a b : Frac) : Frac :=
  if b.num = 0 then ⟨0, 1⟩ else Frac.make (a.num * b.den * b.num.sign) (a.den * b.num.natAbs)
def Frac.abs (a : Frac) : Frac := ⟨a.num.natAbs, a.den⟩
def Frac.lt (a b : Frac) : Bool := decide (a.num * b.den < b.num * a.den)
def Frac.le (a b : Frac) : Bool := decide (a.num * b.den ≤ b.num * a.den)
def Frac.isZero (a : Frac) : Bool := a.num == 0
def Frac.isNeg (a : Frac) : Bool := decide (a.num < 0)
def Frac.min (a b : Frac) : Frac := if b.lt a then b else a
def Frac.max (a b : Frac) : Frac := if a.lt b then b else a
def Frac.floor (a : Frac) : Int := a.num / a.den
def Frac.ceil (a : Frac) : Int := -((-a.num) / a.den)

/-- The nearest multiple of `2 ^ -8`, ties to the even multiple (R302, R327). -/
def Frac.snap (a : Frac) : Frac :=
  let x := a.num * 256
  let k := x / a.den
  let r := 2 * (x - k * a.den)
  Frac.make (if (a.den : Int) < r ∨ (r = a.den ∧ k % 2 ≠ 0) then k + 1 else k) 256

/-- A finite exact value as a fraction; nothing for a NaN or an infinity. -/
def FVal.frac? : FVal → Option Frac
  | .nan _ | .inf _ => none
  | .fin n m e _ =>
    let x : Int := if n then -(m : Int) else m
    if 0 ≤ e then some ⟨x * 2 ^ e.toNat, 1⟩ else some (Frac.make x (2 ^ (-e).toNat))

/-- The binary32 value of a word as a fraction, where it is finite. -/
def wordFrac? (w : Word) : Option Frac := (fpValue .f32 false w.toNat).frac?

/-- A fraction as an exact value, its bits beyond any format's kept as inexactness. -/
def Frac.val (a : Frac) : FVal :=
  let k := Nat.log2 a.den + 40
  .fin a.isNeg (a.num.natAbs * 2 ^ k / a.den) (-(k : Int)) (a.num.natAbs * 2 ^ k % a.den != 0)

/-- A fraction rounded to binary32, to nearest even, never flushed. -/
def Frac.word (a : Frac) : Word := BitVec.ofNat 32 (roundFmt .f32 a.val .rn false false 0).1

end Sys2Proof.Machine
end

