-- ==== Sys2Proof/Machine/TileMove.lean ====
section
/-!
DEFINITION. Tile moves and the fills and write-backs of mapped regions (R240, R241, R246, R273).
-/

namespace Sys2Proof.Machine

/-- The scratch level of a tile move's end, where it is one. -/
def endLevel? : TEnd → Option Lvl
  | .core => some .core
  | .clus => some .clus
  | .die => some .die
  | .g | .col => none

/-- The column-store window of a context on a cluster: its first line and its lines (R274). -/
def State.window (s : State) (part cluster ctx : Nat) : Nat × Nat := Tab.getD s.grants ((64 * part + cluster) * 64 + ctx) (0, 0)

/-- Whether a row of a move at .col runs past the context's window (R273). -/
def State.colBad (s : State) (g : Group) (off n : Nat) : Bool :=
  let w := s.window g.part (coreUnit g.core) g.ctx
  decide (2 ^ 25 ≤ off) || decide (32 * w.2 < off % 2 ^ 18 + n)

/-- The key of a byte of a context's column-store window (R273). -/
def State.colKey (s : State) (g : Group) (off : Nat) : Nat :=
  columnKey (coreUnit g.core) (off / 2 ^ 18 * 2 ^ 18 + 32 * (s.window g.part (coreUnit g.core) g.ctx).1 + off % 2 ^ 18)

/-- The rows of one end of a move: their addresses. -/
def rowAddrs (a stride rows : Nat) : List Nat := (List.range rows).map (fun r => a + r * stride)

/-- The range checks of one end of a move at issue (R215, R231, R246, R273). -/
def State.endFate (s : State) (g : Group) (e : TEnd) (a stride n rows : Nat) : Option Eff :=
  match e with
  | .g => ((rowAddrs a stride rows).find? (fun x => decide (2 ^ 54 < x + n))).map (fun x => .raise .prot 0x05 x)
  | .col => if (rowAddrs a stride rows).any (fun x => s.colBad g x n) then some (.raise .scratchRange 3) else none
  | .core => s.rangeFate (s.team g.team) .core ((rowAddrs a stride rows).map (fun x => ⟨0, x, n⟩))
  | .clus => s.rangeFate (s.team g.team) .clus ((rowAddrs a stride rows).map (fun x => ⟨0, x, n⟩))
  | .die => s.rangeFate (s.team g.team) .die ((rowAddrs a stride rows).map (fun x => ⟨0, x, n⟩))

/-- The determinism refusals of one scratch end of a move (R231). -/
def State.endDet (s : State) (g : Group) (e : TEnd) (a stride n rows : Nat) : Option Eff :=
  match endLevel? e with
  | none => none
  | some lvl => (s.team g.team).scratchDet lvl false ((rowAddrs a stride rows).map (fun x => ⟨0, x, n⟩))

/-- The address of one end of a move: a pair for global memory. -/
def Group.endAddr (g : Group) (e : TEnd) (o : Operand) (l : Nat) : Nat :=
  if e = .g then (g.value64 o l).toNat else (g.value o l).toNat

/-- The buffer that holds the first byte of one end of a move. -/
def State.endBuf (s : State) (t : Nat) (e : TEnd) (a : Nat) : Option Nat :=
  match endLevel? e with
  | none => none
  | some lvl => ((s.team t).bufAt lvl a).map Prod.fst

def execTmov (o : Slot) (sk dk : TEnd) (bdone : Bool) (nb : Option (BitVec 4)) (s : State) :
    Host.Outcome State Fault Refusal :=
  issue (.tmov o sk dk bdone nb) s fun g ls s =>
    let l := ls.headD 0
    let src := g.endAddr sk o.a l
    let dst := g.endAddr dk o.b l
    let shape := (g.valueAt o.c 0 l).toNat
    let ss := (g.valueAt o.c 1 l).toNat
    let ds := (g.valueAt o.c 2 l).toNat
    let n := shape % 2 ^ 16
    let rows := shape / 2 ^ 16
    if dk = .col ∧ 1 ≤ g.detlevel then .raise .detViol 0x42
    else if n = 0 ∨ rows = 0 ∨ n % 16 ≠ 0 ∨ ss % 16 ≠ 0 ∨ ds % 16 ≠ 0 ∨ src % 16 ≠ 0 ∨ dst % 16 ≠ 0
        ∨ (1 < rows ∧ ds < n) then .raise .align 0x30
    else
      match s.endFate g sk src ss n rows <|> s.endFate g dk dst ds n rows <|> s.endDet g sk src ss n rows
          <|> s.endDet g dk dst ds n rows, (Instr.tmov o sk dk bdone nb).form with
      | some e, _ => e
      | none, none => .done s
      | none, some f =>
        if bdone && (s.endBuf g.team sk src).isNone && (s.endBuf g.team dk dst).isNone then
          .raise .bufstate (bufInfo 8 0 0)
        else withRoom g (g.slotFlag o) (some 1)
          (.done ((if dk = .g ∨ dk = .die ∨ dk = .col then (s.markWrote g.team).noteStore s.curId ⟨s.fresh, dst, 4, 0, []⟩
              else s).startOp
            { group := s.curId, part := g.part, ctx := g.ctx, pc := g.slotPc, flag := g.slotFlag o, counter := some 1,
              dest := o.d
              body := .tmov ⟨sk, dk, bdone, nb, src, dst, n, rows, ss, ds, 0⟩ } (formDests f)))

/-- What a row of a move comes to: its bytes or the state after it, a status that ends the move, a page that it needs,
or a region line that it needs. -/
inductive RowRes (α : Type)
  | ok (a : α)
  | status (code : Nat) (s : State)
  | miss (r : PageRec)
  | wait (s : State)

/-- One source row of a move read (R233, R246). -/
def State.moveRead (s : State) (id : Nat) (e : TEnd) (a n pc : Nat) : RowRes (State × List Byte) :=
  let g := s.group id
  match endLevel? e with
  | some lvl =>
    let gs := (List.range (n / 16)).map (fun i => (⟨0, a + 16 * i, 16⟩ : Acc))
    match gs.findSome? (fun x => s.regionHold g.team lvl false true x) with
    | some (.held s' _) => .wait s'
    | some _ => .wait s
    | none =>
      match gs.findSome? (fun x => match (s.team g.team).bufAt lvl x.a with
          | some (slot, b) => if b.admits false then none else some slot
          | none => none) with
      | some slot => .status 3 (s.engineFault id pc .bufstate (bufInfo 6 0 slot) (base := 29))
      | none =>
        if s.readsPoison (gs.map (fun x => s.accKeys g.team lvl x)).flatten then .status 2 (s.consumeUE id pc true)
        else .ok (gs.foldl (fun s x => s.touchBuf g.team lvl x.a false) s, s.scratchRead g.team lvl a n)
  | none =>
    if e = .col then .ok (s, s.bytes (s.colKey g a) n)
    else match s.range g.unit g.part g.ctx a n false with
      | .ok ps =>
        if s.readsPoison (ps.map Prod.snd) then .status 2 (s.consumeUE id pc true) else .ok (s, s.bytesAt ps)
      | .error (.bad _ r _) => .status (1 + 256 * r) s
      | .error (.miss r) => .miss r

/-- An engine's write of whole granules in a team's view (R233): refused by a buffer, or done with each granule full. -/
def State.engineGranules (s : State) (id : Nat) (lvl : Lvl) (a : Nat) (bs : List Byte) : Except Nat State :=
  let t := (s.group id).team
  let gs := (List.range (bs.length / 16)).map (fun i => (⟨0, a + 16 * i, 16⟩ : Acc))
  match gs.findSome? (fun x => match (s.team t).bufAt lvl x.a with
      | some (slot, b) => if b.admits true then none else some slot
      | none => none) with
  | some slot => .error slot
  | none => .ok ((s.scratchWrite id lvl a bs).applyStanding t lvl { leaves := some true, write := true } gs)

/-- One destination row of a move written (R233, R246). -/
def State.moveWrite (s : State) (id : Nat) (e : TEnd) (a pc : Nat) (bs : List Byte) : RowRes State :=
  let g := s.group id
  match endLevel? e with
  | some lvl =>
    match (List.range (bs.length / 16)).findSome? (fun i =>
        match (s.team g.team).regionAt lvl (a + 16 * i) with
        | some (_, r) => if r.unmap.isSome || r.wb.any (fun w => w.1 == (a + 16 * i - r.off) / 16) then some () else none
        | none => none) with
    | some () => .wait s
    | none =>
      match s.engineGranules id lvl a bs with
      | .ok s' => .ok s'
      | .error slot => .status 3 (s.engineFault id pc .bufstate (bufInfo 6 0 slot) (base := 29))
  | none =>
    if (s.team g.team).copyOf.isSome then .ok s
    else if e = .col then .ok (s.setBytes (s.colKey g a) bs)
    else match s.range g.unit g.part g.ctx a bs.length true with
      | .ok ps =>
        if s.writesPoison (ps.map Prod.snd) then .status 2 (s.consumeUE id pc true)
        else .ok (s.writePlaces g.part g.ctx ps bs)
      | .error (.bad _ r _) => .status (1 + 256 * r) s
      | .error (.miss r) => .miss r

/-- What the rows of a move come to: its status, a page that a row needs, or a region line that a row needs. -/
inductive MoveRes
  | ended (s : State) (status : Nat)
  | miss (s : State) (row : Nat) (p : PageRec)
  | wait (s : State) (row : Nat)

/-- The rows of a move from row `r` on; the status holds a code, a reason and the first row not fully written. -/
def State.moveRows (s : State) (id op pc : Nat) (m : Move) : Nat → Nat → MoveRes
  | 0, _ => .ended s 0
  | k + 1, r =>
    match s.moveRead id m.sk (m.src + r * m.ss) m.rowBytes pc with
    | .status c s' => .ended s' (c + 65536 * r)
    | .miss p => .miss s r p
    | .wait s' => .wait s' r
    | .ok (s1, bs) =>
      match s1.moveWrite id m.dk (m.dst + r * m.ds) pc bs with
      | .status c s' => .ended s' (c + 65536 * r)
      | .miss p => .miss s r p
      | .wait s' => .wait s' r
      | .ok s2 => (s2.fillStore id op bs).moveRows id op pc m k (r + 1)

/-- A move that stands at a row. -/
def State.moveAt (s : State) (op : Nat) (m : Move) (row : Nat) : State :=
  s.modOp op (fun o => { o with body := .tmov { m with moved := row } })

/-- The fill and drain completions of .bdone, fill first (R246). -/
def State.moveDone (s : State) (id pc : Nat) (m : Move) : State :=
  let t := (s.group id).team
  let apply := fun (s : State) (slot : Option Nat) (ev : State → Nat → Nat → Nat → Option State) =>
    match slot with
    | none => s
    | some k => (ev s t k 1).getD (s.engineFault id pc .bufstate (bufInfo 4 0 k) (base := 29))
  apply (apply s (s.endBuf t m.dk m.dst) State.fillBuf) (s.endBuf t m.sk m.src) State.drainBuf

/-- The end of a move with its status: the fill and drain of .bdone, the status word, the flag, ct and the barrier
(R241). -/
def State.endMove (s : State) (opId : Nat) (op : Op) (m : Move) (status : Nat) : State :=
  let s := if m.bdone && status % 2 ^ 16 == 0 then s.moveDone op.group op.pc m else s
  let s := s.modGroup op.group (fun g => g.writeWords op.dest [0] (fun _ => BitVec.ofNat 32 status))
  let s := s.finishOp opId
  match m.nb with
  | none => s
  | some nb => s.engineArrive op.group op.pc nb.toNat

/-- Whether a line of a context's window is still being zeroed (R274). -/
def State.zeroing (s : State) (part cluster : Nat) : Bool := (s.func part).csgZero.any (fun z => z.1 == cluster)

/-- TILE_MOVE_COMPLETE: a move whose requests are answered moves its rows, and ends (R228, R241, R246). The reason of a
FAIL is 1. -/
def execTileMoveComplete (op : Nat) (s : State) : Host.Outcome State Fault Refusal :=
  match Tab.get? s.ops op with
  | none => .next s
  | some x =>
    match x.body with
    | .tmov m =>
      if (m.sk = .col ∨ m.dk = .col) && s.zeroing x.part (coreUnit (s.group x.group).core) then .next s
      else match s.answerOf op 0 with
        | .wait => .next s
        | .fail => .next ((s.clearRequests op 0).endMove op x m (1 + 256 + 65536 * m.moved))
        | .go =>
          match (s.clearRequests op 0).moveRows x.group op x.pc m (m.rows - m.moved) m.moved with
          | .ended s' status => .next (s'.endMove op x m status)
          | .wait s' row => .next (s'.moveAt op m row)
          | .miss s' row p =>
            if (s.func x.part).prqBase = 0 then .next (s'.endMove op x m (1 + 256 * 3 + 65536 * row))
            else .next ((s'.moveAt op m row).engineRequest x.group x.pc op 0 p)
    | _ => .next s

/-! ### Region fills and write-backs -/

/-- The groups of a team that wait for a region. -/
def State.regionWaiters (s : State) (t : Nat) : List Nat :=
  (s.teamGroups t).filter (fun g => match (s.group g).wait with
    | some ⟨.region, _, _⟩ => true
    | _ => false)

/-- REGION_FILL: the map unit reads a line that a held instruction needs (R240). An answer of FAIL, or a translation
that is refused, is raised at the held instructions. -/
def execRegionFill (team k line : Nat) (s : State) : Host.Outcome State Fault Refusal :=
  match Tab.get? (s.team team).regions k with
  | none => .next s
  | some r =>
    let who := team
    let sub := 8 * line + k + 1
    let g := s.group r.group
    let refuse := fun (s : State) (c : Cause) (reason va : Nat) =>
      (s.regionWaiters team).foldl (fun s id =>
        (s.modGroup id (fun g => { g with wait := none })).raiseFault id (s.group id).slotPc c
          (BitVec.ofNat 32 reason) va 0) s
    if !r.want.contains line then .next s
    else match s.answerOf who sub with
      | .wait => .next s
      | .fail => .next (refuse (s.clearRequests who sub) .nomap 1 (r.va + 128 * line))
      | .go =>
        let s := s.clearRequests who sub
        match s.range g.unit g.part g.ctx (r.va + 128 * line) 128 false with
        | .error (.bad c reason va) => .next (refuse s c reason va)
        | .error (.miss p) =>
          if (s.func g.part).prqBase = 0 then .next (refuse s .nomap 3 (r.va + 128 * line))
          else .next (s.engineRequest r.group r.pc who sub p)
        | .ok ps =>
          if s.readsPoison (ps.map Prod.snd) then .next (s.consumeUE r.group r.pc true)
          else
            let key := s.viewKey (s.team team) r.lvl (r.off + 128 * line)
            let s := s.setBytes key (s.bytesAt ps)
            let s := (List.range 8).foldl (fun s i => s.setFull (key + 16 * i) true) s
            .next (s.modTeam team (fun t =>
              { t with
                regions := Tab.modify t.regions k (fun r =>
                  { r with filled := NatSet.insert r.filled line, want := NatSet.erase r.want line }) }))

/-- WRITE_BACK_COMPLETE: the outstanding write-backs of a region's line are performed and acknowledged (R240). A refused
one is raised against the group, not precisely, and is dropped. -/
def execWriteBackComplete (team k line : Nat) (s : State) : Host.Outcome State Fault Refusal :=
  match Tab.get? (s.team team).regions k with
  | none => .next s
  | some r =>
    let who := team
    let sub := 8 * line + k + 1 + 2 ^ 32
    let ws := r.wb.filter (fun w => w.1 / 8 == line)
    let g := s.group r.group
    let opId := (ws.map Prod.snd).headD 0
    let op := (Tab.get? s.ops opId).getD {}
    let done := fun (s : State) =>
      ((ws.map Prod.snd).eraseDups).foldl (fun s o => s.settleRegion team k o)
        (s.modTeam team (fun t =>
          { t with
            regions := Tab.modify t.regions k (fun r => { r with wb := r.wb.filter (fun w => w.1 / 8 != line) }) }))
    let refuse := fun (s : State) (c : Cause) (reason : Nat) =>
      done (s.engineFault r.group (if opId = 0 then r.pc else op.pc) c (BitVec.ofNat 32 reason) (r.va + 128 * line))
    if ws.isEmpty then .next s
    else match s.answerOf who sub with
      | .wait => .next s
      | .fail => .next (refuse (s.clearRequests who sub) .nomap 1)
      | .go =>
        let s := s.clearRequests who sub
        match s.range g.unit g.part g.ctx (r.va + 128 * line) 128 true with
        | .error (.bad c reason _) => .next (refuse s c reason)
        | .error (.miss p) =>
          if (s.func g.part).prqBase = 0 then .next (refuse s .nomap 3)
          else .next (s.engineRequest r.group (if opId = 0 then r.pc else op.pc) who sub p)
        | .ok ps =>
          let key := s.viewKey (s.team team) r.lvl (r.off + 128 * line)
          if s.readsPoison (ws.map (fun w => key + 16 * (w.1 % 8))) then .next (done (s.consumeUE r.group op.pc true))
          else
            let qs := (ws.map (fun w => (ps.drop (16 * (w.1 % 8))).take 16)).flatten
            let bs := (ws.map (fun w => s.bytes (key + 16 * (w.1 % 8)) 16)).flatten
            if s.writesPoison (qs.map Prod.snd) then .next (done (s.consumeUE r.group op.pc true))
            else .next (done (if (s.team team).copyOf.isSome then s else s.writePlaces g.part g.ctx qs bs))

end Sys2Proof.Machine
end

