-- ==== Sys2Proof/Machine/Graphics.lean ====
section
/-!
DEFINITION. Views, charts and tile slots; EMIT, VBLD, CHARTXF, SAMPLE and TILEOUT; the raster unit and the display
serialiser (R299 to R327).
-/

namespace Sys2Proof.Machine

/-! ### Charts -/

/-- A view (R299, R317, R430). -/
def State.view? (s : State) (v : Nat) : View := Tab.getD s.views v {}
/-- The state with a view replaced. -/
def State.putView (s : State) (v : Nat) (x : View) : State := { s with views := Tab.set {} s.views v x }

/-- An unsigned field of a chart object (R301). -/
def chartNat (c : List Byte) (off n : Nat) : Nat := leNat ((c.drop off).take n)

/-- Whether a chart object is well formed (R301). -/
def chartOk (c : List Byte) : Bool :=
  chartNat c 0 4 == 0x54524843
    && [4, 6].all (fun o => decide (1 ≤ chartNat c o 2) && decide (chartNat c o 2 ≤ 8192))
    && [8, 10].all (fun o => chartNat c o 2 % 32 == 0 && decide (32 ≤ chartNat c o 2) && decide (chartNat c o 2 ≤ 4096))
    && decide (chartNat c 12 2 ≤ chartNat c 8 2) && decide (chartNat c 14 2 ≤ chartNat c 10 2)
    && (List.range 16).all (fun k => decide (1 ≤ chartNat c (16 + 2 * k) 2) && decide (1 ≤ chartNat c (64 + 2 * k) 2)
        && decide (1 ≤ chartNat c (48 + k) 1) && decide (chartNat c (48 + k) 1 ≤ 64)
        && decide (1 ≤ chartNat c (96 + k) 1) && decide (chartNat c (96 + k) 1 ≤ 64))
    && chartNat c 112 16 == 0

/-- One axis of a chart with its bearing (R302): the display extent, the chart extent, the position of the bearing, and
the segments' lengths and densities. -/
structure Axis where
  extent : Nat := 1
  samples : Nat := 32
  c0 : Nat := 0
  bearing : Word := 0
  segs : List (Nat × Nat) := []
  deriving DecidableEq, Repr, Inhabited

/-- An axis of a snapshot. -/
def Snap.axis (sn : Snap) (y : Bool) : Axis :=
  let c := sn.chart
  if y then
    ⟨chartNat c 6 2, chartNat c 10 2, chartNat c 14 2, sn.py,
      (List.range 16).map (fun k => (chartNat c (64 + 2 * k) 2, chartNat c (96 + k) 1))⟩
  else
    ⟨chartNat c 4 2, chartNat c 8 2, chartNat c 12 2, sn.px,
      (List.range 16).map (fun k => (chartNat c (16 + 2 * k) 2, chartNat c (48 + k) 1))⟩

/-- The piecewise-linear function from 0 on over segments of a length and a slope; the last one extends (R302). -/
def walkSegs : List (Frac × Frac) → Frac → Frac → Frac
  | [], _, acc => acc
  | (len, slope) :: rest, u, acc =>
    if rest.isEmpty || u.le len then acc.add (slope.mul u) else walkSegs rest (u.sub len) (acc.add (slope.mul len))

/-- F of an axis, or its inverse G (R302). -/
def Axis.warp (a : Axis) (inv : Bool) (u : Frac) : Frac :=
  let seg := fun (x : Nat × Nat) =>
    if inv then (Frac.make (x.1 * x.2) 16, Frac.make 16 x.2) else (Frac.ofNat x.1, Frac.make x.2 16)
  if u.isNeg then (walkSegs ((a.segs.take 8).reverse.map seg) u.neg ⟨0, 1⟩).neg
  else walkSegs ((a.segs.drop 8).map seg) u ⟨0, 1⟩

/-- The bearing of an axis. One that is not finite gives no position by R302: a free one stands for it. -/
def Axis.origin (a : Axis) : Frac :=
  (wordFrac? a.bearing).getD (Frac.make (Config.freeValue (2 ^ 64 + a.bearing.toNat)) 256)

/-- The chart coordinate of a display coordinate (R302). -/
def Axis.toChart (a : Axis) (d : Frac) : Frac := (Frac.ofNat a.c0).add (a.warp false (d.sub a.origin))
/-- The display coordinate of a chart coordinate (R302). -/
def Axis.toDisplay (a : Axis) (c : Frac) : Frac := a.origin.add (a.warp true (c.sub (Frac.ofNat a.c0)))
/-- The snapped display position of a chart sample (R302). -/
def Axis.position (a : Axis) (k : Nat) : Frac := (a.toDisplay (Frac.make (2 * k + 1) 2)).snap
/-- Whether a display position lies off the display (R302). -/
def Axis.off (a : Axis) (x : Frac) : Bool := x.isNeg || (Frac.ofNat a.extent).le x

/-- One lane of CHARTXF (R312); a finite coordinate with a bearing that is not finite has a free result. -/
def Snap.chartxf (sn : Snap) (inv y : Bool) (x : FVal) (free : Nat) : Nat × FFlags :=
  let a := sn.axis y
  match x.frac? with
  | none => roundFmt .f32 x .rn false false 0
  | some v =>
    if (wordFrac? a.bearing).isNone then
      (free % 2 ^ 32, BitVec.ofNat 32 (free / 2 ^ 32) &&& (flagNV ||| flagOF ||| flagUF ||| flagNX))
    else roundFmt .f32 (if inv then a.toDisplay v else a.toChart v).val .rn false false 0

def execChartxf (o : Slot) (inv y : Bool) (s : State) : Host.Outcome State Fault Refusal :=
  issue (.chartxf o inv y) s fun g ls s =>
    match Tab.get? (s.team g.team).snaps (g.value o.b (ls.headD 0)).toNat with
    | none => .raise .prot 0x0C
    | some sn =>
      .done ({ s with fresh := s.fresh + 128 }.putCur
        (g.writeFloat false o.d ls (fun l => sn.chartxf inv y (g.fval .f32 false o.a l) (Config.freeValue (s.fresh + l)))))

/-! ### VBLD -/

/-- VBLD: the 192 bytes of the chart in three accesses of a line action's size (R311). -/
def vbld (i : Instr) (o : Slot) (det : Bool) (set_ : Group → Nat → Option (Word × Word)) (s : State) :
    Host.Outcome State Fault Refusal :=
  let wants := fun (g : Group) (l : Nat) =>
    (List.range 3).map (fun j => ({ va := (g.value64 o.b l).toNat + 64 * j } : Want))
  let ask := fun (g : Group) (l : Nat) =>
    ({ n := 64, align := 64, hostOk := true, det := det, body := .vbld (g.value o.a l).toNat (set_ g l)
       returns := true, regs := 2 } : Ask)
  issueWith i s (fun g ls s => globalPages (ask g (ls.headD 0)) (wants g (ls.headD 0)) g s)
    (fun g ls s => globalEff i o (ask g (ls.headD 0)) (wants g (ls.headD 0)) g s)

def execVbldLat (o : Slot) (s : State) : Host.Outcome State Fault Refusal :=
  vbld (.vbldLat o) o true (fun _ _ => none) s

def execVbldSet (o : Slot) (s : State) : Host.Outcome State Fault Refusal :=
  vbld (.vbldSet o) o false (fun g l => some (g.valueAt o.c 0 l, g.valueAt o.c 1 l)) s

/-- The status of a VBLD (R311). -/
def State.vbldStatus (s : State) (part view : Nat) (chart : List Byte) : Nat :=
  if 16 ≤ view ∨ Tab.getD s.pt.view view 0 ≠ part then 2 else if chartOk chart then 0 else 1

/-- A VBLD completes: the snapshot is replaced or removed, and sD:sD+1 receive the LSEQ and the status (R300, R311). -/
def State.vbldDone (s : State) (op : Op) (view : Nat) (set_ : Option (Word × Word)) : State × List Word :=
  let vas := ((op.lines.map LineAct.accs).flatten).map LaneAcc.va
  let base := vas.foldl min (2 ^ 64)
  let chart := ((List.range 3).map (fun j =>
    ((op.res.find? (fun r => r.va == base + 64 * j)).getD {}).bytes)).flatten
  let v := s.view? view
  let st := s.vbldStatus op.part view chart
  let sn : Snap := match set_ with
    | some (x, y) => ⟨chart, x, y, 0⟩
    | none => ⟨chart, v.brgx, v.brgy, v.lseq⟩
  (s.modTeam (s.group op.group).team (fun t =>
      { t with snaps := if st = 0 then Tab.put t.snaps view sn else Tab.erase t.snaps view }),
    [if st = 2 then 0 else sn.lseq, BitVec.ofNat 32 st])

/-! ### EMIT -/

/-- A tile slot of a helm core. -/
def State.tslot (s : State) (k : Nat) : TSlot := Tab.getD s.tslots k {}
/-- The state with a tile slot replaced. -/
def State.putSlot (s : State) (k : Nat) (x : TSlot) : State := { s with tslots := Tab.set {} s.tslots k x }

/-- The key of a tile slot of a group's helm core. -/
def Group.slotKey (g : Group) (k : Nat) : Nat := 16 * g.core + k

/-- The slots that an EMIT of a group with a mask reaches (R306). -/
def State.routes (s : State) (g : Group) (mask : Word) : List (Nat × Nat) :=
  ((List.range 16).filter (fun k =>
      (s.tslot (g.slotKey k)).state == .opened && (s.tslot (g.slotKey k)).team == g.team
        && mask.getLsbD (s.tslot (g.slotKey k)).view)).map
    (fun k => (g.slotKey k, (s.tslot (g.slotKey k)).opening))

/-- The store of an operation of the graphics engines, counted in cx. -/
def Group.graphicsOp (g : Group) (id : Nat) (body : OpBody) : Op :=
  { group := id, part := g.part, ctx := g.ctx, pc := g.slotPc, body := body, counter := some 4 }

def execEmitPrim (o : Slot) (cullb : Bool) (s : State) : Host.Outcome State Fault Refusal :=
  issue (.emitPrim o cullb) s fun g ls s =>
    match ls.find? (fun l => (g.value64 o.b l).toNat % 256 != 0) with
    | some l => .raise .prot (laneInfo 0x0F l)
    | none =>
      let open_ := s.routes g (g.value o.c (ls.headD 0))
      withRoom g none (some 4)
        (.done (s.startOp (g.graphicsOp s.curId (.emit (ls.map (fun l =>
          ⟨g.valueRun o.a 9 l, (g.value64 o.b l).toNat, cullb, open_⟩)))) []))

/-- The descriptor of emit.open (R310). -/
structure OpenDesc where
  tile : Nat := 0
  bin : Nat := 0
  tx : Nat := 0
  ty : Nat := 0
  view : Nat := 0
  lvl : Nat := 0
  closes : Nat := 1
  cap : Nat := 0
  reserved : Bool := false
  deriving DecidableEq, Repr, Inhabited

/-- The descriptor in four words (R310). -/
def openDesc (w : List Word) : OpenDesc :=
  let w2 := (w.getD 2 0).toNat
  let w3 := (w.getD 3 0).toNat
  { tile := (w.getD 0 0).toNat, bin := (w.getD 1 0).toNat, tx := 32 * natField w2 6 0, ty := 32 * natField w2 13 7
    view := natField w2 17 14, lvl := natField w2 19 18, closes := natField w2 23 20 + 1, cap := natField w3 11 0
    reserved := natField w2 31 24 != 0 || natField w3 31 12 != 0 }

/-- The bytes of a bin (R310). -/
def binBytes (cap : Nat) : Nat := 16 + 64 * cap

/-- Whether a descriptor's fields are wrong whatever the snapshot (R310). -/
def OpenDesc.bad (d : OpenDesc) : Bool :=
  d.reserved || decide (1 < d.lvl) || d.cap == 0 || d.tile % 16 != 0 || d.bin % 16 != 0
    || rangesMeet d.tile 16384 d.bin (binBytes d.cap)

def execEmitOpen (o : Slot) (s : State) : Host.Outcome State Fault Refusal :=
  issue (.emitOpen o) s fun g ls s =>
    let l := ls.headD 0
    let k := (g.value o.a l).toNat
    let d := openDesc (g.valueRun o.b 4 l)
    let t := s.team g.team
    let lvl : Lvl := if d.lvl = 0 then .core else .clus
    if 15 < k then .raise .prot 0x0D
    else if (s.tslot (g.slotKey k)).state ≠ .free then .hold .room
    else if d.bad then .raise .prot 0x0D
    else match Tab.get? t.snaps d.view with
      | none => .raise .prot 0x0C
      | some sn =>
        if (sn.axis false).samples < d.tx + 32 ∨ (sn.axis true).samples < d.ty + 32 then .raise .prot 0x0D
        else match s.rangeFate t lvl [⟨0, d.tile, 16384⟩, ⟨0, d.bin, binBytes d.cap⟩]
            <|> t.scratchDet lvl false [⟨0, d.tile, 16384⟩, ⟨0, d.bin, binBytes d.cap⟩] with
          | some e => e
          | none =>
            withRoom g none (some 4)
              (.done ((s.putSlot (g.slotKey k)
                { state := .opened, team := g.team, opening := s.fresh, tile := d.tile, bin := d.bin, tx := d.tx
                  ty := d.ty, view := d.view, lvl := lvl, closes := d.closes, cap := d.cap, snap := sn }).tick))

/-- The EMITs of a group that still have primitives to route. -/
def State.emitsOf (s : State) (id : Nat) : List Nat :=
  Tab.keys ((s.groupOps id).filter (fun x => match x.2.body with
    | .emit _ => true
    | _ => false))

def execEmitClose (o : Slot) (s : State) : Host.Outcome State Fault Refusal :=
  issue (.emitClose o) s fun g ls s =>
    let k := (g.value o.a (ls.headD 0)).toNat
    let x := s.tslot (g.slotKey k)
    let before := s.emitsOf s.curId
    let final := x.closes ≤ x.made + 1
    if 15 < k ∨ x.state ≠ .opened ∨ x.team ≠ g.team then .raise .prot 0x0E
    else withRoom g none (some 4)
      (.done ((s.putSlot (g.slotKey k)
        (if final then
          { x with made := x.made + 1, before := x.before ++ before, state := .closing, group := s.curId
                   pc := g.slotPc, op := s.fresh }
        else { x with made := x.made + 1, before := x.before ++ before })).startOp
          (g.graphicsOp s.curId (.emitClose before final)) []))

/-! ### The raster unit -/

/-- A fraction as the pair that a prepared primitive holds, and back. -/
def Frac.pair (a : Frac) : Int × Nat := (a.num, a.den)
def pairFrac (p : Int × Nat) : Frac := ⟨p.1, p.2⟩

/-- The doubled signed area of three points (R306). -/
def area (xs ys : List Frac) : Frac :=
  let x := fun k => xs.getD k ⟨0, 1⟩
  let y := fun k => ys.getD k ⟨0, 1⟩
  (((x 1).sub (x 0)).mul ((y 2).sub (y 0))).sub (((x 2).sub (x 0)).mul ((y 1).sub (y 0)))

/-- One vertex under the projection of a chart (R306): its snapped display position and its depth. -/
def Snap.vertex (sn : Snap) (v : List Frac) : Option (Frac × Frac × Frac) :=
  match allSome ((List.range 16).map (fun k => wordFrac? (BitVec.ofNat 32 (chartNat sn.chart (128 + 4 * k) 4)))) with
  | none => none
  | some m =>
    let row := fun i => (List.range 4).foldl (fun (acc : Frac) j =>
      acc.add ((m.getD (4 * i + j) {}).mul ((v ++ [Frac.ofNat 1]).getD j {}))) (Frac.ofNat 0)
    if (row 3).le ⟨0, 1⟩ then none
    else
      let half := fun (e : Nat) (r : Frac) => (Frac.make e 2).mul r
      some ((half (chartNat sn.chart 4 2) (((row 0).div (row 3)).add ⟨1, 1⟩)).snap,
        (half (chartNat sn.chart 6 2) ((⟨1, 1⟩ : Frac).sub ((row 1).div (row 3)))).snap, (row 2).div (row 3))

/-- A primitive prepared with a slot's snapshot, or nothing where R306 drops it. -/
def TSlot.prepare (x : TSlot) (p : Emitted) : Option Prim :=
  match allSome (p.verts.map wordFrac?) with
  | none => none
  | some w =>
    match allSome ((List.range 3).map (fun k => x.snap.vertex ((w.drop (3 * k)).take 3))) with
    | none => none
    | some vs =>
      let xs := vs.map (fun v => v.1)
      let ys := vs.map (fun v => v.2.1)
      if (xs ++ ys).any (fun c => (Frac.ofNat (2 ^ 15)).le c.abs) then none
      else if (area xs ys).isZero || (p.cull && (area xs ys).isNeg) then none
      else some ⟨xs.map Frac.pair, ys.map Frac.pair, vs.map (fun v => v.2.2.pair), p.ident + 16 * x.view⟩

/-- Whether the chart range of display bounds, widened outwards to whole samples, meets a tile's samples (R306). -/
def Axis.meets (a : Axis) (cs : List Frac) (t : Nat) : Bool :=
  match cs with
  | [] => false
  | c :: rest =>
    decide ((a.toChart (rest.foldl Frac.min c)).floor ≤ t + 31) && decide ((t : Int) ≤ (a.toChart (rest.foldl Frac.max c)).ceil)

/-- The binning test of a prepared primitive (R306). -/
def TSlot.binTest (x : TSlot) (p : Prim) : Bool :=
  (x.snap.axis false).meets (p.xs.map pairFrac) x.tx && (x.snap.axis true).meets (p.ys.map pairFrac) x.ty

/-- A primitive reaches a slot (R305, R306). -/
def TSlot.bin_ (x : TSlot) (p : Emitted) : TSlot :=
  match x.prepare p with
  | none => { x with dropped := x.dropped + 1 }
  | some q =>
    if x.binTest q then { x with prims := if x.binned < x.cap then x.prims ++ [q] else x.prims, binned := x.binned + 1 }
    else x

/-- Whether a slot still takes a primitive of an operation: it is OPEN, or it is CLOSING and one of its closing groups
had submitted it before. -/
def TSlot.takes (x : TSlot) (opening op : Nat) : Bool :=
  x.opening == opening && (x.state == .opened || (x.state == .closing && x.before.contains op))

/-- PRIMITIVE_BINNED: the raster unit bins or drops the next lane's primitive of an EMIT in each of its slots (R306); cx
falls after the last. -/
def execPrimitiveBinned (op : Nat) (s : State) : Host.Outcome State Fault Refusal :=
  match Tab.get? s.ops op with
  | none => .next s
  | some x =>
    match x.body with
    | .emit (p :: rest) =>
      let s := p.slots.foldl (fun s k =>
        if (s.tslot k.1).takes k.2 op then s.putSlot k.1 ((s.tslot k.1).bin_ p) else s) s
      .next (if rest.isEmpty then s.finishOp op else s.modOp op (fun x => { x with body := .emit rest }))
    | .emit [] => .next (s.finishOp op)
    | _ => .next s

/-! ### Resolving -/

/-- An edge function of a prepared primitive at a sample (R307), before orientation. -/
def edge (xs ys : List Frac) (i : Nat) (sx sy : Frac) : Frac :=
  let x := fun k => xs.getD (k % 3) ⟨0, 1⟩
  let y := fun k => ys.getD (k % 3) ⟨0, 1⟩
  (((x (i + 1)).sub (x i)).mul (sy.sub (y i))).sub (((y (i + 1)).sub (y i)).mul (sx.sub (x i)))

/-- Whether an edge of a primitive admits a sample: inside, or on a top or left edge in its oriented direction (R307). -/
def edgeAdmits (xs ys : List Frac) (neg : Bool) (i : Nat) (sx sy : Frac) : Bool :=
  let e := if neg then (edge xs ys i sx sy).neg else edge xs ys i sx sy
  let or := fun (f : Frac) => if neg then f.neg else f
  let dx := or ((xs.getD ((i + 1) % 3) ⟨0, 1⟩).sub (xs.getD i ⟨0, 1⟩))
  let dy := or ((ys.getD ((i + 1) % 3) ⟨0, 1⟩).sub (ys.getD i ⟨0, 1⟩))
  if e.isZero then dy.isNeg || (dy.isZero && !dx.isNeg && !dx.isZero) else !e.isNeg

/-- The depth of a primitive at a covered sample, rounded, where it is a candidate (R307). -/
def Prim.depth? (p : Prim) (sx sy : Frac) : Option Word :=
  let xs := p.xs.map pairFrac
  let ys := p.ys.map pairFrac
  let zs := p.zs.map pairFrac
  let a := area xs ys
  if (List.range 3).all (fun i => edgeAdmits xs ys a.isNeg i sx sy) then
    let e := fun i => if a.isNeg then (edge xs ys i sx sy).neg else edge xs ys i sx sy
    let z := fun i => zs.getD i ⟨0, 1⟩
    let d := ((((e 1).mul (z 0)).add ((e 2).mul (z 1))).add ((e 0).mul (z 2))).div a.abs
    match wordFrac? d.word with
    | some v => if !v.isNeg && v.le ⟨1, 1⟩ then some d.word else none
    | none => none
  else none

/-- Whether a candidate beats another: by depth, then by the lower identifier (R307). -/
def beats (a b : Word × Prim) : Bool :=
  match wordFrac? a.1, wordFrac? b.1 with
  | some x, some y => y.lt x || (!x.lt y && decide (a.2.ident < b.2.ident))
  | _, _ => false

/-- The winner among candidates (R307). -/
def winner : List (Word × Prim) → Option (Word × Prim)
  | [] => none
  | c :: cs =>
    match winner cs with
    | none => some c
    | some d => if beats c d then some c else some d

/-- The 16 bytes of a visibility sample (R303, R304). -/
def sampleBytes (ident depth cookie : Nat) : List Byte := leBytes 8 ident ++ leBytes 4 depth ++ leBytes 4 cookie

/-- One sample of a resolved tile (R308). -/
def TSlot.sample (x : TSlot) (i : Nat) : List Byte :=
  let kx := x.tx + i % 32
  let ky := x.ty + i / 32
  let cookie := fun flags => flags + 16 * ky + 2 ^ 16 * kx + 2 ^ 28 * x.view
  let px := (x.snap.axis false).position kx
  let py := (x.snap.axis true).position ky
  let none_ := 2 ^ 64 - 1
  if (x.snap.axis false).off px || (x.snap.axis true).off py then sampleBytes none_ 0 (cookie 4)
  else if x.cap < x.binned then sampleBytes none_ 0 (cookie 8)
  else match winner (x.prims.filterMap (fun p => (p.depth? px py).map (fun d => (d, p)))) with
    | none => sampleBytes none_ 0 (cookie 0)
    | some (d, p) =>
      sampleBytes p.ident d.toNat
        (cookie (if (area (p.xs.map pairFrac) (p.ys.map pairFrac)).isNeg then 1 else 3))

/-- The status granule of a resolved tile (R308). -/
def TSlot.status (x : TSlot) : List Byte :=
  leBytes 4 x.binned ++ leBytes 4 x.dropped ++ leBytes 8 (bitNat (decide (x.cap < x.binned)))

/-- The tile end of a scratch level. -/
def lvlEnd : Lvl → TEnd
  | .core => .core
  | .clus => .clus
  | .die => .die

/-- TILE_RESOLVE: a CLOSING slot whose closing groups' primitives are all binned or dropped writes its samples, then its
status granule, applies the fill completion, and is freed as cx falls (R305, R308). A buffer that does not admit the
writes ends the resolve with its fault. -/
def execTileResolve (team slot : Nat) (s : State) : Host.Outcome State Fault Refusal :=
  let key := 16 * (s.team team).core + slot
  let x := s.tslot key
  let free := fun (s : State) => (s.putSlot key {}).finishOp x.op
  if 15 < slot ∨ x.team ≠ team ∨ x.state ≠ .closing ∨ !(s.pendingOps x.before).isEmpty then .next s
  else
    match s.moveWrite x.group (lvlEnd x.lvl) x.tile x.pc ((List.range 1024).map x.sample).flatten with
    | .wait s' => .next s'
    | .status _ s' => .next (free s')
    | .miss _ => .next s
    | .ok s1 =>
      match s1.moveWrite x.group (lvlEnd x.lvl) x.bin x.pc x.status with
      | .wait _ | .miss _ => .next s
      | .status _ s' => .next (free s')
      | .ok s2 =>
        match (s2.team team).bufAt x.lvl x.tile with
        | none => .next (free s2)
        | some (k, _) =>
          .next (free ((s2.fillBuf team k 1).getD (s2.engineFault x.group x.pc .bufstate (bufInfo 4 0 k) (base := 28))))

/-! ### SAMPLE -/

/-- The bytes of a texel (R326). -/
def texelBytes (fmt : Nat) : Nat := if fmt = 1 then 8 else 4

/-- The image descriptor in four words, where it meets R326. -/
def imageDesc (lvl : SampLvl) (w : List Word) : Option Image :=
  let w0 := (w.getD 0 0).toNat
  let w1 := (w.getD 1 0).toNat
  let w2 := (w.getD 2 0).toNat
  let w3 := (w.getD 3 0).toNat
  let im : Image := ⟨w0 + 2 ^ 32 * w1, natField w2 15 0, natField w2 31 16, natField w3 17 0, natField w3 21 18⟩
  if (lvl ≠ .glob ∧ w1 ≠ 0) ∨ im.w = 0 ∨ im.h = 0 ∨ 16384 < im.w ∨ 16384 < im.h ∨ im.pitch % 16 ≠ 0 ∨ 2 < im.fmt
      ∨ im.pitch < im.w * texelBytes im.fmt ∨ natField w3 31 22 ≠ 0 then none
  else some im

/-- The indexes that one axis of a filter reads, with their weights in 256ths (R327). -/
def axisTaps (lin : Bool) (n : Nat) (t : Word) : List (Nat × Nat) :=
  let lo : Frac := ⟨-1, 1⟩
  let hi := Frac.ofNat (n + 1)
  let v : Frac := match fpValue .f32 false t.toNat with
    | .nan _ => ⟨0, 1⟩
    | .inf neg => if neg then lo else hi
    | .fin a m e st => ((FVal.fin a m e st).frac?.getD ⟨0, 1⟩).max lo |>.min hi
  let at_ := fun (i : Int) => (min i (n - 1)).toNat
  if lin then
    let x := v.sub ⟨1, 2⟩
    let w := ((x.sub (Frac.ofInt x.floor)).snap.mul ⟨256, 1⟩).floor.toNat
    ([(at_ x.floor, 256 - w), (at_ (x.floor + 1), w)]).filter (fun p => p.2 != 0)
  else [(at_ v.floor, 256)]

/-- The texels that one lane reads: their offsets in the image and their weights in 65,536ths. -/
def Image.taps (im : Image) (lin : Bool) (u v : Word) : List (Nat × Nat) :=
  ((axisTaps lin im.h v).map (fun y => (axisTaps lin im.w u).map (fun x =>
    (y.1 * im.pitch + x.1 * texelBytes im.fmt, x.2 * y.2)))).flatten

/-- A component of a texel: RGBA8 as a fraction, the others as an exact value (R327). -/
def texelComp (fmt : Nat) (bs : List Byte) (c : Nat) : FVal :=
  if fmt = 1 then fpValue .f16 false (leNat ((bs.drop (2 * c)).take 2)) else fpValue .f32 false (leNat bs)

/-- One component of a filtered read (R327). -/
def Image.component (im : Image) (ts : List (Nat × List Byte)) (c : Nat) : Word :=
  if im.fmt = 0 then
    (ts.foldl (fun (acc : Frac) t =>
      acc.add (Frac.make (t.1 * ((t.2.getD c 0).toNat)) (65536 * 255))) ⟨0, 1⟩).word
  else if im.fmt = 2 ∧ c ≠ 0 then if c = 3 then 0x3F800000 else 0
  else BitVec.ofNat 32 (roundFmt .f32
    (fSum .rn (ts.map (fun t => (fMul (.fin false t.1 (-16) false) (texelComp im.fmt t.2 c)).1))).1 .rn false false 0).1

/-- The four components of a filtered read as 16 bytes. -/
def Image.pixel (im : Image) (ts : List (Nat × List Byte)) : List Byte :=
  ((List.range 4).map (fun c => leBytes 4 (im.component ts c).toNat)).flatten

/-- The scratch level of a SAMPLE, where it is one. -/
def sampLvl? : SampLvl → Option Lvl
  | .core => some .core
  | .clus => some .clus
  | .die => some .die
  | .glob => none

/-- A SAMPLE of an image in scratch (R327). -/
def sampleScratch (i : Instr) (o : Slot) (lvl : Lvl) (lin : Bool) (im : Image) (g : Group) (ls : List Nat) (s : State) :
    Eff :=
  let taps := fun l => im.taps lin (g.valueAt o.a 0 l) (g.valueAt o.a 1 l)
  let n := texelBytes im.fmt
  let accs : List Acc := (ls.map (fun l => (taps l).map (fun t => (⟨l, im.base + t.1, n⟩ : Acc)))).flatten
  match s.scratchFate g.team lvl {} false accs, i.form with
  | some e, _ => e
  | none, none => .done s
  | none, some f =>
    if s.readsPoison (accs.map (fun x => s.accKeys g.team lvl x)).flatten then ueEffect s g
    else withRoom g (g.slotFlag o) none
      (.done ((s.applyStanding g.team lvl {} accs).startResults g o f .value 4 none (ls.map (fun l =>
        { lane := l
          bytes := im.pixel ((taps l).map (fun t => (t.2, s.scratchRead g.team lvl (im.base + t.1) n))) }))))

/-- The accesses of a SAMPLE of an image in global memory. -/
def sampleWants (o : Slot) (lin : Bool) (im : Image) (g : Group) (ls : List Nat) : List Want :=
  (ls.map (fun l => (im.taps lin (g.valueAt o.a 0 l) (g.valueAt o.a 1 l)).map
    (fun t => ({ lane := l, va := im.base + t.1 } : Want)))).flatten

/-- What a SAMPLE of global memory asks for. -/
def sampleAsk (o : Slot) (lin : Bool) (im : Image) (g : Group) (ls : List Nat) : Ask :=
  { n := texelBytes im.fmt, align := 4, hostOk := true, returns := true, regs := 4
    body := .sample im lin (ls.map (fun l => (l, g.valueAt o.a 0 l, g.valueAt o.a 1 l))) }

def execSample (o : Slot) (lvl : SampLvl) (lin : Bool) (s : State) : Host.Outcome State Fault Refusal :=
  let i := Instr.sample o lvl lin
  let image := fun (g : Group) (ls : List Nat) => imageDesc lvl (g.valueRun o.b 4 (ls.headD 0))
  issueWith i s
    (fun g ls s => match sampLvl? lvl, image g ls with
      | none, some im => if im.base % 16 = 0 then globalPages (sampleAsk o lin im g ls) (sampleWants o lin im g ls) g s else none
      | _, _ => some [])
    (fun g ls s => match image g ls with
      | none => .raise .prot 0x0A
      | some im =>
        if im.base % 16 ≠ 0 then .raise .align 0x39 im.base
        else match sampLvl? lvl with
          | some k => sampleScratch i o k lin im g ls s
          | none => globalEff i o (sampleAsk o lin im g ls) (sampleWants o lin im g ls) g s)

/-- The results of a SAMPLE of global memory once its texels have returned. -/
def Op.sampled (x : Op) (im : Image) (lin : Bool) (uv : List (Nat × Word × Word)) : List LaneRes :=
  uv.map (fun c =>
    { lane := c.1
      bytes := im.pixel ((im.taps lin c.2.1 c.2.2).map (fun t =>
        (t.2, ((x.res.find? (fun r => r.lane == c.1 && r.va == im.base + t.1)).getD {}).bytes))) })

/-! ### Strips -/

/-- Tile columns and strips of a view (R315). -/
def View.cols (v : View) : Nat := (v.hact + 63) / 64
def View.strips (v : View) : Nat := (v.vact + 63) / 64
/-- The bytes of one frame image (R317). -/
def View.frameSize (v : View) : Nat := 64 * v.cols * (64 * v.strips) * 4
/-- The frame and the strip of a latch (R316). -/
def View.frameOf (v : View) (k : Word) : Nat := (k - v.lseq0).toNat / v.strips
def View.stripOf (v : View) (k : Word) : Nat := (k - v.lseq0).toNat % v.strips
/-- The physical address of a row of a tile of an image (R318). -/
def View.rowAddr (v : View) (image col strip row : Nat) : Nat :=
  v.frameBase + image % 2 * v.frameSize + 4 * (64 * v.cols * (64 * strip + row) + 64 * col)

/-- A row of a frame image written: two line actions of the partition's memory. -/
def State.writeRow (s : State) (part pa : Nat) (bs : List Byte) : State :=
  match s.physKey? part pa with
  | some k =>
    (((s.clearPoison ((List.range bs.length).map (k + ·))).setBytes k bs).bumpTag (k / 128 * 128)).bumpTag
      ((k + bs.length - 1) / 128 * 128)
  | none => s

/-- A tile of an image as the serialiser reads it: 64 rows of 256 bytes. -/
def State.tileBytes (s : State) (part : Nat) (v : View) (image col strip : Nat) : List Byte :=
  ((List.range 64).map (fun r => s.physRead part (v.rowAddr image col strip r) 256)).flatten

/-- A tile of an image written. -/
def State.writeTile (s : State) (part : Nat) (v : View) (image col strip : Nat) (bs : List Byte) : State :=
  (List.range 64).foldl (fun s r => s.writeRow part (v.rowAddr image col strip r) ((bs.drop (256 * r)).take 256)) s

/-- The partition that a view belongs to (R299). -/
def State.viewPart (s : State) (v : Nat) : Nat := Tab.getD s.pt.view v 0

/-- BRGSY: a write of the staged y also copies both values into the live pair (R299). -/
def execBrgsy (view : Nat) (v : Word) (s : State) : Host.Outcome State Fault Refusal :=
  if 16 ≤ view then .next s
  else .next (s.putView view { s.view? view with brgsy := v, livex := (s.view? view).brgsx, livey := v })

/-- BEARING_LATCH: the live pair and one more LSEQ in one event (R300); the first after SCANEN is that of strip 0 of frame
0 (R316). A latch lies two strip periods before its deadline, so that three are never outstanding at a fourth (R315). -/
def execBearingLatch (view : Nat) (s : State) : Host.Outcome State Fault Refusal :=
  let v := s.view? view
  if !v.scanen || v.latched && decide (3 ≤ (v.lseq - v.passed).toNat) then .next s
  else
    .next (s.putView view
      { v with brgx := v.livex, brgy := v.livey, lseq := v.lseq + 1, latched := true
               lseq0 := if v.latched then v.lseq0 else v.lseq + 1
               passed := if v.latched then v.passed else v.lseq })

/-- One column of a strip at its deadline appended to the stream ring, or dropped where the ring is full (R323). -/
def State.streamTile (s : State) (view : Nat) (k : Word) (col : Nat) (replaced : Bool) : State :=
  let v := s.view? view
  let part := s.viewPart view
  let size := ringSize v.strSize 4096
  let f := v.frameOf k
  if !v.streamen then s
  else if v.strHead - v.strTail = BitVec.ofNat 32 size then s.putView view { v with strDrop := v.strDrop + 1 }
  else
    (s.setBytes (hostKey (v.strBase + 16448 * (v.strHead.toNat % size)))
      (s.tileBytes part v (if replaced then f + 1 else f) col (v.stripOf k)
        ++ leBytes 4 k.toNat ++ leBytes 4 f ++ leBytes 2 (v.stripOf k) ++ leBytes 2 col ++ leBytes 1 (bitNat replaced)
        ++ leBytes 51 0)).putView view { v with strHead := v.strHead + 1 }

/-- STRIP_DEADLINE: the deadline of the next latch: each column is delivered or missing, the counts rise and the strip is
streamed (R315, R318, R323). The latch of the frame's next strip lies before it. -/
def execStripDeadline (view : Nat) (s : State) : Host.Outcome State Fault Refusal :=
  let v := s.view? view
  let k := v.passed + 1
  if !v.scanen || !v.latched || v.passed == v.lseq || decide (1 < v.toScan.length)
      || v.stripOf k + 1 != v.strips && k == v.lseq then .next s
  else
    let missing := (List.range v.cols).filter (fun c => !v.delivered.contains (k, c))
    let s := s.putView view
      { v with
        passed := k, delivered := v.delivered.filter (fun d => d.1 != k), toScan := v.toScan ++ [(k, missing)]
        missTiles := v.missTiles + BitVec.ofNat 32 missing.length
        lateStrips := if missing.isEmpty then v.lateStrips else v.lateStrips + 1 }
    .next ((List.range v.cols).foldl (fun s c => s.streamTile view k c (missing.contains c)) s)

/-- STRIP_SCAN: the serialiser sends the pixels of a strip whose deadline has passed, copies the tiles that replaced
missing ones into the frame's image, and ends scanning after the last strip of a frame where SCANEN was cleared (R317,
R318, R320). -/
def execStripScan (view : Nat) (s : State) : Host.Outcome State Fault Refusal :=
  let v := s.view? view
  let part := s.viewPart view
  match v.toScan with
  | [] => .next s
  | (k, missing) :: rest =>
    let f := v.frameOf k
    let st := v.stripOf k
    let image := fun c => if missing.contains c then f + 1 else f
    let lines := min 64 (v.vact - 64 * st)
    let sent := ((List.range lines).map (fun r =>
      (((List.range v.cols).map (fun c => s.physRead part (v.rowAddr (image c) c st r) 256)).flatten).take (4 * v.hact))).flatten
    let s1 := missing.foldl (fun s c => s.writeTile part v f c st (s.tileBytes part v (f + 1) c st)) s
    let last := v.ending && st + 1 == v.strips
    .next (s1.putView view
      { v with toScan := if last then [] else rest, sent := sent, scanen := v.scanen && !last
               ending := v.ending && !last, latched := v.latched && !last
               delivered := if last then [] else v.delivered, passed := if last then v.lseq else v.passed })

/-- Whether a format is RGB10A2; 2 and 3 are treated as 0 (R317). -/
def View.deep (v : View) : Bool := v.fmt == 1

/-- Sixteenths of a bit per pixel on the link (R430). -/
def View.linkBits (v : View) : Nat := if v.dscbpp = 0 then if v.deep then 480 else 384 else v.dscbpp

/-- Whether views fit a port's trained payload rate (R430). -/
def Port.fits (p : Port) (vs : List View) : Bool :=
  let need := (vs.map (fun v => v.pclk * v.linkBits)).sum
  if p.uhbr then decide (need * 132 ≤ 16 * p.lanes * p.rate * 1000 * 128)
  else decide (need * 10 ≤ 16 * p.lanes * p.rate * 1000 * 8)

/-- Whether setting SCANEN of a view is refused (R317, R430). -/
def State.scanRefused (s : State) (view : Nat) (v : View) : Bool :=
  let part := s.viewPart view
  let others := ((List.range 16).filter (fun w => w != view && (s.view? w).scanen && (s.view? w).port == v.port)).map s.view?
  decide (s.capacity part < v.frameBase + 2 * v.frameSize) || v.frameBase % 4096 != 0
    || (v.port != 7 && (decide (3 < v.port) || Tab.getD s.pt.port v.port 0 != part
        || others.any (fun w => w.mst == v.mst) || !(Tab.getD s.ports v.port {}).fits (v :: others)))

/-- A write of CTRL (R317): the format holds while SCANEN is 1; setting SCANEN may be refused, and clearing it takes effect
at the end of the frame being scanned. -/
def State.writeScanCtrl (s : State) (view : Nat) (w : Word) : State :=
  let v := s.view? view
  let v1 : View := { v with streamen := w.getLsbD 1, fmt := if v.scanen then v.fmt else natField w.toNat 3 2 }
  s.putView view
    (if v.scanen then { v1 with ending := !w.getLsbD 0, scanen := w.getLsbD 0 || v.latched }
    else if w.getLsbD 0 && !s.scanRefused view v1 then { v1 with scanen := true, ending := false, latched := false }
    else v1)

/-- SCAN_ENABLE: a write of CTRL with SCANEN set (R317). -/
def execScanEnable (view : Nat) (v : Word) (s : State) : Host.Outcome State Fault Refusal :=
  if 16 ≤ view ∨ v.getLsbD 0 = false then .next s else .next (s.writeScanCtrl view v)

/-- SCAN_DISABLE: a write of CTRL with SCANEN clear (R317). -/
def execScanDisable (view : Nat) (v : Word) (s : State) : Host.Outcome State Fault Refusal :=
  if 16 ≤ view ∨ v.getLsbD 0 = true then .next s else .next (s.writeScanCtrl view v)

/-! ### TILEOUT -/

def execTileout (o : Slot) (clus : Bool) (s : State) : Host.Outcome State Fault Refusal :=
  issue (.tileout o clus) s fun g ls s =>
    let l := ls.headD 0
    let tile := (g.value o.a l).toNat
    let k := g.valueAt o.b 0 l
    let w := (g.valueAt o.b 1 l).toNat
    let status := (g.valueAt o.b 2 l).toNat
    let lvl : Lvl := if clus then .clus else .core
    let t := s.team g.team
    if 1 ≤ g.detlevel then .raise .detViol 0x2C5
    else if tile % 16 ≠ 0 ∨ status % 16 ≠ 0 then .raise .align 0x38
    else match s.rangeFate t lvl [⟨0, tile, 16384⟩, ⟨0, status, 16⟩] with
      | some e => e
      | none =>
        if natField w 31 11 ≠ 0 ∨ s.viewPart (natField w 3 0) ≠ g.part
            ∨ (s.view? (natField w 3 0)).cols ≤ natField w 10 4 then .raise .prot 0x09
        else withRoom g none (some 1)
          (.done ((s.markWrote g.team).startOp
            { group := s.curId, part := g.part, ctx := g.ctx, pc := g.slotPc, counter := some 1
              body := .tileout lvl tile k (natField w 3 0) (natField w 10 4) status } []))

/-- The status of a TILEOUT (R325): 4 where the view does not scan, 2 before its latch, 1 after its deadline, else 0. -/
def View.tileStatus (v : View) (k : Word) : Nat :=
  if !v.scanen then 4
  else if 0 < (k - v.lseq).toInt then 2
  else if !v.latched || (k - v.passed).toInt ≤ 0 then 1
  else 0

/-- TILEOUT_COMPLETE: the tile is read as a tile-move source, the serialiser writes it or refuses it, and the status
granule is written as ct falls (R325). -/
def execTileoutComplete (op : Nat) (s : State) : Host.Outcome State Fault Refusal :=
  match Tab.get? s.ops op with
  | none => .next s
  | some x =>
    match x.body with
    | .tileout lvl tile k view col status =>
      match s.moveRead x.group (lvlEnd lvl) tile 16384 x.pc with
      | .wait s' => .next s'
      | .miss _ => .next s
      | .status _ s' => .next (s'.finishOp op)
      | .ok (s1, bs) =>
        let v := s1.view? view
        let st := v.tileStatus k
        let copy := (s.team (s.group x.group).team).copyOf.isSome
        let s2 := if st = 0 && !copy then
            (s1.writeTile x.part v (v.frameOf k) col (v.stripOf k) bs).putView view
              { v with delivered := v.delivered ++ [(k, col)] }
          else s1
        match s2.moveWrite x.group (lvlEnd lvl) status x.pc
            (leBytes 4 st ++ leBytes 4 k.toNat ++ leBytes 4 col ++ leBytes 4 0) with
        | .wait _ | .miss _ => .next s
        | .status _ s' => .next (s'.finishOp op)
        | .ok s3 => .next (s3.finishOp op)
    | _ => .next s

end Sys2Proof.Machine
end

