-- ==== Sys2Proof/Machine/Matrix.lean ====
section
/-!
DEFINITION. The matrix engine: submissions, the arbiter, the stream instructions with their arithmetic, accumulator
tiles and watermarks, and the column store's windows (R272 to R296).
-/

namespace Sys2Proof.Machine

/-! ### Streams -/

/-- A team's reservation entry; an idle one where it holds none. -/
def State.mx (s : State) (t : Nat) : Mx := ((s.team t).mx).getD {}
/-- The state with a team's reservation entry set. -/
def State.putMx (s : State) (t : Nat) (m : Mx) : State := s.modTeam t (fun x => { x with mx := some m })
/-- The matrix engine of a cluster. -/
def State.engine (s : State) (c : Nat) : Engine := Tab.getD s.engines c {}
/-- The state with a cluster's matrix engine set. -/
def State.putEngine (s : State) (c : Nat) (e : Engine) : State := { s with engines := Tab.set {} s.engines c e }
/-- The cluster of a team. -/
def State.teamCluster (s : State) (t : Nat) : Nat := coreUnit (s.team t).core
/-- The engine of a team's cluster runs nothing. -/
def State.endPass (s : State) (t : Nat) : State :=
  s.putEngine (s.teamCluster t) { s.engine (s.teamCluster t) with running := none }

/-- The operation and the group of a stream's running submission. -/
def State.subOp (s : State) (t : Nat) : Op :=
  match (s.mx t).subs with
  | [] => {}
  | x :: _ => (Tab.get? s.ops x.op).getD {}

/-- A stream fault: the stream stops, and the partition halts (R279). -/
def State.streamFault (s : State) (t : Nat) (c : Cause) (info : Word) : State :=
  let g := s.group (s.subOp t).group
  if (s.team t).copyOf.isSome then
    ((s.engineFault (s.subOp t).group (s.mx t).pc c info).putMx t { s.mx t with state := .faulted }).endPass t
  else (s.haltAssert (s.team t).part
      { s.groupFault g (s.mx t).pc c info 0 0 with
        precise := false, nested := false, stream := true, engine := true }).putMx t { s.mx t with state := .faulted }
    |>.endPass t

/-- What a stream instruction comes to. -/
inductive MxEff
  /-- It has acted; the stream goes on at the next word, or at the offset given. -/
  | next (m : Mx) (s : State) (goto : Option Nat := none)
  /-- It waits: the pass ends (R280). -/
  | wait (w : MxWait)
  /-- It cannot act yet; nothing but an engine's request has changed. -/
  | retry (s : State)
  /-- A part of it has acted: the steps done of a split MMA. -/
  | partly (m : Mx) (s : State)
  | fault (c : Cause) (info : Word)
  /-- It faults after some of its steps. -/
  | faultAt (m : Mx) (s : State) (c : Cause) (info : Word)
  /-- Its team has consumed an uncorrectable error. -/
  | ue (m : Mx) (s : State)

/-- One more instruction of the pass. -/
def Mx.count (m : Mx) : Mx := { m with passI := m.passI + 1 }

/-- A stream instruction issued by the running stream; in a group it is of the wrong pool (R52, R277). -/
def stream (i : Instr) (s : State) (body : Nat → Mx → State → MxEff) : Host.Outcome State Fault Refusal :=
  match s.cur, i.form with
  | .stream t, some f =>
    if f.slot.p != 0 || f.slot.neg || f.slot.stall != 0 || f.slot.yield || f.slot.rel || f.slot.sel || !f.legal then
      .next (s.streamFault t .undef 0)
    else if !f.operandsOk then .next (s.streamFault t .illopnd 0)
    else match body t (s.mx t) s with
      | .next m s' goto => .next (s'.putMx t { m.count with pc := goto.getD ((s.mx t).pc + 12), done := 0 })
      | .wait w => .next ((s.putMx t { s.mx t with state := .wait w }).endPass t)
      | .retry s' => .next s'
      | .partly m s' => .next (s'.putMx t m)
      | .fault c info => .next (s.streamFault t c info)
      | .faultAt m s' c info => .next ((s'.putMx t m).streamFault t c info)
      | .ue m s' => .next ((s'.putMx t m).consumeUE (s.subOp t).group (s.subOp t).pc true)
  | _, _ => issue i s fun _ _ s => .done s

/-- The value of a stream operand: an m register or an immediate (R278). -/
def Mx.value (m : Mx) (o : Operand) : Word :=
  match o with
  | .scl k => Tab.getD m.m k.toNat 0
  | .imm v => immWord v
  | .vec _ | .prd _ | .spc _ | .none => 0

/-- The number in an m register or immediate. -/
def Mx.nat (m : Mx) (o : Operand) : Nat := (m.value o).toNat

def execMlda (o : Slot) (clus : Bool) (off : Word) (s : State) : Host.Outcome State Fault Refusal :=
  stream (.mlda o clus off) s fun _ m s =>
    let a := (m.value o.a + off).toNat
    if a % 32 ≠ 0 ∨ m.nat o.b % 32 ≠ 0 then .fault .align 0x33
    else .next { m with aLvl := if clus then .clus else .core, aBase := a, aStride := m.nat o.b, aStep := 0 } s

def execMldb (o : Slot) (off : Word) (s : State) : Host.Outcome State Fault Refusal :=
  stream (.mldb o off) s fun _ m s => .next { m with bLine := (m.value o.a + off).toNat, bStep := 0 } s

def execMsclOff (o : Slot) (s : State) : Host.Outcome State Fault Refusal :=
  stream (.msclOff o) s fun _ m s => .next { m with scale := none } s

def execMscl (o : Slot) (clus : Bool) (s : State) : Host.Outcome State Fault Refusal :=
  stream (.mscl o clus) s fun _ m s =>
    .next { m with scale := some (if clus then .clus else .core), scBase := m.nat o.a, scStride := m.nat o.b
                   scLine := m.nat o.c, scStep := 0 } s

/-! ### The arithmetic -/

/-- The number format of an operand type of MMA. -/
def mmaFmt : MmaTy → Fmt
  | .e4m3 => .e4m3 | .e5m2 => .e5m2 | .e2m1 => .e2m1 | .bf16 => .bf16 | .f16 => .f16

/-- The elements of 32 bytes, element 0 at the lowest address (R173, R272). -/
def mmaElems (t : MmaTy) (bs : List Byte) : List FVal :=
  match t with
  | .e4m3 | .e5m2 => bs.map (fun b => fpValue (mmaFmt t) false b.toNat)
  | .e2m1 => (bs.map (fun b => [fpValue .e2m1 false (b.toNat % 16), fpValue .e2m1 false (b.toNat / 16)])).flatten
  | .bf16 | .f16 => (List.range 16).map (fun e => fpValue (mmaFmt t) false (leNat ((bs.drop (2 * e)).take 2)))

/-- Blocks of MX scales in one K-step: 0 where the type takes none (R272). -/
def mmaBlocks : MmaTy → Nat
  | .e4m3 | .e5m2 => 1
  | .e2m1 => 2
  | .bf16 | .f16 => 0

/-- Elements scaled block by block: a block is 32 elements (R272, R282). -/
def scaleElems (scales : List Byte) (xs : List FVal) : List FVal :=
  xs.zipIdx.map (fun x => mxApply ((scales.getD (x.2 / 32) 0).toNat) x.1)

/-- The accumulator value after one K-step's products (R282, R283). -/
def cellStep (old : Word) (as bs : List FVal) : Word :=
  let p := (roundFmt .f32 (fSum .rn ((as.zip bs).map (fun x => (fMul x.1 x.2).1))).1 .rn false false 0).1
  BitVec.ofNat 32
    (roundFmt .f32 (fAdd .rn (fpValue .f32 false old.toNat) (fpValue .f32 false p)).1 .rn false false 0).1

/-- A tile with one K-step added to every cell, from the elements of its rows and columns (R282). -/
def Tile.step (t : Tile) (rows cols : List (List FVal)) : Tile :=
  { t with
    acc := (rows.zipIdx.map (fun r => (cols.zipIdx.filterMap (fun c =>
      let v := cellStep (Tab.getD t.acc (128 * r.2 + c.2) 0) r.1 c.1
      if v = 0 then none else some (128 * r.2 + c.2, v))))).flatten }

/-- The offset in a context's window of byte `b` of line `line` of slice `c`. -/
def State.lineKey (s : State) (t line c b : Nat) : Nat :=
  columnKey (s.teamCluster t)
    (c * 2 ^ 18 + 32 * ((s.window (s.team t).part (s.teamCluster t) (s.team t).ctx).1 + line) + b)

/-- The elements of row `i` of a K-step, scaled where scaling is on (R282, R285, R286). -/
def State.mmaRow (s : State) (t : Nat) (m : Mx) (ta : MmaTy) (i : Nat) : List FVal :=
  let xs := mmaElems ta (s.scratchRead t m.aLvl (m.aBase + i * m.aStride + 32 * m.aStep) 32)
  match m.scale with
  | some lvl =>
    if mmaBlocks ta = 0 then xs
    else scaleElems (s.scratchRead t lvl (m.scBase + i * m.scStride + mmaBlocks ta * m.scStep) (mmaBlocks ta)) xs
  | none => xs

/-- The elements of column `j` of a K-step, scaled where scaling is on (R282, R285, R286). -/
def State.mmaCol (s : State) (t : Nat) (m : Mx) (tb : MmaTy) (j : Nat) : List FVal :=
  let xs := mmaElems tb (s.bytes (s.lineKey t (m.bLine + m.bStep) j 0) 32)
  match m.scale with
  | some _ =>
    if mmaBlocks tb = 0 then xs
    else scaleElems (s.bytes (s.lineKey t m.scLine j (mmaBlocks tb * m.scStep)) (mmaBlocks tb)) xs
  | none => xs

/-- The stream after one K-step: its descriptors advance (R282, R285, R286). -/
def Mx.advance (m : Mx) (ta : MmaTy) : Mx :=
  { m with aStep := m.aStep + 1, bStep := m.bStep + 1, done := m.done + 1, passK := m.passK + 1
           scStep := if m.scale.isSome && mmaBlocks ta != 0 then m.scStep + 1 else m.scStep }

/-- The accesses to scratch of one K-step: the rows of A and their scales (R287). -/
def Mx.stepAccs (m : Mx) (ta : MmaTy) : List (Lvl × Acc) :=
  (List.range 128).map (fun i => (m.aLvl, ⟨0, m.aBase + i * m.aStride + 32 * m.aStep, 32⟩))
    ++ (match m.scale with
      | some lvl =>
        if mmaBlocks ta = 0 then []
        else (List.range 128).map (fun i => (lvl, ⟨0, m.scBase + i * m.scStride + mmaBlocks ta * m.scStep, mmaBlocks ta⟩))
      | none => [])

/-- Up to `k` K-steps of an MMA (R282); stopped by a buffer, a region line that must be filled, or an uncorrectable
granule of A (R233, R235). -/
def mmaSteps (t tile : Nat) (ta tb : MmaTy) : Nat → Mx → State → MxEff
  | 0, m, s => .partly m s
  | k + 1, m, s =>
    let accs := m.stepAccs ta
    match accs.findSome? (fun x => s.regionHold t x.1 false true x.2) with
    | some (.held s' _) => .retry (s'.putMx t m)
    | some _ => .retry (s.putMx t m)
    | none =>
      match accs.findSome? (fun x => match (s.team t).bufAt x.1 x.2.a with
          | some (slot, b) => if b.admits false then none else some slot
          | none => none) with
      | some slot => .faultAt m s .bufstate (bufInfo 6 0 slot)
      | none =>
        if s.readsPoison (accs.map (fun x => s.accKeys t x.1 x.2)).flatten then .ue m s
        else
          let rows := (List.range 128).map (s.mmaRow t m ta)
          let cols := (List.range 128).map (s.mmaCol t m tb)
          let s := accs.foldl (fun s x => s.touchBuf t x.1 x.2.a false) s
          let s := s.modTeam t (fun x => { x with accs := Tab.put x.accs tile ((Tab.getD x.accs tile {}).step rows cols) })
          mmaSteps t tile ta tb k (m.advance ta) s

/-- The range checks of all the steps an MMA has still to do (R231, R287). -/
def State.mmaFate (s : State) (t : Nat) (m : Mx) (ta tb : MmaTy) (n : Nat) : Option (Cause × Word) :=
  let win := (s.window (s.team t).part (s.teamCluster t) (s.team t).ctx).2
  let left := n - m.done
  let rows := (List.range 128).map (fun i => (⟨0, m.aBase + i * m.aStride + 32 * m.aStep, 32 * left⟩ : Acc))
  let scs : List (Lvl × Acc) := match m.scale with
    | some lvl =>
      if mmaBlocks ta = 0 then []
      else (List.range 128).map (fun i =>
        (lvl, ⟨0, m.scBase + i * m.scStride + mmaBlocks ta * m.scStep, mmaBlocks ta * left⟩))
    | none => []
  let all := rows.map (fun a => (m.aLvl, a)) ++ scs
  match all.findSome? (fun x => match s.view (s.team t) x.1 x.2.a x.2.n with
      | .ok _ => none
      | .error e => some e) with
  | some e => some (.scratchRange, BitVec.ofNat 32 e)
  | none =>
    if win < m.bLine + m.bStep + left
        ∨ (m.scale.isSome ∧ mmaBlocks tb ≠ 0 ∧ 32 * win < 32 * m.scLine + mmaBlocks tb * (m.scStep + left)) then
      some (.scratchRange, 3)
    else if all.any (fun x => ((s.team t).scratchDet x.1 false [x.2]).isSome) then some (.detViol, 0x40)
    else none

/-- Whether a tile number names a tile of the team (R275). -/
def Mx.hasTile (m : Mx) (tile : Nat) : Bool := decide (tile < m.tiles.getD 0)

/-- The tile owed a commit (R276). -/
def State.startCommit (s : State) (t tile : Nat) : State :=
  (s.modTeam t (fun x =>
      { x with accs := Tab.put x.accs tile { Tab.getD x.accs tile {} with commit := true, wm := 0 } })).putEngine
    (s.teamCluster t)
    { s.engine (s.teamCluster t) with commits := (s.engine (s.teamCluster t)).commits ++ [(t, tile)] }

def execMma (o : Slot) (ta tb : MmaTy) (last : Bool) (s : State) : Host.Outcome State Fault Refusal :=
  stream (.mma o ta tb last) s fun t m s =>
    let tile := m.nat o.a
    let n := m.nat o.b
    if n = 0 ∨ 64 < n then .fault .align 0x34
    else if !m.hasTile tile then .fault .scratchRange 5
    else match s.mmaFate t m ta tb n with
      | some (c, info) => .fault c info
      | none =>
        if m.done = 0 && !s.tileFree t tile then .wait (.tile tile)
        else if s.zeroing (s.team t).part (s.teamCluster t) then .retry s
        else match mmaSteps t tile ta tb (min (n - m.done) (64 - m.passK)) m s with
          | .partly m' s' =>
            if m'.done = n then .next m' (if last then s'.startCommit t tile else s') else .partly m' s'
          | e => e

/-! ### Tiles -/

/-- The element size of MSTO's type in bytes (R288). -/
def stoBytes : StoTy → Nat
  | .f32 => 4
  | .bf16 | .f16 => 2
  | .e4m3 | .e5m2 => 1

/-- One element as MSTO writes it (R288). -/
def stoElem (td : StoTy) (satf : Bool) (w : Word) : Nat :=
  match td with
  | .f32 => w.toNat
  | .bf16 => (roundFmt .bf16 (fpValue .f32 false w.toNat) .rn satf false 0).1
  | .f16 => (roundFmt .f16 (fpValue .f32 false w.toNat) .rn satf false 0).1
  | .e4m3 => (roundFmt .e4m3 (fpValue .f32 false w.toNat) .rn satf false 0).1
  | .e5m2 => (roundFmt .e5m2 (fpValue .f32 false w.toNat) .rn satf false 0).1

/-- The bytes of row `i` of a tile under MSTO (R288). -/
def Tile.rowBytes (t : Tile) (td : StoTy) (satf : Bool) (i : Nat) : List Byte :=
  ((List.range 128).map (fun j => leBytes (stoBytes td) (stoElem td satf (Tab.getD t.acc (128 * i + j) 0)))).flatten

def execMsto (o : Slot) (lvl : Lvl) (td : StoTy) (satf : Bool) (s : State) : Host.Outcome State Fault Refusal :=
  stream (.msto o lvl td satf) s fun t m s =>
    let tile := m.nat o.a
    let base := m.nat o.b
    let stride := m.nat o.c
    let n := 128 * stoBytes td
    let rows := (List.range 128).map (fun i => (⟨0, base + i * stride, n⟩ : Acc))
    let sub := s.subOp t
    if base % 16 ≠ 0 ∨ stride % 16 ≠ 0 ∨ stride < n then .fault .align 0x35
    else if !m.hasTile tile then .fault .scratchRange 5
    else match rows.findSome? (fun x => match s.view (s.team t) lvl x.a x.n with
        | .ok _ => none
        | .error e => some e) with
      | some e => .fault .scratchRange (BitVec.ofNat 32 e)
      | none =>
        match (s.team t).scratchDet lvl false rows with
        | some (.raise c info _ _) => .fault c info
        | some _ => .retry s
        | none =>
          if rows.any (fun x => (s.regionHold t lvl true false x).isSome) then .retry s
          else
            let acc := Tab.getD (s.team t).accs tile {}
            match (List.range 128).foldl (fun (r : Except Nat State) i =>
                match r with
                | .error e => .error e
                | .ok s => s.engineGranules sub.group lvl (base + i * stride) (acc.rowBytes td satf i)) (.ok s) with
            | .error slot => .fault .bufstate (bufInfo 6 0 slot)
            | .ok s' =>
              .next m (if lvl = .die then s'.addStore sub.group ((m.subs.headD {}).op) base
                  ((List.range 128).map (fun i => acc.rowBytes td satf i)).flatten else s')

def execMzero (o : Slot) (s : State) : Host.Outcome State Fault Refusal :=
  stream (.mzero o) s fun t m s =>
    let tile := m.nat o.a
    if !m.hasTile tile then .fault .scratchRange 5
    else if !s.tileFree t tile then .wait (.tile tile)
    else .next m (s.modTeam t (fun x =>
      { x with accs := Tab.put x.accs tile { Tab.getD x.accs tile {} with acc := [] } }))

/-! ### Control and barriers of a stream -/

def execMloopDec (o : Slot) (target : Word) (s : State) : Host.Outcome State Fault Refusal :=
  stream (.mloopDec o target) s fun t m s =>
    if target.toNat % 12 ≠ 0 ∨ (s.team t).obj.msSize ≤ target.toNat then .fault .codeRange 0
    else match o.d with
      | .scl k =>
        if Tab.getD m.m k.toNat 0 = 0 then .next m s
        else .next { m with m := Tab.set 0 m.m k.toNat (Tab.getD m.m k.toNat 0 - 1) } s (some target.toNat)
      | .vec _ | .prd _ | .spc _ | .imm _ | .none => .next m s

def execMloopAdd (o : Slot) (v : Word) (s : State) : Host.Outcome State Fault Refusal :=
  stream (.mloopAdd o v) s fun _ m s =>
    match o.d with
    | .scl k => .next { m with m := Tab.set 0 m.m k.toNat (m.value o.a + v) } s
    | .vec _ | .prd _ | .spc _ | .imm _ | .none => .next m s

def execMbarw (o : Slot) (nb : BitVec 4) (s : State) : Host.Outcome State Fault Refusal :=
  stream (.mbarw o nb) s fun t m s =>
    if ((s.team t).nbar nb.toNat).complete (m.value o.a) then .next m s else .wait (.phase nb.toNat (m.value o.a))

def execMbara (o : Slot) (nb : BitVec 4) (s : State) : Host.Outcome State Fault Refusal :=
  stream (.mbara o nb) s fun t m s =>
    match s.nbArrive t nb.toNat 1 false with
    | .ok s' => .next m s'
    | .error sub => .fault .barOver (barInfo sub nb.toNat ((s.team t).nbar nb.toNat).pending)

def execMend (o : Slot) (s : State) : Host.Outcome State Fault Refusal :=
  stream (.mend o) s fun t m s => .next { m with state := .ending } (s.endPass t)

/-! ### Submissions -/

/-- A submission taken up by its entry (R278, R280): PC at its start, m0 to m7 as carried, descriptors zero. -/
def Mx.takeUp (m : Mx) (subs : List Sub) : Mx :=
  match subs with
  | [] => { index := m.index, tiles := m.tiles, mapped := m.mapped, state := .idle }
  | x :: _ =>
    { index := m.index, tiles := m.tiles, mapped := m.mapped, state := .ready, subs := subs, pc := x.start
      m := x.m.zipIdx.foldl (fun r w => Tab.set 0 r w.2 w.1) [] }

/-- The values that MSUB carries (R293). -/
def Group.msubArgs (g : Group) (b : Operand) (l : Nat) : List Word :=
  match b with
  | .scl _ => g.valueRun b 8 l
  | .imm v => [immWord v]
  | .vec _ | .prd _ | .spc _ | .none => []

def execMsub (o : Slot) (tc : BitVec 5) (pri : BitVec 2) (s : State) : Host.Outcome State Fault Refusal :=
  issue (.msub o tc pri) s fun g ls s =>
    let start := (g.value o.a (ls.headD 0)).toNat
    let t := s.team g.team
    let m := s.mx g.team
    if !t.obj.mstream then .raise .prot 0x07
    else if start % 12 ≠ 0 ∨ t.obj.msSize ≤ start then .raise .codeRange 0
    else if m.tiles.any (fun k => k != tc.toNat + 1) then .raise .prot 0x08
    else if 4 ≤ m.subs.length then .hold .room
    else withRoom g none (some 2)
      (let subs := m.subs ++ [⟨s.fresh, start, pri.toNat, g.msubArgs o.b (ls.headD 0)⟩]
      let m1 : Mx := { m with tiles := some (tc.toNat + 1), subs := subs }
      .done (((s.noteStore s.curId ⟨s.fresh, 0, 0, 0, []⟩).putMx g.team
          (if m.subs.isEmpty then m1.takeUp subs else m1)).startOp
        { group := s.curId, part := g.part, ctx := g.ctx, pc := g.slotPc, body := .msub, counter := some 2 } []))

def execMrd (o : Slot) (n : BitVec 3) (s : State) : Host.Outcome State Fault Refusal :=
  issue (.mrd o n) s fun g ls s =>
    let tile := (g.value o.a (ls.headD 0)).toNat
    let r := (g.value o.b (ls.headD 0)).toNat
    let k := n.toNat + 1
    let acc := Tab.getD (s.team g.team).accs tile {}
    match (Instr.mrd o n).form with
    | none => .done s
    | some f =>
      if !(s.mx g.team).hasTile tile || decide (128 < r + k) then .raise .scratchRange 5
      else if acc.wm < r + k then .hold (.matrix .wm tile (r + k))
      else withRoom g (g.slotFlag o) none
        (.done (s.startResults g o f .engine k none (ls.map (fun l =>
          { lane := l
            bytes := ((List.range k).map (fun i => leBytes 4 (Tab.getD acc.acc (128 * (r + i) + l) 0).toNat)).flatten }))))

/-- A tile's watermark set to 0, and a stream that waits for it woken (R276). -/
def State.clearMark (s : State) (t tile : Nat) : State :=
  (s.modTeam t (fun x =>
    { x with accs := Tab.modify x.accs tile (fun a => { a with wm := 0, clear := false }) })).wakeStream t

def execMwm (o : Slot) (s : State) : Host.Outcome State Fault Refusal :=
  issue (.mwm o) s fun g ls s =>
    let tile := (g.value o.a (ls.headD 0)).toNat
    if !(s.mx g.team).hasTile tile then .raise .scratchRange 5
    else if (Tab.getD (s.team g.team).accs tile {}).commit then
      .done (s.modTeam g.team (fun x =>
        { x with accs := Tab.modify x.accs tile (fun a => { a with clear := true }) }))
    else .done (s.clearMark g.team tile)

/-! ### The arbiter -/

/-- The teams with a reservation entry on a cluster. -/
def State.clusterStreams (s : State) (c : Nat) : List Nat :=
  Tab.keys (s.teams.filter (fun x => x.2.mx.isSome && !x.2.helm && !x.2.saved && coreUnit x.2.core == c))

/-- Physical tiles of a cluster that no team's tiles take (R275). -/
def State.freeTiles (s : State) (c : Nat) : Nat :=
  32 - ((s.clusterStreams c).map (fun t => if (s.mx t).mapped then (s.mx t).tiles.getD 0 else 0)).sum

/-- The entries that the arbiter may grant (R280, R281). -/
def State.readyStreams (s : State) (c : Nat) : List Nat :=
  (s.clusterStreams c).filter (fun t => (s.mx t).state == .ready && (s.team t).way != 2 && !(s.team t).saved
    && ((s.mx t).mapped || decide ((s.mx t).tiles.getD 0 ≤ s.freeTiles c)))

/-- An entry's effective priority (R281). -/
def Mx.effective (m : Mx) : Nat := min ((m.subs.headD {}).prio + m.passed / 8) 3

/-- Whether the arbiter prefers one entry to another (R281). -/
def Mx.beats (a b : Mx) : Bool :=
  decide (b.effective < a.effective) || (a.effective == b.effective
    && (decide (b.passed < a.passed) || (a.passed == b.passed && decide (a.index < b.index))))

/-- ARBITER_GRANT: the engine is idle, and the preferred READY entry takes a pass (R280, R281). -/
def execArbiterGrant (cluster : Nat) (s : State) : Host.Outcome State Fault Refusal :=
  let s := (s.clusterStreams cluster).foldl State.wakeStream s
  match (s.engine cluster).running, s.readyStreams cluster with
  | none, t0 :: rest =>
    if s.hasStopped (s.team t0).part (s.stopKey cluster 20) then .next s
    else
      let t := rest.foldl (fun a b => if (s.mx b).beats (s.mx a) then b else a) t0
      let s := (s.readyStreams cluster).foldl
        (fun s u => if u = t then s else s.putMx u { s.mx u with passed := (s.mx u).passed + 1 }) s
      .next ((s.putMx t { s.mx t with state := .running, mapped := true, passK := 0, passI := 0 }).putEngine cluster
        { s.engine cluster with running := some t })
  | _, _ => .next s

/-- Whether a running stream has used up its pass (R280). -/
def Mx.passOver (m : Mx) : Bool := decide (64 ≤ m.passK) || decide (32 ≤ m.passI)

/-- PASS_END: 64 K-steps or 32 stream instructions are done in this pass (R280). -/
def execPassEnd (cluster : Nat) (s : State) : Host.Outcome State Fault Refusal :=
  match (s.engine cluster).running with
  | none => .next s
  | some t =>
    if (s.mx t).state = .running ∧ (s.mx t).passOver then
      .next ((s.putMx t { s.mx t with state := .ready, passed := 0 }).endPass t)
    else .next s

/-- TILE_COMMIT: the oldest commit of a cluster raises its tile's watermark by 16 rows, and ends at 128 (R276). -/
def execTileCommit (cluster : Nat) (s : State) : Host.Outcome State Fault Refusal :=
  match (s.engine cluster).commits with
  | [] => .next s
  | (t, tile) :: rest =>
    let a := Tab.getD (s.team t).accs tile {}
    let a1 : Tile := { a with wm := min 128 (a.wm + 16) }
    if a1.wm < 128 then .next (s.modTeam t (fun x => { x with accs := Tab.put x.accs tile a1 }))
    else
      let s := (s.modTeam t (fun x => { x with accs := Tab.put x.accs tile { a1 with commit := false } })).putEngine
        cluster { s.engine cluster with commits := rest }
      .next (if a.clear then s.clearMark t tile else s)

/-- SUBMISSION_COMPLETE: MEND is done and every commit has reached 128; cm falls, and the next submission is taken up
(R280, R291). -/
def execSubmissionComplete (team : Nat) (s : State) : Host.Outcome State Fault Refusal :=
  let m := s.mx team
  if m.state = .ending && !((s.engine (s.teamCluster team)).commits.any (fun x => x.1 == team)) then
    match m.subs with
    | [] => .next s
    | x :: rest => .next ((s.putMx team (m.takeUp rest)).finishOp x.op)
  else .next s

/-! ### Column-store grants -/

/-- The windows of live contexts on a cluster other than a given one of a partition (R274). -/
def State.otherWindows (s : State) (part cluster ctx : Nat) : List (Nat × Nat) :=
  ((List.range 64).filter (fun c => c != ctx && (s.context part c).live)).map (fun c => s.window part cluster c)

/-- The lines of a new window that were not in the old one. -/
def enteringLines (old new : Nat × Nat) : List Nat :=
  (List.range new.2).map (· + new.1) |>.filter (fun l => !(decide (old.1 ≤ l) && decide (l < old.1 + old.2)))

/-- COLUMN_STORE_GRANT: a write to a grant register (R274). -/
def execColumnStoreGrant (part cluster ctx : Nat) (v : Word) (s : State) : Host.Outcome State Fault Refusal :=
  let first := natField v.toNat 13 0
  let lines := natField v.toNat 29 16
  let f := s.func part
  match (s.clusters part)[cluster]? with
  | none => .next s
  | some c =>
    if f.csgBusy ∨ 64 ≤ ctx then .next s
    else if 8192 < first + lines
        ∨ (s.otherWindows part c ctx).any (fun w => w.2 != 0 && lines != 0 && rangesMeet first lines w.1 w.2) then
      .next (s.modFunc part (fun f => { f with csgRefused := true }))
    else
      .next ({ s with grants := Tab.set (0, 0) s.grants ((64 * part + c) * 64 + ctx) (first, lines) }.modFunc part
        (fun f =>
          { f with
            csgBusy := true
            csgZero := (enteringLines (s.window part c ctx) (first, lines)).map (fun l => (c, l, 1)) }))

/-- Whether a key is a byte of a line of a cluster's column store. -/
def inColumnLine (c line k : Nat) : Bool :=
  decide (columnKey c 0 ≤ k) && decide (k < columnKey (c + 1) 0) && (k - columnKey c 0) % 2 ^ 18 / 32 == line

/-- GRANT_ZERO_DONE: every line that entered the window has been zeroed, and BUSY clears (R274). -/
def execGrantZeroDone (part : Nat) (s : State) : Host.Outcome State Fault Refusal :=
  let f := s.func part
  if f.csgBusy then
    .next ({ s with mem := s.mem.filter (fun c => !(f.csgZero.any (fun z => inColumnLine z.1 z.2.1 c.1))) }.modFunc part
      (fun f => { f with csgBusy := false, csgZero := [] }))
  else .next s

end Sys2Proof.Machine
end

