-- ==== Sys2Proof/Machine/Access.lean ====
section
/-!
DEFINITION. Accesses of queue engines, work-graph schedulers, receivers and distributors to virtual memory, with their
page requests (R228, R456), and the checks of code objects and placement maps (R27 to R29, R125, R126, R386).
-/

namespace Sys2Proof.Machine

/-- An engine that accesses memory for itself: its translating unit, its context, the key of its requests, its die, and
whether it makes page requests (R228). -/
structure Eng where
  unit : Nat := 0
  part : Nat := 0
  ctx : Nat := 0
  who : Nat := 0
  die : Nat := 0
  asks : Bool := true
  deriving DecidableEq, Repr, Inhabited

/-- The queue engine for a queue (R221, R228). -/
def queueEng (part ctx die q : Nat) : Eng :=
  { unit := queueTransUnit die, part := part, ctx := ctx, who := 2 ^ 40 + 1024 * part + q, die := die }

/-- What an engine's access comes to: a value, a page request that is not answered, a failure with the reason of R223 and
the address, or an uncorrectable error. -/
inductive Got (α : Type)
  | ok (a : α)
  | wait (s : State)
  | bad (reason va : Nat)
  | ue

/-- One step of an engine's access after another. -/
def Got.andThen {α β : Type} (x : Got α) (f : α → Got β) : Got β :=
  match x with
  | .ok a => f a
  | .wait s => .wait s
  | .bad r va => .bad r va
  | .ue => .ue

/-- A value of an access changed. -/
def Got.map {α β : Type} (f : α → β) (x : Got α) : Got β := x.andThen (fun a => .ok (f a))

/-- A miss of an engine (R228): its answered request for the page decides, or a request is made. -/
def State.engMiss (s : State) (e : Eng) (p : PageRec) : Got Nat :=
  let ask := fun (s : State) =>
    if (s.func e.part).prqBase = 0 then Got.bad 3 p.page
    else .wait ((s.clearRequests e.who 0).makeRequest
      { part := e.part, ctx := e.ctx, kind := 3, who := e.who, pc := 0, origin := BitVec.ofNat 32 (65536 * e.die)
        pages := [p] }).1
  if !e.asks then .bad 1 p.page
  else match s.requestsOf e.who 0 with
    | [] => ask s
    | (_, r) :: _ =>
      match r.answer with
      | none => .wait s
      | some false => ask s
      | some true => if r.pages.any (fun x => x.page == p.page) then .bad 1 p.page else ask s

/-- The key of one address for an engine. -/
def State.engKey (s : State) (e : Eng) (va : Nat) (write : Bool) : Got Nat :=
  match s.access e.unit e.part e.ctx va write false true with
  | .bad _ r => .bad r va
  | .miss p => s.engMiss e p
  | .ok t _ =>
    match t with
    | .mem k | .host k => .ok k
    | .reg _ | .kick _ | .nothing => .bad 2 va

/-- The keys of a range, page by page (R456). -/
def State.engKeys (s : State) (e : Eng) (write : Bool) : Nat → Nat → Nat → Got (List (Nat × Nat))
  | 0, _, _ => .ok []
  | fuel + 1, va, n =>
    if n = 0 then .ok []
    else
      let k := min n (4096 - va % 4096)
      (s.engKey e va write).andThen fun key =>
        (s.engKeys e write fuel (va + k) (n - k)).map (fun rest => (List.range k).map (fun i => (va + i, key + i)) ++ rest)

/-- Whether every page of a range is mapped (R456). -/
def State.engMapped (s : State) (e : Eng) (write : Bool) : Nat → Nat → Nat → Got Unit
  | 0, _, _ => .ok ()
  | fuel + 1, va, n =>
    if n = 0 then .ok ()
    else
      (s.engKey e va write).andThen fun _ =>
        s.engMapped e write fuel (va + min n (4096 - va % 4096)) (n - min n (4096 - va % 4096))

/-- A range that must be mapped for an access. -/
def State.mapped (s : State) (e : Eng) (va n : Nat) (write : Bool) : Got Unit := s.engMapped e write (n / 4096 + 2) va n

/-- Bytes read by an engine. -/
def State.engRead (s : State) (e : Eng) (va n : Nat) : Got (List Byte) :=
  (s.engKeys e false (n / 4096 + 2) va n).andThen fun ps =>
    if s.readsPoison (ps.map Prod.snd) then .ue else .ok (s.bytesAt ps)

/-- A number read by an engine. -/
def State.engNat (s : State) (e : Eng) (va n : Nat) : Got Nat := (s.engRead e va n).map leNat

/-- Bytes written by an engine. -/
def State.engWrite (s : State) (e : Eng) (va : Nat) (bs : List Byte) : Got State :=
  (s.engKeys e true (bs.length / 4096 + 2) va bs.length).andThen fun ps =>
    if s.writesPoison (ps.map Prod.snd) then .ue else .ok (s.writePlaces e.part e.ctx ps bs)

/-- The state once an engine's access has ended: its answered requests are forgotten. -/
def State.engDone (s : State) (e : Eng) : State := s.clearRequests e.who 0

/-- Poisoned data consumed by a queue engine or a receiver (R395): the fault UE_MEM, with TEAM all ones. -/
def State.engPoison (s : State) (e : Eng) (queue : Nat) : State :=
  s.haltAssert e.part
    { cause := .ueMem, precise := false, engine := true, queue := queue, ctx := e.ctx, team := 2 ^ 64 - 1,
      origin := 65536 * e.die }

/-! ### Code objects -/

/-- The lanes of a group on a pool (R21). -/
def poolLanes (helm : Bool) : Nat := if helm then 16 else 128
/-- The group slots, vector registers and scalar registers of a core (R129). -/
def coreSlots (helm : Bool) : Nat := if helm then 16 else 64
def coreVregs : Nat := 2048
def coreSregs (helm : Bool) : Nat := if helm then 8192 else 32768
/-- The core scratch of a core (R129). -/
def coreScratch : Nat := 256 * 1024
/-- The instruction store of a cluster or a helm core (R129). -/
def storeBytesOf (helm : Bool) : Nat := if helm then 64 * 1024 else 256 * 1024

/-- A team's groups, registers and core scratch (R28). -/
def CodeObj.groupCount (o : CodeObj) : Nat := (o.roles.map Role.groups).sum
def CodeObj.vregSum (o : CodeObj) : Nat := (o.roles.map (fun r => r.groups * r.vregs)).sum
def CodeObj.sregSum (o : CodeObj) : Nat := o.sregs * o.groupCount
def CodeObj.scratchSum (o : CodeObj) : Nat := o.coreScr + 2048 * o.groupCount

/-- An unsigned field of an object's bytes. -/
def objNat (bs : List Byte) (off n : Nat) : Nat := leNat ((bs.drop off).take n)

/-- The object that bytes hold (R27). -/
def parseObj (addr : Nat) (bs : List Byte) : CodeObj :=
  let flags := objNat bs 6 2
  { addr := addr, idem := natBit flags 0, mstream := natBit flags 1, pool := natField flags 3 2
    detmax := natField flags 5 4
    roles := (List.range (natField flags 7 6 + 1)).map (fun k =>
      ⟨objNat bs (64 + 8 * k) 1, objNat bs (66 + 8 * k) 2, objNat bs (68 + 8 * k) 4⟩)
    objSize := objNat bs 8 4, codeOff := objNat bs 12 4, codeSize := objNat bs 16 4, msOff := objNat bs 20 4
    msSize := objNat bs 24 4, sregs := objNat bs 28 2, argBytes := objNat bs 30 2, coreScr := objNat bs 32 4
    clusScr := objNat bs 36 4, dieScr := objNat bs 40 4
    bufs := (List.range (objNat bs 44 2)).map (fun k =>
      (List.range 4).map (fun j => BitVec.ofNat 32 (objNat bs (objNat bs 48 4 + 16 * k + 4 * j) 4)))
    gangTeams := objNat bs 46 1 }

/-- Sections that must lie in the object and apart: start and size. -/
def CodeObj.sections (o : CodeObj) (bufOff : Nat) : List (Nat × Nat) :=
  [(0, 96), (o.codeOff, o.codeSize)] ++ (if o.msSize = 0 then [] else [(o.msOff, o.msSize)])
    ++ (if o.bufs.isEmpty then [] else [(bufOff, 16 * o.bufs.length)])

/-- Whether any two of a list of ranges overlap. -/
def anyOverlap : List (Nat × Nat) → Bool
  | [] => false
  | a :: rest => rest.any (fun b => decide (a.1 < b.1 + b.2) && decide (b.1 < a.1 + a.2)) || anyOverlap rest

/-- The checks of R29 with their numbers, in order: each is true where it refuses the object. -/
def objChecks (addr : Nat) (bs : List Byte) (det : Nat) (helm : Bool) : List (Nat × Bool) :=
  let o := parseObj addr bs
  let flags := objNat bs 6 2
  let nroles := natField flags 7 6 + 1
  let bufOff := objNat bs 48 4
  let secs := o.sections bufOff
  [(1, objNat bs 0 4 != 0x4B464D49 || objNat bs 4 2 != 1 || addr % 256 != 0),
   (2, natField flags 15 8 != 0 || objNat bs 47 1 != 0 || objNat bs 52 12 != 0 || o.pool == 3
      || (List.range 4).any (fun k => if k < nroles then objNat bs (65 + 8 * k) 1 != 0 else objNat bs (64 + 8 * k) 8 != 0)
      || (List.range o.bufs.length).any (fun k => decide (bufOff + 16 * k + 16 ≤ o.objSize)
          && (objNat bs (bufOff + 16 * k) 1 / 4 != 0 || objNat bs (bufOff + 16 * k) 1 % 4 == 3
            || objNat bs (bufOff + 16 * k + 1) 1 != 0 || objNat bs (bufOff + 16 * k + 14) 2 != 0))),
   (3, secs.any (fun x => decide (o.objSize < x.1 + x.2)) || anyOverlap secs || o.objSize % 4 != 0 || o.codeOff % 4 != 0
      || o.codeSize % 12 != 0 || o.codeSize == 0 || o.msOff % 4 != 0 || o.msSize % 12 != 0 || decide (64 < o.bufs.length)
      || bufOff % 16 != 0 || (bufOff != 0 && o.bufs.isEmpty) || o.coreScr % 1024 != 0 || o.clusScr % 4096 != 0
      || o.dieScr % 65536 != 0 || o.roles.any (fun r => r.entry % 12 != 0)),
   (4, o.mstream != (o.msOff != 0 && o.msSize != 0) || o.mstream != (o.msOff != 0 || o.msSize != 0)
      || (o.mstream && o.pool != 0)),
   (5, o.roles.any (fun r => r.groups == 0 || r.vregs % 8 != 0 || decide (r.vregs < 8) || decide (320 < r.vregs)
      || decide (o.codeSize ≤ r.entry)) || decide (16 < o.groupCount)),
   (6, o.sregs % 32 != 0 || decide (o.sregs < 32) || decide (1024 < o.sregs) || o.argBytes % 4 != 0
      || decide (256 < o.argBytes) || (o.argBytes != 0 && decide (o.sregs < 16 + o.argBytes / 4))),
   (7, o.gangTeams == 0 || decide (4 < o.gangTeams) || (decide (1 < o.gangTeams) && o.pool != 0)),
   (8, decide (storeBytesOf helm < o.codeSize + o.msSize)),
   (9, decide (coreVregs < o.vregSum) || decide (coreSregs helm < o.sregSum) || decide (coreSlots helm < o.groupCount)
      || decide (coreScratch < o.scratchSum)),
   (10, decide (o.detmax < det) || o.pool == (if helm then 0 else 1))]

/-- What a check of a code object or a placement map comes to: accepted, refused with a number, or not read. -/
inductive Checked (α : Type)
  | ok (a : α)
  | refused (n : Nat)

/-- A code object read and checked for a launch at a level on a pool (R29). -/
def State.checkObj (s : State) (e : Eng) (addr det : Nat) (helm : Bool) : Got (Checked CodeObj) :=
  (s.engRead e addr 64).andThen fun hdr =>
    (s.engRead e addr (objNat hdr 8 4)).map fun body =>
      let bs := if objNat hdr 8 4 < 64 then hdr else body
      match (objChecks addr bs det helm).find? Prod.snd with
      | some (n, _) => .refused n
      | none => .ok (parseObj addr bs)

/-- The constraints on a handler object beside a kernel (R386). -/
def handlerFits (h k : CodeObj) (helm : Bool) : Bool :=
  h.roles.length == 1 && !h.mstream && h.gangTeams == 1 && h.argBytes == 0 && h.bufs.isEmpty && h.coreScr == 0
    && h.clusScr == 0 && h.dieScr == 0 && h.pool != (if helm then 0 else 1)
    && decide (ceilDiv (k.codeSize + k.msSize) 4096 * 4096 + ceilDiv h.codeSize 4096 * 4096 ≤ storeBytesOf helm)

/-- The trap handler's object, where the context has one: refused with 11 where it breaks R386. -/
def State.checkHandler (s : State) (e : Eng) (k : CodeObj) (helm : Bool) : Got (Checked (Option CodeObj)) :=
  if (s.context e.part e.ctx).traph = 0 then .ok (.ok none)
  else (s.engRead e (s.context e.part e.ctx).traph 64).andThen fun hdr =>
    (s.engRead e (s.context e.part e.ctx).traph (objNat hdr 8 4)).map fun body =>
      let bs := if objNat hdr 8 4 < 64 then hdr else body
      let h := parseObj (s.context e.part e.ctx).traph bs
      if ((objChecks (s.context e.part e.ctx).traph bs 0 helm).take 3).any Prod.snd || !handlerFits h k helm then .refused 11
      else .ok (some h)

/-- Both objects of a launch: the kernel's and the handler's. -/
def State.checkObjs (s : State) (e : Eng) (addr det : Nat) (helm : Bool) : Got (Checked (CodeObj × Option CodeObj)) :=
  (s.checkObj e addr det helm).andThen fun c =>
    match c with
    | .refused n => .ok (.refused n)
    | .ok o => (s.checkHandler e o helm).map fun h =>
      match h with
      | .refused n => .refused n
      | .ok h => .ok (o, h)

/-! ### Placement maps -/

/-- The clusters that a partition's realtime reservation names, or its helm cores (R321). -/
def State.reserved (s : State) (part : Nat) (helm : Bool) (rel : Nat) : Bool :=
  natBit (if helm then (s.func part).rtHelm else (s.func part).rtClus) rel

/-- The units of a partition's pool: clusters, or helm cores. -/
def State.units (s : State) (part : Nat) (_helm : Bool) : List Nat := s.clusters part

/-- An entry's unit, partition-relative, after R130. -/
def mapUnit (det units : Nat) (helm : Bool) (w : Nat) : Nat :=
  if 2 ≤ det then (if helm then natField w 5 0 else natField w 6 0) % units
  else if helm then natField w 5 0 else natField w 6 0

/-- The core of a cluster that an entry gives team `j` of a gang. -/
def mapCore (w j : Nat) : Nat := natField w (8 + 2 * j + 1) (8 + 2 * j)

/-- Whether the teams that an entry sends to one core exceed its limits (R126 check 7). -/
def mapOverfull (o : CodeObj) (w : Nat) : Bool :=
  (List.range 4).any fun c =>
    let k := ((List.range o.gangTeams).filter (fun j => mapCore w j == c)).length
    decide (coreSlots false < k * o.groupCount) || decide (coreVregs < k * o.vregSum)
      || decide (coreSregs false < k * o.sregSum) || decide (coreScratch < k * o.scratchSum)

/-- The checks of a placement map on its entries, in the order of R126 from check 4 on. -/
def State.mapChecks (s : State) (part det : Nat) (helm realtime : Bool) (o : CodeObj) (ws : List Nat) :
    List (Nat × Bool) :=
  let n := (s.units part helm).length
  let pinned := ws.filter (fun w => !natBit w 7)
  [(4, pinned.any (fun w => decide (n ≤ mapUnit det n helm w))),
   (5, ws.any (fun w => (natBit w 7 && w != 128) || (helm && (natField w 15 8 != 0 || natBit w 6))
      || (List.range 4).any (fun j => decide (o.gangTeams ≤ j) && mapCore w j != 0))),
   (6, pinned.any (fun w => s.reserved part helm (mapUnit det n helm w) != realtime)),
   (7, !helm && pinned.any (mapOverfull o))]

/-- A placement map read and checked (R125, R126); address 0 is "any". A map that is not mapped is refused with 1. -/
def State.checkMap (s : State) (e : Eng) (addr det : Nat) (helm realtime : Bool) (o : CodeObj) :
    Got (Checked (Option (List Nat))) :=
  let one := fun (x : Got (Checked (Option (List Nat)))) =>
    match x with
    | .bad _ _ => Got.ok (Checked.refused 1)
    | y => y
  if addr = 0 then .ok (.ok none)
  else if addr % 16 ≠ 0 then .ok (.refused 1)
  else one ((s.engRead e addr 16).andThen fun hdr =>
    let count := objNat hdr 4 4
    (s.engRead e (addr + 16) (if 65536 < count then 0 else 4 * count)).map fun body =>
      let ws := (List.range (body.length / 4)).map (fun i => objNat body (4 * i) 4)
      if objNat hdr 0 4 ≠ 0x50414C4D ∨ objNat hdr 8 8 ≠ 0 ∨ ws.any (fun w => natField w 31 16 != 0) then .refused 2
      else if count = 0 ∨ 65536 < count then .refused 3
      else match (s.mapChecks e.part det helm realtime o ws).find? Prod.snd with
        | some (n, _) => .refused n
        | none => .ok (some ws))

end Sys2Proof.Machine
end

