-- ==== Sys2Proof/Machine/Placement.lean ====
section
/-!
DEFINITION. The launch distributor: launches and their gangs, the resources counted, the choice of a unit, reservation,
code loading and the state of a group at its first instruction (R23, R30, R31, R93 to R95, R124 to R131, R408, R409).
-/

namespace Sys2Proof.Machine

/-! ### Launches and gangs -/

/-- A launch. -/
def State.launch (s : State) (l : Nat) : Launch := Tab.getD s.launches l {}
/-- The state with a launch changed. -/
def State.modLaunch (s : State) (l : Nat) (f : Launch → Launch) : State := { s with launches := Tab.modify s.launches l f }
/-- A gang. -/
def State.gang (s : State) (g : Nat) : Gang := Tab.getD s.gangs g {}
/-- The state with a gang changed. -/
def State.modGang (s : State) (g : Nat) (f : Gang → Gang) : State := { s with gangs := Tab.modify s.gangs g f }
/-- A work-graph instance. -/
def State.inst (s : State) (i : Nat) : WInst := Tab.getD s.insts i {}
/-- The state with a work-graph instance changed. -/
def State.modInst (s : State) (i : Nat) (f : WInst → WInst) : State := { s with insts := Tab.modify s.insts i f }
/-- A node of an instance. -/
def WInst.node (w : WInst) (n : Nat) : WNode := w.nodes.getD n {}
/-- A block of an instance. -/
def WInst.block (w : WInst) (b : Nat) : Block := Tab.getD w.blocks b {}
/-- The instance with a block set. -/
def WInst.putBlock (w : WInst) (b : Nat) (x : Block) : WInst := { w with blocks := Tab.set {} w.blocks b x }

/-- The teams of a launch (R23). -/
def Launch.teams (l : Launch) : Nat := l.x * l.y * l.z
/-- The linear indexes of a launch's gang `k` (R23). -/
def Launch.gangLins (l : Launch) (k : Nat) : List Nat :=
  (List.range l.obj.gangTeams).filterMap (fun j =>
    if k * l.obj.gangTeams + j < l.teams then some (k * l.obj.gangTeams + j) else none)

/-- A launch's next gang begins to wait, where there is one. -/
def State.nextGang (s : State) (l : Nat) : State :=
  let x := s.launch l
  if (x.gangLins x.next).isEmpty then s
  else ({ s with gangs := Tab.put s.gangs s.fresh { launch := l, index := x.next, lins := x.gangLins x.next
                                                    since := s.now } }.modLaunch l
      (fun x => { x with next := x.next + 1 })).tick

/-- A launch accepted, its first gang waiting; its number is the state's next fresh one. -/
def State.addLaunch (s : State) (x : Launch) : State :=
  ({ s with launches := Tab.put s.launches s.fresh x }.tick).nextGang s.fresh

/-! ### Resources (R129) -/

/-- The teams that hold resources of a core. -/
def State.coreTeams (s : State) (core : Nat) : List Team :=
  (s.teams.map Prod.snd).filter (fun t => t.core == core && !t.retired && !t.saved)

/-- Whether `k` teams of an object fit on a core beside those that it holds. -/
def State.coreFits (s : State) (o : CodeObj) (core k : Nat) : Bool :=
  let ts := (s.coreTeams core).map Team.obj
  let sum := fun (f : CodeObj → Nat) => (ts.map f).sum + k * f o
  !(s.core core).quarantined && decide (sum CodeObj.groupCount ≤ coreSlots (coreIsHelm core))
    && decide (sum CodeObj.vregSum ≤ coreVregs) && decide (sum CodeObj.sregSum ≤ coreSregs (coreIsHelm core))
    && decide (sum CodeObj.scratchSum ≤ coreScratch)

/-- The free vector registers of a core; none where it is quarantined (R412). -/
def State.freeVregs (s : State) (core : Nat) : Nat :=
  if (s.core core).quarantined then 0 else coreVregs - ((s.coreTeams core).map (fun t => t.obj.vregSum)).sum

/-- The cores of a unit: four of a cluster, or the helm core. -/
def unitCores (helm : Bool) (unit : Nat) : List Nat :=
  if helm then [256 + unit] else (List.range 4).map (fun c => 4 * unit + c)

/-- The bytes of live allocations of a level on a unit. -/
def State.allocated (s : State) (lvl : Lvl) (unit : Nat) : Nat :=
  ((s.allocs.filter (fun a => a.2.level == lvl && a.2.unit == unit)).map (fun a => a.2.size)).sum

/-- The cluster scratch that placement counts on a cluster (R129, R339). -/
def State.clusterScratch (s : State) (cluster : Nat) : Nat :=
  if natBit (s.func (Tab.getD s.pt.unit (cluster / 4) 0)).rayStage (s.relUnit cluster) then 55 * 2 ^ 19 else 2 ^ 25

/-- The die scratch of a partition on a die (R10, R19). -/
def State.dieScratch (s : State) (part die : Nat) : Nat :=
  2 ^ 26 * ((s.clusters part).filter (fun c => c / 32 == die)).length

/-- The die scratch that a partition's launches hold on a die. -/
def State.dieUsed (s : State) (part die : Nat) : Nat :=
  ((s.allocs.filter (fun a => a.2.level == .die && a.2.unit == die && a.2.part == part)).map (fun a => a.2.size)).sum

/-- A size rounded up to 4 KiB (R129). -/
def roundPage (n : Nat) : Nat := ceilDiv n 4096 * 4096

/-- The instruction store that a copy takes with its handler copy (R129, R386). -/
def Copy.size (c : Copy) : Nat := roundPage (c.codeSize + c.msSize) + roundPage (c.handlerSize.getD 0)

/-- The code copy of a context's object on a unit, if there is one (R131). -/
def State.copyAt (s : State) (part ctx code : Nat) (helm : Bool) (unit : Nat) : Option Nat :=
  (s.copies.find? (fun c => c.2.part == part && c.2.ctx == ctx && c.2.code == code && c.2.helm == helm
    && c.2.unit == unit)).map Prod.fst

/-- Whether a unit's instruction store holds a launch's copy or has room for it. -/
def State.storeFits (s : State) (l : Launch) (unit : Nat) : Bool :=
  (s.copyAt l.part l.ctx l.code l.helm unit).isSome
    || decide (((s.copies.filter (fun c => c.2.helm == l.helm && c.2.unit == unit)).map (fun c => c.2.size)).sum
      + roundPage (l.obj.codeSize + l.obj.msSize) + roundPage ((l.hobj.map CodeObj.codeSize).getD 0) ≤ storeBytesOf l.helm)

/-- The matrix reservation entries taken on a cluster (R129). -/
def State.mxTaken (s : State) (cluster : Nat) : Nat :=
  (((unitCores false cluster).map s.coreTeams).flatten.filter (fun t => t.obj.mstream)).length

/-- Whether a unit has everything but core resources for `n` teams of a launch. -/
def State.unitFits (s : State) (l : Launch) (unit n : Nat) : Bool :=
  decide (s.allocated .clus unit + n * l.obj.clusScr ≤ s.clusterScratch unit)
    && (!l.obj.mstream || decide (s.mxTaken unit + n ≤ 16)) && s.storeFits l unit
    && (l.obj.dieScr == 0 || (Tab.get? l.dieScr (unit / 32)).isSome
      || decide (s.dieUsed l.part (unit / 32) + l.obj.dieScr ≤ s.dieScratch l.part (unit / 32)))

/-- The cores of teams placed in ascending order, each on the first of its candidates on which it still fits. -/
def State.assignCores (s : State) (o : CodeObj) : List (List Nat) → List Nat → Option (List Nat)
  | [], taken => some taken
  | cands :: rest, taken =>
    match cands.find? (fun c => s.coreFits o c ((taken.filter (· == c)).length + 1)) with
    | none => none
    | some c => s.assignCores o rest (taken ++ [c])

/-! ### The choice of a unit -/

/-- The entry of a placement map that a gang uses; none for "any" (R125). -/
def Launch.entry? (l : Launch) (k : Nat) : Option Nat :=
  match l.map with
  | none => none
  | some ws =>
    let w := ws.getD (k % ws.length) 128
    if natBit w 7 then none else some w

/-- The key of a unit's hold. -/
def holdKey (helm : Bool) (unit : Nat) : Nat := if helm then 64 + unit else unit

/-- Whether the tile slots that a saved team held are free on a helm core (R402). -/
def State.slotsFree (s : State) (unit team : Nat) : Bool :=
  (s.tslots.filter (fun x => x.1 / 16 == 1024 + team)).all (fun x =>
    (Tab.get? s.tslots (16 * (256 + unit) + x.1 % 16)).isNone)

/-- The units that a gang may use (R125, R322, R409), in partition-relative order. -/
def State.gangUnits (s : State) (g : Gang) (l : Launch) : List Nat :=
  let all := ((s.units l.part l.helm).filter (fun u => s.reserved l.part l.helm (s.relUnit u) == l.realtime)).filter
    (fun u => !l.helm || g.teams.all (s.slotsFree u))
  match g.copyOf with
  | some t =>
    let u := coreUnit (s.team t).core
    if (Tab.get? s.teams t).isNone then []
    else if l.helm then all.filter (· != u)
    else if l.obj.mstream || (s.units l.part l.helm).length ≤ 1 then all.filter (· == u)
    else all.filter (· != u)
  | none =>
    match l.entry? g.index with
    | none => all
    | some w => all.filter (fun u =>
        s.relUnit u == mapUnit l.det (s.units l.part l.helm).length l.helm w)

/-- The cores of a unit that each team of a gang may use (R125, R409). -/
def State.gangCores (s : State) (g : Gang) (l : Launch) (unit : Nat) : List (List Nat) :=
  match g.copyOf with
  | some t => [(unitCores l.helm unit).filter (· != (s.team t).core)]
  | none =>
    g.lins.map (fun lin =>
      match l.helm, l.entry? g.index with
      | false, some w => [4 * unit + mapCore w (lin % l.obj.gangTeams)]
      | _, _ => unitCores l.helm unit)

/-- The cores on which a unit takes a gang, where it holds every resource and no other gang's hold (R128, R129). -/
def State.fitOn (s : State) (gid : Nat) (unit : Nat) : Option (List Nat) :=
  let g := s.gang gid
  let l := s.launch g.launch
  if (Tab.get? s.holds (holdKey l.helm unit)).any (· != gid) then none
  else if !s.unitFits l unit g.lins.length then none
  else s.assignCores l.obj (s.gangCores g l unit) []

/-- The free vector registers of a unit. -/
def State.unitFree (s : State) (helm : Bool) (unit : Nat) : Nat := ((unitCores helm unit).map s.freeVregs).sum

/-- Whether an "any" entry prefers a unit to another (R129). -/
def State.prefers (s : State) (l : Launch) (a b : Nat) : Bool :=
  let fa := s.unitFree l.helm a
  let fb := s.unitFree l.helm b
  decide (fb < fa) || (fa == fb && (a / 32 == l.die && b / 32 != l.die || ((a / 32 == l.die) == (b / 32 == l.die) && decide (a < b))))

/-- The most preferred of some units. -/
def State.bestUnit (s : State) (l : Launch) : List Nat → Option Nat
  | [] => none
  | u :: us =>
    match s.bestUnit l us with
    | none => some u
    | some v => if s.prefers l u v then some u else some v

/-- The unit that takes a gang, and its teams' cores. -/
def State.target? (s : State) (gid : Nat) : Option (Nat × List Nat) :=
  let g := s.gang gid
  let l := s.launch g.launch
  match s.bestUnit l ((s.gangUnits g l).filter (fun u => (s.fitOn gid u).isSome)) with
  | none => none
  | some u => (s.fitOn gid u).map (fun cs => (u, cs))

/-! ### Work-graph limits on placement -/

/-- The instance of a source. -/
def Source.inst? : Source → Option Nat
  | .entry i | .block i _ _ => some i
  | .node | .batch _ _ => none

/-- The node of a work-graph launch. -/
def State.launchNode (s : State) (l : Launch) : Option (WInst × Nat) :=
  match l.src with
  | .entry i => some (s.inst i, (s.inst i).entry)
  | .block i n _ => some (s.inst i, n)
  | .node | .batch _ _ => none

/-- Whether an instance has a READY block. -/
def WInst.hasReady (w : WInst) : Bool := w.blocks.any (fun b => b.2.state == .ready)

/-- The FREE blocks of an instance that are set aside for no team, lowest first. -/
def WInst.freeBlocks (w : WInst) : List Nat :=
  (List.range w.nblocks).filter (fun b => (w.block b).state == .free && (w.block b).producer.isNone)

/-- Whether the rules of R93 to R95 let a work-graph launch place teams now. -/
def State.wgAllows (s : State) (l : Launch) (n : Nat) : Bool :=
  match s.launchNode l with
  | none => true
  | some (w, k) =>
    let producer := (w.node k).targets != 0
    !(producer && !w.waiting.isEmpty) && !((w.node k).entry && w.hasReady)
      && (l.det == 0 || !producer || decide (n * (w.node k).reserve ≤ w.freeBlocks.length))

/-- The deepest node of an instance that has a block OPEN, SEALED or READY (R93). -/
def WInst.deepest (w : WInst) : Option Nat :=
  (w.blocks.filter (fun b => b.2.state == .opened || b.2.state == .sealed || b.2.state == .ready)).foldl
    (fun r b => match r with
      | none => some b.2.node
      | some n => if (w.node n).depth < (w.node b.2.node).depth then some b.2.node else some n) none

/-- Whether an instance has a resident team on a unit. -/
def State.instOn (s : State) (i unit : Nat) (helm : Bool) : Bool :=
  s.teams.any (fun t => t.2.helm == helm && coreUnit t.2.core == unit && !t.2.retired && !t.2.saved
    && (s.launch t.2.launch).src.inst? == some i)

/-- Whether a unit keeps free the footprint of one team of each instance's deepest node that R93 protects from a launch. -/
def State.keepsFootprints (s : State) (l : Launch) (unit : Nat) : Bool :=
  s.insts.all fun x =>
    match x.2.deepest with
    | none => true
    | some d =>
      let nd := x.2.node d
      let own := match s.launchNode l with
        | some (_, k) => l.src.inst? == some x.1 && decide (nd.depth ≤ (x.2.node k).depth)
        | none => false
      let probe : Launch := { part := x.2.part, ctx := x.2.ctx, code := nd.code, obj := nd.obj, hobj := nd.hobj
                              helm := nd.helm }
      x.2.part != l.part || nd.helm != l.helm || own || !s.instOn x.1 unit nd.helm
        || (s.unitFits probe unit 1 && (unitCores nd.helm unit).any (fun c => s.coreFits nd.obj c 1))

/-! ### Reservation -/

/-- An allocation made: its number is the state's next fresh one; none of size 0. -/
def State.allocate (s : State) (lvl : Lvl) (unit size part : Nat) : State × Nat :=
  if size = 0 then (s, 0) else ({ s with allocs := Tab.put s.allocs s.fresh ⟨lvl, unit, size, part⟩ }.tick, s.fresh)

/-- The bytes of a space and its bits forgotten. -/
def State.purge (s : State) (id : Nat) : State :=
  let out := fun (k : Nat) => decide (k < spaceKey id 0) || decide (spaceKey (id + 1) 0 ≤ k)
  { s with mem := s.mem.filter (fun c => out c.1), full := s.full.filter out, poison := s.poison.filter out }

/-- An allocation freed; its bytes can no longer be read (R230, R417). -/
def State.freeAlloc (s : State) (id : Nat) : State :=
  if id = 0 then s else { s.purge id with allocs := Tab.erase s.allocs id }

/-- One reference to a code copy dropped; the last drops the copy (R131). -/
def State.dropCopy (s : State) (id : Nat) : State :=
  if (s.copy id).refs ≤ 1 then { s.purge id with copies := Tab.erase s.copies id }
  else { s with copies := Tab.modify s.copies id (fun c => { c with refs := c.refs - 1 }) }

/-- The distributor as an engine that loads code. -/
def State.loader (s : State) (gid : Nat) : Eng :=
  let l := s.launch (s.gang gid).launch
  { unit := queueTransUnit l.die, part := l.part, ctx := l.ctx, who := 2 ^ 41 + gid, die := l.die }

/-- A code copy for a gang on a unit: a reference to the live one, or a new one loaded as the object stands (R131). -/
def State.loadCopy (s : State) (gid unit : Nat) : Got (State × Nat) :=
  let l := s.launch (s.gang gid).launch
  let e := s.loader gid
  match s.copyAt l.part l.ctx l.code l.helm unit with
  | some c => .ok ({ s with copies := Tab.modify s.copies c (fun x => { x with refs := x.refs + 1 }) }, c)
  | none =>
    (s.engRead e (l.code + l.obj.codeOff) l.obj.codeSize).andThen fun code =>
      (s.engRead e (l.code + l.obj.msOff) l.obj.msSize).andThen fun ms =>
        (match l.hobj with
          | none => Got.ok []
          | some h => s.engRead e (h.addr + h.codeOff) h.codeSize).map fun hs =>
          let id := s.fresh
          let c : Copy :=
            { ctx := l.ctx, part := l.part, code := l.code, helm := l.helm, unit := unit, codeSize := l.obj.codeSize
              msSize := l.obj.msSize, handlerSize := l.hobj.map CodeObj.codeSize
              handlerEntry := ((l.hobj.bind (fun h => h.roles.head?)).map Role.entry).getD 0, refs := 1 }
          (((({ s.tick with copies := Tab.put s.copies id c } : State).setBytes (spaceKey id 0) code).setBytes
            (spaceKey id streamBase) ms).setBytes (spaceKey id handlerBase) hs, id)

/-- The coordinates of a team of a launch (R23, R88, R115). -/
def Launch.coords (l : Launch) (lin : Nat) : Nat × Nat × Nat :=
  match l.src with
  | .block _ _ _ => (if l.det = 0 then l.seq else 0, 0, 0)
  | .batch _ _ => (0, 0, 0)
  | .node | .entry _ => (lin % l.x, lin / l.x % l.y, lin / l.x / l.y)

/-- The extents that a launch's teams read (R30, R88, R115). -/
def Launch.extents (l : Launch) : Nat × Nat × Nat :=
  match l.src with
  | .block _ _ _ | .batch _ _ => (0, 0, 0)
  | .node | .entry _ => (l.x, l.y, l.z)

/-- Whether a launch's team is chosen for re-execution (R408). -/
def Launch.chosen (l : Launch) (lin : Nat) : Bool := l.sel.any (fun k => lin % 1024 == k)

/-- A team's record as it is placed on a core. -/
def Launch.team (l : Launch) (lid gid : Nat) (g : Gang) (lin core copy core_ clus die other : Nat) : Team :=
  { launch := lid, gang := gid, part := l.part, ctx := l.ctx, queue := l.queue, lin := lin
    x := (l.coords lin).1, y := (l.coords lin).2.1, z := (l.coords lin).2.2
    gx := l.extents.1, gy := l.extents.2.1, gz := l.extents.2.2
    obj := l.obj, helm := l.helm, core := core, gangPos := lin % l.obj.gangTeams, copy := copy, coreScr := core_
    clusScr := clus, dieScr := die, otherScr := other, detlevel := l.det, trapen := l.trapen
    receiver := match l.src with
      | .batch _ _ => true
      | .node | .entry _ | .block _ _ _ => false
    kills := g.kills, checked := g.copyOf.isSome || l.chosen lin, copyOf := g.copyOf }

/-- The blocks that level 1 sets aside for a producer team as it is placed (R95). -/
def State.setAside (s : State) (l : Launch) (team : Nat) : State :=
  match s.launchNode l, l.src.inst? with
  | some (w, k), some i =>
    if l.det = 0 ∨ (w.node k).targets = 0 then s
    else s.modInst i (fun w => (w.freeBlocks.take (w.node k).reserve).foldl
      (fun w b => w.putBlock b { w.block b with producer := some team }) w)
  | _, _ => s

/-- The copy of a chosen team begins to wait for its place (R409); a team that starts afresh keeps its copy. -/
def State.addCopy (s : State) (lid gid team lin : Nat) : State :=
  if (s.gang gid).again.isSome then
    { s with teams := s.teams.map (fun x =>
               if x.2.copyOf.isSome && x.2.copyOf == (s.gang gid).again then (x.1, { x.2 with copyOf := some team }) else x)
             gangs := s.gangs.map (fun x =>
               if x.2.copyOf.isSome && x.2.copyOf == (s.gang gid).again then (x.1, { x.2 with copyOf := some team }) else x) }
  else if (s.launch lid).chosen lin && (s.gang gid).copyOf.isNone then
    let g : Gang := { launch := lid, index := (s.gang gid).index, lins := [lin], since := s.now, copyOf := some team }
    ({ s with gangs := Tab.put s.gangs s.fresh g }.modLaunch lid (fun l => { l with copies := l.copies + 1 })).tick
  else s

/-- The lowest matrix reservation entry of a cluster that no team holds (R129, R280). -/
def State.mxIndex (s : State) (cluster : Nat) : Nat :=
  let taken := ((unitCores false cluster).map s.coreTeams).flatten.filterMap (fun t => t.mx.map Mx.index)
  ((List.range 16).find? (fun k => !taken.contains k)).getD 0

/-- One new team of a gang placed on a core. -/
def State.placeTeam (s : State) (gid unit copy clus : Nat) (lin core : Nat) : State :=
  let g := s.gang gid
  let l := s.launch g.launch
  let a := s.allocate .core core l.obj.coreScr l.part
  let id := a.1.fresh
  let t := l.team g.launch gid g lin core copy a.2 clus (Tab.getD l.dieScr (unit / 32) 0) (Tab.getD l.dieScr (1 - unit / 32) 0)
  let t := if l.obj.mstream then { t with mx := some { index := s.mxIndex unit } } else t
  (((({ a.1 with teams := Tab.put a.1.teams id t } : State).tick.modGang gid (fun g => { g with teams := g.teams ++ [id] })).setAside
    l id).addCopy g.launch gid id lin)

/-- One saved team placed again on a core (R402): its scratch lies there as it was saved. -/
def State.replaceTeam (s : State) (unit copy : Nat) (team core : Nat) : State :=
  let t := s.team team
  let l := s.launch t.launch
  let place := fun (al : Tab Alloc) (id u : Nat) => Tab.modify al id (fun a => { a with unit := u })
  { s with
    teams := Tab.put s.teams team
      { t with core := core, copy := copy, saved := false, dieScr := Tab.getD l.dieScr (unit / 32) 0
               otherScr := Tab.getD l.dieScr (1 - unit / 32) 0
               mx := t.mx.map (fun m => { m with index := s.mxIndex unit }) }
    tslots := s.tslots.map (fun x => if x.2.team == team then (16 * core + x.1 % 16, x.2) else x)
    allocs := place (place s.allocs t.coreScr core) t.clusScr unit }

/-- The die-scratch allocation of a launch on a unit's die, made with its first team there (R129). -/
def State.dieAlloc (s : State) (lid unit : Nat) : State :=
  let l := s.launch lid
  if l.obj.dieScr = 0 ∨ (Tab.get? l.dieScr (unit / 32)).isSome then s
  else
    let a := s.allocate .die (unit / 32) l.obj.dieScr l.part
    let s1 := a.1.modLaunch lid (fun l => { l with dieScr := Tab.put l.dieScr (unit / 32) a.2 })
    { s1 with teams := s1.teams.map (fun x =>
        if x.2.launch == lid && coreUnit x.2.core / 32 != unit / 32 then (x.1, { x.2 with otherScr := a.2 }) else x) }

/-- The reservation of every resource of a gang on a unit (R128): it becomes LOADING, and the next gang of its launch
begins to wait. -/
def State.reserve (s : State) (gid unit : Nat) (cores : List Nat) : Got State :=
  let g := s.gang gid
  let lid := g.launch
  (s.loadCopy gid unit).map fun r =>
    let s1 := (r.1.engDone (s.loader gid)).dieAlloc lid unit
    let l := s1.launch lid
    let a := if g.restores then (s1, g.clusScr) else s1.allocate .clus unit (g.lins.length * l.obj.clusScr) l.part
    let s2 := if g.restores then (g.teams.zip cores).foldl (fun s x => s.replaceTeam unit r.2 x.1 x.2) a.1
      else (g.lins.zip cores).foldl (fun s x => s.placeTeam gid unit r.2 a.2 x.1 x.2) a.1
    let s3 := (s2.modGang gid (fun g => { g with state := .loading, unit := unit, clusScr := a.2 }))
    let s4 : State := { s3 with holds := s3.holds.filter (fun h => h.2 != gid) }
    let s5 := match l.src with
      | .block i _ b => s4.modInst i (fun w => w.putBlock b { w.block b with state := .running })
      | .node | .entry _ | .batch _ _ => s4
    if g.index + 1 = l.next && g.copyOf.isNone && !g.restores && g.again.isNone then s5.nextGang lid else s5

/-! ### Service order -/

/-- The acceptance order of a launch: that of its instance for a work graph (R127). -/
def Launch.accepted (l : Launch) (lid : Nat) : Nat := l.src.inst?.getD lid

/-- Whether a waiting gang is served before another of its die (R93, R127). -/
def State.servedBefore (s : State) (a b : Nat) : Bool :=
  let la := s.launch (s.gang a).launch
  let lb := s.launch (s.gang b).launch
  let pa := if la.realtime then 4 else la.prio
  let pb := if lb.realtime then 4 else lb.prio
  let aa := la.accepted (s.gang a).launch
  let ab := lb.accepted (s.gang b).launch
  let key : Launch → Nat × Nat := fun l => match l.src with
    | .block i n k => (64 - ((s.inst i).node n).depth, ((s.inst i).block k).order)
    | .node | .entry _ | .batch _ _ => (65, 0)
  let ka := key la
  let kb := key lb
  decide (pb < pa) || (pa == pb && (decide (aa < ab) || (aa == ab && (decide (ka.1 < kb.1)
    || (ka.1 == kb.1 && (decide (ka.2 < kb.2) || (ka.2 == kb.2 && decide ((s.gang a).index < (s.gang b).index))))))))

/-- Whether a gang waits to be served: its context runs, and the partition is not halted (R128, R390). -/
def State.gangWaits (s : State) (gid : Nat) : Bool :=
  let l := s.launch (s.gang gid).launch
  (Tab.get? s.gangs gid).isSome && (s.gang gid).state == .waiting && !(s.context l.part l.ctx).saved
    && !(s.func l.part).halted

/-- The reservation of a gang on its target, where every rule allows it. -/
def State.serve (s : State) (gid unit : Nat) : Option (Got State) :=
  let l := s.launch (s.gang gid).launch
  match s.target? gid with
  | none => none
  | some (u, cores) =>
    if u != unit || !s.wgAllows l (s.gang gid).lins.length then none
    else match s.reserve gid unit cores with
      | .ok s' => if s'.keepsFootprints l unit then some (.ok s') else none
      | e => some e

/-- Whether a waiting gang could be served now on some unit. -/
def State.servable (s : State) (gid : Nat) : Bool :=
  s.gangWaits gid && (match s.target? gid with
    | none => false
    | some (u, _) => (match s.serve gid u with
      | some (.ok _) => true
      | _ => false))

/-- GANG_SERVED: the distributor reserves the resources of a waiting gang on its unit, unless an earlier one of its die and
partition can be served (R127, R128). -/
def execGangServed (gang unit : Nat) (s : State) : Host.Outcome State Fault Refusal :=
  let l := s.launch (s.gang gang).launch
  let first := (Tab.keys s.gangs).all (fun b =>
    (s.launch (s.gang b).launch).part != l.part || (s.launch (s.gang b).launch).die != l.die
      || !s.servedBefore b gang || !s.servable b)
  if !s.gangWaits gang || !first then .next s
  else match s.serve gang unit with
    | some (.ok s') => .next s'
    | some (.wait s') => .next s'
    | some (.bad _ _) | some .ue | none => .next s

/-! ### Holds -/

/-- The unit on which a long-waiting gang puts its hold (R128). -/
def State.holdTarget (s : State) (gid : Nat) : Option Nat :=
  let l := s.launch (s.gang gid).launch
  s.bestUnit l (s.gangUnits (s.gang gid) l)

/-- PLACEMENT_HOLD: a gang that has waited 65,536 array cycles puts a hold on its unit, the oldest first (R128). -/
def execPlacementHold (gang : Nat) (s : State) : Host.Outcome State Fault Refusal :=
  let l := s.launch (s.gang gang).launch
  let old := fun (k : Nat) => s.gangWaits k && decide (65536 ≤ s.now - (s.gang k).since)
  match s.holdTarget gang with
  | none => .next s
  | some u =>
    let older := (Tab.keys s.gangs).any (fun b => b != gang && old b && (s.launch (s.gang b).launch).helm == l.helm
      && s.holdTarget b == some u && !(s.holds.any (fun h => h.2 == b))
      && (decide ((s.gang b).since < (s.gang gang).since) || ((s.gang b).since == (s.gang gang).since && decide (b < gang))))
    if !old gang || older || s.holds.any (fun h => h.2 == gang) || (Tab.get? s.holds (holdKey l.helm u)).isSome then .next s
    else .next { s with holds := Tab.put s.holds (holdKey l.helm u) gang }

/-! ### The first instruction -/

/-- The records or invocations of a group of a batch: those from `lanes * number` on (R88, R115). -/
def Launch.groupRecs (l : Launch) (number : Nat) : Nat := min (poolLanes l.helm) (l.recs - poolLanes l.helm * number)

/-- The initial active mask of a group (R30). -/
def Launch.activeLanes (l : Launch) (number : Nat) : List Nat :=
  match l.src with
  | .node | .entry _ => List.range (poolLanes l.helm)
  | .block _ _ _ | .batch _ _ => List.range (l.groupRecs number)

/-- The address of a group's first record or invocation (R30, R88, R115). -/
def State.recAddr (s : State) (l : Launch) (number : Nat) : Nat :=
  match l.src with
  | .node | .entry _ => 0
  | .block i n _ => l.recBase + ((s.inst i).node n).recBytes * poolLanes l.helm * number
  | .batch _ _ => l.recBase + 128 * poolLanes l.helm * number

/-- The scalar registers at a group's first instruction (R30, R31). -/
def State.firstScalars (s : State) (l : Launch) (number : Nat) : Tab Word :=
  let a := s.recAddr l number
  let args := match l.src with
    | .node | .entry _ => l.args
    | .batch _ _ => l.shared
    | .block _ _ _ => []
  let ws := (List.range ((args.length + 3) / 4)).map (fun i =>
    (16 + i, BitVec.ofNat 32 (leNat ((args.drop (4 * i)).take 4))))
  ([(8, BitVec.ofNat 32 a), (9, BitVec.ofNat 32 (a / 2 ^ 32))] ++ ws).foldl
    (fun (t : Tab Word) (x : Nat × Word) => if x.1 < l.obj.sregs then Tab.set 0 t x.1 x.2 else t) []

/-- The vector registers at a group's first instruction: a handler's per-lane arguments (R31). -/
def Launch.firstVectors (l : Launch) (number : Nat) : Tab Word :=
  match l.src with
  | .batch _ _ =>
    (List.range (l.groupRecs number)).foldl (fun t lane =>
      let bs := l.laneArgs.getD (poolLanes l.helm * number + lane) []
      (List.range 8).foldl (fun t i =>
        Tab.set 0 t (128 * i + lane) (BitVec.ofNat 32 (leNat ((bs.drop (4 * i)).take 4)))) t) []
  | .node | .entry _ | .block _ _ _ => []

/-- The lowest group slots of a core that no group holds. -/
def State.freeSlots (s : State) (core : Nat) : List Nat :=
  let taken := (s.groups.filter (fun x => x.2.core == core && !(s.team x.2.team).retired && !(s.team x.2.team).saved)).map
    (fun x => x.2.gslot)
  (List.range (coreSlots (coreIsHelm core))).filter (fun k => !taken.contains k)

/-- The roles of a team's groups, in order of their numbers (R24). -/
def CodeObj.groupRoles (o : CodeObj) : List (Nat × Role) :=
  (o.roles.zipIdx.map (fun r => List.replicate r.1.groups (r.2, r.1))).flatten

/-- One group of a team started (R30). -/
def State.startGroup (s : State) (team number role : Nat) (r : Role) : State :=
  let t := s.team team
  let l := s.launch t.launch
  let id := s.fresh
  let g : Group :=
    { team := team, part := t.part, ctx := t.ctx, queue := t.queue, number := number, role := role, core := t.core
      gslot := (s.freeSlots t.core).headD 0, lanes := poolLanes t.helm, vregs := r.vregs, sregs := t.obj.sregs
      vec := l.firstVectors number, scl := s.firstScalars l number, detlevel := t.detlevel
      seed := (s.context t.part t.ctx).seed }
  let lanes := l.activeLanes number
  let g := { g with
    frontier := if lanes.isEmpty then [] else [⟨r.entry, s.prioAt g false r.entry, lanesMask lanes, false⟩]
    draining := lanes.isEmpty }
  let s := ({ s with groups := Tab.put s.groups id g }.tick.modTeam team (fun t => { t with groups := t.groups ++ [id] }))
  if lanes.isEmpty then s else s.becomeReady id

/-- The buffers declared from a code object's table (R236); a malformed entry is noted, and no later one declared. -/
def State.declareBufs (s : State) (team : Nat) : State :=
  (s.team team).obj.bufs.zipIdx.foldl (fun s w =>
    if (s.team team).badBuf.isSome then s
    else if s.badDecl (s.team team) w.2 w.1 then s.modTeam team (fun t => { t with badBuf := some w.2 })
    else s.modTeam team (fun t => { t with bufs := Tab.put t.bufs w.2 (declBuf w.1) })) s

/-- Every group of a new team started. -/
def State.startTeam (s : State) (team : Nat) : State :=
  ((s.team team).obj.groupRoles.zipIdx.foldl (fun s r => s.startGroup team r.2 r.1.1 r.1.2) (s.declareBufs team)).modTeam
    team (fun t => { t with since := s.now })

/-- A saved group on its new core, ready where nothing holds it (R402). -/
def State.resumeGroup (s : State) (id : Nat) : State :=
  let g := s.group id
  let core := (s.team g.team).core
  let s := s.modGroup id (fun g => { g with core := core, gslot := (s.freeSlots core).headD 0 })
  if g.waiting || g.draining || g.retired then s else s.becomeReady id

/-- CODE_LOAD_COMPLETE: the copy of a LOADING gang is complete, and every group of its teams starts or resumes (R30,
R128). -/
def execCodeLoadComplete (gang : Nat) (s : State) : Host.Outcome State Fault Refusal :=
  let g := s.gang gang
  let l := s.launch g.launch
  if g.state ≠ .loading ∨ (s.context l.part l.ctx).saved ∨ (s.func l.part).halted then .next s
  else
    let s1 := (g.teams.foldl (fun s t =>
        { s with copies := Tab.modify s.copies (s.team t).copy (fun c => { c with loaded := true }) }) s).modGang gang
      (fun g => { g with state := .resident, restores := false })
    .next (if g.restores then
        g.teams.foldl (fun s t => (s.teamGroups t).foldl State.resumeGroup (s.modTeam t (fun t => { t with since := s.now }))) s1
      else g.teams.foldl State.startTeam s1)

end Sys2Proof.Machine
end

