-- ==== Sys2Proof/Machine/WorkGraph.lean ====
section
/-!
DEFINITION. Work graphs: instances and their record pools, SPAWN, RECALLOC, RECCOMMIT, CLASSIFY and the LAUNCH of an
instance (R85 to R101, R313).
-/

namespace Sys2Proof.Machine

/-! ### Blocks -/

/-- The base address of a block (R85). -/
def WInst.blockBase (w : WInst) (b : Nat) : Nat := w.pool + b * 2 ^ w.blklog

/-- A block whose every record is committed becomes READY, and its batch waits to be placed (R91). -/
def State.readyBlock (s : State) (i b : Nat) : State :=
  let w := s.inst i
  let x := w.block b
  let nd := w.node x.node
  (s.modInst i (fun w => w.putBlock b { x with state := .ready })).addLaunch
    { src := .block i x.node b, part := w.part, ctx := w.ctx, queue := w.queue, die := w.die, prio := w.prio
      realtime := w.realtime, det := w.det, trapen := w.trapen, code := nd.code, obj := nd.obj, hobj := nd.hobj
      helm := nd.helm, x := 1, y := 1, z := 1, map := nd.map, recs := x.count, recBase := w.blockBase b, seq := x.seq }

/-- A SEALED block with all its records committed becomes READY. -/
def State.checkReady (s : State) (i b : Nat) : State :=
  if ((s.inst i).block b).state == .sealed && decide (((s.inst i).block b).count ≤ ((s.inst i).block b).commits.length)
  then s.readyBlock i b else s

/-- A block sealed at its allocation count: it takes the next batch number of its node (R88, R91). -/
def State.sealBlock (s : State) (i b : Nat) : State :=
  let n := ((s.inst i).block b).node
  ((s.modInst i (fun w =>
      { w.putBlock b { w.block b with state := .sealed, order := s.fresh, seq := (w.node n).seq } with
        nodes := w.nodes.modify n (fun x => { x with seq := x.seq + 1 }) })).tick).checkReady i b

/-- The block of a node that takes its next record, of one producer at level 1 and above (R90, R95). -/
def WInst.openBlock (w : WInst) (node : Nat) (prod : Option Nat) : Option Nat :=
  (w.blocks.find? (fun b => b.2.state == .opened && b.2.node == node && b.2.producer == prod)).map Prod.fst

/-- The block that a node opens next: the lowest FREE one, or the lowest set aside for the producer (R91, R95). -/
def WInst.nextBlock (w : WInst) (prod : Option Nat) : Option Nat :=
  match prod with
  | none => w.freeBlocks.head?
  | some t => (List.range w.nblocks).find? (fun b => (w.block b).state == .free && (w.block b).producer == some t)

/-- One record's position taken in a node, in a block given (R90). -/
def State.takeSlot (s : State) (i node : Nat) (prod : Option Nat) (b : Nat) : State × Nat :=
  let w := s.inst i
  let x := w.block b
  let x : Block := if x.state == .opened then x else { state := .opened, node := node, producer := prod }
  let s1 := s.modInst i (fun w => w.putBlock b { x with count := x.count + 1 })
  (if (w.node node).batch ≤ x.count + 1 then s1.sealBlock i b else s1,
    w.blockBase b + x.count * (w.node node).recBytes)

/-- A run of positions reserved in a node, or nothing where no block is left (R90, R94). -/
def State.reserveRun (i node : Nat) (prod : Option Nat) : Nat → State → Option (State × List Nat)
  | 0, s => some (s, [])
  | k + 1, s =>
    match (s.inst i).openBlock node prod <|> (s.inst i).nextBlock prod with
    | none => none
    | some b =>
      (State.reserveRun i node prod k (s.takeSlot i node prod b).1).map
        (fun r => (r.1, (s.takeSlot i node prod b).2 :: r.2))

/-- The OPEN blocks of an instance that hold an allocation sealed, since a reservation finds the pool dry (R91). -/
def State.drySeal (s : State) (i : Nat) : State :=
  ((s.inst i).blocks.filter (fun b => b.2.state == .opened && decide (1 ≤ b.2.count))).foldl
    (fun s b => s.sealBlock i b.1) s

/-- A record committed (R91, R100). -/
def State.commitRec (s : State) (i addr : Nat) : State :=
  let w := s.inst i
  let b := (addr - w.pool) / 2 ^ w.blklog
  let x := w.block b
  let slot := (addr - w.blockBase b) / (w.node x.node).recBytes
  (s.modInst i (fun w => w.putBlock b
    { x with commits := NatSet.insert x.commits slot, first := some (x.first.getD s.now) })).checkReady i b

/-! ### Instances -/

/-- Whether the producers of a node are done (R91). -/
def WInst.producersDone (w : WInst) (n : Nat) : Bool :=
  (w.entryDone || !natBit (w.node w.entry).targets n)
    && w.blocks.all (fun b => b.2.state == .free || !natBit (w.node b.2.node).targets n)

/-- A node whose producers are done has its OPEN blocks sealed, or freed where they hold nothing (R91). -/
def State.closeNode (i : Nat) (s : State) (n : Nat) : State :=
  if (s.inst i).producersDone n then
    ((s.inst i).blocks.filter (fun b => b.2.state == .opened && b.2.node == n)).foldl
      (fun s b => if b.2.count = 0 then s.modInst i (fun w => w.putBlock b.1 {}) else s.sealBlock i b.1) s
  else s

/-- The nodes of an instance, shallowest first. -/
def WInst.byDepth (w : WInst) : List Nat :=
  ((List.range 64).map (fun d => (List.range w.nodes.length).filter (fun n => (w.node n).depth == d))).flatten

/-- The entry launch of an instance that runs. -/
def WInst.entryLaunch (w : WInst) (i : Nat) : Launch :=
  let nd := w.node w.entry
  { src := .entry i, part := w.part, ctx := w.ctx, queue := w.queue, die := w.die, prio := w.prio, realtime := w.realtime
    det := w.det, trapen := w.trapen, code := nd.code, obj := nd.obj, hobj := nd.hobj, helm := nd.helm
    x := w.x, y := w.y, z := w.z, args := w.args, map := nd.map }

/-- The scheduler of an instance as an engine. -/
def State.instEng (s : State) (i : Nat) : Eng :=
  { unit := queueTransUnit (s.inst i).die, part := (s.inst i).part, ctx := (s.inst i).ctx, who := 2 ^ 42 + i
    die := (s.inst i).die }

/-- Whether an instance is complete but for its DONE write (R89). -/
def State.instOver (s : State) (i : Nat) : Bool :=
  (s.inst i).running && (s.inst i).entryDone && (s.inst i).blocks.all (fun b => b.2.state == .free)
    && !s.launches.any (fun l => l.2.src.inst? == some i)

/-- A held launch of an instance starts (R87): its entry launch, which is complete at once where it has no team. -/
def State.startInst (s : State) (i : Nat) : State :=
  let l := (s.inst i).entryLaunch i
  if l.teams = 0 then s.modInst i (fun w => { w with running := true, entryDone := true })
  else (s.modInst i (fun w => { w with running := true })).addLaunch l

/-- The next held launch of the same instance. -/
def State.heldAfter (s : State) (w : WInst) : Option Nat :=
  (s.insts.find? (fun x => !x.2.running && x.2.part == w.part && x.2.ctx == w.ctx && x.2.addr == w.addr)).map Prod.fst

/-- An instance that is over stores DONE, or raises WGDONE where it cannot, and leaves (R89); launches held behind it
start. `fuel` bounds the launches of no team that end at once. -/
def State.finishInst : Nat → State → Nat → State
  | 0, s, _ => s
  | fuel + 1, s, i =>
    if !s.instOver i then s
    else
      let w := s.inst i
      let leave := fun (s : State) =>
        let s := { (s.engDone (s.instEng i)) with insts := Tab.erase s.insts i }
        match s.heldAfter w with
        | none => s
        | some j => State.finishInst fuel (s.startInst j) j
      if w.doneAddr = 0 then leave s
      else match s.engWrite (s.instEng i) w.doneAddr (leBytes 8 w.doneVal) with
        | .ok s' => leave s'
        | .wait s' => s'
        | .bad r _ => leave (s.ctxEvent w.part w.ctx 10 r w.doneAddr)
        | .ue => leave (s.engPoison (s.instEng i) 0xFFFF)

/-- What an instance comes to after a change (R89, R91): nodes whose producers are done, and its end. -/
def State.settleInst (s : State) (i : Nat) : State :=
  if (Tab.get? s.insts i).isNone || !(s.inst i).running then s
  else State.finishInst 64 ((s.inst i).byDepth.foldl (State.closeNode i) s) i

/-! ### The instructions -/

/-- The instance and node of a group (R88), or nothing outside a work graph. -/
def State.groupNode (s : State) (g : Group) : Option (Nat × Nat) :=
  match (s.launch (s.team g.team).launch).src with
  | .entry i => some (i, (s.inst i).entry)
  | .block i n _ => some (i, n)
  | .node | .batch _ _ => none

/-- Whether a node may be named by another's groups (R85, R97). -/
def WInst.targetOk (w : WInst) (own n : Nat) : Bool := decide (n < w.nodes.length) && natBit (w.node own).targets n

/-- The producer that a group's reservations are charged to: none at level 0 (R95). -/
def Group.producer (g : Group) : Option Nat := if g.detlevel = 0 then none else some g.team

/-- A group's reservation that is not possible (R91, R94, R95): at level 1 it is RECPOOL(6); else the pool is sealed and
the group waits in order. -/
def State.dry (s : State) (i : Nat) (g : Group) (lane : Nat) : Eff :=
  if 1 ≤ g.detlevel then .raise .recpool (laneInfo 6 lane)
  else
    .held ((s.drySeal i).modInst i (fun w =>
      { w with waiting := if w.waiting.contains s.curId then w.waiting else w.waiting ++ [s.curId] })) .room

/-- A reservation turned to its group's use: it no longer waits. -/
def State.served (s : State) (i : Nat) (id : Nat) : State :=
  s.modInst i (fun w => { w with waiting := w.waiting.filter (· != id) })

/-- Whether an earlier group of the instance waits for a block (R94). -/
def State.behind (s : State) (i : Nat) (id : Nat) : Bool :=
  match (s.inst i).waiting with
  | [] => false
  | h :: _ => h != id

/-- An operation that commits records, counted in cw; it follows the group's earlier accesses (R100). -/
def State.startCommit_ (s : State) (g : Group) (i : Nat) (recs : List (Nat × List Byte)) : State :=
  ((s.markWrote g.team).modTeam g.team (fun t => { t with committed := true })).startOp
    { group := s.curId, part := g.part, ctx := g.ctx, pc := g.slotPc, body := .commit i recs, counter := some 0
      after := s.releaseOps s.curId .dev } []

def execSpawn (o : Slot) (n : BitVec 3) (s : State) : Host.Outcome State Fault Refusal :=
  issue (.spawn o n) s fun g ls s =>
    let b := (g.value o.b (ls.headD 0)).toNat
    match s.groupNode g with
    | none => .raise .recpool (laneInfo 1 (ls.headD 0))
    | some (i, own) =>
      let w := s.inst i
      if !w.targetOk own b then .raise .recpool (laneInfo 2 (ls.headD 0))
      else if (w.node b).recBytes < 4 * (n.toNat + 1) then .raise .recpool (laneInfo 3 (ls.headD 0))
      else if 1 ≤ g.detlevel && !s.clockLeast s.curId then .hold .clock
      else if s.behind i s.curId then .hold .room
      else match State.reserveRun i b g.producer ls.length s with
        | none => s.dry i g (ls.headD 0)
        | some (s1, as) =>
          withRoom g none (some 0)
            (.done (((s1.served i s.curId)).startCommit_ g i ((as.zip ls).map (fun x =>
              (x.1, leBytes (w.node b).recBytes (wordsNat (g.valueRun o.a (n.toNat + 1) x.2)))))))

/-- The records of RECALLOC reserved lane by lane, ascending (R99). -/
def recallocRun (i : Nat) (prod : Option Nat) (node : Nat → Nat) : List Nat → State → Option (State × List (Nat × Nat))
  | [], s => some (s, [])
  | l :: ls, s =>
    match State.reserveRun i (node l) prod 1 s with
    | some (s1, [a]) => (recallocRun i prod node ls s1).map (fun r => (r.1, (l, a) :: r.2))
    | _ => none

def execRecalloc (o : Slot) (s : State) : Host.Outcome State Fault Refusal :=
  issue (.recalloc o) s fun g ls s =>
    let node := fun l => (g.value o.a l).toNat
    match s.groupNode g, (Instr.recalloc o).form with
    | none, _ => .raise .recpool (laneInfo 1 (ls.headD 0))
    | some _, none => .done s
    | some (i, own), some f =>
      match ls.find? (fun l => !(s.inst i).targetOk own (node l)) with
      | some l => .raise .recpool (laneInfo 2 l)
      | none =>
        if 1 ≤ g.detlevel && !s.clockLeast s.curId then .hold .clock
        else if s.behind i s.curId then .hold .room
        else match recallocRun i g.producer node ls s with
          | none => s.dry i g (ls.headD 0)
          | some (s1, as) =>
            withRoom g (g.slotFlag o) none
              (.done ((((s1.served i s.curId).putCur
                { g with recs := g.recs ++ as.map (fun x => (node x.1, x.2)) })).startResults
                { g with recs := g.recs ++ as.map (fun x => (node x.1, x.2)) } o f .engine 2 none
                (as.map (fun x => { lane := x.1, bytes := leBytes 8 x.2 }))))

/-- The lowest lane that RECCOMMIT refuses, with its sub-code: a record not allocated by the group and uncommitted, or one
named by a lower lane (R100, R101). -/
def commitFate (recs : List Nat) : List (Nat × Nat) → List Nat → Option (Nat × Nat)
  | [], _ => none
  | (l, a) :: rest, seen =>
    if seen.contains a then some (5, l)
    else if !recs.contains a then some (4, l)
    else commitFate recs rest (a :: seen)

def execReccommit (o : Slot) (s : State) : Host.Outcome State Fault Refusal :=
  issue (.reccommit o) s fun g ls s =>
    let as := ls.map (fun l => (l, (g.value64 o.a l).toNat))
    match s.groupNode g with
    | none => .raise .recpool (laneInfo 1 (ls.headD 0))
    | some (i, _) =>
      match commitFate (g.recs.map Prod.snd) as [] with
      | some (sub, l) => .raise .recpool (laneInfo sub l)
      | none =>
        let g1 := { g with recs := g.recs.filter (fun r => !(as.map Prod.snd).contains r.2) }
        withRoom g none (some 0) (.done ((s.putCur g1).startCommit_ g1 i (as.map (fun x => (x.2, [])))))

/-- Records written and committed, once the group's earlier accesses are complete: part of WRITE_ACKNOWLEDGED (R97,
R100). A write that is refused is charged to the group, and its record is committed as it stands. -/
def State.commitDone (s : State) (id : Nat) (op : Op) (i : Nat) (recs : List (Nat × List Byte)) : State :=
  let g := s.group op.group
  let write := fun (s : State) (r : Nat × List Byte) =>
    if r.2.isEmpty then s
    else match s.writeRange g.unit g.part g.ctx r.1 r.2 with
      | .ok s' => s'
      | .error (.bad c reason va) => s.engineFault op.group op.pc c (BitVec.ofNat 32 reason) va
      | .error (.miss _) => s
  match recs.findSome? (fun r => if r.2.isEmpty then none
      else match s.writeRange g.unit g.part g.ctx r.1 r.2 with
        | .error (.miss p) => some p
        | _ => none), s.answerOf id 0 with
  | some _, .wait => s
  | some p, .go =>
    if (s.func op.part).prqBase = 0 then (s.engineFault op.group op.pc .nomap 3 p.va).finishOp id
    else s.engineRequest op.group op.pc id 0 p
  | some p, .fail => ((s.clearRequests id 0).engineFault op.group op.pc .nomap 1 p.va).finishOp id
  | none, _ =>
    ((recs.foldl (fun s r => (write s r).commitRec i r.1) (s.clearRequests id 0)).finishOp id).settleInst i

/-! ### LAUNCH of an instance -/

/-- The launches of a group still counted in cw (R98). -/
def State.launchesOf (s : State) (id : Nat) : Nat :=
  ((s.groupOps id).filter (fun x => match x.2.body with
    | .launchQ _ _ _ _ | .launchWg _ => true
    | _ => false)).length

/-- The instance launches of a die for a partition, with those on their way (R87). -/
def State.instCount (s : State) (part die : Nat) : Nat :=
  (s.insts.filter (fun x => x.2.part == part && x.2.die == die)).length
    + (s.ops.filter (fun x => x.2.part == part && coreDie (s.group x.2.group).core == die
        && (match x.2.body with
          | .launchWg _ => true
          | _ => false))).length

def execLaunchWg (o : Slot) (s : State) : Host.Outcome State Fault Refusal :=
  issue (.launchWg o) s fun g ls s =>
    let a := (g.value64 o.a (ls.headD 0)).toNat
    if a % 64 ≠ 0 then .raise .align (laneInfo 0x20 0) a
    else match s.readRange g.unit g.part g.ctx a 64 with
      | .error (.bad c r va) => .raise c (laneInfo r 0) va
      | .error (.miss p) => .miss p
      | .ok bs =>
        if 4 ≤ s.launchesOf s.curId ∨ 64 ≤ s.instCount g.part (coreDie g.core) then .hold .room
        else withRoom g none (some 0)
          (.done (if (s.team g.team).copyOf.isSome then s
            else (s.markWrote g.team).startOp
              { group := s.curId, part := g.part, ctx := g.ctx, pc := g.slotPc, body := .launchWg bs, counter := some 0 }
              []))

/-- Why a launch is refused: the code and sub-code of R83. -/
abbrev Refuse := Nat × Nat

/-- A check of a work graph or a graph: passed, refused, or waiting for a page. -/
inductive Verdict (α : Type)
  | ok (a : α)
  | no (r : Refuse)
  | wait (s : State)

def Verdict.andThen {α β : Type} (x : Verdict α) (f : α → Verdict β) : Verdict β :=
  match x with
  | .ok a => f a
  | .no r => .no r
  | .wait s => .wait s

/-- An access of a check, its failure refused with a code: NOMAP with its reason, or another code. -/
def Got.verdict {α : Type} (x : Got α) (code : Nat) : Verdict α :=
  match x with
  | .ok a => .ok a
  | .wait s => .wait s
  | .bad r _ => .no (code, if code = 6 then r else 0)
  | .ue => .no (code, 0)

/-- A condition of a check. -/
def require (b : Bool) (code sub : Nat) : Verdict Unit := if b then .ok () else .no (code, sub)

/-- A checked object or map, its refusal under a code. -/
def Checked.verdict {α : Type} (x : Checked α) (code : Nat) : Verdict α :=
  match x with
  | .ok a => .ok a
  | .refused n => .no (code, n)

/-- Every element of a list checked in turn. -/
def checkAll {α β : Type} (f : α → Verdict β) : List α → Verdict (List β)
  | [] => .ok []
  | a :: rest => (f a).andThen fun b => (checkAll f rest).andThen fun bs => .ok (b :: bs)

/-- A node entry of a work graph as it is read, and whether its own fields are legal (R85, R86). -/
def parseWNode (bs : List Byte) : WNode × Bool :=
  let kind := objNat bs 0 1
  let n : WNode :=
    { entry := kind == 1, helm := objNat bs 1 1 == 1, depth := objNat bs 2 1, recBytes := objNat bs 4 2
      batch := objNat bs 6 2, code := objNat bs 8 8, targets := objNat bs 16 8, timeout := objNat bs 24 4
      reserve := objNat bs 28 2 }
  (n, (kind == 1 || kind == 2) && decide (objNat bs 1 1 ≤ 1) && objNat bs 3 1 == 0 && objNat bs 30 2 == 0
    && objNat bs 40 24 == 0
    && (if kind = 1 then n.depth == 0 && n.recBytes == 0 && n.batch == 0
      else decide (1 ≤ n.depth) && decide (n.depth ≤ 63) && n.recBytes % 16 == 0 && decide (16 ≤ n.recBytes)
        && decide (n.recBytes ≤ 4096) && decide (1 ≤ n.batch)))

/-- The conditions of R86 between the nodes of a graph. -/
def wnodesOk (ns : List WNode) (entry blklog nblocks det : Nat) : Bool :=
  (ns.zipIdx.all (fun x => x.1.entry == (x.2 == entry)))
    && ns.all (fun n => n.entry || decide (n.batch * n.recBytes ≤ 2 ^ blklog))
    && ns.all (fun n => (List.range 64).all (fun k => !natBit n.targets k
        || (decide (k < ns.length) && !(ns.getD k {}).entry && decide (n.depth < (ns.getD k {}).depth))))
    && (det == 0 || ns.all (fun n => n.targets == 0
        || (decide (1 ≤ n.reserve) && decide (n.reserve ≤ 256) && decide (n.reserve ≤ nblocks))))

/-- A node with its code object and placement map checked (R86). -/
def State.checkWNode (s : State) (e : Eng) (det : Nat) (realtime : Bool) (x : WNode × Nat) : Verdict WNode :=
  ((s.checkObjs e x.1.code det x.1.helm).verdict 6).andThen fun c => (c.verdict 3).andThen fun os =>
    (require (x.1.entry || decide (x.1.batch ≤ poolLanes x.1.helm * os.1.groupCount)) 2 0).andThen fun _ =>
      ((s.checkMap e x.2 det x.1.helm realtime os.1).verdict 6).andThen fun m => (m.verdict 5).andThen fun m =>
        .ok { x.1 with obj := os.1, hobj := os.2, map := m }

/-- The whole check of a launch packet and its instance (R23, R86). -/
def State.checkWg (s : State) (e : Eng) (q : Queue) (queue det : Nat) (pkt : List Byte) : Verdict WInst :=
  let wg := objNat pkt 0 8
  let x := objNat pkt 8 4
  let y := objNat pkt 12 4
  let z := objNat pkt 16 4
  (require (objNat pkt 20 4 == 0 && objNat pkt 32 32 == 0 && wg % 64 == 0) 2 0).andThen fun _ =>
  ((s.engRead e wg 64).verdict 2).andThen fun h =>
  let nn := objNat h 4 2
  let entry := objNat h 6 2
  let pool := objNat h 8 8
  let nblocks := objNat h 16 4
  let blklog := objNat h 20 1
  (require (objNat h 0 4 == 0x48574752 && decide (1 ≤ nn) && decide (nn ≤ 64) && decide (entry < nn)) 2 0).andThen fun _ =>
  ((s.engRead e (wg + 64) (64 * nn)).verdict 2).andThen fun body =>
  let ps := (List.range nn).map (fun k => (parseWNode ((body.drop (64 * k)).take 64), objNat body (64 * k + 32) 8))
  (require (decide (12 ≤ blklog) && decide (blklog ≤ 16) && decide (2 ≤ nblocks) && decide (nblocks ≤ 65536)
    && pool % 2 ^ blklog == 0) 2 0).andThen fun _ =>
  ((s.mapped e pool (nblocks * 2 ^ blklog) true).verdict 6).andThen fun _ =>
  (require (objNat h 22 2 == 0 && objNat h 40 24 == 0 && decide (2 ≤ objNat h 21 1) && decide (objNat h 21 1 ≤ 4)
    && objNat h 24 8 % 8 == 0 && ps.all (fun p => p.1.2)
    && wnodesOk (ps.map (fun p => p.1.1)) entry blklog nblocks det) 2 0).andThen fun _ =>
  (checkAll (fun p => s.checkWNode e det q.realtime (p.1.1, p.2)) ps).andThen fun nodes =>
  (require (decide (x * y * z ≤ 2 ^ 40)) 4 0).andThen fun _ =>
  ((s.engRead e (objNat pkt 24 8) ((nodes.getD entry {}).obj.argBytes)).verdict 6).andThen fun args =>
  .ok { part := e.part, ctx := e.ctx, queue := queue, die := e.die, prio := q.prio, realtime := q.realtime, det := det
        trapen := q.trapen, addr := wg, scope := objNat h 21 1, pool := pool, nblocks := nblocks, blklog := blklog
        doneAddr := objNat h 24 8, doneVal := objNat h 32 8, nodes := nodes, entry := entry, x := x, y := y, z := z
        args := args }

/-- WG_LAUNCH_ACCEPT: the scheduler of the issuing group's die checks a launch packet and accepts or refuses it; an
instance that is pending holds the launch (R86, R87). -/
def execWgLaunchAccept (op : Nat) (s : State) : Host.Outcome State Fault Refusal :=
  match Tab.get? s.ops op with
  | none => .next s
  | some x =>
    match x.body with
    | .launchWg pkt =>
      let g := s.group x.group
      let e : Eng := { unit := queueTransUnit (coreDie g.core), part := x.part, ctx := x.ctx, who := op
                       die := coreDie g.core }
      if (s.func x.part).halted || (s.context x.part x.ctx).saved then .next s
      else match s.checkWg e (s.queue x.part g.queue) g.queue g.detlevel pkt with
        | .wait s' => .next s'
        | .no (c, sub) => .next (((s.engDone e).ctxEvent x.part x.ctx 1 (c + 65536 * sub) 0).finishOp op)
        | .ok w =>
          let s1 := (s.engDone e).finishOp op
          let i := s1.fresh
          let pending := s1.insts.any (fun y => y.2.part == w.part && y.2.ctx == w.ctx && y.2.addr == w.addr)
          let s2 : State := { s1 with insts := Tab.put s1.insts i w }.tick
          .next (if pending then s2 else (s2.startInst i).settleInst i)
    | _ => .next s

/-- BLOCK_TIMEOUT_SEAL: an OPEN block is sealed when its node's TIMEOUT has passed since its first commit, at level 0
(R91, R95). -/
def execBlockTimeoutSeal (inst node block : Nat) (s : State) : Host.Outcome State Fault Refusal :=
  let w := s.inst inst
  let b := w.block block
  match b.first with
  | none => .next s
  | some m =>
    if b.state ≠ .opened ∨ b.node ≠ node ∨ w.det ≠ 0 ∨ (w.node node).timeout = 0 ∨ s.now - m < (w.node node).timeout
        ∨ (s.context w.part w.ctx).saved ∨ (s.func w.part).halted then .next s
    else .next ((s.sealBlock inst block).settleInst inst)

/-! ### CLASSIFY -/

def execClassify (o : Slot) (clus : Bool) (s : State) : Host.Outcome State Fault Refusal :=
  issue (.classify o clus) s fun g ls s =>
    let tile := (g.value o.a (ls.headD 0)).toNat
    let desc := (g.value64 o.b (ls.headD 0)).toNat
    let lvl : Lvl := if clus then .clus else .core
    match s.rangeFate (s.team g.team) lvl [⟨0, tile, 16384⟩] <|> (s.team g.team).scratchDet lvl false [⟨0, tile, 16384⟩] with
    | some e => e
    | none =>
      if tile % 16 ≠ 0 ∨ desc % 32 ≠ 0 then .raise .align 0x37
      else match s.groupNode g with
        | none => .raise .recpool 1
        | some _ =>
          if 1 ≤ g.detlevel && !s.clockLeast s.curId then .hold .clock
          else withRoom g none (some 4)
            (.done (((s.markWrote g.team).modTeam g.team (fun t => { t with committed := true })).startOp
              { group := s.curId, part := g.part, ctx := g.ctx, pc := g.slotPc, body := .classify lvl tile desc none
                counter := some 4, after := s.releaseOps s.curId .dev } []))

/-- Reads of the classifier in virtual memory: bytes, a refusal, or a page. -/
abbrev Reads (α : Type) := Except Refused α

/-- The node of one sample: its material through the instance and meshlet tables, or NOPRIM (R313). -/
def State.classifySample (s : State) (g : Group) (d : List Byte) (sample : List Byte) : Reads Nat :=
  let rd := fun va n => (s.readRange g.unit g.part g.ctx va n).map leNat
  let prim := objNat sample 0 8
  let inst := natField prim 63 40
  let mesh := natField prim 39 16
  let nodeOf := fun (m : Nat) => rd (objNat d 16 8 + m) 1
  if prim = 2 ^ 64 - 1 then .ok (objNat d 14 1)
  else if objNat d 8 4 ≤ inst then nodeOf (objNat d 12 2)
  else
    match s.readRange g.unit g.part g.ctx (objNat d 0 8 + 16 * inst) 16 with
    | .error e => .error e
    | .ok ent =>
      if objNat ent 8 4 ≤ mesh then nodeOf (objNat d 12 2)
      else match rd (objNat ent 0 8 + 2 * mesh) 2 with
        | .error e => .error e
        | .ok m => nodeOf m

/-- Every sample of a tile with its node, in ascending offset. -/
def State.classifyAll (s : State) (g : Group) (d : List Byte) : List (List Byte) → Reads (List (Nat × List Byte))
  | [] => .ok []
  | x :: rest =>
    match s.classifySample g d x with
    | .error e => .error e
    | .ok n => (s.classifyAll g d rest).map (fun r => (n, x) :: r)

/-- The records of a classified tile by node, ascending; node 0xFF drops its samples. -/
def byNode (xs : List (Nat × List Byte)) : List (Nat × List (List Byte)) :=
  ((List.range 255).map (fun n => (n, (xs.filter (fun x => x.1 == n)).map Prod.snd))).filter (fun x => !x.2.isEmpty)

/-- The records of one node reserved, written and committed (R313): the state, or the fault, or a page, or a dry pool. -/
def State.classifyNode (s : State) (op : Op) (i own n : Nat) (xs : List (List Byte)) : RowRes State :=
  let g := s.group op.group
  let w := s.inst i
  let fault := fun (sub : Nat) => RowRes.status sub (s.engineFault op.group op.pc .recpool (BitVec.ofNat 32 sub))
  if !w.targetOk own n then fault 2
  else if (w.node n).recBytes < 16 then fault 3
  else match State.reserveRun i n g.producer xs.length s with
    | none => if 1 ≤ g.detlevel then fault 6 else .wait (s.drySeal i)
    | some (s1, as) =>
      (as.zip xs).foldl (fun r x =>
        match r with
        | .ok s =>
          (match s.writeRange g.unit g.part g.ctx x.1 (x.2 ++ leBytes ((w.node n).recBytes - 16) 0) with
          | .ok s' => .ok (s'.commitRec i x.1)
          | .error (.miss p) => .miss p
          | .error (.bad c r va) => .status 1 (s.engineFault op.group op.pc c (BitVec.ofNat 32 r) va))
        | e => e) (.ok s1)

/-- CLASSIFY_COMPLETE: the classifier reads the tile once every sample is full and the earlier accesses of the group are
complete, then reserves, writes and commits the records node by node; cx falls after the last (R313). -/
def execClassifyComplete (op : Nat) (s : State) : Host.Outcome State Fault Refusal :=
  match Tab.get? s.ops op with
  | none => .next s
  | some x =>
    let g := s.group x.group
    let page := fun (s : State) (p : PageRec) =>
      if (s.func x.part).prqBase = 0 then (s.engineFault x.group x.pc .nomap 3 p.va).finishOp op
      else s.engineRequest x.group x.pc op 0 p
    match x.body, s.groupNode g with
    | .classify lvl tile desc none, some _ =>
      let accs := (List.range 1024).map (fun k => (⟨0, tile + 16 * k, 16⟩ : Acc))
      if !(s.pendingOps x.after).isEmpty then .next s
      else match s.answerOf op 0 with
        | .wait => .next s
        | .fail => .next (((s.clearRequests op 0).engineFault x.group x.pc .nomap 1 desc).finishOp op)
        | .go =>
          let s := s.clearRequests op 0
          match s.standingFate g.team lvl (FeLd.standing .full) accs with
          | some (.held s' _) => .next s'
          | some _ => .next s
          | none =>
            if s.readsPoison (accs.map (fun a => s.accKeys g.team lvl a)).flatten then
              .next ((s.consumeUE x.group x.pc true).finishOp op)
            else match s.readRange g.unit g.part g.ctx desc 32 with
              | .error (.miss p) => .next (page s p)
              | .error (.bad c r va) => .next ((s.engineFault x.group x.pc c (BitVec.ofNat 32 r) va).finishOp op)
              | .ok d =>
                match s.classifyAll g d (accs.map (fun a => s.scratchRead g.team lvl a.a 16)) with
                | .error (.miss p) => .next (page s p)
                | .error (.bad c r va) => .next ((s.engineFault x.group x.pc c (BitVec.ofNat 32 r) va).finishOp op)
                | .ok xs =>
                  .next ((s.applyStanding g.team lvl (FeLd.standing .full) accs).modOp op
                    (fun y => { y with body := .classify lvl tile desc (some (byNode xs)) }))
    | .classify _ _ _ (some []), _ => .next (s.finishOp op)
    | .classify lvl tile desc (some ((n, xs) :: rest)), some (i, own) =>
      (match s.answerOf op 0 with
      | .wait => .next s
      | .fail => .next (((s.clearRequests op 0).engineFault x.group x.pc .nomap 1).finishOp op)
      | .go =>
        match (s.clearRequests op 0).classifyNode x i own n xs with
        | .ok s1 =>
          .next ((if rest.isEmpty then s1.finishOp op
            else s1.modOp op (fun y => { y with body := .classify lvl tile desc (some rest) })).settleInst i)
        | .status _ s' => .next (s'.finishOp op)
        | .miss p => .next (page s p)
        | .wait s' => .next s')
    | _, _ => .next s

end Sys2Proof.Machine
end

