-- ==== Sys2Proof/Machine/Queues.lean ====
section
/-!
DEFINITION. Contexts and queues: the queue-control commands, the kick page, the walk of a graph by a queue engine, and
launch.q (R55, R56, R68 to R84, R98, R108 to R110, R456).
-/

namespace Sys2Proof.Machine

/-- The state with a queue changed, where it is listed. -/
def State.modQueue (s : State) (part q : Nat) (f : Queue → Queue) : State :=
  { s with queues := Tab.modify s.queues (1024 * part + q) f }

/-! ### Queue-control commands -/

/-- A write to CMD with an opcode (R69): the command begins, with ARG as it stands, unless one is in progress. -/
def State.queueCommand (s : State) (part opc : Nat) (cmd : Word) : State :=
  if natField cmd.toNat 3 0 ≠ opc ∨ (s.func part).qCmd.isSome then s
  else s.modFunc part (fun f => { f with qCmd := some (cmd, f.qArg) })

/-- CREATE_CONTEXT (R68). -/
def execCreateContext (part : Nat) (cmd : Word) (s : State) : Host.Outcome State Fault Refusal :=
  .next (s.queueCommand part 1 cmd)
/-- DESTROY_CONTEXT (R69). -/
def execDestroyContext (part : Nat) (cmd : Word) (s : State) : Host.Outcome State Fault Refusal :=
  .next (s.queueCommand part 2 cmd)
/-- CREATE_QUEUE (R71). -/
def execCreateQueue (part : Nat) (cmd : Word) (s : State) : Host.Outcome State Fault Refusal :=
  .next (s.queueCommand part 3 cmd)
/-- DESTROY_QUEUE (R69). -/
def execDestroyQueue (part : Nat) (cmd : Word) (s : State) : Host.Outcome State Fault Refusal :=
  .next (s.queueCommand part 4 cmd)

/-- What a command or a check comes to so far: a value, a refusal with its RESULT, a page request that is not answered,
or an uncorrectable error. -/
inductive Cmd (α : Type)
  | ok (a : α)
  | refused (result : Nat)
  | wait (s : State)
  | ue

def Cmd.andThen {α β : Type} (x : Cmd α) (f : α → Cmd β) : Cmd β :=
  match x with
  | .ok a => f a
  | .refused n => .refused n
  | .wait s => .wait s
  | .ue => .ue

/-- An access of a command, refused with a RESULT where it fails. -/
def Got.cmd {α : Type} (x : Got α) (result : Nat) : Cmd α :=
  match x with
  | .ok a => .ok a
  | .wait s => .wait s
  | .bad _ _ => .refused result
  | .ue => .ue

/-- A condition of a command: its RESULT where it does not hold. -/
def demand (b : Bool) (result : Nat) : Cmd Unit := if b then .ok () else .refused result

/-- A context's decode table read and checked (R56). -/
def State.readTable (s : State) (e : Eng) (va : Nat) : Cmd (Option (List Word)) :=
  if va = 0 then .ok none
  else (demand (va % 4096 == 0) 1).andThen fun _ => ((s.engRead e va 4096).cmd 1).andThen fun bs =>
    let ws := (List.range 1024).map (fun k => BitVec.ofNat 32 (objNat bs (4 * k) 4))
    let bad := fun (x : Word × Nat) => natField x.1.toNat 30 10 != 0
      || (x.2 != 0x3FF && natBit x.1.toNat 31 && !isOperation (natField x.1.toNat 9 0))
    if ws.zipIdx.any bad then .refused 1 else .ok (some ws)

/-- One handler entry, refused where it breaks R108. -/
def parseHandler (bs : List Byte) : Option Handler :=
  let flags := objNat bs 8 1
  let h : Handler := { code := objNat bs 0 8, valid := natBit flags 0, helm := natBit flags 1, maxSb := objNat bs 9 1
                       maxPw := objNat bs 10 1 }
  if decide (4 ≤ flags) || objNat bs 11 5 != 0
      || (h.valid && (decide (8 < h.maxSb) || decide (h.maxPw < 1) || decide (8 < h.maxPw))) then none
  else some h

/-- One window descriptor, refused where it breaks R110. -/
def parseWindow (bs : List Byte) : Option Window :=
  let w : Window := { base := objNat bs 0 8, size := objNat bs 8 8, src := natBit (objNat bs 16 1) 0
                      dst := natBit (objNat bs 16 1) 1 }
  if w.base % 128 != 0 || w.size % 128 != 0 || decide (w.size < 128) || decide (2 ^ 40 < w.size)
      || decide (4 ≤ objNat bs 16 1) || objNat bs 17 15 != 0 then none
  else some w

/-- Consecutive pieces of `n` bytes. -/
def pieces (n count : Nat) (bs : List Byte) : List (List Byte) :=
  (List.range count).map (fun k => (bs.drop (n * k)).take n)

/-- A context's handler table and window table read and checked (R108, R110). -/
def State.readHandlers (s : State) (e : Eng) (va : Nat) : Cmd (List Handler × Nat × List Window) :=
  if va = 0 then .ok ([], 0, [])
  else (demand (va % 64 == 0) 4).andThen fun _ => ((s.engRead e va 64).cmd 4).andThen fun h =>
    let count := objNat h 4 4
    let inq := objNat h 8 8
    let wintab := objNat h 16 8
    let wincount := objNat h 24 2
    (demand (objNat h 0 4 == 0x4C444E48 && objNat h 26 38 == 0 && decide (count ≤ 65536) && inq % 64 == 0
        && wintab % 64 == 0 && decide (wincount ≤ 256) && (wintab != 0 || wincount == 0)) 4).andThen fun _ =>
    ((s.engRead e (va + 64) (16 * count)).cmd 4).andThen fun hb =>
    ((s.engRead e wintab (32 * wincount)).cmd 4).andThen fun wb =>
    match allSome ((pieces 16 count hb).map parseHandler), allSome ((pieces 32 wincount wb).map parseWindow) with
    | some hs, some ws => .ok (hs, inq, ws)
    | _, _ => .refused 4

/-- The 64 bytes of a descriptor that ARG names (R69). -/
def State.descriptor (s : State) (part arg : Nat) : Cmd (List Byte) :=
  match s.rangeTarget part arg 64 with
  | .mem k | .host k =>
    if arg % 64 ≠ 0 then .refused 4
    else if s.readsPoison ((List.range 64).map (k + ·)) then .ue
    else .ok (s.bytes k 64)
  | .reg _ | .kick _ | .nothing => .refused 4

/-- The queue engine as it serves a command. -/
def State.commandEng (s : State) (part ctx die : Nat) : Eng :=
  let d := if die < 2 then die else (s.clusters part).headD 0 / 32
  { unit := queueTransUnit d, part := part, ctx := ctx, who := 2 ^ 43 + part, die := d }

/-- A context created (R56, R68, R70, R108): the new state and its number. -/
def State.createContext (s : State) (part arg : Nat) : Cmd (State × Nat) :=
  (s.descriptor part arg).andThen fun d =>
  let root := objNat d 0 8
  let traph := objNat d 24 8
  let tmpl := objNat d 40 8
  (demand (objNat d 49 15 == 0 && decide (objNat d 48 1 < 4) && root % 4096 == 0
    && (match s.rangeTarget part root 4096 with
      | .mem _ | .host _ => true
      | .reg _ | .kick _ | .nothing => false)) 4).andThen fun _ =>
  match (List.range 64).find? (fun c => !(s.context part c).live) with
  | none => .refused 3
  | some n =>
    let c : Context := { part := part, desc := arg, ptroot := root, traph := traph, seed := BitVec.ofNat 64 (objNat d 32 8)
                         isTemplate := natBit (objNat d 48 1) 0, sechk := natBit (objNat d 48 1) 1 }
    let s1 : State := { s with contexts := Tab.put s.contexts (64 * part + n) c }
    let e := s.commandEng part n 2
    let made : Cmd Context :=
      (if tmpl = 0 then
        (s1.readTable e (objNat d 8 8)).andThen fun t => (s1.readHandlers e (objNat d 16 8)).andThen fun h =>
          .ok { c with table := t, handlers := h.1, inq := h.2.1, windows := h.2.2 }
      else match (s.contexts.map Prod.snd).find? (fun x => x.live && x.part == part && x.isTemplate && x.desc == tmpl) with
        | none => .refused 2
        | some t => .ok { c with table := t.table, handlers := t.handlers, inq := t.inq, windows := t.windows })
    made.andThen fun c =>
      (demand (traph % 256 == 0) 4).andThen fun _ =>
      ((if traph = 0 then Got.ok () else s1.mapped e traph 64 false).cmd 4).andThen fun _ =>
        .ok ({ s.engDone e with contexts := Tab.put s.contexts (64 * part + n) { c with live := true } }, n)

/-- The launch.q entries held for a queue dropped, each with QDROP and reason 0 (R98). -/
def State.dropEntries (s : State) (part q : Nat) : State :=
  let x := s.queue part q
  x.held.foldl (fun s h =>
    (s.ctxEvent part x.ctx 9 (65536 * x.gen + q) h.1 (leBytes 4 h.2.1.toNat ++ [0])).finishOp h.2.2) s

/-- A queue ceases to be live; its generation is kept (R71). -/
def State.dropQueue (s : State) (part q : Nat) : State :=
  (s.dropEntries part q).modQueue part q (fun x => { gen := x.gen })

/-- Whether a queue holds an invocation (R112). -/
def Inbound.busy (b : Inbound) : Bool := !b.waiting.isEmpty || b.slots.any (fun l => l.2.state != .free)

/-- The indexes of a context's queues. -/
def State.contextQueues (s : State) (part ctx : Nat) : List Nat :=
  (List.range 1024).filter (fun q => (s.queue part q).live && (s.queue part q).ctx == ctx)

/-- A context destroyed (R69, R274, R372): its idle queues go with it. -/
def State.destroyContext (s : State) (part ctx : Nat) : Cmd State :=
  let qs := s.contextQueues part ctx
  (demand (s.context part ctx).live 4).andThen fun _ =>
  (demand (qs.all (fun q => (s.queue part q).state == .idle && !(s.queue part q).inb.busy)) 5).andThen fun _ =>
  let s1 := qs.foldl (fun s q => s.dropQueue part q) s
  .ok { s1 with
    contexts := Tab.erase s1.contexts (64 * part + ctx)
    barObjs := s1.barObjs.map (fun b =>
      if b.2.held && b.2.part == part && b.2.ctx == ctx then (b.1, b.2.freed) else b)
    grants := s1.grants.filter (fun g => !(g.1 % 64 == ctx && g.1 / 4096 == part)) }

/-- The inbound settings of a new queue (R109). -/
def State.readInbound (s : State) (e : Eng) (inq q : Nat) : Cmd Inbound :=
  if inq = 0 then .ok {}
  else ((s.engRead e (inq + 64 * q) 64).cmd 4).andThen fun b =>
    let hw := objNat b 2 2
    let rs := objNat b 4 4
    let land := objNat b 8 8
    let ring := objNat b 16 8
    (demand (decide (objNat b 0 1 < 2) && objNat b 1 1 == 0 && objNat b 24 40 == 0) 4).andThen fun _ =>
    if objNat b 0 1 = 0 then .ok {}
    else
      (demand ((List.range 9).any (fun k => hw == 2 ^ (k + 4)) && (List.range 13).any (fun k => rs == 2 ^ (k + 4))
        && land % 4096 == 0 && ring % 4096 == 0) 4).andThen fun _ =>
      ((s.mapped e land (128 * hw) false).cmd 4).andThen fun _ => ((s.mapped e land (128 * hw) true).cmd 4).andThen fun _ =>
      ((s.mapped e ring (128 * rs) false).cmd 4).andThen fun _ => ((s.mapped e ring (128 * rs) true).cmd 4).andThen fun _ =>
      .ok { recv := true, hwdepth := hw, rsize := rs, land := land, ring := ring, last := hw - 1 }

/-- The index that a new queue takes among those given. -/
def pickIndex (fresh : Nat) (l : List Nat) : Option Nat :=
  if l.contains (Config.freeQueue fresh l) then some (Config.freeQueue fresh l) else l.head?

/-- A queue created (R71, R109): the new state and its index. -/
def State.createQueue (s : State) (part arg ctx : Nat) : Cmd (State × Nat) :=
  let c := s.context part ctx
  (demand (c.live && !c.isTemplate) 4).andThen fun _ =>
  (s.descriptor part arg).andThen fun d =>
  let ring := objNat d 0 8
  let size := objNat d 8 4
  let prio := objNat d 12 1
  let die := objNat d 15 1
  let head := objNat d 16 8
  let err := objNat d 24 8
  (demand (objNat d 32 32 == 0 && ring % 4096 == 0 && (List.range 13).any (fun k => size == 2 ^ (k + 4))
    && decide (prio ≤ 4) && decide (objNat d 13 1 ≤ 3) && decide (objNat d 14 1 ≤ 1) && decide (die ≤ 1)
    && (s.clusters part).any (fun u => u / 32 == die) && head % 8 == 0 && err % 32 == 0) 4).andThen fun _ =>
  let e := s.commandEng part ctx die
  ((s.mapped e ring (16 * size) false).cmd 4).andThen fun _ => ((s.mapped e ring (16 * size) true).cmd 4).andThen fun _ =>
  ((s.mapped e head 8 true).cmd 4).andThen fun _ => ((s.mapped e err 32 true).cmd 4).andThen fun _ =>
  match pickIndex s.fresh ((List.range 1024).filter (fun q => !(s.queue part q).live)) with
  | none => .refused 3
  | some q =>
    (s.readInbound e c.inq q).andThen fun inb =>
      let g := (s.queue part q).gen
      let x : Queue :=
        { live := true, gen := if g = 0xFFFF then 1 else g + 1, ctx := ctx, prio := if prio = 4 then 0 else prio
          realtime := prio == 4, det := objNat d 13 1, trapen := objNat d 14 1 == 1, die := die, ring := ring, size := size
          head := head, err := err, inb := inb }
      .ok ({ (s.engDone e).tick with queues := Tab.put s.queues (1024 * part + q) x }, q)

/-- A queue destroyed (R69, R98, R112). -/
def State.destroyQueue (s : State) (part q : Nat) : Cmd State :=
  let x := s.queue part q
  (demand (decide (q < 1024) && x.live) 4).andThen fun _ =>
  (demand ((x.state == .idle || x.state == .error) && !x.inb.busy) 5).andThen fun _ => .ok (s.dropQueue part q)

/-- A command carried out: the state, with the number of what it created. -/
def State.runCommand (s : State) (part : Nat) (cmd : Word) (arg : Nat) : Cmd (State × Option Nat) :=
  let target := natField cmd.toNat 31 16
  let none_ := fun (s : State) => Cmd.ok (s, (none : Option Nat))
  let some_ := fun (x : State × Nat) => Cmd.ok (x.1, some x.2)
  match natField cmd.toNat 3 0 with
  | 1 => (s.createContext part arg).andThen some_
  | 2 => (demand (decide (target < 64)) 4).andThen fun _ => (s.destroyContext part target).andThen none_
  | 3 => (demand (decide (target < 64)) 4).andThen fun _ => (s.createQueue part arg target).andThen some_
  | 4 => (s.destroyQueue part target).andThen none_
  | _ => .ok (s, none)

/-- QUEUE_COMMAND_DONE: the command in progress completes or is refused, and BUSY clears (R69, R70). -/
def execQueueCommandDone (part : Nat) (s : State) : Host.Outcome State Fault Refusal :=
  match (if (s.func part).dropCmd.isSome then none else (s.func part).qCmd) with
  | none => .next s
  | some (cmd, arg) =>
    match s.runCommand part cmd arg with
    | .ok (s', n) =>
      .next (s'.modFunc part (fun f => { f with qCmd := none, qResult := 0, qNumber := n.getD f.qNumber }))
    | .refused r =>
      .next ((s.clearRequests (2 ^ 43 + part) 0).modFunc part (fun f => { f with qCmd := none, qResult := r }))
    | .wait s' => .next { s' with contexts := s.contexts }
    | .ue => .next (s.engPoison (s.commandEng part 0 2) 0xFFFF)

/-! ### Errors of a queue -/

/-- The queue engine of a queue. -/
def State.qEng (s : State) (part q : Nat) : Eng := queueEng part (s.queue part q).ctx (s.queue part q).die q

/-- The error record written, where ERR translates, and the queue in ERROR (R83). -/
def State.postError (s : State) (part q : Nat) : State :=
  let x := s.queue part q
  match x.fault with
  | none => s
  | some (code, sub, node, addr, seq) =>
    let enter := fun (s : State) =>
      ((s.engDone (s.qEng part q)).modQueue part q (fun x =>
        { x with state := .error, fault := none, tailError := code == 1, succ := none, loops := [], launch := none
                 cur := [] })).signal part 1
    match s.engWrite (s.qEng part q) x.err (leBytes 2 code ++ leBytes 2 sub ++ leBytes 4 seq.toNat ++ leBytes 4 x.h.toNat
        ++ leBytes 2 node ++ leBytes 2 0 ++ leBytes 8 addr ++ leBytes 8 0) with
    | .ok s' => enter s'
    | .wait s' => s'
    | .bad _ _ => enter s
    | .ue => enter (s.engPoison (s.qEng part q) q)

/-- An error of a queue (R83): its record is written, then it enters ERROR. -/
def State.queueError (s : State) (part q code sub node addr : Nat) (seq : Word) : State :=
  ((s.engDone (s.qEng part q)).modQueue part q (fun x => { x with fault := some (code, sub, node, addr, seq) })).postError
    part q

/-- A waiting BADTAIL takes effect (R74). -/
def State.tailFault (s : State) (part q : Nat) (t : Word) : State :=
  (s.modQueue part q (fun x => { x with badTail := none })).queueError part q 1 0 0xFFFF t.toNat 0

/-! ### The kick page -/

/-- Whether no graph of the queue runs: IDLE, or FETCH before the entry is read. -/
def Queue.atRest (x : Queue) : Bool :=
  let st := if x.state = .saved then x.savedState else x.state
  st == .idle || st == .fetch

/-- TAIL: the tail count set, or BADTAIL (R73, R74). -/
def execTail (part q : Nat) (t : Word) (s : State) : Host.Outcome State Fault Refusal :=
  let x := s.queue part q
  if !x.live then .next s
  else if x.size < (t - x.h).toNat then
    if x.state = .error then .next s
    else if x.atRest && x.state != .saved && x.fault.isNone then .next (s.tailFault part q t)
    else .next (s.modQueue part q (fun x => { x with badTail := some (x.badTail.getD t) }))
  else .next (s.modQueue part q (fun x => { x with t := if t = x.h then x.t else t, stop := false }))

/-- The end of an entry: HEAD is written with its new count, and the queue takes its next state (R72, R74, R82). -/
def State.writeHead (s : State) (part q : Nat) (drop : Bool) : State :=
  let h := (s.queue part q).h + (if drop then 1 else 0)
  let go := fun (s : State) =>
    let s := (s.engDone (s.qEng part q)).modQueue part q (fun x =>
      { x with h := h, state := if x.t = h ∨ x.stop then .idle else .fetch, succ := none, launch := none, loops := []
               cur := [], tailError := false })
    match (s.queue part q).badTail with
    | none => s
    | some t => s.tailFault part q t
  match s.engWrite (s.qEng part q) (s.queue part q).head (leBytes 8 h.toNat) with
  | .ok s' => go s'
  | .wait s' => s'
  | .bad _ _ => go s
  | .ue => go (s.engPoison (s.qEng part q) q)

/-- SKIP: the queue leaves ERROR (R73, R82). -/
def execSkip (part q : Nat) (s : State) : Host.Outcome State Fault Refusal :=
  let x := s.queue part q
  if !x.live ∨ x.state ≠ .error ∨ x.succ.isSome then .next s
  else .next ((s.modQueue part q (fun x => { x with succ := some (if x.tailError then 0x10001 else 0x10000) })).writeHead
    part q (!x.tailError))

/-- STOP: the stop latch of a queue that is not IDLE is set (R73). -/
def execStop (part q : Nat) (s : State) : Host.Outcome State Fault Refusal :=
  if (s.queue part q).live && (s.queue part q).state != .idle then
    .next (s.modQueue part q (fun x => { x with stop := true }))
  else .next s

/-! ### Service -/

/-- Whether a queue's context runs and its partition is not halted (R82, R390). -/
def State.queueRuns (s : State) (part q : Nat) : Bool :=
  let x := s.queue part q
  x.live && x.state != .saved && !(s.context part x.ctx).saved && !(s.func part).halted
    && (s.func part).dropCmd.isNone

/-- Whether an instance is pending: a queue of its context runs it (R80). -/
def State.pendingGraph (s : State) (part ctx graph : Nat) : Bool :=
  (List.range 1024).any fun k =>
    let x := s.queue part k
    let st := if x.state = .saved then x.savedState else x.state
    x.live && x.ctx == ctx && x.graph == graph && x.fault.isNone && (st == .check || st == .node || st == .waitNode)

/-- The address of the entry at H (R72). -/
def Queue.entryAddr (x : Queue) : Nat := x.ring + 16 * (x.h.toNat % x.size)

/-- Whether the step of a queue's state is ready (R82). -/
def State.queueReady (s : State) (part q : Nat) : Bool :=
  let x := s.queue part q
  s.queueRuns part q && !(s.requestsOf (2 ^ 40 + 1024 * part + q) 0).any (fun r => r.2.answer.isNone)
    && (x.fault.isSome || (match x.state with
      | .idle => x.t != x.h && !x.stop
      | .fetch =>
        (match s.engNat (s.qEng part q) x.entryAddr 8 with
        | .ok g => x.stop || x.badTail.isSome || !s.pendingGraph part x.ctx g
        | .wait _ | .bad _ _ | .ue => true)
      | .check | .node => true
      | .waitNode => x.succ.isSome || (objNat x.cur 0 1 != 4 && (x.launch.all (fun l => (Tab.get? s.launches l).isNone)))
      | .error => x.succ.isSome
      | .saved => false))

/-- The service rank of a queue: realtime above 3 (R82). -/
def Queue.rank (x : Queue) : Nat := if x.realtime then 4 else x.prio

/-- Whether a queue's step is the next of its die's engine (R82): no queue of a higher rank has a step ready, and none of
the same rank comes between the last one served and it. -/
def State.queueTurn (s : State) (part q : Nat) : Bool :=
  let x := s.queue part q
  let me := 8 * q + part
  let last := Tab.getD s.qServed (8 * x.die + x.rank) 0
  let dist := fun (k : Nat) => if last < k + 1 then k + 1 - last else k + 1 + 8192 - last
  s.queueReady part q && (Tab.keys s.queues).all (fun k =>
    let p := k / 1024
    let y := s.queue p (k % 1024)
    y.die != x.die || !s.queueReady p (k % 1024) || decide (y.rank < x.rank)
      || (y.rank == x.rank && decide (dist me ≤ dist (8 * (k % 1024) + p))))

/-- A step of a queue engine for one queue in one of its states: the record of a waiting error first, else the step. -/
def State.queueStep (s : State) (part q : Nat) (st : QState → Bool) (f : State → Queue → State) : State :=
  let x := s.queue part q
  if !s.queueTurn part q || !(x.fault.isSome || st x.state) then s
  else
    let s := { s with qServed := Tab.put s.qServed (8 * x.die + x.rank) (8 * q + part + 1) }
    if x.fault.isSome then s.postError part q else f s x

/-- An access of a queue's step: its failure is NOMAP with the reason and the address, at a node index (R83). -/
def State.onGot {α : Type} (s : State) (part q node : Nat) (g : Got α) (f : α → State) : State :=
  match g with
  | .ok a => f a
  | .wait s' => s'
  | .bad r va => s.queueError part q 6 r node va (s.queue part q).seq
  | .ue => s.engPoison (s.qEng part q) q

/-- QUEUE_FETCH: a queue with work leaves IDLE, or the entry at H is read and its instance becomes pending (R74, R80,
R82). -/
def execQueueFetch (part q : Nat) (s : State) : Host.Outcome State Fault Refusal :=
  .next (s.queueStep part q (fun st => st == .idle || st == .fetch) fun s x =>
    match x.badTail with
    | some t => s.tailFault part q t
    | none =>
      if x.t = x.h ∨ x.stop then s.modQueue part q (fun x => { x with state := .idle })
      else if x.state = .idle then s.modQueue part q (fun x => { x with state := .fetch })
      else
        let s := s.modQueue part q (fun x => { x with seq := 0 })
        s.onGot part q 0xFFFF (s.engRead (s.qEng part q) x.entryAddr 16) fun bs =>
          if s.pendingGraph part x.ctx (objNat bs 0 8) then s
          else (s.engDone (s.qEng part q)).modQueue part q (fun x =>
            { x with graph := objNat bs 0 8, seq := BitVec.ofNat 32 (objNat bs 8 4), state := .check }))

/-! ### The check of a graph -/

/-- A condition of a graph's check; `addr` is the address involved. -/
def demandAt (b : Bool) (addr : Nat) : Got Unit := if b then .ok () else .bad 0 addr

/-- A range of a node aligned and mapped (R79). -/
def State.nodeRange (s : State) (e : Eng) (va n align : Nat) (write : Bool) : Got Unit :=
  (demandAt (va % align == 0) va).andThen fun _ => s.mapped e va n write

/-- The successors that a node names (R76). -/
def nodeSuccs (bs : List Byte) : List Nat :=
  objNat bs 2 2 :: (if objNat bs 0 1 = 5 ∨ objNat bs 0 1 = 6 then [objNat bs 16 2] else [])

/-- A completion scope's code (R75). -/
def scopeOk (c : Nat) : Bool := decide (2 ≤ c) && decide (c ≤ 4)

/-- A node's own bytes checked (R76, R79, R80). -/
def State.checkNode (s : State) (e : Eng) (bs : List Byte) (nodes at_ : Nat) : Got Unit :=
  let a := objNat bs 8 8
  let b := objNat bs 16 8
  let c := objNat bs 24 8
  let zero := fun (off n : Nat) => objNat bs off n == 0
  (demandAt (zero 1 1 && zero 4 4 && (nodeSuccs bs).all (fun k => k == 0xFFFF || decide (k < nodes))) at_).andThen fun _ =>
  match objNat bs 0 1 with
  | 1 => demandAt (zero 30 2 && zero 48 16 && decide (objNat bs 28 1 ≤ 1) && scopeOk (objNat bs 29 1)) at_
  | 2 =>
    (demandAt (zero 32 32 && c % 16 == 0 && decide (c ≤ 2 ^ 40)) at_).andThen fun _ =>
      (s.nodeRange e a c 16 false).andThen fun _ => s.nodeRange e b c 16 true
  | 3 =>
    (demandAt (zero 26 38 && scopeOk (objNat bs 24 1) && decide (objNat bs 25 1 ≤ 1)) at_).andThen fun _ =>
      s.nodeRange e a 8 8 true
  | 4 => (demandAt (zero 25 39 && decide (objNat bs 24 1 ≤ 2)) at_).andThen fun _ => s.nodeRange e a 8 8 false
  | 5 => (demandAt (zero 18 46) at_).andThen fun _ => s.nodeRange e a 4 4 false
  | 6 =>
    (demandAt (zero 18 2 && zero 32 32) at_).andThen fun _ =>
      (s.nodeRange e a 4 4 false).andThen fun _ => if c = 0 then .ok () else s.nodeRange e c 4 4 true
  | _ => .bad 0 at_

/-- Every node of a list checked. -/
def State.checkNodes (s : State) (e : Eng) (nodes graph : Nat) : List (List Byte × Nat) → Got Unit
  | [] => .ok ()
  | (bs, k) :: rest =>
    (s.checkNode e bs nodes (graph + 64 + 64 * k)).andThen fun _ => s.checkNodes e nodes graph rest

/-- The nodes reached from a list without passing a node, 0xFFFF among them where a path ends the graph. -/
def reachFrom (succs : List (List Nat)) (stop : Nat) : Nat → List Nat → List Nat → List Nat
  | 0, _, seen => seen
  | fuel + 1, work, seen =>
    match work.filter (fun k => k != stop && !seen.contains k) with
    | [] => seen
    | new =>
      let new := new.eraseDups
      reachFrom succs stop fuel ((new.map (fun k => succs.getD k [])).flatten) (seen ++ new)

/-- The body of a loop node (R78). -/
def loopBody (succs : List (List Nat)) (loop : Nat) : List Nat :=
  reachFrom succs loop (succs.length + 2) [(succs.getD loop []).getD 1 0xFFFF] []

/-- Whether a graph of edges has no cycle: nodes without a remaining successor are removed in turn. -/
def acyclic (edges : List (Nat × List Nat)) : Nat → Bool
  | 0 => edges.isEmpty
  | fuel + 1 =>
    let left := edges.filter (fun x => x.2.any (fun k => edges.any (fun y => y.1 == k)))
    left.isEmpty || (decide (left.length < edges.length) && acyclic left fuel)

/-- The loops of a graph are well formed (R79): every body returns to its loop and is left in no other way, no other cycle
exists, and loops nest to at most 8 levels. -/
def graphShapeOk (kinds : List Nat) (succs : List (List Nat)) : Bool :=
  let n := kinds.length
  let loops := (List.range n).filter (fun k => kinds.getD k 0 == 6)
  let bodies := loops.map (fun l => (l, loopBody succs l))
  let back := fun (x y : Nat) => bodies.any (fun b => b.1 == y && b.2.contains x)
  let edges := (List.range n).map (fun k =>
    (k, ((succs.getD k []).take 1 ++ ((succs.getD k []).drop 1).filter (fun y => !(loops.contains k && y == k))).filter
      (fun y => y != 0xFFFF && !back k y)))
  bodies.all (fun b => !b.2.contains 0xFFFF) && acyclic edges n
    && loops.all (fun l => decide ((bodies.filter (fun b => b.2.contains l)).length < 8))

/-- The whole check of a graph (R75, R79): its first node, its node count, DONE and DONEVAL. -/
def State.checkGraph (s : State) (e : Eng) (g : Nat) : Got (Nat × Nat × Nat × Nat) :=
  (demandAt (g % 64 == 0) g).andThen fun _ =>
  (s.engRead e g 64).andThen fun h =>
  let n := objNat h 4 2
  let first := objNat h 6 2
  (demandAt (objNat h 0 4 == 0x47524648 && decide (1 ≤ n) && decide (n ≤ 4096) && decide (first < n)
    && objNat h 25 39 == 0 && scopeOk (objNat h 24 1)) g).andThen fun _ =>
  (if objNat h 8 8 = 0 then .ok () else s.nodeRange e (objNat h 8 8) 8 8 true).andThen fun _ =>
  (s.engRead e (g + 64) (64 * n)).andThen fun body =>
  let ns := pieces 64 n body
  (s.checkNodes e n g ns.zipIdx).andThen fun _ =>
  (demandAt (graphShapeOk (ns.map (fun b => objNat b 0 1)) (ns.map nodeSuccs)) g).andThen fun _ =>
  .ok (first, n, objNat h 8 8, objNat h 16 8)

/-- GRAPH_CHECK: the whole graph is checked before its first node, or refused with BADGRAPH (R79, R82). -/
def execGraphCheck (part q : Nat) (s : State) : Host.Outcome State Fault Refusal :=
  .next (s.queueStep part q (fun st => st == .check) fun s x =>
    match s.checkGraph (s.qEng part q) x.graph with
    | .ok (first, n, da, dv) =>
      (s.engDone (s.qEng part q)).modQueue part q (fun x =>
        { x with state := .node, node := first, nodes := n, doneAddr := da, doneVal := dv, loops := [], succ := none })
    | .wait s' => s'
    | .bad _ va => s.queueError part q 2 0 0xFFFF va x.seq
    | .ue => s.engPoison (s.qEng part q) q)

/-! ### The nodes -/

/-- The kernel launch of a node (R77, R84, R408): the checked object decides whether it counts as eligible. -/
def State.kernelLaunch (s : State) (part q : Nat) (bs : List Byte) (o : CodeObj) (h : Option CodeObj)
    (map : Option (List Nat)) (args : List Byte) : Launch :=
  let x := s.queue part q
  let eligible := decide (1 ≤ x.det) && o.idem && o.gangTeams == 1 && o.roles.length == 1
  { part := part, ctx := x.ctx, queue := q, die := x.die, prio := x.prio, realtime := x.realtime, det := x.det
    trapen := x.trapen, code := objNat bs 8 8, obj := o, hobj := h, helm := objNat bs 28 1 == 1, x := objNat bs 16 4
    y := objNat bs 20 4, z := objNat bs 24 4, args := args, map := map
    sel := if eligible then
        some (((s.context part x.ctx).seed.toNat % 1024 + 7 * x.count) % 1024) else none }

/-- A kernel node starts (R79, R81): its object, its grid, its map and its arguments are checked, and its launch goes to
the distributor; a grid of no team completes at once. -/
def State.startKernel (s : State) (part q : Nat) (bs : List Byte) : State :=
  let x := s.queue part q
  let e := s.qEng part q
  let refuse := fun (code sub addr : Nat) => s.queueError part q code sub x.node addr x.seq
  let code := objNat bs 8 8
  let helm := objNat bs 28 1 == 1
  s.onGot part q x.node (s.checkObjs e code x.det helm) fun c =>
  match c with
  | .refused n => refuse 3 n code
  | .ok (o, h) =>
    if 2 ^ 40 < objNat bs 16 4 * objNat bs 20 4 * objNat bs 24 4 then refuse 4 0 x.graph
    else s.onGot part q x.node (s.checkMap e (objNat bs 32 8) x.det helm x.realtime o) fun m =>
    match m with
    | .refused n => refuse 5 n (objNat bs 32 8)
    | .ok map =>
      s.onGot part q x.node (s.engRead e (objNat bs 40 8) o.argBytes) fun args =>
        let l := s.kernelLaunch part q bs o h map args
        let s := (s.engDone e).modQueue part q (fun x =>
          { x with state := .waitNode, cur := bs, succ := none, launch := if l.teams = 0 then none else some s.fresh
                   count := if l.sel.isSome then x.count + 1 else x.count })
        if l.teams = 0 then s else s.addLaunch l

/-- NODE_START: the current node's bytes are read and checked, and it starts (R76 to R81). -/
def execNodeStart (part q : Nat) (s : State) : Host.Outcome State Fault Refusal :=
  .next (s.queueStep part q (fun st => st == .node) fun s x =>
    let e := s.qEng part q
    let addr := x.graph + 64 + 64 * x.node
    s.onGot part q x.node (s.engRead e addr 64) fun bs =>
    match s.checkNode e bs x.nodes addr with
    | .wait s' => s'
    | .ue => s.engPoison e q
    | .bad _ va => s.queueError part q 2 0 x.node va x.seq
    | .ok () =>
      if objNat bs 0 1 = 1 then s.startKernel part q bs
      else (s.engDone e).modQueue part q (fun x =>
        { x with state := .waitNode, cur := bs, succ := none, launch := none
                 loops := if objNat bs 0 1 = 6 then
                     Tab.put x.loops x.node (match Tab.get? x.loops x.node with
                       | none => 0
                       | some k => k + 1)
                   else x.loops }))

/-- The effect of the current node, once, with its successor (R77, R78). -/
def State.nodeEffect (s : State) (part q : Nat) : State :=
  let x := s.queue part q
  let e := s.qEng part q
  let bs := x.cur
  let a := objNat bs 8 8
  let next := objNat bs 2 2
  let go := fun (s : State) (k : Nat) => (s.engDone e).modQueue part q (fun x => { x with succ := some k })
  match objNat bs 0 1 with
  | 1 => if x.launch.all (fun l => (Tab.get? s.launches l).isNone) then go s next else s
  | 2 =>
    s.onGot part q x.node ((s.engRead e a (objNat bs 24 8)).andThen fun d => s.engWrite e (objNat bs 16 8) d)
      fun s => go s next
  | 3 =>
    s.onGot part q x.node
      (if objNat bs 25 1 = 0 then s.engWrite e a (leBytes 8 (objNat bs 16 8))
        else (s.engNat e a 8).andThen fun v => s.engWrite e a (leBytes 8 (v + objNat bs 16 8)))
      fun s => go s next
  | 5 => s.onGot part q x.node (s.engNat e a 4) fun v => go s (if v = 0 then next else objNat bs 16 2)
  | 6 =>
    let count := Tab.getD x.loops x.node 0
    let leave :=
      let out := fun (s : State) => go (s.modQueue part q (fun x => { x with loops := Tab.erase x.loops x.node })) next
      if objNat bs 24 8 = 0 then out s
      else s.onGot part q x.node (s.engWrite e (objNat bs 24 8) (leBytes 4 count)) out
    if objNat bs 20 4 ≤ count then leave
    else s.onGot part q x.node (s.engNat e a 4) fun v => if v = 0 then leave else go s (objNat bs 16 2)
  | _ => s

/-- What follows a node that is complete (R77, R82): its successor, or DONE and HEAD. -/
def State.afterNode (s : State) (part q : Nat) : State :=
  let x := s.queue part q
  match x.succ with
  | none => s
  | some k =>
    if k < 0xFFFF then s.modQueue part q (fun x => { x with node := k, state := .node, succ := none, launch := none })
    else if 0x10000 ≤ k then s.writeHead part q (k == 0x10000)
    else if x.doneAddr = 0 then (s.modQueue part q (fun x => { x with succ := some 0x10000 })).writeHead part q true
    else s.onGot part q 0xFFFF (s.engWrite (s.qEng part q) x.doneAddr (leBytes 8 x.doneVal)) fun s =>
      ((s.engDone (s.qEng part q)).modQueue part q (fun x => { x with succ := some 0x10000 })).writeHead part q true

/-- NODE_COMPLETE: the current node completes, and the engine moves to its successor or ends the graph (R77, R78, R82). -/
def execNodeComplete (part q : Nat) (s : State) : Host.Outcome State Fault Refusal :=
  .next (s.queueStep part q (fun st => st == .waitNode || st == .error) fun s x =>
    if x.succ.isSome then s.afterNode part q
    else if (s.nodeEffect part q).queue part q |>.succ.isSome then (s.nodeEffect part q).afterNode part q
    else s.nodeEffect part q)

/-- WAIT_NODE_POLL: the word of a wait node is read, and the node completes where CMP is met (R77). -/
def execWaitNodePoll (part q : Nat) (s : State) : Host.Outcome State Fault Refusal :=
  let x := s.queue part q
  if !s.queueRuns part q ∨ x.state ≠ .waitNode ∨ objNat x.cur 0 1 ≠ 4 ∨ x.succ.isSome ∨ x.fault.isSome then .next s
  else
    .next (s.onGot part q x.node (s.engNat (s.qEng part q) (objNat x.cur 8 8) 8) fun v =>
      let w := objNat x.cur 16 8
      let met := match objNat x.cur 24 1 with
        | 0 => decide (w ≤ v)
        | 1 => v == w
        | _ => v != w
      if met then (s.engDone (s.qEng part q)).modQueue part q (fun y => { y with succ := some (objNat y.cur 2 2) })
      else s.engDone (s.qEng part q))

/-! ### launch.q -/

def execLaunchQ (o : Slot) (seq : Word) (s : State) : Host.Outcome State Fault Refusal :=
  issue (.launchQ o seq) s fun g ls s =>
    let h := (g.value o.b (ls.headD 0)).toNat
    let q := h % 65536
    let x := s.queue g.part q
    if 1 ≤ g.detlevel then .raise .detViol 0x301
    else if 1024 ≤ q ∨ !x.live ∨ x.ctx ≠ g.ctx ∨ x.gen ≠ h / 65536 then .raise .prot (laneInfo 1 0)
    else if 4 ≤ s.launchesOf s.curId then .hold .room
    else withRoom g none (some 0)
      (.done (let graph := (g.value64 o.a (ls.headD 0)).toNat
        ((s.markWrote g.team).startOp
          { group := s.curId, part := g.part, ctx := g.ctx, pc := g.slotPc, body := .launchQ q x.gen graph seq
            counter := some 0, after := s.releaseOps s.curId .dev } []).modQueue g.part q
          (fun x => { x with held := x.held ++ [(graph, seq, s.fresh)] })))

/-- LAUNCH_Q_APPEND: the oldest entry held for a queue is written to its ring and T rises by one, or it is dropped with
QDROP where its slot does not translate (R98). -/
def execLaunchQAppend (part q : Nat) (s : State) : Host.Outcome State Fault Refusal :=
  let x := s.queue part q
  let e : Eng := { s.qEng part q with who := 2 ^ 44 + 1024 * part + q }
  match x.held with
  | [] => .next s
  | (graph, seq, op) :: rest =>
    if !s.queueRuns part q ∨ x.size ≤ (x.t - x.h).toNat
        ∨ !(s.pendingOps ((Tab.getD s.ops op {}).after)).isEmpty then .next s
    else
      let pop := fun (s : State) (t : Word) =>
        ((s.engDone e).modQueue part q (fun x => { x with held := rest, t := t })).finishOp op
      match s.engWrite e (x.ring + 16 * (x.t.toNat % x.size)) (leBytes 8 graph ++ leBytes 4 seq.toNat ++ leBytes 4 0) with
      | .ok s' => .next (pop s' (x.t + 1))
      | .wait s' => .next s'
      | .bad r _ =>
        .next (pop (s.ctxEvent part x.ctx 9 (65536 * x.gen + q) graph (leBytes 4 seq.toNat ++ leBytes 1 r)) x.t)
      | .ue => .next (s.engPoison e q)

end Sys2Proof.Machine
end

