-- ==== Sys2Proof/Machine/Remote.lean ====
section
/-!
DEFINITION. Remote invocation and windows: packets, partition pairs, routes, the receiver, landing slots and handler
batches, links, and RINV, PUT and WCNT (R103 to R123, R426 to R428).
-/

namespace Sys2Proof.Machine

/-! ### Packets, links and pairs -/

/-- A link. -/
def State.link (s : State) (l : Nat) : Link := Tab.getD s.links l {}
/-- The state with a link changed. -/
def State.modLink (s : State) (l : Nat) (f : Link → Link) : State := { s with links := Tab.set {} s.links l (f (s.link l)) }
/-- A partition pair at its source. -/
def State.pair (s : State) (k : Nat) : Pair := Tab.getD s.pairs k {}
/-- The state with a pair changed. -/
def State.modPair (s : State) (k : Nat) (f : Pair → Pair) : State := { s with pairs := Tab.set {} s.pairs k (f (s.pair k)) }
/-- The key of a pair: source partition, destination chip and partition. -/
def pairKey (part chip dpart : Nat) : Nat := (4096 * part + chip) * 8 + dpart
/-- The state with a listed context changed. -/
def State.modContext (s : State) (part ctx : Nat) (f : Context → Context) : State :=
  { s with contexts := Tab.modify s.contexts (64 * part + ctx) f }
/-- A window counter of a context: SRCDONE 0, DSTARR 1, REFUSED 2 (R111). -/
def State.wcount (s : State) (part ctx win kind : Nat) : Word := Tab.getD (s.context part ctx).wcounts (4 * win + kind) 0
/-- A window counter raised by one. -/
def State.bumpCount (s : State) (part ctx win kind : Nat) : State :=
  s.modContext part ctx (fun c => { c with wcounts := Tab.set 0 c.wcounts (4 * win + kind) (s.wcount part ctx win kind + 1) })
/-- A PUT refused: REFUSED rises and its event is raised (R111, R425). -/
def State.refusePut (s : State) (part ctx win reason : Nat) : State :=
  (s.bumpCount part ctx win 2).ctxEvent part ctx 2 reason 0

/-- The link by which packets of a partition leave for a chip: the primary where it is valid, owned and up, else the
alternate (R428). -/
def State.routeLink (s : State) (part chip : Nat) : Option Nat :=
  let w := (Tab.getD (s.func part).routes chip 0).toNat
  let usable := fun (l : Nat) => decide (l < 12) && Tab.getD s.pt.link l 0 == part && (s.link l).up
  if natBit w 8 && usable (natField w 3 0) then some (natField w 3 0)
  else if natBit w 9 && usable (natField w 7 4) then some (natField w 7 4)
  else none

/-- Whether a chip can be reached from a partition: this one always can (R120, R428). -/
def State.hasRoute (s : State) (part chip : Nat) : Bool := chip == s.pt.chipid || (s.routeLink part chip).isSome

/-- A packet of a partition sent on its way: to this chip's own receiver, or on the route's link. -/
def State.transmit (s : State) (part chip : Nat) (bs : List Byte) : State :=
  if chip = s.pt.chipid then { s with packets := Tab.put s.packets s.fresh { bytes := bs } }.tick
  else match s.routeLink part chip with
    | none => s
    | some l => s.modLink l (fun k => { k with out := k.out ++ [bs] })

/-- The common header of a packet (R103). -/
def packetHeader (type pri dchip schip dpart spart : Nat) (seq tgt : Word) : List Byte :=
  leBytes 1 type ++ leBytes 1 pri ++ leBytes 2 dchip ++ leBytes 2 schip ++ leBytes 1 dpart ++ leBytes 1 spart
    ++ leBytes 4 seq.toNat ++ leBytes 4 tgt.toNat

/-- Bytes padded with zeros to a length. -/
def padTo (n : Nat) (bs : List Byte) : List Byte := (bs ++ List.replicate (n - bs.length) 0).take n

/-- A new packet of a pair: numbered, kept until it is answered, and sent (R105). -/
def State.sendNew (s : State) (part chip dpart : Nat) (x : Sent) (mk : Word → List Byte) : State :=
  let k := pairKey part chip dpart
  let seq := (s.pair k).next
  (s.modPair k (fun p =>
    { p with next := p.next + 1, link := s.routeLink part chip
             sent := p.sent ++ [{ x with seq := seq, bytes := mk seq, at_ := s.now }] })).transmit part chip (mk seq)

/-- Every unanswered packet of a pair sent again, in order (R107). -/
def State.resend (s : State) (k : Nat) : State :=
  let part := k / 32768
  let chip := k / 8 % 4096
  (s.pair k).sent.foldl (fun s x => s.transmit part chip x.bytes)
    (s.modPair k (fun p =>
      { p with link := s.routeLink part chip, sent := p.sent.map (fun x => { x with at_ := s.now }) }))

/-- After a change of routes, the pairs whose link has changed send again (R107, R428). -/
def State.reroute (s : State) : State :=
  (Tab.keys s.pairs).foldl (fun s k =>
    if (s.pair k).link == s.routeLink (k / 32768) (k / 8 % 4096) || (k / 8 % 4096 == s.pt.chipid) then s
    else s.resend k) s

/-- The size that a packet's TYPE gives it; none for other types (R103). -/
def packetSize (bs : List Byte) : Option Nat :=
  match objNat bs 0 1 with
  | 1 => some 128
  | 2 => some 64
  | 3 | 4 => some 32
  | _ => none

/-- FLIT_RECEIVED: the packets of a good flit arrive, those of no type discarded and counted; a failed flit is counted and
will be replayed (R103, R426, R427). -/
def execFlitReceived (link : Nat) (good : Bool) (packets : List (List Byte)) (s : State) :
    Host.Outcome State Fault Refusal :=
  if 12 ≤ link ∨ !(s.link link).up then .next s
  else if good then
    .next (packets.foldl (fun s bs =>
        if packetSize bs = some bs.length then
          { s with packets := Tab.put s.packets s.fresh { bytes := bs, link := some link } }.tick
        else s.modLink link (fun l => { l with errors := l.errors + 1 }))
      (s.modLink link (fun l => { l with fails := 0, lastGood := s.now })))
  else .next (s.modLink link (fun l =>
    { l with fails := l.fails + 1, errors := l.errors + 1, replays := l.replays + 1 }))

/-- Whether `n` flit times have passed since a moment: a flit time is 128/85 array cycles (R426). -/
def flitTimes (n since now : Nat) : Bool := decide (128 * n ≤ 85 * (now - since))

/-- LINK_DOWN: after 64 consecutive failed flits, or 2^16 flit times with no good one, the link goes down (R426). -/
def execLinkDown (link : Nat) (s : State) : Host.Outcome State Fault Refusal :=
  let l := s.link link
  if l.up && (decide (64 ≤ l.fails) || flitTimes 65536 l.lastGood s.now) then
    .next (s.modLink link (fun l => { l with up := false })).reroute
  else .next s

/-- LINK_UP: a link becomes UP, and routes may return to it (R107, R426, R428). -/
def execLinkUp (link : Nat) (s : State) : Host.Outcome State Fault Refusal :=
  if 12 ≤ link ∨ (s.link link).up then .next s
  else .next (s.modLink link (fun l => { l with up := true, fails := 0, lastGood := s.now })).reroute

/-- RETRANSMIT_TIMEOUT: the oldest unanswered packet of a pair has had no reply for 2^20 flit times (R107). -/
def execRetransmitTimeout (pair : Nat) (s : State) : Host.Outcome State Fault Refusal :=
  match (s.pair pair).sent with
  | [] => .next s
  | x :: _ => if flitTimes 1048576 x.at_ s.now then .next (s.resend pair) else .next s

/-- ROUTE_WRITE: a route register is written; its reserved bits read as zero (R427, R428). -/
def execRouteWrite (part chip : Nat) (v : Word) (s : State) : Host.Outcome State Fault Refusal :=
  if 4096 ≤ chip then .next s
  else .next (s.modFunc part (fun f => { f with routes := Tab.set 0 f.routes chip (v &&& 0x3FF) })).reroute

/-- FABRIC_ENABLE: FABCTL is written; EN from 0 to 1 starts every sequence space of the partition at 0 (R105, R427). -/
def execFabricEnable (part : Nat) (v : Word) (s : State) : Host.Outcome State Fault Refusal :=
  let on := natBit v.toNat 0
  let s1 := s.modFunc part (fun f => { f with fabEn := on })
  .next (if on && !(s.func part).fabEn then
      { s1 with pairs := s1.pairs.map (fun p => if p.1 / 32768 = part then (p.1, { p.2 with next := 0 }) else p) }
    else s1)

/-- An arrived packet leaves the receiver. -/
def State.dropPacket (s : State) (pkt : Nat) : State := { s with packets := Tab.erase s.packets pkt }

/-- PACKET_FORWARD: a packet for another chip leaves by the routes of the partition that owns its arrival link, or is
discarded and counted (R428). -/
def execPacketForward (pkt : Nat) (s : State) : Host.Outcome State Fault Refusal :=
  match Tab.get? s.packets pkt with
  | none => .next s
  | some p =>
    let chip := natField (objNat p.bytes 2 2) 11 0
    match p.link with
    | none => .next s
    | some l =>
      if chip = s.pt.chipid then .next s
      else
        let owner := Tab.getD s.pt.link l 0
        if (s.routeLink owner chip).isSome then .next ((s.dropPacket pkt).transmit owner chip p.bytes)
        else .next ((s.dropPacket pkt).modLink l (fun k => { k with errors := k.errors + 1 }))

/-! ### The receiver -/

/-- Where a sequence-table entry lies (R106). -/
def State.seqEntry (s : State) (dpart schip spart : Nat) : Nat := (s.func dpart).seqBase + 1024 * (8 * schip + spart)

/-- A reply to a packet (R103, R104): an ACK for the codes 0 and 1, else a NACK. -/
def replyBytes (bs : List Byte) (code reason : Nat) : List Byte :=
  padTo 32 (packetHeader (if code ≤ 1 then 3 else 4) 0 (objNat bs 4 2) (objNat bs 2 2) (objNat bs 7 1) (objNat bs 6 1)
    (BitVec.ofNat 32 (objNat bs 8 4)) (BitVec.ofNat 32 (code + 256 * reason)))

/-- A reply sent by the partition that the packet was for. -/
def State.reply (s : State) (bs : List Byte) (code reason : Nat) : State :=
  s.transmit (natField (objNat bs 6 1) 2 0) (natField (objNat bs 4 2) 11 0) (replyBytes bs code reason)

/-- A reply stored and EXP advanced (R106). -/
def State.storeReply (s : State) (bs : List Byte) (code reason : Nat) : State :=
  let dpart := natField (objNat bs 6 1) 2 0
  let base := s.seqEntry dpart (natField (objNat bs 4 2) 11 0) (natField (objNat bs 7 1) 2 0)
  let seq := objNat bs 8 4
  (s.physWrite dpart (base + 256 + 2 * (seq % 256)) (leBytes 1 code ++ leBytes 1 reason)).physWrite dpart base
    (leBytes 4 (seq + 1))

/-- What R106 makes of a packet's number. -/
inductive SeqCase
  | expected
  | behind (code reason : Nat)
  | other
  deriving DecidableEq, Repr

def State.seqCase (s : State) (bs : List Byte) : SeqCase :=
  let dpart := natField (objNat bs 6 1) 2 0
  let base := s.seqEntry dpart (natField (objNat bs 4 2) 11 0) (natField (objNat bs 7 1) 2 0)
  let seq := objNat bs 8 4
  let expct := leNat (s.physRead dpart base 4)
  let back := (BitVec.ofNat 32 expct - BitVec.ofNat 32 seq).toNat
  if back = 0 then .expected
  else if back ≤ 256 then
    .behind (leNat (s.physRead dpart (base + 256 + 2 * (seq % 256)) 1))
      (leNat (s.physRead dpart (base + 257 + 2 * (seq % 256)) 1))
  else .other

/-- Whether writes of the same numbered packet still land. -/
def State.stillLanding (s : State) (bs : List Byte) : Bool :=
  s.packets.any (fun p => p.2.landing && (p.2.bytes.drop 4).take 8 == (bs.drop 4).take 8 && objNat p.2.bytes 0 1 == 2)

/-- An arrived packet of a type for this chip handled: discarded where its partition's fabric is not enabled, answered
again where it is behind, discarded where its number is another; else processed (R106, R427). -/
def State.receive (s : State) (pkt type : Nat) (f : State → List Byte → State) : State :=
  match Tab.get? s.packets pkt with
  | none => s
  | some p =>
    let bs := p.bytes
    if p.landing || objNat bs 0 1 != type || natField (objNat bs 2 2) 11 0 != s.pt.chipid then s
    else if type = 2 ∧ (s.func (natField (objNat bs 6 1) 2 0)).dropCmd.isSome then s
    else if !(s.func (natField (objNat bs 6 1) 2 0)).fabEn then s.dropPacket pkt
    else match s.seqCase bs with
      | .expected => f s bs
      | .behind code reason => if s.stillLanding bs then s else (s.dropPacket pkt).reply bs code reason
      | .other => s.dropPacket pkt

/-- The receiver of a die (R112, R221, R228). -/
def receiverEng (part ctx die : Nat) : Eng :=
  { unit := receiverTransUnit die, part := part, ctx := ctx, die := die, asks := false }

/-- Whether a context takes no invocation into its slots: it is saved, or its partition is halted (R117). -/
def State.asSaved (s : State) (part ctx : Nat) : Bool := (s.context part ctx).saved || (s.func part).halted

/-- The FREE slot that is filled next: the first after the last one filled, wrapping to 0 (R112). -/
def Inbound.freeSlot (b : Inbound) : Option Nat :=
  ((List.range b.hwdepth).map (fun k => (b.last + 1 + k) % b.hwdepth)).find? (fun k =>
    (Tab.getD b.slots k {}).state == .free)

/-- The code object of a handler of a queue, checked at most once (R112): the objects passed, or none where it is
refused. -/
def State.handlerObjs (s : State) (part q h : Nat) : Got (Option (CodeObj × Option CodeObj)) :=
  let x := s.queue part q
  match Tab.get? x.inb.verdicts h with
  | some v => .ok v
  | none =>
    let hd := (s.context part x.ctx).handlers.getD h {}
    match s.checkObjs (receiverEng part x.ctx x.die) hd.code x.det hd.helm with
    | .ok (.ok (o, t)) => .ok (if o.roles.length = 1 ∧ o.gangTeams = 1 then some (o, t) else none)
    | .ok (.refused _) | .bad _ _ | .wait _ => .ok none
    | .ue => .ue

/-- An invocation's image written to an address, where it translates for writing. -/
def State.landImage (s : State) (e : Eng) (va : Nat) (bs : List Byte) : Option State :=
  match s.engWrite e va bs with
  | .ok s' => some s'
  | .wait _ | .bad _ _ | .ue => none

/-- The decision on an INV (R112): the status, the reason and the state. -/
def State.decideInv (s : State) (bs : List Byte) : Nat × Nat × State :=
  let part := natField (objNat bs 6 1) 2 0
  let handle := objNat bs 12 4
  let q := handle % 65536
  let h := objNat bs 16 2
  let x := s.queue part q
  let hd := (s.context part x.ctx).handlers.getD h {}
  let e := receiverEng part x.ctx x.die
  if 1024 ≤ q ∨ !x.live ∨ (s.liveContexts part).isEmpty then (4, 1, s)
  else if !x.inb.recv then (4, 2, s)
  else if handle / 65536 ≠ x.gen then (3, 3, s)
  else if (s.context part x.ctx).handlers.length ≤ h ∨ !hd.valid then (4, 4, s)
  else if hd.maxPw < objNat bs 18 1 ∨ hd.maxSb < objNat bs 19 1 then (4, 5, s)
  else match s.handlerObjs part q h with
    | .wait _ | .bad _ _ | .ue => (4, 6, s)
    | .ok v =>
      let s := s.modQueue part q (fun x => { x with inb := { x.inb with verdicts := Tab.put x.inb.verdicts h v } })
      if v.isNone then (4, 6, s)
      else if x.inb.rsize ≤ x.inb.waiting.length then (2, 7, s)
      else
        let append :=
          match s.landImage e (x.inb.ring + 128 * ((x.inb.head + x.inb.waiting.length) % x.inb.rsize)) bs with
          | none => (4, 13, s)
          | some s' => (1, 0, (s'.modQueue part q (fun x =>
              { x with inb := { x.inb with waiting := x.inb.waiting ++ [s.fresh] } })).tick)
        match x.inb.freeSlot with
        | none => append
        | some k =>
          if !x.inb.waiting.isEmpty || s.asSaved part x.ctx then append
          else match s.landImage e (x.inb.land + 128 * k) bs with
            | none => (4, 13, s)
            | some s' => (0, 0, (s'.modQueue part q (fun x =>
                { x with inb := { x.inb with slots := Tab.put x.inb.slots k ⟨.held, s.fresh⟩, last := k } })).tick)

/-- INV_RECEIVED: the receiver decides an arrived INV, stores its reply and sends it (R106, R112). -/
def execInvReceived (pkt : Nat) (s : State) : Host.Outcome State Fault Refusal :=
  .next (s.receive pkt 1 fun s bs =>
    let d := s.decideInv bs
    ((d.2.2.dropPacket pkt).storeReply bs d.1 d.2.1).reply bs d.1 d.2.1)

/-- The fate of a PUT (R104, R116): the reason of its refusal, or the state with its data written. -/
def State.decidePut (s : State) (bs : List Byte) : Except Nat State :=
  let part := natField (objNat bs 6 1) 2 0
  let tgt := objNat bs 12 4
  let ctx := natField tgt 13 8
  let c := s.context part ctx
  let off := objNat bs 16 4
  let len := objNat bs 20 1
  let w := c.windows.getD (natField tgt 7 0) {}
  let die := (s.clusters part).headD 0 / 32
  if !c.live then .error 10
  else if c.windows.length ≤ natField tgt 7 0 ∨ !w.dst then .error 11
  else if off % 4 ≠ 0 ∨ w.size < off + len then .error 12
  else match s.engWrite (receiverEng part ctx die) (w.base + off) ((bs.drop 32).take len) with
    | .ok s' => .ok s'
    | .wait _ | .bad _ _ => .error 13
    | .ue => .ok (s.engPoison (receiverEng part ctx die) 0xFFFF)

/-- PUT_RECEIVED: the receiver refuses a PUT, or writes its data (R106, R116). -/
def execPutReceived (pkt : Nat) (s : State) : Host.Outcome State Fault Refusal :=
  .next (s.receive pkt 2 fun s bs =>
    match s.decidePut bs with
    | .error r => ((s.dropPacket pkt).storeReply bs 4 r).reply bs 4 r
    | .ok s' => { s'.storeReply bs 0 0 with packets := Tab.modify s'.packets pkt (fun p => { p with landing := true }) })

/-- PUT_LANDED: the writes of a PUT are acknowledged: DSTARR rises and an ACK is sent (R116). -/
def execPutLanded (pkt : Nat) (s : State) : Host.Outcome State Fault Refusal :=
  match Tab.get? s.packets pkt with
  | none => .next s
  | some p =>
    let bs := p.bytes
    let part := natField (objNat bs 6 1) 2 0
    if p.landing then
      .next (((s.dropPacket pkt).bumpCount part (natField (objNat bs 12 4) 13 8) (natField (objNat bs 12 4) 7 0) 1).reply bs
        0 0)
    else .next s

/-- The reply to an unanswered packet taken by its source (R111, R120, R122). -/
def State.takeReply (s : State) (x : Sent) (part : Nat) (nack : Bool) (code reason : Nat) : State :=
  match x.main with
  | some (op, lane) =>
    (s.modOp op (fun o =>
      { o with
        res := o.res ++ [{ lane := lane, bytes := leBytes 4 (code + 256 * reason), tag := code }]
        body := match o.body with
          | .rinv t n => .rinv t (n - 1)
          | b => b })).finishOp x.op
  | none => (if nack then s.refusePut part x.ctx x.win reason else s.bumpCount part x.ctx x.win 0).finishOp x.op

/-- REPLY_RECEIVED: an ACK or NACK arrives at the source of its packet; one for no unanswered packet is ignored (R107,
R120, R122). -/
def execReplyReceived (pkt : Nat) (s : State) : Host.Outcome State Fault Refusal :=
  match Tab.get? s.packets pkt with
  | none => .next s
  | some p =>
    let bs := p.bytes
    let part := natField (objNat bs 6 1) 2 0
    let k := pairKey part (natField (objNat bs 4 2) 11 0) (natField (objNat bs 7 1) 2 0)
    let seq := BitVec.ofNat 32 (objNat bs 8 4)
    if objNat bs 0 1 < 3 ∨ natField (objNat bs 2 2) 11 0 ≠ s.pt.chipid then .next s
    else match (s.pair k).sent.find? (fun x => x.seq == seq), (s.func part).fabEn with
      | some x, true =>
        .next (((s.dropPacket pkt).modPair k (fun p => { p with sent := p.sent.filter (fun y => y.seq != seq) })).takeReply x
          part (objNat bs 0 1 == 4) (objNat bs 12 1 % 8) (objNat bs 13 1))
      | _, _ => .next (s.dropPacket pkt)

/-! ### Landing slots and batches -/

/-- LAND_SLOT_FILL: a FREE slot takes the head of the overflow ring (R113). -/
def execLandSlotFill (part q : Nat) (s : State) : Host.Outcome State Fault Refusal :=
  let x := s.queue part q
  let e := receiverEng part x.ctx x.die
  match x.inb.freeSlot, x.inb.waiting with
  | some k, order :: rest =>
    if !x.live || s.asSaved part x.ctx then .next s
    else match (s.engRead e (x.inb.ring + 128 * (x.inb.head % x.inb.rsize)) 128).andThen
        (fun bs => s.engWrite e (x.inb.land + 128 * k) bs) with
      | .ok s' =>
        .next (s'.modQueue part q (fun x =>
          { x with inb :=
              { x.inb with slots := Tab.put x.inb.slots k ⟨.held, order⟩, last := k, head := x.inb.head + 1, waiting := rest } }))
      | .ue => .next (s.engPoison e q)
      | .wait _ | .bad _ _ => .next s
  | _, _ => .next s

/-- The oldest HELD slot of a queue (R114). -/
def Inbound.oldest (b : Inbound) : Option (Nat × Nat) :=
  (b.slots.filter (fun l => l.2.state == .held)).foldl (fun r l =>
    match r with
    | none => some (l.1, l.2.order)
    | some o => if l.2.order < o.2 then some (l.1, l.2.order) else some o) none

/-- Whether two images belong to one batch: the same HANDLER, PRI, SB and SHARED bytes (R114). -/
def sameBatch (a b : List Byte) : Bool :=
  objNat a 16 2 == objNat b 16 2 && objNat a 1 1 % 4 == objNat b 1 1 % 4 && objNat a 19 1 == objNat b 19 1
    && (a.drop 32).take 64 == (b.drop 32).take 64

/-- The images of a run of HELD slots from one on that belong with a first image, at most so many. -/
def State.batchRun (s : State) (e : Eng) (b : Inbound) (first : List Byte) : Nat → Nat → List (List Byte)
  | 0, _ => []
  | n + 1, k =>
    if b.hwdepth ≤ k ∨ (Tab.getD b.slots k {}).state ≠ .held then []
    else match s.engRead e (b.land + 128 * k) 128 with
      | .ok bs => if sameBatch first bs then bs :: s.batchRun e b first n (k + 1) else []
      | .wait _ | .bad _ _ | .ue => []

/-- A batch that is ready (R114): the launch of its team, its PRI and the acceptance order of its first invocation. -/
def State.batch? (s : State) (part q : Nat) : Option (Launch × Nat × Nat) :=
  let x := s.queue part q
  let e := receiverEng part x.ctx x.die
  match x.inb.oldest with
  | none => none
  | some (k, order) =>
    match s.engRead e (x.inb.land + 128 * k) 128 with
    | .wait _ | .bad _ _ | .ue => none
    | .ok img =>
      let h := objNat img 16 2
      let helm := ((s.context part x.ctx).handlers.getD h {}).helm
      match Tab.getD x.inb.verdicts h none with
      | none => none
      | some (o, t) =>
        let imgs := s.batchRun e x.inb img (if 1 ≤ x.det then 1 else poolLanes helm * o.groupCount) k
        if !x.live || s.asSaved part x.ctx || imgs.isEmpty then none
        else some
          ({ src := .batch k imgs.length, part := part, ctx := x.ctx, queue := q, die := x.die, prio := x.prio
             realtime := x.realtime, det := x.det, trapen := x.trapen, code := o.addr, obj := o, hobj := t, helm := helm
             x := 1, y := 1, z := 1, recs := imgs.length, recBase := x.inb.land + 128 * k
             shared := (img.drop 32).take (8 * objNat img 19 1)
             laneArgs := imgs.map (fun b => (b.drop 96).take 32) }, objNat img 1 1 % 4, order)

/-- A batch launched and its team placed, where a unit takes it (R114). -/
def State.placeBatch (s : State) (part q : Nat) (l : Launch) : Option State :=
  match l.src with
  | .batch first count =>
    let s1 := (s.addLaunch l).modQueue part q (fun x =>
      { x with inb := { x.inb with slots := (List.range count).foldl (fun t k =>
          Tab.put t (first + k) { Tab.getD t (first + k) {} with state := .running }) x.inb.slots } })
    let gang := s.fresh + 1
    (match s1.target? gang with
    | none => none
    | some (u, _) =>
      match s1.serve gang u with
      | some (.ok s') => some s'
      | some (.wait _) | some (.bad _ _) | some .ue | none => none)
  | .node | .entry _ | .block _ _ _ => none

/-- HANDLER_BATCH_LAUNCH: the ready batch of a queue becomes a handler team, where no batch of its die that can be placed has a
higher PRI or, at the same PRI, an earlier first invocation (R114). -/
def execHandlerBatchLaunch (part q : Nat) (s : State) : Host.Outcome State Fault Refusal :=
  match s.batch? part q with
  | none => .next s
  | some (l, pri, order) =>
    let better := (Tab.keys s.queues).any (fun k =>
      k != 1024 * part + q && (match s.batch? (k / 1024) (k % 1024) with
        | none => false
        | some (m, p, o) => m.die == l.die && (decide (pri < p) || (p == pri && decide (o < order)))
            && (s.placeBatch (k / 1024) (k % 1024) m).isSome))
    match s.placeBatch part q l with
    | some s' => if better then .next s else .next s'
    | none => .next s

/-! ### The instructions -/

/-- One lane's destination in a route word: its chip and partition (R119). -/
def routeChip (w : Word) : Nat := natField w.toNat 11 0
def routePart (w : Word) : Nat := natField w.toNat 14 12

/-- Whether every pair that a list of lanes names has room for their packets, and cr for all of them (R105). -/
def State.remoteRoom (s : State) (g : Group) (dests : List Word) : Bool :=
  decide (g.counter 3 + dests.length ≤ 0xFFFF)
    && dests.all (fun w =>
      let k := pairKey g.part (routeChip w) (routePart w)
      decide ((s.pair k).sent.length
        + (dests.filter (fun v => pairKey g.part (routeChip v) (routePart v) == k)).length ≤ 256))

/-- One packet of the issuing group sent, counted in cr. -/
def State.sendCounted (s : State) (g : Group) (w : Word) (x : Sent) (mk : Word → List Byte) : State :=
  let op := s.fresh
  (s.startOp { group := s.curId, part := g.part, ctx := g.ctx, pc := g.slotPc, body := .packet, counter := some 3 }
    []).sendNew g.part (routeChip w) (routePart w) { x with op := op, ctx := g.ctx } mk

def execRinv (o : Slot) (n : BitVec 3) (pri : BitVec 2) (trp : Bool) (sr : BitVec 10) (k8 : BitVec 4) (s : State) :
    Host.Outcome State Fault Refusal :=
  issue (.rinv o n pri trp sr k8) s fun g ls s =>
    let rw := fun l => g.value o.b l
    let routed := fun l => !natBit (rw l).toNat 31 && s.hasRoute g.part (routeChip (rw l))
    let sending := ls.filter routed
    if 1 ≤ g.detlevel then .raise .detViol 0x310
    else if !(s.pendingOps (s.releaseWrites s.curId .sys)).isEmpty then
      .hold (.ops (s.pendingOps (s.releaseWrites s.curId .sys)))
    else if !s.remoteRoom g (sending.map rw) then .hold .room
    else
      withRoom g (g.slotFlag o) none
        (let main := s.fresh
        let shared := padTo 64 ((List.range (2 * k8.toNat)).map (fun j => leBytes 4 (g.readS (sr.toNat + j)).toNat)).flatten
        let pw := n.toNat + 1
        let refused := ls.filter (fun l => !routed l)
        let s1 := (s.markWrote g.team).startOp
          { group := s.curId, part := g.part, ctx := g.ctx, pc := g.slotPc, body := .rinv trp sending.length
            flag := g.slotFlag o, dest := o.d, destN := 1
            res := refused.map (fun l =>
              { lane := l, bytes := leBytes 4 (if natBit (rw l).toNat 31 then 0x904 else 0x804), tag := 4 }) }
          (match (Instr.rinv o n pri trp sr k8).form with
            | some f => formDests f
            | none => [])
        let send := fun (s : State) (l : Nat) =>
          s.sendCounted g (rw l) { main := some (main, l) } (fun seq =>
            packetHeader 1 pri.toNat (routeChip (rw l)) s.pt.chipid (routePart (rw l)) g.part seq (g.value o.c l)
              ++ leBytes 2 (natField (rw l).toNat 30 15) ++ leBytes 1 pw ++ leBytes 1 k8.toNat ++ leBytes 12 0
              ++ shared ++ padTo 32 (leBytes (4 * pw) (wordsNat (g.valueRun o.a pw l))))
        let s2 := sending.foldl send s1
        if trp then .acted s2 (.flags (g.slotFlag o).toList) else .done s2)

def execPut (o : Slot) (n : BitVec 3) (w : BitVec 8) (s : State) : Host.Outcome State Fault Refusal :=
  issue (.put o n w) s fun g ls s =>
    let rw := fun l => g.value o.c l
    let routed := fun l => decide ((rw l).toNat < 2 ^ 29) && s.hasRoute g.part (routeChip (rw l))
    let sending := ls.filter routed
    let wins := (s.context g.part g.ctx).windows
    if wins.length ≤ w.toNat ∨ !(wins.getD w.toNat {}).src then .raise .prot 2
    else if (s.team g.team).copyOf.isSome then .done s
    else if !(s.pendingOps (s.releaseWrites s.curId .sys)).isEmpty then
      .hold (.ops (s.pendingOps (s.releaseWrites s.curId .sys)))
    else if !s.remoteRoom g (sending.map rw) then .hold .room
    else
      let len := 4 * (n.toNat + 1)
      let s1 := (ls.filter (fun l => !routed l)).foldl (fun s l =>
        s.refusePut g.part g.ctx w.toNat (if decide ((rw l).toNat < 2 ^ 29) then 8 else 9)) (s.markWrote g.team)
      .done (sending.foldl (fun s l =>
        s.sendCounted g (rw l) { win := w.toNat } (fun seq =>
          packetHeader 2 0 (routeChip (rw l)) s.pt.chipid (routePart (rw l)) g.part seq
              (BitVec.ofNat 32 (natField (rw l).toNat 28 21 + 256 * natField (rw l).toNat 20 15))
            ++ leBytes 4 (g.value o.b l).toNat ++ leBytes 1 len ++ leBytes 11 0
            ++ padTo 32 (leBytes len (wordsNat (g.valueRun o.a (n.toNat + 1) l))))) s1)

/-- The counter that a form of WCNT reads (R111). -/
def wcntKind : WcntKind → Nat
  | .src => 0
  | .dst => 1
  | .ref => 2

def execWcnt (o : Slot) (kind : WcntKind) (s : State) : Host.Outcome State Fault Refusal :=
  issue (.wcnt o kind) s fun g ls s =>
    let win := (g.value o.a (ls.headD 0)).toNat
    let thr := g.value o.b (ls.headD 0)
    if (s.context g.part g.ctx).windows.length ≤ win then .raise .prot 3
    else
      let count := s.wcount g.part g.ctx win (wcntKind kind)
      if (count - thr).msb then .hold .room
      else match (Instr.wcnt o kind).form with
        | none => .done s
        | some f =>
          withRoom g (g.slotFlag o) none
            (.done (s.startResults g o f .engine 1 none (ls.map (fun l =>
              { lane := l, bytes := leBytes 4 (if g.detlevel = 0 then count else thr).toNat }))))

end Sys2Proof.Machine
end

