-- ==== Sys2Proof/Machine/Rays.lean ====
section
/-!
DEFINITION. Rays queued at subtrees: records, scenes, listings, visits, the pool and its queues, passes, batches, and
RAYBAT, RAYGEN, RAYPUT and RAYQRY (R328 to R352).
-/

namespace Sys2Proof.Machine

/-! ### Ray records -/

/-- Bytes with some of them replaced from an offset on. -/
def putBytes (bs : List Byte) (off : Nat) (new : List Byte) : List Byte :=
  bs.take off ++ new ++ bs.drop (off + new.length)

/-- The 128 bytes of a submitted ray (R328): ORIGIN to TMAX, INDEX, FLAGS, MASK, COOKIE and PAYADDR given. -/
def rayRecord (head : List Byte) (index flags mask cookie payaddr : Nat) : List Byte :=
  padTo 32 head ++ leBytes 4 index ++ leBytes 4 0 ++ leBytes 4 0xFFFFFFFF ++ leBytes 2 flags ++ leBytes 1 mask
    ++ leBytes 1 0 ++ leBytes 8 (2 ^ 64 - 1) ++ leBytes 4 0 ++ leBytes 4 0x7F800000 ++ leBytes 16 (2 ^ 128 - 1)
    ++ leBytes 4 0 ++ leBytes 4 cookie ++ leBytes 8 payaddr ++ leBytes 32 0

/-- The word of a record at an offset. -/
def recWord (r : List Byte) (off : Nat) : Word := BitVec.ofNat 32 (objNat r off 4)

/-- Three words of bytes as fractions, where all are finite. -/
def vec3? (r : List Byte) (off : Nat) : Option (List Frac) :=
  allSome ((List.range 3).map (fun k => wordFrac? (recWord r (off + 4 * k))))

/-- A ray's exact parameters. -/
structure RayPar where
  o : List Frac := []
  d : List Frac := []
  tmin : Frac := {}
  tmax : Frac := {}
  deriving DecidableEq, Repr, Inhabited

/-- A component of a vector. -/
def comp (v : List Frac) (k : Nat) : Frac := v.getD k {}

/-- The parameters of a valid ray; nothing for an invalid one (R332). -/
def rayPar? (r : List Byte) : Option RayPar :=
  match vec3? r 0, vec3? r 12, wordFrac? (recWord r 24), wordFrac? (recWord r 28) with
  | some o, some d, some a, some b => if d.all Frac.isZero || b.lt a then none else some ⟨o, d, a, b⟩
  | _, _, _, _ => none

/-- An interval of a ray's parameter. -/
structure Span where
  lo : Frac := {}
  hi : Frac := {}
  ok : Bool := true
  deriving DecidableEq, Repr, Inhabited

/-- The interval cut by one bound of a box on one axis: the position is at least, or at most, the bound (R332). -/
def Span.cut (sp : Span) (o d : Frac) (ge : Bool) (b : FVal) : Span :=
  match b with
  | .nan _ => { sp with ok := false }
  | .inf neg => if ge == neg then sp else { sp with ok := false }
  | .fin _ _ _ _ =>
    match b.frac? with
    | none => sp
    | some v =>
      if d.isZero then { sp with ok := sp.ok && (if ge then v.le o else o.le v) }
      else if ge != d.isNeg then { sp with lo := sp.lo.max ((v.sub o).div d) }
      else { sp with hi := sp.hi.min ((v.sub o).div d) }

/-- t_i: the least parameter at which a ray lies in a box (R332). -/
def boxEntry (p : RayPar) (box : List Word) : Option Frac :=
  let f := fun (k : Nat) => fpValue .f32 false (box.getD k 0).toNat
  let sp := (List.range 3).foldl (fun (sp : Span) k =>
    (sp.cut (comp p.o k) (comp p.d k) true (f k)).cut (comp p.o k) (comp p.d k) false (f (k + 3)))
    { lo := p.tmin, hi := p.tmax }
  if sp.ok && sp.lo.le sp.hi then some sp.lo else none

/-- The order of keys: by parameter, then by number (R332). -/
def keyLt (a b : Frac × Nat) : Bool := a.1.lt b.1 || (a.1 == b.1 && decide (a.2 < b.2))

/-- Insertion into a list in key order. -/
def insertKey (k : Frac × Nat) : List (Frac × Nat) → List (Frac × Nat)
  | [] => [k]
  | x :: xs => if keyLt k x then k :: x :: xs else x :: insertKey k xs

/-- A listing from a key: up to five subtrees, in key order (R332). -/
def listing (subs : List Subtree) (p : RayPar) (mask : Nat) (from_ : Option (Frac × Nat)) : List Nat :=
  let keys := subs.zipIdx.filterMap (fun x =>
    if x.1.mask &&& mask = 0 then none
    else match boxEntry p x.1.box with
      | none => none
      | some t => if from_.all (fun k => keyLt k (t, x.2)) then some (t, x.2) else none)
  ((keys.foldl (fun l k => insertKey k l) []).take 5).map Prod.snd

/-- A record bound for a listing's first subtree, with the rest to resume (R328, R332). -/
def bindListing (r : List Byte) (l : List Nat) : List Byte :=
  match l with
  | [] => r
  | x :: rest =>
    putBytes (putBytes (putBytes r 40 (leBytes 4 x)) 64
        ((rest.map (leBytes 4)).flatten ++ List.replicate (4 * (4 - rest.length)) 255)) 80 (leBytes 1 rest.length)

/-- A record with its STATE. -/
def withState (r : List Byte) (st : Nat) : List Byte := putBytes r 47 (leBytes 1 st)

/-- Whether a record has a hit: its HITPRIM is not all ones. -/
def hasHit (r : List Byte) : Bool := objNat r 48 8 != 2 ^ 64 - 1

/-- A completed record: no subtree is still to visit, so RESUME is empty (R328, R334). DEDUCED: log entry 31. -/
def noResume (r : List Byte) : List Byte := putBytes (putBytes r 64 (List.replicate 16 255)) 80 [0]

/-- A record completed as it stands: done-hit or done-miss. -/
def doneAs (r : List Byte) : List Byte := noResume (withState r (if hasHit r then 2 else 3))

/-! ### Images and visits -/

/-- A triangle of an image (R330). -/
structure Tri where
  v : List (Option Frac) := []
  prim : Nat := 0
  transp : Bool := false
  deriving DecidableEq, Repr, Inhabited

/-- A checked image: its root, its nodes as boxes and references, and its triangles. -/
structure RayImage where
  root : Nat := 0
  nodes : List (List (List Word × Nat)) := []
  tris : List Tri := []
  deriving DecidableEq, Repr, Inhabited

/-- The bytes of an image by its counts (R330). -/
def imageSize (nodes tris : Nat) : Nat := 64 + 128 * nodes + 48 * tris

/-- Whether a reference is legal: a leaf within the triangles, an inner one above a node, or empty (R330, R331). -/
def refOk (nodes tris above r : Nat) : Bool :=
  if natBit r 31 then natField r 30 24 != 0 && decide (natField r 23 0 + natField r 30 24 ≤ tris)
  else r == 0x7FFFFFFF || (natField r 30 24 == 0 && decide (above ≤ natField r 23 0) && decide (natField r 23 0 < nodes))

/-- Six words of a box at an offset. -/
def boxWords (bs : List Byte) (off : Nat) : List Word := (List.range 6).map (fun k => recWord bs (off + 4 * k))

/-- Whether a box holds a NaN. -/
def boxNaN (b : List Word) : Bool := b.any (fun w => (fpValue .f32 false w.toNat).isNaN)

/-- An image read from its bytes; nothing where it is malformed (R330, R331). -/
def parseImage (bs : List Byte) (limit : Nat) : Option RayImage :=
  let nodes := objNat bs 4 4
  let tris := objNat bs 8 4
  let root := objNat bs 12 4
  let nbs := pieces 128 nodes (bs.drop 64)
  let tbs := pieces 48 tris (bs.drop (64 + 128 * nodes))
  let node := fun (b : List Byte) => (List.range 4).map (fun k => (boxWords b (24 * k), objNat b (96 + 4 * k) 4))
  if objNat bs 0 4 ≠ 0x45455254 ∨ 32767 < nodes ∨ tris = 0 ∨ 87380 < tris ∨ limit < imageSize nodes tris
      ∨ objNat bs 16 48 ≠ 0 ∨ !refOk nodes tris 0 root
      ∨ nbs.any (fun b => objNat b 112 16 != 0)
      ∨ nbs.zipIdx.any (fun b => (node b.1).any (fun c => boxNaN c.1 || !refOk nodes tris (b.2 + 1) c.2))
      ∨ tbs.any (fun b => objNat b 36 8 % 16 != 0 || decide (2 ≤ objNat b 44 1) || objNat b 45 3 != 0) then none
  else some ⟨root, nbs.map node, tbs.map (fun b =>
    { v := (List.range 9).map (fun k => wordFrac? (recWord b (4 * k))), prim := objNat b 36 8
      transp := natBit (objNat b 44 1) 0 })⟩

/-- The leaves' triangles under a reference, each with the boxes on its path (R330). -/
def leafTris (nodes : List (List (List Word × Nat))) : Nat → List (List Word) → Nat → List (Nat × List (List Word))
  | 0, _, _ => []
  | fuel + 1, path, r =>
    if natBit r 31 then (List.range (natField r 30 24)).map (fun k => (natField r 23 0 + k, path))
    else if r = 0x7FFFFFFF then []
    else ((nodes.getD (natField r 23 0) []).map (fun c => leafTris nodes fuel (c.1 :: path) c.2)).flatten

/-- Whether a point's coordinate lies between two bounds. -/
def betweenBounds (x : Frac) (lo hi : FVal) : Bool :=
  (({ lo := x, hi := x } : Span).cut x {} true lo).ok && (({ lo := x, hi := x } : Span).cut x {} false hi).ok

/-- Whether a triangle lies wholly in a box. -/
def Tri.inside (t : Tri) (box : List Word) : Bool :=
  let f := fun (k : Nat) => fpValue .f32 false (box.getD k 0).toNat
  t.v.zipIdx.all (fun x => x.1.all (fun c => betweenBounds c (f (x.2 % 3)) (f (x.2 % 3 + 3))))

/-- The cross and the dot product. -/
def cross (a b : List Frac) : List Frac :=
  let m := fun (i j : Nat) => ((comp a i).mul (comp b j)).sub ((comp a j).mul (comp b i))
  [m 1 2, m 2 0, m 0 1]
def dot (a b : List Frac) : Frac :=
  (((comp a 0).mul (comp b 0)).add ((comp a 1).mul (comp b 1))).add ((comp a 2).mul (comp b 2))
def vsub (a b : List Frac) : List Frac := (List.range 3).map (fun k => (comp a k).sub (comp b k))

/-- A candidate's parameters t, u and v; nothing where the triangle is none (R333). -/
def Tri.candidate (t : Tri) (p : RayPar) (opaque_ cull : Bool) : Option (Frac × Frac × Frac) :=
  match allSome t.v with
  | none => none
  | some v =>
    let v0 := v.take 3
    let e1 := vsub ((v.drop 3).take 3) v0
    let e2 := vsub (v.drop 6) v0
    let n := cross e1 e2
    let nd := dot n p.d
    let r := vsub p.o v0
    if (t.transp && !opaque_) || nd.isZero || (cull && !nd.isNeg) then none
    else
      let det := nd.neg
      let tt := (dot r n).div det
      let u := (dot p.d (cross r e2)).neg.div det
      let w := (dot p.d (cross e1 r)).neg.div det
      if u.isNeg || w.isNeg || (Frac.ofNat 1).lt (u.add w) || tt.lt p.tmin || p.tmax.lt tt then none else some (tt, u, w)

/-- Whether a hit's pair of rounded distance and PRIM is less than another's (R333). -/
def hitLt (a b : Word × Nat) : Bool :=
  match wordFrac? a.1, wordFrac? b.1 with
  | some x, some y => x.lt y || (x == y && decide (a.2 < b.2))
  | some _, none => true
  | none, _ => false

/-- A fraction rounded to binary16. -/
def half (a : Frac) : Nat := (roundFmt .f16 a.val .rn false false 0).1

/-- A record with a candidate as its hit. -/
def takeHit (r : List Byte) (tri : Tri) (c : Frac × Frac × Frac) : List Byte :=
  putBytes r 48 (leBytes 8 tri.prim ++ leBytes 2 (half c.2.1) ++ leBytes 2 (half c.2.2) ++ leBytes 4 c.1.word.toNat)

/-- The candidates of a visit (R331, R333): below level 1 a triangle that does not lie wholly in every box of its path is found
or not as free values say. -/
def RayImage.candidates (im : RayImage) (p : RayPar) (r : List Byte) (det free : Nat) :
    List (Tri × (Frac × Frac × Frac)) :=
  let flags := objNat r 44 2
  ((leafTris im.nodes (im.nodes.length + 1) [] im.root).zipIdx.filterMap (fun x =>
    let tri := im.tris.getD x.1.1 {}
    if det = 0 && !(x.1.2.all tri.inside) && natBit (Config.freeValue free) x.2 then none
    else (tri.candidate p (natBit flags 0) (natBit flags 2)).map (fun c => (tri, c))))

/-- A visit of a subtree (R333): the record with its winner, and whether FIRST ended the ray at a candidate found. -/
def RayImage.visit (im : RayImage) (p : RayPar) (r : List Byte) (det free : Nat) : List Byte × Bool :=
  let cs := im.candidates p r det free
  let best := cs.foldl (fun r c =>
    if hasHit r && !hitLt (c.2.1.word, c.1.prim) (recWord r 60, objNat r 48 8) then r else takeHit r c.1 c.2) r
  match cs[Config.freeValue (free + 1) % (cs.length + 1)]? with
  | some c => if natBit (objNat r 44 2) 1 && det == 0 then (takeHit r c.1 c.2, true) else (best, false)
  | none => (best, false)

/-- The least binary32 value above a finite one, as a fraction; nothing above the greatest (R334). -/
def nextAbove (w : Word) : Option Frac :=
  let n := w.toNat
  wordFrac? (BitVec.ofNat 32 (if n % 2 ^ 31 = 0 then 1 else if n < 2 ^ 31 then n + 1 else n - 1))

/-- What follows a visit (R334): the next subtree with the record bound for it, or nothing where the ray completes. -/
def nextSubtree (subs : List Subtree) (p : RayPar) (x : Nat) (r : List Byte) : Option (Nat × List Byte) :=
  let cnt := objNat r 80 1
  let shifted := putBytes (putBytes (putBytes r 40 ((r.drop 64).take 4)) 64 ((r.drop 68).take 12 ++ leBytes 4 0xFFFFFFFF)) 80
    (leBytes 1 (cnt - 1))
  let key := ((boxEntry p (subs.getD x {}).box).getD p.tmin, x)
  let next : Option (Nat × List Byte) :=
    if 0 < cnt then some (objNat r 64 4, shifted)
    else match listing subs p (objNat r 46 1) (some key) with
      | [] => none
      | y :: l => some (y, bindListing r (y :: l))
  match next with
  | none => none
  | some (y, r') =>
    let far := hasHit r && (match nextAbove (recWord r 60), boxEntry p (subs.getD y {}).box with
      | some d, some t => d.lt t
      | _, _ => false)
    if far then none else some (y, withState r' 0)

/-! ### Accesses of the scheduler and the ray units -/

/-- What an access of ray work comes to (R228, R335, R342): done, lost (the driver's FAIL, a malformed entry or a refused
permission), waiting for an answer, or in need of a page request that names a group and the offset of its instruction. -/
inductive RayGot (α : Type)
  | ok (a : α)
  | lost
  | wait
  | need (asker : Nat × Nat) (p : PageRec)

def RayGot.andThen {α β : Type} (x : RayGot α) (f : α → RayGot β) : RayGot β :=
  match x with
  | .ok a => f a
  | .lost => .lost
  | .wait => .wait
  | .need g p => .need g p

/-- An access of ray work under a key of requests, naming a group and an instruction. -/
def State.rayTry {α : Type} (s : State) (who : Nat) (asker : Nat × Nat) (x : Except Refused α) : RayGot α :=
  match x with
  | .ok a => .ok a
  | .error (.bad _ _ _) => .lost
  | .error (.miss p) =>
    match s.answerOf who (p.page + 1) with
    | .wait => .wait
    | .fail => .lost
    | .go => if (s.func (s.group asker.1).part).prqBase = 0 then .lost else .need asker p

/-- The requests of a piece of ray work forgotten. -/
def State.rayDone (s : State) (who : Nat) : State :=
  { s with preqs := s.preqs.filter (fun x => !(x.2.who == who && x.2.kind == 2)) }

/-- The state after ray work that goes on, or that asks for a page and waits. -/
def State.rayRun (s : State) (who : Nat) (x : RayGot State) : State :=
  match x with
  | .ok s' => s'
  | .lost | .wait => s
  | .need g p => s.engineRequest g.1 g.2 who (p.page + 1) p

/-! ### Batches and completed rays -/

/-- A batch entry. -/
def State.batch (s : State) (k : Nat) : Batch := Tab.getD s.batches k {}
/-- The state with a listed batch changed. -/
def State.modBatch (s : State) (k : Nat) (f : Batch → Batch) : State := { s with batches := Tab.modify s.batches k f }
/-- A scene slot. -/
def State.scene (s : State) (k : Nat) : Scene := Tab.getD s.scenes k {}
/-- The state with a listed scene changed. -/
def State.modScene (s : State) (k : Nat) (f : Scene → Scene) : State := { s with scenes := Tab.modify s.scenes k f }
/-- A subtree's queue. -/
def Scene.queue (x : Scene) (i : Nat) : SQueue := Tab.getD x.queues i {}

/-- The handle of a batch entry at a generation (R328). -/
def batchHandle (key gen : Nat) : Nat := key + 65536 * gen

/-- A ray completed (R335, R344, R345): its result written whole, or lost with RAYRES; it is counted, and at level 0 its
record waits to be committed. `unit` translates. -/
def State.completeRay (s : State) (who unit key : Nat) (r : List Byte) : RayGot State :=
  let b := s.batch key
  let va := b.result + 128 * objNat r 32 4
  let node := if objNat r 47 1 = 2 then b.hitNode else b.missNode
  let count := fun (s : State) (lost : Bool) =>
    (s.modBatch key (fun b =>
      { b with
        completed := b.completed + 1
        hits := if objNat r 47 1 = 2 then b.hits + 1 else b.hits
        lost := if lost then b.lost ++ [objNat r 32 4] else b.lost
        recs := if lost || b.det != 0 || node == 0xFF then b.recs else b.recs ++ [(node, objNat r 32 4, r)] })).modScene
      b.scene (fun x => { x with held := x.held - 1 })
  match s.rayTry who (b.group, b.pc) (s.writeRange unit b.part b.ctx va r) with
  | .ok s' => .ok (count s' false)
  | .lost => .ok (count (s.ctxEvent b.part b.ctx 11 (objNat r 32 4) va) true)
  | .wait => .wait
  | .need g p => .need g p

/-- The blocks of a scene's half on a die (R336). -/
def Scene.half (x : Scene) (die : Nat) : List Nat := (List.range (x.blocks / 2)).map (fun k => die * (x.blocks / 2) + k)

/-- The lowest free block of a scene's half: in no queue and in no pass. -/
def State.freeBlock (s : State) (k : Nat) : Option Nat :=
  let x := s.scene k
  let used := (x.queues.map (fun q => q.2.blocks.map Prod.fst)).flatten
    ++ ((s.passes.filter (fun p => p.2.scene == k)).map (fun p => (p.2.blocks ++ p.2.broken).map Prod.fst)).flatten
  (x.half (k / 16)).find? (fun b => !used.contains b)

/-- A record of a pool block. -/
def Scene.recAt (x : Scene) (block i : Nat) : Nat := x.pool + 4096 * block + 128 * i

/-- A ray appended to a subtree's queue (R336, R338, R340): into the partly filled tail block, or into a new one linked behind
it. A ray for which the pool cannot be written completes as it stands, with RAYPOOL. -/
def State.appendRay (s : State) (who unit key sub : Nat) (r : List Byte) : RayGot State :=
  let b := s.batch key
  let k := b.scene
  let x := s.scene k
  let q := x.queue sub
  let put := fun (s : State) (q : SQueue) =>
    s.modScene k (fun x => { x with queues := Tab.set {} x.queues sub q })
  let fail := fun (_ : Unit) => (s.ctxEvent b.part b.ctx 7 sub x.addr).completeRay who unit key (doneAs r)
  let write := fun (s : State) (blk i : Nat) => s.rayTry who (b.group, b.pc) (s.writeRange unit b.part b.ctx (x.recAt blk i) r)
  let fresh := fun (s : State) =>
    match s.freeBlock k with
    | none => fail ()
    | some nb =>
      match write s nb 0 with
      | .ok s' => .ok (put s' { q with blocks := q.blocks ++ [(nb, 1)] })
      | .lost => fail ()
      | .wait => .wait
      | .need g p => .need g p
  match q.blocks.getLast? with
  | none => fresh s
  | some (blk, n) =>
    if n < 32 then
      match write s blk n with
      | .ok s' => .ok (put s' { q with blocks := q.blocks.dropLast ++ [(blk, n + 1)] })
      | .lost => fail ()
      | .wait => .wait
      | .need g p => .need g p
    else
      match s.freeBlock k with
      | none => fail ()
      | some nb =>
        match s.rayTry who (b.group, b.pc) (s.writeRange unit b.part b.ctx (x.links + 4 * blk) (leBytes 4 nb)) with
        | .ok s' => fresh s'
        | .lost => fail ()
        | .wait => .wait
        | .need g p => .need g p

/-- One submitted ray listed and queued, or completed at submission (R332, R350). -/
def State.submitRay (s : State) (who unit key : Nat) (r : List Byte) (off : Bool) : RayGot State :=
  let miss := fun (_ : Unit) => s.completeRay who unit key (withState r 3)
  if off then miss ()
  else match rayPar? r with
    | none => miss ()
    | some p =>
      match listing (s.scene (s.batch key).scene).subs p (objNat r 46 1) none with
      | [] => miss ()
      | y :: l => s.appendRay who unit key y (withState (bindListing r (y :: l)) 0)

/-- Submitted rays listed and queued in order. -/
def State.submitRays (s : State) (who unit key : Nat) : List (List Byte × Bool) → RayGot State
  | [] => .ok s
  | (r, off) :: rest => (s.submitRay who unit key r off).andThen fun s => s.submitRays who unit key rest

/-- The rays of an operation listed and queued: part of WRITE_ACKNOWLEDGED; cx falls after the last (R350, R351). -/
def State.raysDone (s : State) (id : Nat) (op : Op) (key : Nat) (recs : List (List Byte × Bool)) : State :=
  s.rayRun id ((s.submitRays id (s.group op.group).unit key recs).andThen fun s => .ok ((s.rayDone id).finishOp id))

/-! ### Opening a batch -/

/-- A scene loaded from memory (R329, R331, R336, R349): the scene, or the status that refuses it. -/
def State.loadScene (s : State) (who group pc addr : Nat) : RayGot (Except Nat Scene) :=
  let g := s.group group
  let rd := fun (va n : Nat) => s.rayTry who (group, pc) (s.readRange g.unit g.part g.ctx va n)
  let seven := fun (x : RayGot (Except Nat Scene)) =>
    match x with
    | .lost => RayGot.ok (.error 7)
    | y => y
  seven ((rd addr 64).andThen fun h =>
    let n := objNat h 4 4
    let blocks := objNat h 16 4
    (rd (addr + 64) (if 4096 < n then 0 else 48 * n)).andThen fun body =>
      let es := pieces 48 (if 4096 < n then 0 else n) body
      if addr % 64 ≠ 0 ∨ objNat h 0 4 ≠ 0x4E454353 ∨ n = 0 ∨ 4096 < n ∨ blocks % 2 ≠ 0 ∨ blocks < 2 ∨ 2 ^ 20 < blocks
          ∨ objNat h 8 8 % 4096 ≠ 0 ∨ objNat h 24 8 % 4 ≠ 0 ∨ objNat h 20 4 ≠ 0 ∨ objNat h 32 32 ≠ 0
          ∨ es.any (fun e => objNat e 24 8 % 4096 != 0 || objNat e 37 11 != 0 || boxNaN (boxWords e 0)) then .ok (.error 1)
      else if blocks < 2 * (n + 33) then .ok (.error 2)
      else .ok (.ok { part := g.part, ctx := g.ctx, addr := addr, pool := objNat h 8 8, blocks := blocks
                      links := objNat h 24 8
                      subs := es.map (fun e => ⟨boxWords e 0, objNat e 24 8, objNat e 32 4, objNat e 36 1⟩) }))

/-- The slot of a die that holds a scene, and the lowest free one. -/
def State.sceneSlot (s : State) (die part ctx addr : Nat) : Option Nat :=
  ((List.range 16).map (16 * die + ·)).find? (fun k =>
    (Tab.get? s.scenes k).any (fun x => x.part == part && x.ctx == ctx && x.addr == addr))
def State.freeScene (s : State) (die : Nat) : Option Nat :=
  ((List.range 16).map (16 * die + ·)).find? (fun k => (Tab.get? s.scenes k).isNone)
/-- A free batch entry of a die. -/
def State.freeBatch (s : State) (die : Nat) : Option Nat :=
  ((List.range 256).map (256 * die + ·)).find? (fun k => !(s.batch k).held)

/-- Whether a node may take a batch's records (R349). -/
def State.rayNodeOk (s : State) (g : Group) (n : Nat) : Bool :=
  n == 0xFF || (match s.groupNode g with
    | none => false
    | some (i, own) => (s.inst i).targetOk own n && decide (32 ≤ ((s.inst i).node n).recBytes))

/-- The statuses of a descriptor before its scene is read, in their order (R349). -/
def State.openStatus (s : State) (g : Group) (d : List Byte) : Nat :=
  let die := coreDie g.core
  if objNat d 22 10 ≠ 0 ∨ objNat d 16 4 = 0 ∨ 2 ^ 24 < objNat d 16 4 then 6
  else if objNat d 8 8 % 128 ≠ 0 then 4
  else if !s.rayNodeOk g (objNat d 20 1) || !s.rayNodeOk g (objNat d 21 1) then 3
  else if !(s.clusters g.part).any (fun c => c / 32 == die && natBit (s.func g.part).rayStage (s.relUnit c)) then 5
  else 0

/-- A slot's open resolved with a status and an entry. -/
def State.resolveOpen (s : State) (op : Nat) (x : Op) (slot status : Nat) (entry : Option Nat) : State :=
  (((s.rayDone op).modTeam (s.group x.group).team (fun t =>
    { t with batches := Tab.put t.batches slot { status := status, entry := entry } })).finishOp op)

/-- A batch bound to a free entry, with its scene in a slot (R343). -/
def State.bindBatch (s : State) (op : Nat) (x : Op) (slot entry scene : Nat) (d : List Byte) : State :=
  let g := s.group x.group
  let b : Batch :=
    { gen := ((s.batch entry).gen + 1) % 65536, held := true, part := g.part, ctx := g.ctx, team := g.team, group := x.group
      pc := x.pc, det := g.detlevel, scene := scene, result := objNat d 8 8, count := objNat d 16 4, hitNode := objNat d 20 1
      missNode := objNat d 21 1, order := s.fresh }
  ({ s with batches := Tab.put s.batches entry b }.tick).resolveOpen op x slot 0 (some entry)

/-- BATCH_OPEN_DONE: an open in flight resolves, once a batch entry and a scene slot are free (R349). -/
def execBatchOpenDone (op : Nat) (s : State) : Host.Outcome State Fault Refusal :=
  match Tab.get? s.ops op with
  | none => .next s
  | some x =>
    match x.body with
    | .rayOpen slot desc =>
      let g := s.group x.group
      let die := coreDie g.core
      match s.freeBatch die with
      | none => .next s
      | some entry =>
        match s.rayTry op (x.group, x.pc) (s.readRange g.unit g.part g.ctx desc 32) with
        | .wait => .next s
        | .need gr p => .next (s.rayRun op (.need gr p))
        | .lost => .next (s.resolveOpen op x slot 7 none)
        | .ok d =>
          if s.openStatus g d ≠ 0 then .next (s.resolveOpen op x slot (s.openStatus g d) none)
          else match s.sceneSlot die g.part g.ctx (objNat d 0 8), s.freeScene die with
            | some k, _ => .next (s.bindBatch op x slot entry k d)
            | none, none => .next s
            | none, some k =>
              (match s.loadScene op x.group x.pc (objNat d 0 8) with
              | .wait | .lost => .next s
              | .need gr p => .next (s.rayRun op (.need gr p))
              | .ok (.error st) => .next (s.resolveOpen op x slot st none)
              | .ok (.ok sc) => .next ({ s with scenes := Tab.put s.scenes k sc }.bindBatch op x slot entry k d))
    | _ => .next s

/-- A batch entry freed; its scene is freed when no batch of it remains (R336, R349). -/
def State.closeBatch (s : State) (entry : Nat) : State :=
  let k := (s.batch entry).scene
  let s1 := s.modBatch entry (fun b => { gen := b.gen })
  if s1.batches.any (fun b => b.2.held && b.2.scene == k) then s1 else { s1 with scenes := Tab.erase s1.scenes k }

/-! ### Passes -/

/-- Whether a queue is in a pass. -/
def State.inPass (s : State) (k sub : Nat) : Bool := s.passes.any (fun p => p.2.scene == k && p.2.sub == sub)

/-- The WAITING queues of a die's live scenes: scene slot, subtree and queue (R340). -/
def State.waitingQueues (s : State) (die : Nat) : List (Nat × Nat × SQueue) :=
  ((s.scenes.filter (fun x => x.1 / 16 == die && !(s.context x.2.part x.2.ctx).saved)).map (fun x =>
    (x.2.queues.filter (fun q => !q.2.blocks.isEmpty && !s.inPass x.1 q.1)).map (fun q => (x.1, q.1, q.2)))).flatten

/-- The rays of a queue. -/
def SQueue.rays (q : SQueue) : Nat := (q.blocks.map Prod.snd).sum

/-- Whether the scheduler chooses one queue before another (R341); `old` says that some queue has an age of 63 or more. -/
def chosenBefore (old : Bool) (a b : Nat × Nat × SQueue) : Bool :=
  let w := fun (x : Nat × Nat × SQueue) => if old then x.2.2.age else x.2.2.rays
  decide (w b < w a) || (w a == w b && (decide (a.1 < b.1) || (a.1 == b.1 && decide (a.2.1 < b.2.1))))

/-- The first choice of a list of queues. -/
def firstChoice (old : Bool) : List (Nat × Nat × SQueue) → Option (Nat × Nat × SQueue)
  | [] => none
  | x :: xs =>
    match firstChoice old xs with
    | none => some x
    | some y => if chosenBefore old x y then some x else some y

/-- The blocks taken from a queue's head by following the link words (R336): those taken, and those behind a link outside the
die's half. -/
def State.takeBlocks (s : State) (who unit : Nat) (asker : Nat × Nat) (k : Nat) (x : Scene) (b : Nat × Nat) :
    List (Nat × Nat) → RayGot (List (Nat × Nat) × List (Nat × Nat))
  | [] => .ok ([b], [])
  | c :: rest =>
    match s.rayTry who asker (s.readRange unit x.part x.ctx (x.links + 4 * b.1) 4) with
    | .wait => .wait
    | .need g p => .need g p
    | .lost => .ok ([b], c :: rest)
    | .ok w =>
      if (x.half (k / 16)).contains (leNat w) then
        (s.takeBlocks who unit asker k x (leNat w, c.2) rest).andThen fun r => .ok (b :: r.1, r.2)
      else .ok ([b], c :: rest)

/-- The addresses of the records of blocks. -/
def Scene.records (x : Scene) (bs : List (Nat × Nat)) : List Nat :=
  (bs.map (fun b => (List.range b.2).map (x.recAt b.1))).flatten

/-- STATE set in records of the pool. -/
def State.markRays (s : State) (who unit : Nat) (asker : Nat × Nat) (x : Scene) : List Nat → RayGot State
  | [] => .ok s
  | va :: rest =>
    match s.rayTry who asker (s.writeRange unit x.part x.ctx (va + 47) [1]) with
    | .ok s' => s'.markRays who unit asker x rest
    | .lost => s.markRays who unit asker x rest
    | .wait => .wait
    | .need g p => .need g p

/-- The batch opened first of two. -/
def olderBatch (r : Option Batch) (b : Nat × Batch) : Option Batch :=
  match r with
  | none => some b.2
  | some c => if b.2.order < c.order then some b.2 else some c

/-- The opening group of the oldest batch of a scene slot, with its RAYBAT's offset. -/
def State.sceneGroup (s : State) (k : Nat) : Nat × Nat :=
  let b := ((s.batches.filter (fun b => b.2.held && b.2.scene == k)).foldl olderBatch none).getD {}
  (b.group, b.pc)

/-- The key of the requests of a stage cluster's passes. -/
def passWho (cluster : Nat) : Nat := 2 ^ 45 + cluster

/-- RAY_PASS_CHOOSE: a free stage cluster takes whole blocks, up to 4,096 rays, of the queue that R341 chooses (R336, R340,
R341). -/
def execRayPassChoose (cluster : Nat) (s : State) : Host.Outcome State Fault Refusal :=
  let part := Tab.getD s.pt.unit (cluster / 4) 0
  let die := cluster / 32
  let who := passWho cluster
  let all := s.waitingQueues die
  let mine := all.filter (fun x => (s.scene x.1).part == part)
  let old := mine.any (fun x => decide (63 ≤ x.2.2.age))
  if 64 ≤ cluster ∨ !natBit (s.func part).rayStage (s.relUnit cluster) ∨ (Tab.get? s.passes cluster).isSome
      ∨ (s.func part).halted then .next s
  else match firstChoice old mine with
    | none => .next s
    | some (k, sub, q) =>
      let x := s.scene k
      .next (s.rayRun who ((s.takeBlocks who cluster (s.sceneGroup k) k x (q.blocks.headD (0, 0))
          ((q.blocks.take 128).drop 1)).andThen fun t =>
        (s.markRays who cluster (s.sceneGroup k) x (x.records t.1)).andThen fun s =>
          let aged := all.foldl (fun s y =>
            if y.1 = k ∧ y.2.1 = sub then s
            else s.modScene y.1 (fun x =>
              { x with queues := Tab.set {} x.queues y.2.1 { y.2.2 with age := y.2.2.age + 1 } })) s
          .ok ({ (aged.rayDone who).modScene k (fun x =>
                  { x with queues := Tab.set {} x.queues sub { blocks := q.blocks.drop 128 } }) with
                passes := Tab.put s.passes cluster { scene := k, sub := sub, blocks := t.1, broken := t.2 } })))

/-- The batch of a record, where it is one of a scene slot (R336). -/
def State.recBatch (s : State) (k : Nat) (r : List Byte) : Option Nat :=
  let h := objNat r 36 4
  let key := h % 512
  let b := s.batch key
  if b.held && b.scene == k && b.gen == h / 65536 && h / 512 % 128 == 0 then some key else none

/-- Records read from the pool, with whether each is uncorrectable; one that cannot be read is left out. -/
def State.readRays (s : State) (who unit : Nat) (asker : Nat × Nat) (x : Scene) : List Nat → RayGot (List (List Byte × Bool))
  | [] => .ok []
  | va :: rest =>
    match s.rayTry who asker (s.range unit x.part x.ctx va 128 false) with
    | .wait => .wait
    | .need g p => .need g p
    | .lost => s.readRays who unit asker x rest
    | .ok ps => (s.readRays who unit asker x rest).andThen fun l =>
        .ok ((s.bytesAt ps, s.readsPoison (ps.map Prod.snd)) :: l)

/-- One ray of a pass (R333 to R335, R342): completed, or collected for the next subtree. Where there is no image it completes
as it stood. -/
def State.passRay (s : State) (who unit k sub : Nat) (im : Option RayImage) (r : List Byte) (bad : Bool) :
    RayGot (State × Option (Nat × Nat × List Byte)) :=
  match s.recBatch k r with
  | none => .ok (s.modScene k (fun x => { x with held := x.held - 1 }), none)
  | some key =>
    let b := s.batch key
    let done := fun (s : State) (r : List Byte) => (s.completeRay who unit key r).andThen fun s => .ok (s, none)
    if bad then
      (s.completeRay who unit key (noResume (withState r 3))).andThen fun s => .ok (s.consumeUE b.group b.pc true, none)
    else match im, rayPar? r with
      | some im, some p =>
        let v := im.visit p r b.det s.fresh
        let s := { s with fresh := s.fresh + 2 }
        if v.2 then done s (doneAs v.1)
        else match nextSubtree (s.scene k).subs p sub v.1 with
          | none => done s (doneAs v.1)
          | some (y, r') => .ok (s, some (key, y, r'))
      | _, _ => done s (doneAs r)

/-- The rays of a pass in order, with those that leave. -/
def State.passRays (s : State) (who unit k sub : Nat) (im : Option RayImage) :
    List (List Byte × Bool) → List (Nat × Nat × List Byte) → RayGot (State × List (Nat × Nat × List Byte))
  | [], out => .ok (s, out)
  | (r, bad) :: rest, out =>
    (s.passRay who unit k sub im r bad).andThen fun x => x.1.passRays who unit k sub im rest (out ++ x.2.toList)

/-- The leavers of a pass spilled in order (R338). -/
def State.spill (s : State) (who unit : Nat) : List (Nat × Nat × List Byte) → RayGot State
  | [] => .ok s
  | (key, y, r) :: rest => (s.appendRay who unit key y r).andThen fun s => s.spill who unit rest

/-- The image of a pass streamed (R331, R342): nothing where it is malformed or cannot be read. -/
def State.passImage (s : State) (who unit : Nat) (asker : Nat × Nat) (x : Scene) (sub : Nat) : RayGot (Option RayImage) :=
  let t := x.subs.getD sub {}
  let rd := fun (n : Nat) => s.rayTry who asker (s.range unit x.part x.ctx t.image n false)
  let none_ := fun (y : RayGot (Option RayImage)) =>
    match y with
    | .lost => RayGot.ok none
    | z => z
  none_ ((rd 64).andThen fun hp =>
    let h := s.bytesAt hp
    let n := imageSize (objNat h 4 4) (objNat h 8 4)
    if t.bytes < n then .ok none
    else (rd n).andThen fun ps =>
      if s.readsPoison (ps.map Prod.snd) then .ok none else .ok (parseImage (s.bytesAt ps) t.bytes))

/-- RAY_PASS: the pass of a stage cluster streams its image, traverses its rays, writes results and spills leavers (R333 to
R338, R342). -/
def execRayPass (cluster : Nat) (s : State) : Host.Outcome State Fault Refusal :=
  match Tab.get? s.passes cluster with
  | none => .next s
  | some p =>
    let k := p.scene
    let x := s.scene k
    let who := passWho cluster
    let g := s.sceneGroup k
    if (s.func x.part).halted then .next s
    else
      .next (s.rayRun who ((s.passImage who cluster g x p.sub).andThen fun im =>
        (s.readRays who cluster g x (x.records p.blocks)).andThen fun rs =>
          (s.readRays who cluster g x (x.records p.broken)).andThen fun bs =>
            let s0 := if im.isNone && !rs.isEmpty then s.ctxEvent x.part x.ctx 6 p.sub x.addr else s
            let s1 := if p.broken.isEmpty then s0 else s0.ctxEvent x.part x.ctx 7 p.sub x.addr
            (s1.passRays who cluster k p.sub im rs []).andThen fun r =>
              (r.1.passRays who cluster k p.sub none (bs.map (fun b => (withState (putBytes b.1 48 (leBytes 8 (2 ^ 64 - 1))) 3,
                b.2))) []).andThen fun r2 =>
                (({ r2.1 with passes := Tab.erase r2.1.passes cluster }).spill who cluster r.2).andThen fun s =>
                  .ok (s.rayDone who)))

/-! ### The end of a batch -/

/-- The bytes of a record made from a result (R345). -/
def hitRecord (va recBytes : Nat) (r : List Byte) : List Byte :=
  padTo recBytes (leBytes 8 va ++ (r.drop 32).take 96)

/-- The records of a completed batch at level 1 and above, from its result array, by node in ascending INDEX (R345). -/
def State.reapBatch (s : State) (who key : Nat) : List Nat → RayGot (List (Nat × Nat × List Byte))
  | [] => .ok []
  | i :: rest =>
    let b := s.batch key
    if b.lost.contains i then s.reapBatch who key rest
    else match s.rayTry who (b.group, b.pc) (s.readRange (s.group b.group).unit b.part b.ctx (b.result + 128 * i) 128) with
      | .wait => .wait
      | .need g p => .need g p
      | .lost => s.reapBatch who key rest
      | .ok r =>
        let node := if objNat r 47 1 = 2 then b.hitNode else if objNat r 47 1 = 3 then b.missNode else 0xFF
        (s.reapBatch who key rest).andThen fun l => .ok (if node = 0xFF then l else (node, i, r) :: l)

/-- The key of the requests of a batch's records. -/
def batchWho (key : Nat) : Nat := 2 ^ 46 + key

/-- One record of a batch reserved, written and committed (R345). -/
def State.commitRay (s : State) (key node index : Nat) (r : List Byte) : RayGot State :=
  let b := s.batch key
  let g := s.group b.group
  let who := batchWho key
  let drop := fun (s : State) (n : Nat) => (s.rayDone who).modBatch key (fun b => { b with recs := b.recs.drop n })
  match s.groupNode g with
  | none => .ok (drop s 1)
  | some (i, _) =>
    match State.reserveRun i node g.producer 1 s with
    | some (s1, [a]) =>
      (match s1.rayTry who (b.group, b.pc) (s1.writeRange g.unit b.part b.ctx a
          (hitRecord (b.result + 128 * index) ((s.inst i).node node).recBytes r)) with
      | .ok s2 => .ok (((drop s2 1).modTeam b.team (fun t => { t with committed := true })).commitRec i a |>.settleInst i)
      | .lost => .ok ((drop s1 1).commitRec i a |>.settleInst i)
      | .wait => .wait
      | .need g p => .need g p)
    | _ =>
      if 1 ≤ b.det then .ok ((drop s b.recs.length).engineFault b.group b.pc .recpool 6)
      else .ok (s.drySeal i)

/-- RAY_RECORD_COMMIT: the next hit or miss record of a batch is reserved and committed; at level 1 and above not before every
ray is complete (R345). -/
def execRayRecordCommit (die entry : Nat) (s : State) : Host.Outcome State Fault Refusal :=
  let key := 256 * die + entry
  let b := s.batch key
  let who := batchWho key
  if !b.held ∨ (s.context b.part b.ctx).saved ∨ (s.func b.part).halted then .next s
  else match b.recs with
    | (node, index, r) :: _ => .next (s.rayRun who (s.commitRay key node index r))
    | [] =>
      if b.det = 0 ∨ b.reaped ∨ b.completed < b.count then .next s
      else .next (s.rayRun who ((s.reapBatch who key (List.range b.count)).andThen fun l =>
        .ok ((s.rayDone who).modBatch key (fun b =>
          { b with reaped := true
                   recs := l.filter (fun x => x.1 == min b.hitNode b.missNode)
                     ++ l.filter (fun x => x.1 != min b.hitNode b.missNode) }))))

/-- RAY_BATCH_COMPLETE: a batch whose rays are all completed and whose records are all committed is complete, and the waits
for it have their results (R344, R352). -/
def execRayBatchComplete (die entry : Nat) (s : State) : Host.Outcome State Fault Refusal :=
  let key := 256 * die + entry
  let b := s.batch key
  if !b.held ∨ b.complete ∨ b.completed < b.count ∨ !b.recs.isEmpty
      ∨ (b.det ≠ 0 ∧ !b.reaped ∧ (b.hitNode ≠ 0xFF ∨ b.missNode ≠ 0xFF)) then .next s
  else
    let s1 := s.modBatch key (fun b => { b with complete := true })
    .next { s1 with ops := s1.ops.map (fun x =>
      if x.2.body = .rayWait key then
        (x.1, { x.2 with body := .engine, res := [{ lane := 0, bytes := leBytes 4 b.hits ++ leBytes 4 0 }] })
      else x) }

/-! ### The instructions -/

/-- A fault of a check on a slot (R348). -/
def rayProt (sub lane : Nat) : Eff := .raise .prot (BitVec.ofNat 32 (0x0B + 256 * lane + 65536 * sub))

/-- A batch slot of a group's team. -/
def State.batchSlot (s : State) (g : Group) (k : Nat) : Option BatchSlot := Tab.get? (s.team g.team).batches k

def execRaybatOpen (o : Slot) (s : State) : Host.Outcome State Fault Refusal :=
  issue (.raybatOpen o) s fun g ls s =>
    let k := (g.value o.a (ls.headD 0)).toNat
    let a := (g.value64 o.b (ls.headD 0)).toNat
    if 3 < k then rayProt 1 0
    else if (s.batchSlot g k).isSome then rayProt 8 0
    else if a % 32 ≠ 0 then .raise .align (laneInfo 0x3A 0) a
    else match s.range g.unit g.part g.ctx a 32 false with
      | .error (.bad c r va) => .raise c (laneInfo r 0) va
      | .error (.miss p) => .miss p
      | .ok _ =>
        withRoom g none (some 4)
          (.done (((s.markWrote g.team).modTeam g.team (fun t =>
              { t with batches := Tab.put t.batches k { opening := true } })).startOp
            { group := s.curId, part := g.part, ctx := g.ctx, pc := g.slotPc, body := .rayOpen k a, counter := some 4 } []))

def execRaybatClose (o : Slot) (s : State) : Host.Outcome State Fault Refusal :=
  issue (.raybatClose o) s fun g ls s =>
    let k := (g.value o.a (ls.headD 0)).toNat
    if 3 < k then rayProt 1 0
    else match s.batchSlot g k with
      | none => rayProt 2 0
      | some b =>
        let clear := fun (s : State) => s.modTeam g.team (fun t => { t with batches := Tab.erase t.batches k })
        if b.opening then .hold .room
        else match b.entry with
          | none => .done (clear s)
          | some e => if (s.batch e).complete then .done ((clear s).closeBatch e) else .hold .room

/-- A slot for a submission: its batch entry, or what the slot's state does to the instruction (R348). -/
def State.raySlot (s : State) (g : Group) (k : Nat) : Except Eff Nat :=
  if 3 < k then .error (rayProt 1 0)
  else match s.batchSlot g k with
    | none => .error (rayProt 2 0)
    | some b =>
      if b.opening then .error (.hold .room)
      else match b.entry with
        | none => .error (rayProt 3 0)
        | some e => .ok e

/-- The lowest lane of a submission that its batch refuses, with the sub-code (R348): lane, INDEX and FLAGS in order. -/
def rayFate (b : Batch) : Nat → List (Nat × Nat × Nat) → Option (Nat × Nat)
  | _, [] => none
  | n, (lane, index, flags) :: rest =>
    if b.count ≤ index then some (4, lane)
    else if b.count < b.submitted + n + 1 then some (5, lane)
    else if flags / 8 ≠ 0 then some (6, lane)
    else rayFate b (n + 1) rest

/-- Whether a producer's rays are admitted (R337): the cap admits them all, and no earlier producer waits. -/
def Scene.admits (x : Scene) (id n : Nat) : Bool :=
  decide (x.held + n ≤ 32 * (x.blocks / 2 - x.subs.length - 32)) && (x.waiting.head?.all (fun w => w.1 == id))

/-- Rays submitted by the issuing group, where the batch's scene admits them; a re-executed copy's count at once and reach no
queue (R337, R350, R351, R409, R410). -/
def State.submit (s : State) (g : Group) (key : Nat) (recs : List (List Byte × Bool)) : Eff :=
  let b := s.batch key
  let x := s.scene b.scene
  let id := s.curId
  let waits := s.pendingOps (s.releaseWrites id .dev)
  if !waits.isEmpty then .hold (.ops waits)
  else
    let noted := recs.foldl (fun s r => s.noteStore id ⟨0, 0, 6, 0, r.1⟩) s
    if (s.team g.team).copyOf.isSome then
      .done (noted.modBatch key (fun b =>
        { b with submitted := b.submitted + recs.length, completed := b.completed + recs.length }))
    else if !x.admits id recs.length then
      .held (s.modScene b.scene (fun x =>
        { x with waiting := if x.waiting.any (fun w => w.1 == id) then x.waiting else x.waiting ++ [(id, recs.length)] })) .room
    else withRoom g none (some 4)
      (.done ((((noted.markWrote g.team).modScene b.scene (fun x =>
          { x with held := x.held + recs.length, waiting := x.waiting.filter (fun w => w.1 != id) })).modBatch key (fun b =>
          { b with submitted := b.submitted + recs.length })).startOp
        { group := id, part := g.part, ctx := g.ctx, pc := g.slotPc, counter := some 4
          body := .rays key (recs.map (fun r => (putBytes r.1 36 (leBytes 4 (batchHandle key b.gen)), r.2))) } []))

/-- RAY_ADMIT: the first waiting producer of a scene is admitted once the cap admits its rays (R337). -/
def execRayAdmit (g : Nat) (s : State) : Host.Outcome State Fault Refusal :=
  if s.scenes.any (fun x => x.2.waiting.head?.any (fun w => w.1 == g && x.2.admits g w.2))
      && (s.group g).wait.any (fun w => w.why == .room) then .next (s.endWait g)
  else .next s

def execRayput (o : Slot) (s : State) : Host.Outcome State Fault Refusal :=
  issue (.rayput o) s fun g ls s =>
    match s.raySlot g (g.value o.c (ls.headD 0)).toNat with
    | .error e => e
    | .ok key =>
      let w := fun (j l : Nat) => (g.valueAt o.b j l).toNat
      match rayFate (s.batch key) 0 (ls.map (fun l => (l, w 0 l, w 1 l % 65536))) with
      | some (sub, lane) => rayProt sub lane
      | none =>
        s.submit g key (ls.map (fun l =>
          (rayRecord ((g.valueRun o.a 8 l).map (fun x => leBytes 4 x.toNat)).flatten (w 0 l) (w 1 l % 65536)
            (w 1 l / 65536 % 256) (w 2 l) (w 3 l + 2 ^ 32 * w 4 l), false)))

/-- The extended value of a product with a fraction. -/
def fracTimes (a : Frac) (w : Word) : FVal :=
  match fpValue .f32 false w.toNat with
  | .inf neg => if a.isZero then .nan false else .inf (neg != a.isNeg)
  | .nan b => .nan b
  | .fin n m e st => (match (FVal.fin n m e st).frac? with
    | some v => (a.mul v).val
    | none => .nan false)

/-- F + x R + y U in one component, rounded (R350). -/
def rayDir (f r u : Word) (x y : Frac) : Word :=
  match wordFrac? f, wordFrac? r, wordFrac? u with
  | some a, some b, some c => ((a.add (x.mul b)).add (y.mul c)).word
  | _, _, _ =>
    let xs := [fpValue .f32 false f.toNat, fracTimes x r, fracTimes y u]
    if xs.any FVal.isNaN || bothInfs xs then 0x7FC00000
    else if xs.contains (.inf true) then 0xFF800000 else 0x7F800000

/-- The ray of one chart sample of a RAYGEN (R350), with whether it is off the display. -/
def cameraRay (cam : List Byte) (sn : Snap) (view index sx sy : Nat) : List Byte × Bool :=
  let ax := sn.axis false
  let ay := sn.axis true
  let px := ax.position sx
  let py := ay.position sy
  let x := ((Frac.ofNat 2).mul (px.div (Frac.ofNat ax.extent))).sub (Frac.ofNat 1)
  let y := (Frac.ofNat 1).sub ((Frac.ofNat 2).mul (py.div (Frac.ofNat ay.extent)))
  let dir := (List.range 3).map (fun k =>
    leBytes 4 (rayDir (recWord cam (12 + 4 * k)) (recWord cam (24 + 4 * k)) (recWord cam (36 + 4 * k)) x y).toNat)
  (rayRecord (cam.take 12 ++ dir.flatten ++ (cam.drop 48).take 8) index (objNat cam 56 2) (objNat cam 58 1)
      (16 * sy + 65536 * sx + 2 ^ 28 * view) 0, ax.off px || ay.off py)

def execRaygen (o : Slot) (s : State) : Host.Outcome State Fault Refusal :=
  issue (.raygen o) s fun g ls s =>
    let l := ls.headD 0
    let cam := (g.value64 o.a l).toNat
    let w := fun (j : Nat) => (g.valueAt o.b j l).toNat
    let view := natField (w 0) 5 2
    let x0 := natField (w 1) 11 0
    let y0 := natField (w 1) 23 12
    let wd := w 2 % 65536
    let ht := w 2 / 65536
    match s.raySlot g (w 0 % 4) with
    | .error e => e
    | .ok key =>
      if cam % 64 ≠ 0 then .raise .align (laneInfo 0x3B 0) cam
      else match s.readRange g.unit g.part g.ctx cam 64 with
        | .error (.bad c r va) => .raise c (laneInfo r 0) va
        | .error (.miss p) => .miss p
        | .ok bs =>
          match Tab.get? (s.team g.team).snaps view with
          | none => .raise .prot 0x0C
          | some sn =>
            if wd * ht = 0 ∨ 4096 < wd * ht ∨ (sn.axis false).samples < x0 + wd ∨ (sn.axis true).samples < y0 + ht then
              rayProt 7 0
            else
              let index := fun (k : Nat) => (w 3 + k) % 2 ^ 32
              match rayFate (s.batch key) 0 ((List.range (wd * ht)).map (fun k => (0, index k, objNat bs 56 2))) with
              | some (sub, _) => rayProt sub 0
              | none =>
                s.submit g key ((List.range (wd * ht)).map (fun k =>
                  cameraRay bs sn view (index k) (x0 + k % wd) (y0 + k / wd)))

/-- A query of a batch slot: the two words of the result, or a wait for the batch. -/
def rayqry (i : Instr) (o : Slot) (wait : Bool) (s : State) : Host.Outcome State Fault Refusal :=
  issue i s fun g ls s =>
    let k := (g.value o.a (ls.headD 0)).toNat
    if !wait && 1 ≤ g.detlevel then .raise .detViol 0x2D3
    else if 3 < k then rayProt 1 0
    else match s.batchSlot g k, i.form with
      | none, _ => rayProt 2 0
      | some _, none => .done s
      | some b, some f =>
        if b.opening then .hold .room
        else
          let start := fun (body : OpBody) (res : List LaneRes) =>
            withRoom g (g.slotFlag o) none (.done (s.startResults g o f body 2 none res))
          let val := fun (d : Nat) => start .engine [{ lane := ls.headD 0, bytes := leBytes 4 d ++ leBytes 4 b.status }]
          match b.entry with
          | none => val 0
          | some e =>
            if !wait then val (s.batch e).completed
            else if (s.batch e).complete then val (s.batch e).hits
            else start (.rayWait e) []

def execRayqryCnt (o : Slot) (s : State) : Host.Outcome State Fault Refusal := rayqry (.rayqryCnt o) o false s
def execRayqryWait (o : Slot) (s : State) : Host.Outcome State Fault Refusal := rayqry (.rayqryWait o) o true s

end Sys2Proof.Machine
end

