-- ==== Sys2Proof/Machine/Retirement.lean ====
section
/-!
DEFINITION. Retirement of groups, teams and launches, and the comparison of re-executed teams (R407 to R411, R416 to R419).
-/

namespace Sys2Proof.Machine

/-! ### Digests -/

/-- One byte taken into a CRC-64 with the ECMA-182 polynomial, bits reflected (R410). -/
def crcByte (c : DWord) (b : Byte) : DWord :=
  (List.range 8).foldl (fun c _ => if c.getLsbD 0 then (c >>> 1) ^^^ 0xC96C5795D7870F42 else c >>> 1) (c ^^^ b.setWidth 64)

/-- The CRC-64 of bytes (R410). -/
def crc64 (bs : List Byte) : DWord := ~~~ (bs.foldl crcByte (BitVec.allOnes 64))

/-- The bytes of one store-stream element (R410). -/
def StoreEl.bytes (e : StoreEl) : List Byte :=
  leBytes 8 e.addr ++ leBytes 4 e.data.length ++ leBytes 1 e.kind ++ leBytes 1 e.node ++ leBytes 2 0 ++ padTo 16 e.data

/-- The groups of a team in order of their numbers. -/
def State.groupsInOrder (s : State) (t : Nat) : List Group :=
  (List.range 16).filterMap (fun n => ((s.teamGroups t).find? (fun g => (s.group g).number == n)).map s.group)

/-- The store digest of a team (R410). -/
def State.digest (s : State) (t : Nat) : DWord :=
  crc64 (((s.groupsInOrder t).map (fun g => (g.stores.map StoreEl.bytes).flatten)).flatten)

/-- Whether a copy raised a fault or trap that its team did not (R411). -/
def State.raisedMore (s : State) (t c : Nat) : Bool :=
  ((s.groupsInOrder c).zip (s.groupsInOrder t)).any (fun x => x.1.raised.any (fun r => !x.2.raised.contains r))

/-! ### Launches -/

/-- The producers' blocks of a team at level 1 and above (R95): its OPEN blocks are sealed, or freed where they hold
nothing, and those still set aside are given back. -/
def State.sealProducer (s : State) (i t : Nat) : State :=
  let s := ((s.inst i).blocks.filter (fun b => b.2.producer == some t && b.2.state == .opened)).foldl
    (fun s b => if b.2.count = 0 then s.modInst i (fun w => w.putBlock b.1 {}) else s.sealBlock i b.1) s
  s.modInst i (fun w => (w.blocks.filter (fun b => b.2.producer == some t && b.2.state == .free)).foldl
    (fun w b => w.putBlock b.1 { b.2 with producer := none }) w)

/-- What a launch's completion signals (R418, R419): a node is polled by its queue; an instance's entry launch and batches
settle the instance; a handler team frees its LAND slots. -/
def State.launchOver (s : State) (l : Launch) : State :=
  match l.src with
  | .node => s
  | .entry i => (s.modInst i (fun w => { w with entryDone := true })).settleInst i
  | .block i _ b => (s.modInst i (fun w => w.putBlock b {})).settleInst i
  | .batch first count =>
    s.modQueue l.part l.queue (fun x =>
      { x with inb := { x.inb with slots := (List.range count).foldl (fun t k => Tab.put t (first + k) {}) x.inb.slots } })

/-- A launch whose teams have all retired, and whose copies have been compared, completes: its die scratch is freed
(R129, R418). -/
def State.completeLaunch (s : State) (lid : Nat) : State :=
  let l := s.launch lid
  if (Tab.get? s.launches lid).isSome && decide (l.teams ≤ l.done) && l.copies == 0 then
    let s1 := l.dieScr.foldl (fun (s : State) a => s.freeAlloc a.2) s
    ({ s1 with launches := Tab.erase s1.launches lid } : State).launchOver l
  else s

/-! ### Groups -/

/-- Whether everything that a group has in flight is complete (R416). -/
def State.groupClear (s : State) (id : Nat) : Bool :=
  let g := s.group id
  g.flags.all (fun f => f.2.isEmpty) && g.counters.all (fun c => c.2.isEmpty) && g.request.isNone
    && !(s.preqs.any (fun r => r.2.kind == 1 && r.2.who == id))

/-- The batches that a killed team has opened expect no more than it has submitted (R395). -/
def State.cutBatches (s : State) (t : Nat) : State :=
  if (s.team t).killed then
    { s with batches := s.batches.map (fun b =>
        if b.2.held && b.2.team == t then (b.1, { b.2 with count := b.2.submitted }) else b) }
  else s

/-- When the last group of a team has retired, its bound regions are written back as by UNMAPR (R417). -/
def State.lastRetired (s : State) (t : Nat) : State :=
  if (s.teamGroups t).all (fun g => (s.group g).retired) then
    ((Tab.keys ((s.team t).regions.filter (fun r => r.2.unmap.isNone))).foldl
      (fun s k => (s.startWriteBack t k 0 true).settleRegion t k 0) s).cutBatches t
  else s

/-- GROUP_RETIRE: a draining group with nothing in flight retires (R416). A copy that has faulted ends (R411). -/
def execGroupRetire (id : Nat) (s : State) : Host.Outcome State Fault Refusal :=
  let g := s.group id
  let t := s.team g.team
  if (Tab.get? s.groups id).isNone || g.retired || t.saved then .next s
  else if t.copyOf.isSome && g.stopped && !t.killed then .next (s.killTeam g.team)
  else if g.draining && s.groupClear id then
    .next ((s.modGroup id (fun g => { g with retired := true })).lastRetired g.team)
  else .next s

/-! ### Teams -/

/-- Whether a team may retire (R417). -/
def State.teamClear (s : State) (t : Nat) : Bool :=
  (s.teamGroups t).all (fun g => (s.group g).retired) && (s.team t).regions.isEmpty
    && !(s.batches.any (fun b => b.2.held && b.2.team == t && !b.2.complete))
    && !(s.tslots.any (fun x => x.2.team == t && x.2.state == .closing))

/-- A team out of its gang; the last one frees the cluster scratch, the code copy and the gang (R128, R417). -/
def State.leaveGang (s : State) (t : Nat) : State :=
  let gid := (s.team t).gang
  let g := s.gang gid
  let rest := g.teams.filter (· != t)
  if rest.isEmpty then
    let s1 := (s.freeAlloc g.clusScr).dropCopy (s.team t).copy
    { s1 with gangs := Tab.erase s1.gangs gid, holds := s1.holds.filter (fun h => h.2 != gid) }
  else s.modGang gid (fun g => { g with teams := rest })

/-- The resources that a team holds freed at one moment (R417). -/
def State.freeTeam (s : State) (t : Nat) : State :=
  let s := (Tab.keys (s.batches.filter (fun b => b.2.held && b.2.team == t))).foldl State.closeBatch s
  let s := (s.freeAlloc (s.team t).coreScr).leaveGang t
  ({ s with tslots := s.tslots.filter (fun x => x.2.team != t) } : State).modTeam t (fun x =>
    { x with retired := true, mx := none, accs := [], bufs := [], nbars := [], snaps := [], batches := [], coreScr := 0 })

/-- A team and its groups forgotten. -/
def State.eraseTeam (s : State) (t : Nat) : State :=
  { s with groups := (s.teamGroups t).foldl (fun gs g => Tab.erase gs g) s.groups, teams := Tab.erase s.teams t }

/-- A copy has ended: its launch waits for one copy less (R411). -/
def State.endCopy (s : State) (lid copy : Nat) : State :=
  ((s.eraseTeam copy).modLaunch lid (fun l => { l with copies := l.copies - 1 })).completeLaunch lid

/-- A team that retires starts afresh where it was killed or flushed (R128, R395, R397). -/
def State.restart (s : State) (t : Nat) : State :=
  let x := s.team t
  let s := match (s.launch x.launch).src with
    | .entry i | .block i _ _ => if x.detlevel = 0 then s else s.sealProducer i t
    | .node | .batch _ _ => s
  let g : Gang :=
    { launch := x.launch, index := (s.gang x.gang).index, lins := [x.lin], since := s.now, kills := x.kills, again := some t }
  ({ s with gangs := Tab.put s.gangs s.fresh g } : State).tick

/-- A team and its copy compared (R411): CHKRUNS counts; where the digests differ, or the copy raised more, the mismatch is
counted, logged and raised as DETMISMATCH. Both are then forgotten. -/
def State.compareCopy (s : State) (t c : Nat) : State :=
  let x := s.team t
  let d := s.digest t
  let e := s.digest c
  let s := s.modFunc x.part (fun f => { f with chkRuns := f.chkRuns + 1 })
  let s :=
    if d == e && !s.raisedMore t c then s
    else
      ((s.modFunc x.part (fun f => { f with chkMismatch := f.chkMismatch + 1 })).logEntry
        (.mismatch x.ctx x.obj.addr x.lin d.toNat e.toNat)).ctxEvent x.part x.ctx 8 x.lin x.obj.addr
        (leBytes 8 d.toNat ++ leBytes 8 e.toNat)
  ((s.eraseTeam t).endCopy x.launch c)

/-- The copy of a team, if it still has one. -/
def State.copyOfTeam (s : State) (t : Nat) : Option (Nat × Team) := s.teams.find? (fun x => x.2.copyOf == some t)

/-- The resident time of a completed team noted: the last 16 of its code object and context are kept (R397). -/
def State.noteTime (s : State) (t : Nat) : State :=
  let x := s.team t
  { s with contexts := Tab.modify s.contexts (64 * x.part + x.ctx) (fun c =>
      let ts := Tab.getD c.times x.obj.addr [] ++ [s.now - x.since + x.resided]
      { c with times := Tab.put c.times x.obj.addr (ts.drop (ts.length - 16)) }) }

/-- A team's completion counted in its launch (R418). -/
def State.teamDone (s : State) (t : Nat) : State :=
  let x := s.team t
  let s := match (s.launch x.launch).src with
    | .entry i | .block i _ _ => if x.detlevel = 0 then s else s.sealProducer i t
    | .node | .batch _ _ => s
  (s.noteTime t).modLaunch x.launch (fun l => { l with done := l.done + 1 })

/-- TEAM_RETIRE: a team retires (R417 to R419). One that was killed starts afresh; a chosen team is kept until its copy can
be compared; a copy that is not compared is counted in CHKSKIP. -/
def execTeamRetire (team : Nat) (s : State) : Host.Outcome State Fault Refusal :=
  let x := s.team team
  if (Tab.get? s.teams team).isNone || x.retired || x.saved || x.groups.isEmpty || !s.teamClear team then .next s
  else match x.copyOf with
    | some t =>
      let s1 := s.freeTeam team
      if x.skipped then .next ((s1.modFunc x.part (fun f => { f with chkSkip := f.chkSkip + 1 })).endCopy x.launch team)
      else if (s.team t).retired then .next (s1.compareCopy t team)
      else .next s1
    | none =>
      if x.killed then .next (((s.restart team).freeTeam team).eraseTeam team)
      else
        let s1 := (s.freeTeam team).teamDone team
        match s1.copyOfTeam team with
        | some (c, y) => if y.retired then .next (s1.compareCopy team c) else .next s1
        | none =>
          if s1.gangs.any (fun g => g.2.copyOf == some team) then .next s1
          else .next ((s1.eraseTeam team).completeLaunch x.launch)

end Sys2Proof.Machine
end

