-- ==== Sys2Proof/Machine/Repair.lean ====
section
/-!
DEFINITION. Silent checking's comparisons, the count of uncorrectable errors and the dropping of pseudo-channels (R143,
R252, R412 to R415).
-/

namespace Sys2Proof.Machine

/-! ### Silent checking -/

/-- A core's disagreement recorded; its third within 2^30 of its own cycles quarantines it (R412). -/
def CoreSt.disagree (k : CoreSt) : CoreSt :=
  let ds := k.disagreements.filter (fun t => decide (k.cycles - t < 2 ^ 30)) ++ [k.cycles]
  { k with disagreements := ds, quarantined := k.quarantined || decide (3 ≤ ds.length) }

/-- Two executions of an instruction of a group differ: counted, logged, and charged to its core (R412, R413). -/
def State.disagree (s : State) (id pc : Nat) (lanes : Mask) : State :=
  let g := s.group id
  let s1 := ((s.modFunc g.part (fun f => { f with sechkDis := f.sechkDis + 1 })).logEntry
    (.disagreement g.core g.ctx pc lanes)).putCore g.core (s.core g.core).disagree
  if !(s.core g.core).quarantined && (s1.core g.core).quarantined then s1.logEntry (.quarantine g.core) else s1

/-- SILENT_CHECK_REPLAY: the oldest unchecked instruction of a group is compared with its second execution, or with its
third (R143). -/
def execSilentCheckReplay (g : Nat) (ag : Agreement) (s : State) : Host.Outcome State Fault Refusal :=
  match (s.group g).checks with
  | [] => .next s
  | (pc, lanes) :: rest =>
    let s1 := s.modGroup g (fun x => { x with checks := rest })
    match ag with
    | .agree => .next s1
    | .twoOfThree => .next (s1.disagree g pc lanes)
    | .allDiffer => .next ((s1.disagree g pc lanes).consumeUE g pc false)

/-! ### Uncorrectable errors -/

/-- Whether a key is a byte of global memory (HBM4). -/
def isHbmKey (k : Nat) : Bool := decide (k < 2 ^ 55)

/-- A memory unit becomes uncorrectable: counted, and at the fourth in one pseudo-channel within 2^40 array cycles its bit
of DROPREQ is set and the repair interrupt signalled (R252, R414, R436). -/
def State.uncorrectable (s : State) (unit : Nat) : State :=
  let m := { s.mgmt with uncorr := s.mgmt.uncorr + 1 }
  let s1 : State := { s with poison := NatSet.insert s.poison (wordKey unit), mgmt := m }
  if !isHbmKey unit then s1
  else
    let part := unit / 2 ^ 52
    let ch := Config.channelOf part (s.func part).dropped.length (unit % 2 ^ 52)
    let ts := (Tab.getD (s.func part).ueAt ch []).filter (fun t => decide (s.now - t < 2 ^ 40)) ++ [s.now]
    let s2 := s1.modFunc part (fun f => { f with ueAt := Tab.put f.ueAt ch ts })
    if ts.length < 4 then s2
    else (s2.modFunc part (fun f => { f with dropReq := NatSet.insert f.dropReq ch })).signal part 5

/-! ### Dropping a pseudo-channel -/

/-- The size of a pseudo-channel (R12). -/
def channelBytes : Nat := 3 * 2 ^ 28

/-- Why DROPGO is refused, if it is (R415). -/
def State.dropRefused (s : State) (part ch : Nat) : Option Nat :=
  let f := s.func part
  if (s.liveContexts part).any (fun c => !(s.context part c).saved || (f.cswCmd.isSome && f.cswCtx == c)) then some 1
  else if ((List.range 4).all (fun k => 4 * (ch / 4) + k == ch || f.dropped.contains (4 * (ch / 4) + k))) then some 2
  else if 4 * s.memUnits part ≤ ch ∨ f.dropped.contains ch then some 3
  else none

/-- DROPGO: refused, or the drop begins (R415). -/
def execDropgo (part : Nat) (v : Word) (s : State) : Host.Outcome State Fault Refusal :=
  let ch := natField v.toNat 8 0
  if (s.func part).dropCmd.isSome then .next s
  else match s.dropRefused part ch with
    | some r => .next (s.modFunc part (fun f => { f with dropResult := r }))
    | none => .next (s.modFunc part (fun f => { f with dropCmd := some ch }))

/-- Memory without a range of keys: its bytes, tags and errors. -/
def State.forget (s : State) (first size : Nat) : State :=
  let out := fun k => decide (k < first) || decide (first + size ≤ k)
  { s with mem := s.mem.filter (fun c => out c.1), tags := s.tags.filter (fun t => out t.1), poison := s.poison.filter out }

/-- DROP_COMPLETE: the top 0.75 GiB is discarded, CAPACITY falls and the channel's request clears (R414, R415). -/
def execDropComplete (part : Nat) (s : State) : Host.Outcome State Fault Refusal :=
  match (s.func part).dropCmd with
  | none => .next s
  | some ch =>
    let s1 := s.forget (globalKey part (s.capacity part - channelBytes)) channelBytes
    .next ((s1.modFunc part (fun f =>
      { f with dropped := NatSet.insert f.dropped ch, dropReq := NatSet.erase f.dropReq ch, dropCmd := none
               dropResult := 0 })).logEntry (.channelDrop part ch))

end Sys2Proof.Machine
end

