-- ==== Sys2Proof/Machine/Management.lean ====
section
/-!
DEFINITION. Binnacle: the power governor and the sensors, the starts of the module, the flash slots, the event log and
attestation, and the partition table (R16 to R19, R424, R431 to R441).
-/

namespace Sys2Proof.Machine

/-- The state with the management subsystem changed. -/
def State.modMgmt (s : State) (f : Mgmt → Mgmt) : State := { s with mgmt := f s.mgmt }

/-! ### The governor and the sensors -/

/-- The partition units of a partition (R18). -/
def State.computeUnits (s : State) (part : Nat) : Nat :=
  ((List.range 16).filter (fun u => Tab.getD s.pt.unit u 0 == part)).length

/-- The staged budgets of the partitions that hold compute units (R438). -/
def State.stagedBudgets (s : State) : List (Nat × Nat) :=
  ((List.range 8).filter (fun p => s.computeUnits p != 0)).map (fun p => (p, Tab.getD s.mgmt.budgets p 0))

/-- APPLY: the staged budgets come into force as one set, or are refused (R17, R438). -/
def execApply (v : Word) (s : State) : Host.Outcome State Fault Refusal :=
  if v.getLsbD 0 = false then .next s
  else if 2000 < (s.stagedBudgets.map Prod.snd).sum ∨ s.stagedBudgets.any (fun b => decide (b.2 < 40 * s.computeUnits b.1)) then
    .next (s.modMgmt (fun m => { m with budgetErr := true }))
  else .next (s.modMgmt (fun m => { m with budgetErr := false, budgetsNow := m.budgets }))

/-- A cluster's clock in steps of 78.125 MHz (R16). -/
def State.clock (s : State) (cluster : Nat) : Nat := Tab.getD s.clkStep cluster 16

/-- GOVERNOR_THROTTLE: a cluster's clock is set between 312.5 MHz and 1.25 GHz (R16). -/
def execGovernorThrottle (cluster step : Nat) (s : State) : Host.Outcome State Fault Refusal :=
  if cluster < 64 ∧ 4 ≤ step ∧ step ≤ 16 then .next { s with clkStep := Tab.set 16 s.clkStep cluster step } else .next s

/-- A cluster's clock lowered by one step (R16). -/
def State.lower (s : State) (cluster : Nat) : State :=
  if cluster < 64 ∧ 4 < s.clock cluster then { s with clkStep := Tab.set 16 s.clkStep cluster (s.clock cluster - 1) } else s

/-- SENSOR_SAMPLE: Binnacle reads the 64 die sites, the eight stacks and the rails: hot ones throttle the nearest clusters,
and a die site at 115 degrees makes a reset due (R437). -/
def execSensorSample (temps volts : List Nat) (current : Nat) (s : State) : Host.Outcome State Fault Refusal :=
  let hot := (List.range 72).filter (fun k => decide ((if k < 64 then 105 else 95) ≤ temps.getD k 0))
  let trip := (List.range 64).any (fun k => decide (115 ≤ temps.getD k 0))
  let s1 := (hot.map Config.nearest).flatten.eraseDups.foldl State.lower s
  .next (s1.modMgmt (fun m =>
    { m with temps := temps, volts := volts, current := current, thermal := !hot.isEmpty
             power := Config.freeValue s.fresh % 65536, due := if trip then some 4 else m.due })).tick

/-! ### Starts -/

/-- BOOTREASON (R436). -/
def Mgmt.bootReason (m : Mgmt) : Nat :=
  m.reason + 16 * m.fsc + 64 * bitNat m.anchor + 128 * bitNat m.fallback + 256 * bitNat m.rollback + 512 * bitNat m.running
    + 65536 * m.lastStage

/-- A flash slot. -/
def Mgmt.slot (m : Mgmt) (b : Bool) : FlashSlot := if b then m.slotB else m.slotA

/-- Whether a slot passes the test of stage 1 (R433). -/
def Mgmt.slotOk (m : Mgmt) (b : Bool) : Bool := (m.slot b).ok && decide (m.svn ≤ (m.slot b).svn)

/-- The log entries that are also kept in flash (R440). -/
def LogKind.inFlash : LogKind → Bool
  | .failedStart _ | .quarantine _ | .channelDrop _ _ | .mismatch _ _ _ _ _ => true
  | .start _ | .disagreement _ _ _ _ | .softDropped _ | .hbmTest _ _ => false

/-- The code of a reset's reason (R436). -/
def resetCode : Sys2Proof.ResetReason → Nat
  | .powerOn => 0 | .pcie => 1 | .command => 2 | .watchdog => 3 | .thermal => 4

/-- The module at the beginning of a start: every register at its reset value, and what flash, Binnacle and the host keep
(R5, R431). -/
def State.cleared (s : State) (m : Mgmt) : State :=
  let keep : Mgmt :=
    { reason := m.reason, running := m.running, fsc := m.fsc, anchor := m.anchor, lastStage := m.lastStage
      slotA := m.slotA, slotB := m.slotB, active := m.active, svn := m.svn, before := m.before, fallback := m.fallback
      rollback := m.rollback, log := m.log, logSeq := m.logSeq, mode := .starting 1 }
  { State.reset with
    agenda := s.agenda, fresh := s.fresh, mgmt := keep
    mem := s.mem.filter (fun c => decide (2 ^ 55 ≤ c.1 ∧ c.1 < 2 ^ 56)) }

/-- A start fails at a stage: the count rises, the update that it was the first to run is left, and a reset is due (R431 to
R433). -/
def State.failStart (s : State) (stage : Nat) : State :=
  let s1 := s.modMgmt (fun m =>
    { m with fsc := min 3 (m.fsc + 1), lastStage := stage, due := some 5, mode := .starting 1
             rollback := m.rollback || m.before.isSome, active := m.before.getD m.active, before := none })
  (s1.logEntry (.failedStart stage)).logEntry (.start (BitVec.ofNat 32 s1.mgmt.bootReason))

/-- The slot that stage 1 boots, if either passes (R433). -/
def Mgmt.choose (m : Mgmt) : Option Bool :=
  if m.slotOk m.active then some m.active else if m.slotOk (!m.active) then some (!m.active) else none

/-- A start that has succeeded, at the end of stage 7 (R432, R433). -/
def State.started (s : State) : State :=
  let s1 := s.modMgmt (fun m =>
    { m with mode := .up, fsc := 0, svn := max m.svn (m.slot m.running).svn, before := none })
  s1.logEntry (.start (BitVec.ofNat 32 s1.mgmt.bootReason))

/-- A start on a chosen slot, as far as a stage (R431, R432). -/
def State.runStages (s : State) (upTo : Nat) : State :=
  if upTo < 3 then s.modMgmt (fun m => { m with mode := .starting (upTo + 1) })
  else if !Config.configOk then s.failStart 3
  else if s.mgmt.anchor then
    let s1 := s.modMgmt (fun m => { m with mode := .anchorage })
    s1.logEntry (.start (BitVec.ofNat 32 s1.mgmt.bootReason))
  else if upTo < 7 then s.modMgmt (fun m => { m with mode := .starting (upTo + 1) })
  else s.started

/-- MODULE_RESET: the module starts, and its stages run as far as `upTo` (R431). A reset that is due gives its reason,
unless power has just come on. -/
def execModuleReset (reason : ResetReason) (upTo : Nat) (s : State) : Host.Outcome State Fault Refusal :=
  let m := s.mgmt
  let code := if reason = .powerOn then 0 else m.due.getD (resetCode reason)
  let s1 := s.cleared { m with reason := code, anchor := m.anchor || m.fsc == 3, fallback := false }
  if upTo = 0 then .next s1
  else match s1.mgmt.choose with
    | none => .next (s1.failStart 1)
    | some b => .next ((s1.modMgmt (fun m => { m with running := b, fallback := b != m.active })).runStages upTo)

/-- BOOT_STAGE_TIMEOUT: the stage that runs overruns its limit, and the start fails (R431). -/
def execBootStageTimeout (stage : Nat) (s : State) : Host.Outcome State Fault Refusal :=
  if s.mgmt.mode = .starting stage ∧ s.mgmt.due = none then .next (s.failStart stage) else .next s

/-- POWER_FAIL: what is not in flash is lost; a write in progress to the inactive slot may have spoilt it (R433, R440). -/
def execPowerFail (s : State) : Host.Outcome State Fault Refusal :=
  let m := s.mgmt
  let lost := decide (Config.freeValue s.fresh % 2 = 1)
  let bad : FlashSlot := { ok := false }
  .next (s.cleared
    { m with
      reason := 0, log := m.log.filter (fun e => e.kind.inFlash)
      slotA := if lost && m.active then bad else m.slotA
      slotB := if lost && !m.active then bad else m.slotB }).tick

/-! ### Flash -/

/-- FLASH_IMAGE_WRITE: an image is written into the inactive slot; once accepted, the boot record names it, and anchorage
ends (R432, R433). -/
def execFlashImageWrite (image : List Byte) (svn version : Nat) (s : State) : Host.Outcome State Fault Refusal :=
  let m := s.mgmt
  let x : FlashSlot := { image := image, svn := svn, version := version, ok := Config.verifies image svn version }
  let m1 := if m.active then { m with slotA := x } else { m with slotB := x }
  if x.ok ∧ m.svn ≤ svn then
    .next { s with mgmt := { m1 with active := !m.active, before := some m.active, fsc := 0, anchor := false
                                     rollback := false } }
  else .next { s with mgmt := m1 }

/-- FSC_CLEAR: a command clears the failed-start count, and anchorage ends (R432). -/
def execFscClear (s : State) : Host.Outcome State Fault Refusal :=
  .next (s.modMgmt (fun m => { m with fsc := 0, anchor := false }))

/-- HBM_TEST_PATH: in anchorage mode Binnacle trains and tests a stack, and logs the result (R432). -/
def execHbmTestPath (stack : Nat) (pass : Bool) (s : State) : Host.Outcome State Fault Refusal :=
  if s.mgmt.mode = .anchorage ∧ stack < 8 then .next (s.logEntry (.hbmTest stack pass)) else .next s

/-! ### The event log and attestation -/

/-- The bytes of a digest and of a signature. -/
def digestBytes (bs : List Byte) : List Byte := leBytes 64 (Config.sha512 bs).toNat
def signature (bs : List Byte) : List Byte := leBytes 512 (Config.sign (Config.sha512 bs)).toNat

/-- An answer to the reader of the management interfaces. -/
def State.respond (s : State) (r : Response) : State := s.modMgmt (fun m => { m with response := r })

/-- EVENT_LOG_READ: the entries with a signature over them and the reader's nonce (R440). -/
def execEventLogRead (nonce : List Byte) (s : State) : Host.Outcome State Fault Refusal :=
  .next (s.respond (.log s.mgmt.log (signature ((s.mgmt.log.map Config.logBytes).flatten ++ nonce))))

def execGetVersion (s : State) : Host.Outcome State Fault Refusal := .next (s.respond .version)

def execGetCapabilities (s : State) : Host.Outcome State Fault Refusal := .next (s.respond .capabilities)

/-- NEGOTIATE_ALGORITHMS: only RSASSA-4096 (bit 5 of the offered base asymmetric algorithms, in the low word) and SHA-512
(bit 2 of the base hashes, in the high word) are taken (R441). -/
def execNegotiateAlgorithms (algs : Nat) (s : State) : Host.Outcome State Fault Refusal :=
  .next (s.respond (.algorithms (natBit algs 5) (natBit algs 34)))

def execGetDigests (s : State) : Host.Outcome State Fault Refusal :=
  .next (s.respond (.digests (digestBytes Config.certificate)))

def execGetCertificate (off len : Nat) (s : State) : Host.Outcome State Fault Refusal :=
  .next (s.respond (.certificate ((Config.certificate.drop off).take len)))

def execChallenge (nonce : List Byte) (s : State) : Host.Outcome State Fault Refusal :=
  .next (s.respond (.challengeAuth (signature (Config.transcript 0x83 nonce))))

/-- GET_MEASUREMENTS: the digests of the running image and of the configuration records, and the boot record (R441). -/
def execGetMeasurements (nonce : List Byte) (s : State) : Host.Outcome State Fault Refusal :=
  .next (s.respond (.measurements (digestBytes (s.mgmt.slot s.mgmt.running).image) (digestBytes Config.configRecords)
    (Config.bootRecord s.mgmt.active s.mgmt.svn) (signature (Config.transcript 0xE0 nonce))))

/-! ### The partition table -/

/-- The partition of each unit of a kind in an image of the table. -/
def PartTable.of (t : Tab Nat) (n : Nat) : List Nat := (List.range n).map (fun i => Tab.getD t i 0)

/-- The partitions that an image of the table names. -/
def PartTable.names (t : PartTable) : List Nat :=
  (PartTable.of t.unit 16 ++ PartTable.of t.mem 128 ++ PartTable.of t.port 4 ++ PartTable.of t.link 12
    ++ PartTable.of t.view 16).eraseDups

/-- The units of each kind that a partition holds. -/
def PartTable.holds (t : PartTable) (p : Nat) : List (List Bool) :=
  [PartTable.of t.unit 16, PartTable.of t.mem 128, PartTable.of t.port 4, PartTable.of t.link 12,
   PartTable.of t.view 16].map (fun xs => xs.map (· == p))

/-- Whether a commit of the staged table is refused (R19, R424). -/
def State.commitRefused (s : State) : Bool :=
  let new := s.ptStaged
  new.names.any (fun p => decide (8 ≤ p) || !(PartTable.of new.unit 16).contains p || !(PartTable.of new.mem 128).contains p)
    || (List.range 8).any (fun p => !(s.liveContexts p).isEmpty && new.holds p != s.pt.holds p)
    || (List.range 16).any (fun v =>
        let port := (Tab.getD s.views v {}).port
        port != 7 && Tab.getD new.view v 0 != Tab.getD new.port port 0)
    || (new.chipid != s.pt.chipid && (List.range 8).any (fun p => (s.func p).fabEn))

/-- COMMIT: the staged table comes into force, or is refused whole (R19, R424). The memory of a partition whose memory units
change is forgotten. -/
def execCommit (v : Word) (s : State) : Host.Outcome State Fault Refusal :=
  if v.getLsbD 0 = false then .next s
  else if s.commitRefused then .next (s.modMgmt (fun m => { m with ptRefused := true }))
  else
    let moved := (List.range 8).filter (fun p =>
      (PartTable.of s.ptStaged.mem 128).map (· == p) != (PartTable.of s.pt.mem 128).map (· == p))
    let s1 := moved.foldl (fun s p => s.forget (globalKey p 0) (2 ^ 52)) s
    .next ({ s1 with pt := s.ptStaged }.modMgmt (fun m => { m with ptRefused := false }))

/-- VF_ENABLE: virtual functions are enabled (R421). -/
def execVfEnable (vfs : Nat) (s : State) : Host.Outcome State Fault Refusal :=
  if vfs ≤ 8 then .next (s.modMgmt (fun m => { m with vfs := vfs })) else .next s

end Sys2Proof.Machine
end

