-- ==== Sys2Proof/Machine/Issue.lean ====
section
/-!
DEFINITION. The events of issue: the start of a clause, the ends of waits, the turns of the active set, the completion of
long-latency and of counted operations, and words that are no instruction (R43 to R47, R53, R133, R138, R139, R165, R166).
-/

namespace Sys2Proof.Machine

/-- Whether a group may issue: it is active and ready, its core has not stopped, and its context is not being saved, unless
its team drains (R139, R390, R397, R399). -/
def State.mayIssue (s : State) (id : Nat) : Bool :=
  let g := s.group id
  (Tab.get? s.groups id).isSome && (s.core g.core).active.contains id && !g.waiting && !g.draining
    && !s.hasStopped g.part (s.coreStopKey g.core) && (!(s.context g.part g.ctx).saved || (s.team g.team).way == 1)

/-- Whether events may act on a group that waits: it stands on a core, and its context is not being saved. -/
def State.attends (s : State) (id : Nat) : Bool :=
  let g := s.group id
  (Tab.get? s.groups id).isSome && !g.stopped && !g.retired && !(s.team g.team).saved
    && (!(s.context g.part g.ctx).saved || (s.team g.team).way == 1)

/-! ### The start of a clause -/

/-- Whether a header is malformed (R44). -/
def headerBad (w : Nat) : Bool :=
  let fa := natField w 34 31
  let fb := natField w 39 36
  natField w 18 15 == 0 || natField w 14 10 != 0 || natField w 43 41 != 0 || natField w 95 52 != 0
    || (natBit w 35 && decide (11 < fa)) || (natBit w 40 && decide (11 < fb)) || (!natBit w 35 && fa != 0)
    || (!natBit w 40 && fb != 0) || (natBit w 35 && natBit w 40 && fa == fb)

/-- The header at an offset of a group's code, or the fault of entering there (R44, R45, R54). -/
def State.headerAt (s : State) (g : Group) (handler : Bool) (pc : Nat) : Except Cause Nat :=
  if s.codeSize g handler ≤ pc then .error .codeRange
  else if pc % 12 ≠ 0 then .error .illclause
  else match s.codeWord? g handler pc with
    | none => .error .illclause
    | some w =>
      if natField w 9 0 ≠ 0x3FF then .error .illclause
      else if s.codeSize g handler < pc + 12 * (natField w 18 15 + 1) then .error .codeRange
      else if headerBad w then .error .illclause
      else .ok w

/-- The flags that a header's WAIT names (R43). -/
def headerWaits (w : Nat) : List Nat := (List.range 12).filter (fun n => natBit w (19 + n))

/-- The clause that a header opens (R43). -/
def headerClause (e : Entry) (w : Nat) : Clause :=
  { pc := e.pc, len := natField w 18 15, fa := if natBit w 35 then some (natField w 34 31) else none
    fb := if natBit w 40 then some (natField w 39 36) else none, slot := 0, handler := e.handler }

/-- A group in the clause of an entry, which takes the header's PRIO (R45, R133). -/
def Group.enterClause (g : Group) (e : Entry) (w : Nat) : Group :=
  { g with clause := some (headerClause e w)
           frontier := g.frontier.map (fun x =>
             if x.pc == e.pc && x.handler == e.handler then { x with prio := natField w 51 44 } else x) }

/-- The issuer that a group stands for: its speculative copy while it runs ahead. -/
def State.issuer (s : State) (id : Nat) : Cur := if (Tab.get? s.spec id).isSome then .spec id else .group id

/-- The highest-ranked entry of the issuing group checks its clause and its WAIT, and starts it (R133). A run-ahead ends at
a header that would fault, and waits on no flag. -/
def State.startClause (s : State) (id : Nat) (g : Group) (e : Entry) : State :=
  match s.headerAt g e.handler e.pc, s.cur with
  | .error _, .spec _ => s.endRunAhead id
  | .error c, _ => s.raiseFault id e.pc c 0 0 0
  | .ok w, .spec _ => s.putCur (g.enterClause e w)
  | .ok w, _ =>
    if (headerWaits w).all (fun f => (g.flagOps f).isEmpty) then s.putCur (g.enterClause e w)
    else s.beginWait id { why := .flags (headerWaits w) }

/-- CLAUSE_START. -/
def execClauseStart (id : Nat) (s : State) : Host.Outcome State Fault Refusal :=
  if !s.mayIssue id then .next s
  else
    let s1 := { s with cur := s.issuer id }
    match s1.curGroup? with
    | none => .next s
    | some g =>
      match g.clause, g.next? with
      | none, some e => .next (s1.startClause id g e)
      | _, _ => .next s

/-! ### The ends of waits -/

/-- Whether the condition of a group's wait has ended (R138). Conditions that only an issue can test again count as
ended: the instruction is held anew where they have not. -/
def State.waitOver (s : State) (id : Nat) (g : Group) (w : Wait) : Bool :=
  w.ended || match w.why with
    | .flags fs => fs.all (fun f => (g.flagOps f).isEmpty)
    | .counter k t => decide (g.counter k ≤ t)
    | .sleep _ mask => (s.queue g.part g.queue).wake &&& mask != 0
    | .granule key full => s.full.contains key == full
    | .nbar nb p => ((s.team g.team).nbar nb).complete p
    | .obj h p => (s.barObj (handleEntry h)).bar.complete p
    | .matrix kind tile n => s.matrixHolds g.team kind tile n
    | .ops ids => (s.pendingOps ids).isEmpty
    | .page _ => false
    | .region | .room => true
    | .clock => s.clockLeast id

/-- Whether the instruction in a group's slot has yield (R42). -/
def State.slotYields (s : State) (g : Group) : Bool :=
  match g.clause with
  | none => false
  | some c => ((s.codeWord? g c.handler c.slotPc).map (fun w => natBit w 18)).getD false

/-- The end of a group's wait: where its instruction has acted, the slot is complete. -/
def State.resume (s : State) (id : Nat) (w : Wait) : State :=
  if w.acted then ({ s.endWait id with cur := .group id }).finishSlot (s.slotYields (s.group id)) else s.endWait id

/-- The answer that was recorded for a group's request while its context was saved (R399). -/
def State.recorded (s : State) (id : Nat) (w : Wait) : Option (Nat × PageReq × Bool) :=
  match w.why with
  | .page key => (Tab.get? s.preqs key).bind (fun r => if r.who == id then r.answer.map (fun f => (key, r, f)) else none)
  | _ => none

/-- ISSUE_WAIT_END. -/
def execIssueWaitEnd (id : Nat) (s : State) : Host.Outcome State Fault Refusal :=
  let g := s.group id
  match g.wait, g.wait.bind (s.recorded id) with
  | none, _ => .next s
  | some _, some (key, r, fail) => if s.attends id then .next (s.groupAnswer key r fail) else .next s
  | some w, none => if s.attends id && g.trapping.isNone && s.waitOver id g w then .next (s.resume id w) else .next s

/-- SLEEPC_EXPIRY: the count of a sleep has expired (R165). -/
def execSleepcExpiry (id : Nat) (s : State) : Host.Outcome State Fault Refusal :=
  let g := s.group id
  match g.wait with
  | some ⟨.sleep t m, acted, ended⟩ =>
    if s.attends id && decide (t ≤ (s.core g.core).cycles) then .next (s.resume id ⟨.sleep t m, acted, ended⟩) else .next s
  | _ => .next s

/-- ACTIVE_TIME_EXPIRY: after 512 of its core's cycles in the active set, while groups are ready outside it, a group gives
up its place (R139). -/
def execActiveTimeExpiry (id : Nat) (s : State) : Host.Outcome State Fault Refusal :=
  let g := s.group id
  let k := s.core g.core
  if k.active.contains id && !k.ready.isEmpty && !g.waiting && decide (Tab.getD k.entered id 0 + 512 ≤ k.cycles) then
    .next (s.offerPlace id)
  else .next s

/-! ### Answers to page requests -/

/-- An answered engine access whose unit acts at once: a work-graph instance that waits to write DONE (R89, R228). -/
def State.retry (s : State) (who : Nat) : State :=
  if 2 ^ 42 ≤ who ∧ who < 2 ^ 43 then s.settleInst (who - 2 ^ 42) else s

/-- The requester of a posted request of a function. -/
def State.requester (s : State) (part req : Nat) : Nat :=
  ((Tab.get? s.preqs (2 ^ 32 * part + req % 2 ^ 32)).elim 0 (fun r => if r.kind == 1 then 0 else r.who))

def execPrqrespRetry (part req : Nat) (s : State) : Host.Outcome State Fault Refusal :=
  .next ((s.answerRequest part req false).retry (s.requester part req))

def execPrqrespFail (part req : Nat) (s : State) : Host.Outcome State Fault Refusal :=
  .next ((s.answerRequest part req true).retry (s.requester part req))

/-! ### Completion -/

/-- The lanes of an operation's line actions. -/
def Op.lanes (op : Op) : List Nat := ((op.lines.map (fun l => l.accs.map LaneAcc.lane)).flatten).eraseDups

/-- Whether a long-latency operation has every result it returns (R46). -/
def Op.returned (op : Op) : Bool :=
  match op.body with
  | .ld _ | .atom _ _ _ | .atomc _ | .atomv _ _ | .sample _ _ _ | .vbld _ _ => op.lines.all LineAct.done
  | .ldfut _ => op.ue || op.lanes.all (fun l => op.res.any (fun r => r.lane == l))
  | .value | .engine => true
  | .rinv _ n => n == 0
  | .tmov _ | .writeBack | .msub | .st _ | .atomx _ | .stfut _ | .futrst | .emit _ | .emitClose _ _ | .tileout _ _ _ _ _ _
  | .classify _ _ _ _ | .commit _ _ | .launchQ _ _ _ _ | .launchWg _ | .packet | .rayOpen _ _ | .rays _ _
  | .rayWait _ => false

/-- The lowest lane of an RINV with .trap whose status is BUSY, STALE or NOQUEUE, as $trapinfo (R121). -/
def Op.rinvFailure (op : Op) : Option Word :=
  match op.body with
  | .rinv true _ =>
    (((List.range 128).filterMap (fun l => op.res.find? (fun r => r.lane == l))).find?
      (fun r => r.tag == 2 || r.tag == 3 || r.tag == 4)).map
      (fun r => BitVec.ofNat 32 (r.lane + 256 * r.tag + 65536 * (leNat r.bytes / 256 % 256)))
  | _ => none

/-- What a sample or a view under construction makes of the bytes that it read: the state and its results. -/
def State.formResults (s : State) (op : Op) : State × Op :=
  match op.body with
  | .sample im lin uv => (s, { op with res := op.sampled im lin uv })
  | .vbld view set_ =>
    let r := s.vbldDone op view set_
    (r.1, { op with res := [{ lane := 0, bytes := (r.2.map (fun w => leBytes 4 w.toNat)).flatten }] })
  | _ => (s, op)

/-- A group whose instruction has acted takes the trap that the instruction's completion raises. -/
def State.lateTrap (s : State) (id pc : Nat) (c : Cause) (info : Word) : State :=
  (s.modGroup id (fun g => { g with wait := none })).raise id pc c info 0 0

/-- FLAG_COMPLETION: a long-latency operation writes its results, and leaves its flag (R46). -/
def execFlagCompletion (id : Nat) (s : State) : Host.Outcome State Fault Refusal :=
  match Tab.get? s.ops id with
  | none => .next s
  | some op =>
    if op.flag.isNone || !op.returned || (s.team (s.group op.group).team).saved then .next s
    else
      let r := if op.ue then (s, op) else s.formResults op
      let s1 := (r.1.modGroup op.group (fun g => g.writeResults r.2)).finishOp id
      if op.ue then .next (s1.consumeUE op.group op.pc false)
      else match op.rinvFailure with
        | some info => .next (s1.lateTrap op.group op.pc .rinvFail info)
        | none => .next s1

/-- Whether a counted write of global memory is acknowledged (R166). -/
def Op.acknowledged (op : Op) : Bool :=
  match op.body with
  | .st _ | .atom _ _ _ | .atomc _ | .atomx _ | .atomv _ _ | .stfut _ | .futrst => op.lines.all LineAct.done
  | .engine => true
  | .ld _ | .ldfut _ | .value | .tmov _ | .writeBack | .msub | .emit _ | .emitClose _ _ | .vbld _ _ | .sample _ _ _
  | .tileout _ _ _ _ _ _ | .classify _ _ _ _ | .commit _ _ | .launchQ _ _ _ _ | .launchWg _ | .rinv _ _ | .packet
  | .rayOpen _ _ | .rays _ _ | .rayWait _ => false

/-- The lowest of a list of lanes. -/
def lowest (ls : List Nat) : Nat := ((List.range 128).find? (fun l => ls.contains l)).getD 0

/-- WRITE_ACKNOWLEDGED: a counted operation completes, and its counter falls once every older one has (R166). -/
def execWriteAcknowledged (id : Nat) (s : State) : Host.Outcome State Fault Refusal :=
  match Tab.get? s.ops id with
  | none => .next s
  | some op =>
    let free := (s.pendingOps op.after).isEmpty
    if op.counter.isNone || op.flag.isSome || (s.team (s.group op.group).team).saved then .next s
    else match op.body with
      | .commit i recs => .next (if free then s.commitDone id op i recs else s)
      | .rays key recs => .next (if free then s.raysDone id op key recs else s)
      | .emitClose before false => .next (if (s.pendingOps before).isEmpty then s.finishOp id else s)
      | _ =>
        if !op.acknowledged then .next s
        else if op.ue then .next ((s.finishOp id).consumeUE op.group op.pc false)
        else if op.refused.isEmpty then .next (s.finishOp id)
        else .next ((s.finishOp id).lateTrap op.group op.pc .detXovf (BitVec.ofNat 32 (lowest op.refused)))

/-! ### Words that are no instruction -/

/-- Whether a word of an operation returns long-latency results, whatever its other fields (R48): the atomics by their RET
bit. -/
def wordLong (opid w : Nat) : Bool :=
  opid == 0x180 || opid == 0x183 || opid == 0x186 || opid == 0x200 || opid == 0x203 || opid == 0x20B || opid == 0x281
    || opid == 0x2C1 || opid == 0x2C3 || opid == 0x2D3 || opid == 0x302 || opid == 0x310 || opid == 0x312
    || ((opid == 0x182 || opid == 0x202) && natBit w 63) || (opid == 0x185 && natBit w 61)

/-- The pool of the operation that a word names (R52). -/
def opPool (opid w : Nat) : Pool :=
  (((instrParts opid (natField w 63 57) (natField w 95 76) (natField w 95 64)).bind
    (fun mk => (mk (wordSlot w)).form)).map Form.pool).getD .both

/-- The fate of a group's slot whose word is no legal instruction (R53, R54). -/
def nonInstructionFate (map : Nat → Option Nat) (core : Nat) (c : Clause) (w : Nat) : Cause :=
  let opid := map (natField w 9 0)
  let misplaced := opid.any (fun op => (isTransferOp op && !c.last) || (wordLong op w && (c.flag (natBit w 20)).isNone))
  match decodeWord map w with
  | .header => .illclause
  | .illopnd => if misplaced then .illclause else if opid.all (fun op => poolOk (opPool op w) core) then .illopnd else .undef
  | .undef | .short | .ok _ => if misplaced then .illclause else .undef

/-- The fate of a stream word that is no legal instruction: UNDEF before ILLOPND (R277, R279). -/
def streamWordFate (map : Nat → Option Nat) (w : Nat) : Cause :=
  match decodeWord map w with
  | .illopnd =>
    if natField w 20 10 = 0 && (map (natField w 9 0)).any (fun op => opPool op w == .stream) then .illopnd else .undef
  | .header | .undef | .short | .ok _ => .undef

/-- NON_INSTRUCTION_ISSUE: a slot or a stream word that is no legal instruction (R53, R54, R277). -/
def execNonInstructionIssue (w : BitVec 96) (s : State) : Host.Outcome State Fault Refusal :=
  match s.cur, s.curGroup? with
  | .group id, some g =>
    match g.clause with
    | none => .fault .noIssuer
    | some c =>
      match (if g.number = 0 then (s.team g.team).badBuf else none) with
      | some k => .next (s.raiseFault id c.slotPc .bufstate (BitVec.ofNat 32 (1 + 65536 * k)) 0 0)
      | none =>
        .next (s.raiseFault id c.slotPc
          (nonInstructionFate (opcodeMap (s.context g.part g.ctx).table) g.core c w.toNat) 0 0 0)
  | .spec id, some _ => .next (s.endRunAhead id)
  | .stream t, _ =>
    .next (s.streamFault t (streamWordFate (opcodeMap (s.context (s.team t).part (s.team t).ctx).table) w.toNat) 0)
  | _, _ => .fault .noIssuer

end Sys2Proof.Machine
end

