-- ==== Sys2Proof/Machine/Preempt.lean ====
section
/-!
DEFINITION. Entering trap handlers, the stop of a halted partition and its end, and pre-emption: the choice of how teams
leave, save records and restoration (R270, R385, R390 to R402).
-/

namespace Sys2Proof.Machine

/-- TRAP_ENTER: a trapping group whose flags are all clear enters its handler (R385). -/
def execTrapEnter (id : Nat) (s : State) : Host.Outcome State Fault Refusal :=
  let g := s.group id
  match g.trapping with
  | none => .next s
  | some r =>
    if s.attends id && g.flags.all (fun f => f.2.isEmpty) && !s.hasStopped g.part (s.coreStopKey g.core) then
      .next (s.enterHandler id r)
    else .next s

/-! ### The halt -/

/-- The kind of an engine by its stop record (R394), and its skid bound in its own clock (R391). -/
def stopKind (i : Nat) : Nat :=
  if i < 16 then 1 else if i < 20 then 2 else if i < 24 then 3 else if i < 28 then 4 else if i = 28 then 5 else 6
def skidBound (i : Nat) : Nat :=
  if i < 16 then 16 else if i < 20 then 32 else if i < 24 then 64 else if i < 28 then 128 else 256

/-- The groups on a core. -/
def State.coreGroups (s : State) (core : Nat) : List (Nat × Group) :=
  s.groups.filter (fun g => g.2.core == core && !(s.team g.2.team).retired && !(s.team g.2.team).saved)

/-- Free bytes: contents that the spec leaves open, from a number on. -/
def freeBytes (base n : Nat) : List Byte := (List.range n).map (fun i => BitVec.ofNat 8 (Config.freeValue (base + i)))

/-- The fault that an engine has raised, if it has: a core by the group that stands at it. -/
def State.engineRaised (s : State) (part key : Nat) (core : Option Nat) : Option (Nat × Word) :=
  match core with
  | some c => ((s.coreGroups c).find? (fun g => g.2.stopped)).map (fun g => (g.2.trapCause.toNat % 256, g.2.trapInfo))
  | none => Tab.get? (s.func part).engFaults key

/-- The 128 bytes of a stop record (R394). What a matrix engine, a ray, raster or tile-move engine did after the
assertion, and where its BODY places its fields, the model leaves free. -/
def State.stopRecord (s : State) (part key : Nat) (skid : Word) : List Byte :=
  let i := key % 64
  let core := (s.partCores part).find? (fun c => s.coreStopKey c == key)
  let gs := match core with
    | some c => s.coreGroups c
    | none => []
  let raised := s.engineRaised part key core
  let free := fun (k n : Nat) => freeBytes (s.fresh + k) n
  leBytes 1 (stopKind i)
    ++ leBytes 1 (1 + 2 * bitNat raised.isSome + 4 * bitNat ((s.func part).haltIdle.contains key)) ++ leBytes 2 0
    ++ leBytes 4 skid.toNat ++ leBytes 8 (match core with
      | some c => (s.core c).cycles
      | none => s.now)
    ++ (match core with
      | some c => leBytes 4 (s.core c).after
      | none => free 0 4)
    ++ leBytes 4 ((s.ops.filter (fun o => match core with
        | some c => (s.group o.2.group).core == c
        | none => false)).length)
    ++ (match raised with
      | some (c, info) => leBytes 4 c ++ leBytes 4 info.toNat
      | none => leBytes 8 0)
    ++ (if i < 20 then leBytes 1 gs.length ++ leBytes 1 (gs.filter (fun g => g.2.handler.isSome)).length ++ leBytes 30 0
      else free 4 32)
    ++ leBytes 64 0

/-- ENGINE_STOP: an engine of a halted partition stops within its bound and writes its stop record; after the last one
STOPPED is set, and every other record of the area is zero (R391, R392, R394). -/
def execEngineStop (part record : Nat) (skid : Word) (s : State) : Host.Outcome State Fault Refusal :=
  let f := s.func part
  if !f.halted || f.stoppedEngines.contains record || !(s.engineKeys part).contains record
      || decide (skidBound (record % 64) < skid.toNat) then .next s
  else
    let base := f.stopBase + 4096 + 8192 * (record / 64)
    let s1 := if f.stopBase = 0 then s else s.physWrite part (base + 128 * (record % 64)) (s.stopRecord part record skid)
    let done := f.stoppedEngines ++ [record]
    let all := decide ((s.engineKeys part).length ≤ done.length)
    let s2 : State := if all && f.stopBase != 0 then
        (List.range ((s.clusters part).length / 4)).foldl (fun s u =>
          (List.range 30).foldl (fun s i => s.physWrite part (f.stopBase + 4096 + 8192 * u + 128 * (34 + i)) (leBytes 128 0)) s) s1
      else s1
    .next ({ s2 with fresh := s2.fresh + 36 }.modFunc part (fun f => { f with stoppedEngines := done, stopped := all }))

/-- QUIET: no operation of the partition is in flight on an engine; what a saved team has pending is not (R392). -/
def State.quiet (s : State) (part : Nat) : Bool :=
  s.ops.all (fun o => o.2.part != part || (s.team (s.group o.2.group).team).saved)

/-- HALTCMD_CLEAR: refused while a context that was live at the assertion is neither saved nor destroyed, or QUIET is 0
(R392). -/
def execHaltcmdClear (part : Nat) (v : Word) (s : State) : Host.Outcome State Fault Refusal :=
  let f := s.func part
  if !natBit v.toNat 0 || !f.halted || !s.quiet part
      || f.haltCtxs.any (fun c => (s.context part c).live && !((s.context part c).saved && f.cswCmd.isNone)) then .next s
  else .next (s.modFunc part (fun f =>
    { f with halted := false, stopped := false, stoppedEngines := [], haltCtxs := [], haltIdle := [], engFaults := [] }))

/-! ### The size of a save -/

/-- The teams of a context that hold resources. -/
def State.ctxTeams (s : State) (part ctx : Nat) : List Nat :=
  Tab.keys (s.teams.filter (fun t => t.2.part == part && t.2.ctx == ctx && !t.2.retired && !t.2.saved))

/-- A size rounded up to 64 bytes. -/
def roundLine (n : Nat) : Nat := ceilDiv n 64 * 64

/-- The pending entries of a group's section (R399, R401): lanes of LDFUTs and RINVs not answered, and waits of WCNT, MRD
and page requests. -/
def State.pendingEntries (s : State) (id : Nat) : Nat :=
  ((s.groupOps id).map (fun o => match o.2.body with
    | .ldfut _ => (o.2.lines.map (fun l => l.accs.filter (fun a => !(o.2.res.any (fun r => r.lane == a.lane))))).flatten.length
    | .rinv _ n => n
    | _ => 0)).sum
  + (match (s.group id).wait with
    | some ⟨.room, false, _⟩ | some ⟨.matrix _ _ _, false, _⟩ | some ⟨.page _, _, _⟩ => 1
    | _ => 0)

/-- The bytes of a group section with a number of pending entries (R401). -/
def Group.sectionBytes (g : Group) (pending : Nat) : Nat :=
  192 + 2560 + roundLine (2 * g.lanes) + roundLine (4 * g.sregs) + roundLine (4 * g.vregs * g.lanes)
    + roundLine (32 * pending)

/-- The bytes of a group's section as it stands. -/
def State.groupBytes (s : State) (id : Nat) : Nat := (s.group id).sectionBytes (s.pendingEntries id)

/-- The bytes of a scratch image with its bits (R400). -/
def imageBytes (n : Nat) : Nat := roundLine n + roundLine (n / 128)

/-- The bytes of a team record (R400). -/
def State.recordBytes (s : State) (t : Nat) : Nat :=
  let x := s.team t
  3072 + ((s.teamGroups t).map s.groupBytes).sum + imageBytes x.obj.coreScr + imageBytes x.obj.clusScr
    + (if x.obj.mstream then 1024 + 65600 * ((x.mx.bind Mx.tiles).getD 0) else 0) + (if x.helm then 1024 else 0)
    + (if x.snaps.isEmpty then 0 else 64 + 256 * x.snaps.length) + 128 + 64

/-- The bytes of a context section: 24 that are architectural, and those of the rest of its layout (R400). -/
def contextBytes : Nat := 24 + Config.contextBytes

/-- What a save of a context needs: CSWNEED, set by the save command (R396, R400). -/
def State.saveNeed (s : State) (part ctx : Nat) : Nat :=
  roundPage contextBytes + ((s.ctxTeams part ctx).map (fun t => roundPage (s.recordBytes t))).sum

/-! ### How teams leave -/

/-- How a team leaves (R397): it drains, is flushed, or is saved. -/
inductive Way
  | drain | flush | save
  deriving DecidableEq, Repr, Inhabited

/-- Every group of a team has left the frontier. -/
def State.teamGone (s : State) (t : Nat) : Bool :=
  !(s.teamGroups t).isEmpty && (s.teamGroups t).all (fun g => (s.group g).draining)

/-- Whether a team qualifies for flush-and-restart (R397). -/
def State.flushable (s : State) (t : Nat) : Bool := !s.teamGone t && (s.team t).obj.idem && !(s.team t).wrote

/-- Whether the mean resident time of a team's code object leaves it within the drain budget (R397). -/
def State.nearEnd (s : State) (t : Nat) : Bool :=
  let x := s.team t
  let ts := Tab.getD (s.context x.part x.ctx).times x.obj.addr []
  decide (16 ≤ ts.length) && !(s.func x.part).halted
    && decide (ts.sum ≤ 16 * ((s.func x.part).cswDrain + (s.now - x.since + x.resided)))

/-- The way of one team beside its gang (R397, R398). -/
def State.wayOf (s : State) (gangFlush : Bool) (t : Nat) : Way :=
  if s.teamGone t then .drain else if gangFlush && s.flushable t then .flush else if s.nearEnd t then .drain else .save

/-- The ways of a context's teams; a gang with a team to be saved is saved whole (R397, R398). -/
def State.ways (s : State) (part ctx : Nat) : List (Nat × Way) :=
  let ts := (s.ctxTeams part ctx).filter (fun t => (s.team t).copyOf.isNone)
  let mates := fun (t : Nat) => ts.filter (fun u => (s.team u).gang == (s.team t).gang)
  let way := fun (t : Nat) => s.wayOf ((mates t).all s.flushable) t
  ts.map (fun t => (t, if (mates t).any (fun u => way u = .save) then .save else way t))

/-- A team flushed: it is discarded, and starts afresh without counting as killed (R397). -/
def State.flushTeam (s : State) (t : Nat) : State := (s.killTeam t).modTeam t (fun x => { x with kills := x.kills - 1 })

/-- A LOADING gang of a pre-empted context releases its reservations (R128). -/
def State.releaseGang (s : State) (gid : Nat) : State :=
  let g := s.gang gid
  let s := match g.teams with
    | [] => s
    | t :: _ => s.dropCopy (s.team t).copy
  let s := if g.restores then
      g.teams.foldl (fun s t => s.modTeam t (fun x => { x with saved := true })) s
    else
      let s := g.teams.foldl (fun s t =>
        ((match (s.launch g.launch).src with
          | .entry i | .block i _ _ => if (s.team t).detlevel = 0 then s else s.sealProducer i t
          | .node | .batch _ _ => s).freeAlloc (s.team t).coreScr).eraseTeam t) s
      (s.freeAlloc g.clusScr).modGang gid (fun g => { g with teams := [], clusScr := 0 })
  s.modGang gid (fun g => { g with state := .waiting, since := s.now })

/-- The parts of a save that act at once (R397 to R399): issue stops, the queues go to SAVED, run-aheads end, reservations
are released, copies are discarded, and every team goes its way. -/
def State.startSave (s : State) (part ctx : Nat) (cmd : Word) : State :=
  let s := s.modFunc part (fun f => { f with cswCmd := some cmd, cswAt := s.now, cswResult := 0 })
  let s : State := { s with contexts := Tab.modify s.contexts (64 * part + ctx) (fun c => { c with saved := true }) }
  let s : State := { s with queues := s.queues.map (fun q =>
    if q.1 / 1024 == part && q.2.live && q.2.ctx == ctx && q.2.state != .idle && q.2.state != .error && q.2.state != .saved
    then (q.1, { q.2 with savedState := q.2.state, state := .saved }) else q) }
  let s := ((Tab.keys s.spec).filter (fun g => (s.group g).part == part && (s.group g).ctx == ctx)).foldl
    State.endRunAhead s
  let s := (Tab.keys (s.gangs.filter (fun g => g.2.state == .loading && (s.launch g.2.launch).part == part
    && (s.launch g.2.launch).ctx == ctx))).foldl State.releaseGang s
  let s := ((s.ctxTeams part ctx).filter (fun t => (s.team t).copyOf.isSome)).foldl
    (fun s t => (s.killTeam t).modTeam t (fun x => { x with skipped := true })) s
  (s.ways part ctx).foldl (fun s w => match w.2 with
    | .drain => s.modTeam w.1 (fun x => { x with way := 1 })
    | .flush => s.flushTeam w.1
    | .save => s.modTeam w.1 (fun x => { x with way := 2 })) s

/-- CONTEXT_SAVE: CSWCMD with 1 in [9:8]; ignored while BUSY (R396). -/
def execContextSave (part : Nat) (cmd : Word) (s : State) : Host.Outcome State Fault Refusal :=
  let ctx := natField cmd.toNat 5 0
  if (s.func part).cswCmd.isSome || natField cmd.toNat 9 8 != 1 then .next s
  else
    let s := s.modFunc part (fun f => { f with cswCtx := ctx })
    if !(s.context part ctx).live || (s.context part ctx).saved then .next (s.modFunc part (fun f => { f with cswResult := 2 }))
    else
      let need := s.saveNeed part ctx
      let s := s.modFunc part (fun f => { f with cswNeed := need })
      if (s.func part).cswSize < need then .next (s.modFunc part (fun f => { f with cswResult := 1 }))
      else .next (s.startSave part ctx cmd)

/-- DRAIN_TIMEOUT: a draining team that has not completed within CSWDRAIN array cycles, or on a partition that has halted,
is saved as it stands, with its gang (R397, R398, R402). -/
def execDrainTimeout (team : Nat) (s : State) : Host.Outcome State Fault Refusal :=
  let x := s.team team
  let f := s.func x.part
  if x.way != 1 || x.retired || f.cswCmd.isNone || (decide (s.now - f.cswAt < f.cswDrain) && !f.halted) then .next s
  else
    .next { s with teams := s.teams.map (fun t =>
      if t.2.gang == x.gang && t.2.way == 1 && !t.2.retired then (t.1, { t.2 with way := 2 }) else t) }

/-! ### The save records -/

/-- A section's bytes, padded to a multiple of 64 (R400). -/
def section_ (bs : List Byte) : List Byte := padTo (roundLine bs.length) bs

/-- A barrier as a save record holds it (R366). -/
def Bar.bytes (b : Bar) (name : Nat) : List Byte :=
  leBytes 4 b.phase.toNat ++ leBytes 2 b.expect ++ leBytes 2 b.pending ++ leBytes 2 b.nextexp ++ leBytes 1 b.scope.code
    ++ leBytes 1 0 ++ leBytes 4 name

/-- A frontier entry as a save record holds it (R136). -/
def Entry.bytes (e : Entry) : List Byte :=
  leBytes 4 e.pc ++ leBytes 1 e.prio ++ leBytes 1 1 ++ leBytes 10 0 ++ leBytes 16 e.mask.toNat

/-- A group's frontier in 80 slots, ranked; handler entries are marked as the group's state is (R387, R401). -/
def Group.frontierBytes (g : Group) : List Byte :=
  (g.frontier.map Entry.bytes).flatten ++ leBytes (32 * (80 - g.frontier.length)) 0

/-- The header of a group section (R401). -/
def State.groupHeader (s : State) (id : Nat) : List Byte :=
  let g := s.group id
  leBytes 8 g.clock.toNat ++ leBytes 4 g.fpflags.toNat ++ leBytes 4 g.trapPc.toNat ++ leBytes 4 g.trapCause.toNat
    ++ leBytes 4 g.trapInfo.toNat ++ ((List.range 5).map (fun k => leBytes 2 (g.counter k))).flatten
    ++ leBytes 2 (((List.range 12).map (fun f => bitNat (!(g.flagOps f).isEmpty) * 2 ^ f)).sum)
    ++ ((List.range 12).map (fun f => leBytes 1 (g.flagOps f).length)).flatten
    ++ leBytes 1 (if g.draining then 1 else if g.handler.isSome then 2 else 0) ++ leBytes 1 0
    ++ leBytes 2 (s.pendingEntries id)
    ++ (match g.handler with
      | some r => leBytes 4 r.entry.pc ++ leBytes 4 r.entry.prio ++ leBytes 4 r.pcAtEntry.toNat
      | none => leBytes 12 0)
    ++ ((List.range 16).map (fun b => leBytes 4 (Tab.getD g.nbarArr b 0).toNat)).flatten
    ++ padTo 32 ((g.objArr.map (fun x => leBytes 4 x.1.toNat ++ leBytes 4 x.2.toNat)).flatten) ++ leBytes 32 0

/-- The registers of a group as its section holds them (R401). -/
def Group.predBytes (g : Group) : List Byte :=
  ((List.range g.lanes).map (fun l => leBytes 2 (g.predWord l).toNat)).flatten
def Group.scalarBytes (g : Group) : List Byte := ((List.range g.sregs).map (fun r => leBytes 4 (g.readS r).toNat)).flatten
def Group.vectorBytes (g : Group) : List Byte :=
  ((List.range g.vregs).map (fun r => ((List.range g.lanes).map (fun l => leBytes 4 (g.readV r l).toNat)).flatten)).flatten

/-- A group section (R401). -/
def State.groupSection (s : State) (id : Nat) : List Byte :=
  let g := s.group id
  s.groupHeader id ++ g.frontierBytes ++ section_ g.predBytes ++ section_ g.scalarBytes ++ section_ g.vectorBytes
    ++ section_ (freeBytes s.fresh (32 * s.pendingEntries id))

/-- A scratch image with its full/empty bits, one per granule (R400). -/
def State.imageSection (s : State) (id off n : Nat) : List Byte :=
  section_ (s.bytes (spaceKey id off) n)
    ++ section_ ((List.range (n / 128)).map (fun j =>
      BitVec.ofNat 8 (((List.range 8).map (fun b => bitNat (s.full.contains (spaceKey id off + 128 * j + 16 * b)) * 2 ^ b)).sum)))

/-- Bytes with their CHECK in the last eight (R400). -/
def withCheck (bs : List Byte) : List Byte := bs ++ leBytes 8 (crc64 bs).toNat

/-- The header of a team record (R400). -/
def State.teamHeader (s : State) (t : Nat) : List Byte :=
  let x := s.team t
  let l := s.launch x.launch
  let entry := match l.map with
    | none => 128
    | some ws => ws.getD ((s.gang x.gang).index % ws.length) 128
  padTo 256 (leBytes 4 0x4D414554 ++ leBytes 4 (s.recordBytes t) ++ leBytes 8 x.obj.addr ++ leBytes 8 x.lin
    ++ leBytes 1 x.groups.length
    ++ leBytes 1 (bitNat x.helm + 2 * bitNat (s.func x.part).halted + 4 * bitNat (decide (1 < x.obj.gangTeams)))
    ++ leBytes 1 x.gangPos ++ leBytes 1 0 ++ leBytes 4 entry)

/-- A team record (R400). The sections whose contents are not architectural hold free bytes. -/
def State.teamRecord (s : State) (t : Nat) : List Byte :=
  let x := s.team t
  let n := (if x.obj.mstream then 1024 + 65600 * ((x.mx.bind Mx.tiles).getD 0) else 0) + (if x.helm then 1024 else 0)
    + (if x.snaps.isEmpty then 0 else 64 + 256 * x.snaps.length) + 128
  withCheck (s.teamHeader t ++ ((List.range 16).map (fun b => (x.nbar b).bytes b)).flatten
    ++ freeBytes s.fresh 2560 ++ ((s.teamGroups t).map s.groupSection).flatten
    ++ s.imageSection x.coreScr 0 x.obj.coreScr ++ s.imageSection x.clusScr (x.gangPos * x.obj.clusScr) x.obj.clusScr
    ++ freeBytes s.fresh n ++ leBytes 56 0)

/-- The context section (R400): its first 16 bytes are architectural. -/
def State.contextSection (s : State) (teams : Nat) : List Byte :=
  withCheck (leBytes 4 0x58435343 ++ leBytes 4 teams ++ leBytes 8 contextBytes
    ++ freeBytes s.fresh (contextBytes - 24))

/-- Where the record of each saved team lies in the area. -/
def State.recordPlaces (s : State) : List Nat → Nat → List (Nat × Nat)
  | [], _ => []
  | t :: ts, a => (t, a) :: s.recordPlaces ts (a + roundPage (s.recordBytes t))

/-! ### The end of a save -/

/-- Whether an operation of a saved team may stay pending (R399). -/
def OpBody.staysPending : OpBody → Bool
  | .ldfut _ | .rinv _ _ | .packet | .rayWait _ | .msub | .launchQ _ _ _ _ => true
  | .tmov _ | .writeBack | .ld _ | .st _ | .atom _ _ _ | .atomc _ | .atomx _ | .atomv _ _ | .stfut _ | .futrst | .value
  | .emit _ | .emitClose _ _ | .vbld _ _ | .sample _ _ _ | .tileout _ _ _ _ _ _ | .classify _ _ _ _ | .commit _ _
  | .launchWg _ | .engine | .rayOpen _ _ | .rays _ _ => false

/-- Whether a team that is to be saved can be (R399). -/
def State.saveable (s : State) (t : Nat) : Bool :=
  let x := s.team t
  x.way == 2
    && s.ops.all (fun o => (s.group o.2.group).team != t || o.2.body.staysPending)
    && (s.engine (s.teamCluster t)).running != some t && !((s.engine (s.teamCluster t)).commits.any (fun c => c.1 == t))
    && x.regions.all (fun r => r.2.wb.isEmpty)
    && !(s.tslots.any (fun k => k.2.team == t && k.2.state == .closing))

/-- A team leaves its core as a save record (R399): its groups leave their core's sets, its LDFUTs are unlinked, and it holds
no resource. -/
def State.parkTeam (s : State) (t : Nat) : State :=
  let x := s.team t
  let s := (s.teamGroups t).foldl State.leaveCore s
  let s := (Tab.keys (s.ops.filter (fun o => (s.group o.2.group).team == t && (match o.2.body with
    | .ldfut _ => true
    | _ => false)))).foldl State.unlinkOp s
  let park := fun (al : Tab Alloc) (id : Nat) => Tab.modify al id (fun a => { a with unit := 1024 })
  { s with
    teams := Tab.put s.teams t { x with saved := true, way := 0, resided := x.resided + (s.now - x.since)
                                        mx := x.mx.map (fun m => { m with mapped := false }) }
    allocs := park s.allocs x.coreScr
    tslots := s.tslots.map (fun k => if k.2.team == t then (16 * (1024 + t) + k.1 % 16, k.2) else k) }

/-- A gang with saved teams waits to be placed again (R128, R402). -/
def State.parkGang (s : State) (gid : Nat) : State :=
  let g := s.gang gid
  match g.teams with
  | [] => s
  | t :: _ =>
    let s := s.dropCopy (s.team t).copy
    { s with allocs := Tab.modify s.allocs g.clusScr (fun a => { a with unit := 1024 })
             holds := s.holds.filter (fun h => h.2 != gid) }.modGang gid (fun g =>
      { g with state := .waiting, restores := true, since := s.now, lins := g.teams.map (fun t => (s.team t).lin) })

/-- CONTEXT_SAVE_DONE: every team of the context has retired or can be saved, and no ray pass of it runs; the context
section and the team records are written, and RESULT is set (R399, R400). -/
def execContextSaveDone (part : Nat) (s : State) : Host.Outcome State Fault Refusal :=
  let f := s.func part
  match f.cswCmd with
  | none => .next s
  | some cmd =>
    let ctx := natField cmd.toNat 5 0
    let ts := s.ctxTeams part ctx
    let busy := ts.any (fun t => !s.saveable t)
      || s.passes.any (fun p => (s.scenes.any (fun x => x.1 == p.2.scene && x.2.part == part && x.2.ctx == ctx)))
      || s.teams.any (fun t => t.2.part == part && t.2.ctx == ctx && t.2.killed && !t.2.retired)
    if busy then .next s
    else
      let gs := (ts.map (fun t => (s.team t).gang)).eraseDups
      let s1 := (s.recordPlaces ts (f.cswArea + roundPage contextBytes)).foldl
        (fun s r => s.physWrite part r.2 (s.teamRecord r.1)) (s.physWrite part f.cswArea (s.contextSection ts.length))
      let s2 := gs.foldl State.parkGang (ts.foldl State.parkTeam s1)
      let s3 : State := { s2 with contexts := Tab.modify s2.contexts (64 * part + ctx) (fun c => { c with savedAt := s.now }) }
      .next (((({ s3 with fresh := s3.fresh + f.cswSize } : State).modFunc part (fun f =>
        { f with cswCmd := none, cswResult := 0 })).signal part 4))

/-! ### Restoration -/

/-- A number in bytes. -/
def numAt (bs : List Byte) (off n : Nat) : Nat := leNat ((bs.drop off).take n)

/-- Whether a record's CHECK is that of its other bytes (R400). -/
def checkOk (bs : List Byte) : Bool := decide (8 ≤ bs.length) && crc64 (bs.take (bs.length - 8)) == BitVec.ofNat 64 (numAt bs (bs.length - 8) 8)

/-- A frontier read from a save record (R136, R401): the entries of a group in a handler are those that were marked. -/
def readFrontier (old : List Entry) (bs : List Byte) : List Entry :=
  (List.range 80).filterMap (fun k =>
    if numAt bs (32 * k + 5) 1 = 0 then none
    else some ⟨natField (numAt bs (32 * k) 4) 17 0, numAt bs (32 * k + 4) 1, BitVec.ofNat 128 (numAt bs (32 * k + 16) 16),
      (old.getD k {}).handler⟩)

/-- A group's registers read from its section (R401). -/
def Group.readSection (g : Group) (bs : List Byte) : Group :=
  let p := 192 + 2560
  let q := p + roundLine (2 * g.lanes)
  let v := q + roundLine (4 * g.sregs)
  let g1 : Group :=
    { g with
      clock := BitVec.ofNat 64 (numAt bs 0 8), fpflags := BitVec.ofNat 32 (numAt bs 8 4)
      trapPc := BitVec.ofNat 32 (numAt bs 12 4), trapCause := BitVec.ofNat 32 (numAt bs 16 4)
      trapInfo := BitVec.ofNat 32 (numAt bs 20 4), frontier := readFrontier g.frontier (bs.drop 192) }
  let g2 := (List.range g.lanes).foldl (fun g l => g.setPreds 0xFFFE l (BitVec.ofNat 32 (numAt bs (p + 2 * l) 2))) g1
  let g3 := (List.range g.sregs).foldl (fun g r => g.writeS r (BitVec.ofNat 32 (numAt bs (q + 4 * r) 4))) g2
  (List.range g.vregs).foldl (fun g r => (List.range g.lanes).foldl (fun g l =>
    g.writeV r l (BitVec.ofNat 32 (numAt bs (v + 4 * (r * g.lanes + l)) 4))) g) g3

/-- A scratch image and its bits read back (R400). -/
def State.readImage (s : State) (id off n : Nat) (bs : List Byte) : State :=
  (List.range (n / 16)).foldl (fun s k =>
    s.setFull (spaceKey id off + 16 * k) (natBit (numAt bs (roundLine n + k / 8) 1) (k % 8)))
    (s.setBytes (spaceKey id off) (bs.take n))

/-- The groups of a team read from their sections, one after another; the bytes that follow. -/
def State.readGroups (s : State) : List Nat → List Byte → State × List Byte
  | [], bs => (s, bs)
  | g :: gs, bs => (s.modGroup g (fun x => { x.readSection bs with stopped := false })).readGroups gs (bs.drop ((s.group g).sectionBytes (numAt bs 50 2)))

/-- A team read from its record (R400): its numbered barriers, its groups and its scratch. What the record holds in sections
that are not architectural is what the model kept. -/
def State.readTeam (s : State) (t : Nat) (bs : List Byte) : State :=
  let x := s.team t
  let nb := (List.range 16).foldl (fun (x : Team) b =>
    let o := 256 + 16 * b
    x.putNbar b ⟨BitVec.ofNat 32 (numAt bs o 4), numAt bs (o + 4) 2, numAt bs (o + 6) 2, numAt bs (o + 8) 2, .team⟩) x
  let r := (s.modTeam t (fun _ => nb)).readGroups x.groups (bs.drop 3072)
  let s1 := r.1.readImage x.coreScr 0 x.obj.coreScr r.2
  s1.readImage x.clusScr (x.gangPos * x.obj.clusScr) x.obj.clusScr (r.2.drop (imageBytes x.obj.coreScr))

/-- The saved teams of a context. -/
def State.savedTeams (s : State) (part ctx : Nat) : List Nat :=
  Tab.keys (s.teams.filter (fun t => t.2.part == part && t.2.ctx == ctx && t.2.saved))

/-- The SIZE of a record of a save area (R400). -/
def State.recordSize (s : State) (part pa : Nat) : Nat := leNat (s.physRead part (pa + 4) 4)

/-- Where the record of each saved team lies in an area that is read, by the SIZE of those before it (R400). -/
def State.areaPlaces (s : State) (part : Nat) : List Nat → Nat → List (Nat × Nat)
  | [], _ => []
  | t :: ts, a => (t, a) :: s.areaPlaces part ts (a + roundPage (s.recordSize part a))

/-- Whether the save area holds what a restore of a context reads (R396, R400). -/
def State.areaOk (s : State) (part ctx : Nat) : Bool :=
  let f := s.func part
  let ts := s.savedTeams part ctx
  checkOk (s.physRead part f.cswArea contextBytes) && leNat (s.physRead part f.cswArea 4) == 0x58435343
    && leNat (s.physRead part (f.cswArea + 4) 4) == ts.length
    && (s.areaPlaces part ts (f.cswArea + roundPage contextBytes)).all (fun r =>
      checkOk (s.physRead part r.2 (s.recordSize part r.2)))

/-- The blocks of a context's instances keep the time they had left (R102). -/
def State.shiftBlocks (s : State) (part ctx dt : Nat) : State :=
  { s with insts := s.insts.map (fun i =>
      if i.2.part == part && i.2.ctx == ctx then
        (i.1, { i.2 with blocks := i.2.blocks.map (fun b => (b.1, { b.2 with first := b.2.first.map (· + dt) })) })
      else i) }

/-- CONTEXT_RESTORE: CSWCMD with 2 in [9:8] (R396, R402): the area is checked, the teams are read, their gangs may be placed,
and the queues return to the states they were saved in. -/
def execContextRestore (part : Nat) (cmd : Word) (s : State) : Host.Outcome State Fault Refusal :=
  let ctx := natField cmd.toNat 5 0
  if (s.func part).cswCmd.isSome || natField cmd.toNat 9 8 != 2 then .next s
  else
    let s := s.modFunc part (fun f => { f with cswCtx := ctx })
    let f := s.func part
    let ts := s.savedTeams part ctx
    let result := fun (s : State) (r : Nat) => s.modFunc part (fun f => { f with cswResult := r })
    if !(s.context part ctx).live || !(s.context part ctx).saved then .next (result s 2)
    else if !s.areaOk part ctx then .next (result s 3)
    else
      let s1 := (s.areaPlaces part ts (f.cswArea + roundPage contextBytes)).foldl
        (fun s r => s.readTeam r.1 (s.physRead part r.2 (s.recordSize part r.2))) s
      let s2 := s1.shiftBlocks part ctx (s.now - (s.context part ctx).savedAt)
      let s3 : State :=
        { s2 with
          contexts := Tab.modify s2.contexts (64 * part + ctx) (fun c => { c with saved := false })
          queues := s2.queues.map (fun q => if q.1 / 1024 == part && q.2.live && q.2.ctx == ctx && q.2.state == .saved then
            (q.1, { q.2 with state := q.2.savedState }) else q) }
      let s4 := result (s3.modFunc part (fun f => { f with cswInuse := ts })) 0
      .next ((Tab.keys (s4.insts.filter (fun i => i.2.part == part && i.2.ctx == ctx))).foldl State.settleInst s4)

/-- CSWSTAT (R396): INUSE until every saved team of the last restore has been placed. -/
def State.cswStat (s : State) (part : Nat) : Nat :=
  let f := s.func part
  bitNat f.cswCmd.isSome + 2 * bitNat (f.cswInuse.any (fun t => (s.team t).saved)) + 16 * f.cswResult

end Sys2Proof.Machine
end

