-- ==== Sys2Proof/Machine/HostRegs.lean ====
section
/-!
DEFINITION. The register blocks of a function's BAR 0 and the kick pages of its BAR 2, as the host and strongly ordered
accesses of groups reach them (R69, R73, R164, R222, R274, R299, R317, R321, R339, R392, R396, R413, R414, R421 to R425,
R427, R430, R436, R438).
-/

namespace Sys2Proof.Machine

/-- The word at an offset of a 64-bit register, its low word at an offset divisible by 8. -/
def halfOf (x off : Nat) : Word := BitVec.ofNat 32 (if off % 8 = 0 then x else x / 2 ^ 32)
/-- A 64-bit register with one word written. -/
def putHalf (x off : Nat) (v : Word) : Nat :=
  if off % 8 = 0 then x / 2 ^ 32 % 2 ^ 32 * 2 ^ 32 + v.toNat else x % 2 ^ 32 + v.toNat * 2 ^ 32
/-- The byte of a written word. -/
def wordByte (v : Word) (j : Nat) : Nat := natField v.toNat (8 * j + 7) (8 * j)
/-- Four bytes of a table as a word. -/
def tabWord (t : Tab Nat) (i : Nat) : Word :=
  BitVec.ofNat 32 ((List.range 4).map (fun j => Tab.getD t (i + j) 0 * 256 ^ j)).sum
/-- A table with four of its bytes written. -/
def putTabWord (t : Tab Nat) (i : Nat) (v : Word) : Tab Nat :=
  (List.range 4).foldl (fun t j => Tab.set 0 t (i + j) (wordByte v j)) t
/-- The word at an offset of a set of bits. -/
def bitsWord (ks : List Nat) (off : Nat) : Word :=
  BitVec.ofNat 32 (((List.range 32).filter (fun j => ks.contains (8 * off + j))).map (2 ^ ·)).sum
/-- What an event's meaning comes to, where it is a next state. -/
def State.after (s : State) (o : Host.Outcome State Fault Refusal) : State :=
  match o with
  | .next t => t
  | .fault _ | .refused _ => s

/-- Whether a function serves its partition: the physical function serves partition 0 while no virtual function is enabled,
and virtual function n serves partition n (R421). -/
def State.serves (s : State) (part : Nat) : Bool :=
  if s.mgmt.vfs = 0 then part == 0 else decide (part < s.mgmt.vfs)
/-- The number under which the physical function is reached: that of partition 0 while it serves it, else 8. -/
def State.physFunction (s : State) : Nat := if s.mgmt.vfs = 0 then 0 else 8

/-! ### The identity block (R436) -/

/-- A word of the identity block. -/
def State.identityWord (s : State) (off : Nat) : Word :=
  let m := s.mgmt
  let dropped := ((List.range 8).map (fun p => (s.func p).dropped.length)).sum
  if off = 0 then 0x4C514441
  else if off = 4 then 0x7220
  else if off = 8 then BitVec.ofNat 32 (Config.stepping % 256)
  else if off = 12 then BitVec.ofNat 32 m.bootReason
  else if off = 16 then BitVec.ofNat 32 (64 + 256 * 64 + 65536 * 16)
  else if off = 20 then BitVec.ofNat 32 (128 + 65536 * (512 - dropped))
  else if off = 32 then BitVec.ofNat 32 (m.slot m.running).version
  else if off = 36 then BitVec.ofNat 32 m.svn
  else if off = 40 then m.corrected
  else if off = 44 then m.uncorr
  else if 64 ≤ off ∧ off < 128 then BitVec.ofNat 32 (objNat (digestBytes Config.identityKey) (off - 64) 4)
  else 0

/-! ### Views (R299, R317, R430) -/

/-- A word of a view's blocks: its bearing block, its scan block or its mode block. -/
def View.word (v : View) (off : Nat) : Word :=
  let i := off % 32
  if off < 0x200 then
    if i = 0 then v.brgsx else if i = 4 then v.brgsy else if i = 8 then v.brgx else if i = 12 then v.brgy
    else if i = 16 then v.lseq else 0
  else if off < 0x600 then
    let i := off % 64
    if i < 8 then halfOf v.frameBase i
    else if i = 8 then BitVec.ofNat 32 (bitNat v.scanen + 2 * bitNat v.streamen + 4 * v.fmt)
    else if i = 12 then BitVec.ofNat 32 (v.cols + 128 * v.strips)
    else if i = 16 then v.lseq0 else if i = 20 then v.lateStrips else if i = 24 then v.missTiles
    else if i = 28 then v.strDrop else if i = 32 ∨ i = 36 then halfOf v.strBase i
    else if i = 40 then v.strSize else if i = 44 then v.strHead else if i = 48 then v.strTail else 0
  else
    if i = 0 then BitVec.ofNat 32 v.pclk else if i = 4 then BitVec.ofNat 32 (v.hact + 65536 * v.vact)
    else if i = 8 then BitVec.ofNat 32 (v.htotal + 65536 * v.vtotal)
    else if i = 12 then BitVec.ofNat 32 (v.port + 256 * v.mst + 65536 * v.dscbpp) else 0

/-- The view that an offset of the view blocks belongs to. -/
def viewOf (off : Nat) : Option Nat :=
  if off < 0x200 then some (off / 32)
  else if off < 0x600 then some ((off - 0x200) / 64)
  else if 0x800 ≤ off ∧ off < 0xA00 then some ((off - 0x800) / 32)
  else none

/-- A view's mode block with a word written (R430). -/
def View.writeMode (v : View) (i : Nat) (w : Word) : View :=
  if v.scanen then v
  else if i = 0 then { v with pclk := w.toNat }
  else if i = 4 then { v with hact := w.toNat % 65536, vact := w.toNat / 65536 }
  else if i = 8 then { v with htotal := w.toNat % 65536, vtotal := w.toNat / 65536 }
  else if i = 12 then { v with port := w.toNat % 8, mst := wordByte w 1, dscbpp := w.toNat / 65536 }
  else v

/-- A view's scan block with a word written, but for CTRL (R317). -/
def View.writeScan (v : View) (i : Nat) (w : Word) : View :=
  if i = 48 then { v with strTail := w }
  else if v.scanen then v
  else if i < 8 then { v with frameBase := putHalf v.frameBase i w }
  else if i = 32 ∨ i = 36 then { v with strBase := putHalf v.strBase i w }
  else if i = 40 then { v with strSize := w }
  else v

/-- A word written to a view's blocks. -/
def State.writeView (s : State) (view off : Nat) (w : Word) : State :=
  let v := s.view? view
  if off < 0x200 then
    if off % 32 = 0 then s.putView view { v with brgsx := w }
    else if off % 32 = 4 then s.after (execBrgsy view w s)
    else s
  else if off < 0x600 then
    if off % 64 = 8 then s.after (if w.getLsbD 0 then execScanEnable view w s else execScanDisable view w s)
    else s.putView view (v.writeScan (off % 64) w)
  else s.putView view (v.writeMode (off % 32) w)

/-! ### Module blocks (R424, R438) -/

/-- A word of the partition table. -/
def State.tableWord (s : State) (off : Nat) : Word :=
  let t := s.ptStaged
  if off < 16 then tabWord t.unit off
  else if off < 144 then tabWord t.mem (off - 16)
  else if off < 148 then tabWord t.port 0
  else if off < 160 then tabWord t.link (off - 148)
  else if off < 176 then tabWord t.view (off - 160)
  else if off = 176 then BitVec.ofNat 32 t.chipid
  else if off = 184 then BitVec.ofNat 32 (16 * bitNat s.mgmt.ptRefused)
  else 0

/-- A word written to the partition table. -/
def State.writeTable (s : State) (off : Nat) (v : Word) : State :=
  let t := s.ptStaged
  if off < 16 then { s with ptStaged := { t with unit := putTabWord t.unit off v } }
  else if off < 144 then { s with ptStaged := { t with mem := putTabWord t.mem (off - 16) v } }
  else if off < 148 then { s with ptStaged := { t with port := putTabWord t.port 0 v } }
  else if off < 160 then { s with ptStaged := { t with link := putTabWord t.link (off - 148) v } }
  else if off < 176 then { s with ptStaged := { t with view := putTabWord t.view (off - 160) v } }
  else if off = 176 then { s with ptStaged := { t with chipid := v.toNat % 4096 } }
  else if off = 180 then s.after (execCommit v s)
  else s

/-- A word of the governor block. -/
def State.governorWord (s : State) (off : Nat) : Word :=
  let m := s.mgmt
  if off < 16 then BitVec.ofNat 32 (Tab.getD m.budgets (off / 2) 0 + 65536 * Tab.getD m.budgets (off / 2 + 1) 0)
  else if off = 20 then BitVec.ofNat 32 (2 * bitNat m.budgetErr + 4 * bitNat m.thermal)
  else if off = 24 ∨ off = 28 then bitsWord ((List.range 64).filter (fun c => s.clock c != 16)) (off - 24)
  else if 32 ≤ off ∧ off < 96 then tabWord ((List.range 64).map (fun c => (c, s.clock c))) (off - 32)
  else if off = 96 then BitVec.ofNat 32 m.power
  else 0

/-- A word written to the governor block. -/
def State.writeGovernor (s : State) (off : Nat) (v : Word) : State :=
  if off < 16 then
    s.modMgmt (fun m => { m with budgets := Tab.set 0 (Tab.set 0 m.budgets (off / 2) (v.toNat % 65536)) (off / 2 + 1)
                                              (v.toNat / 65536) })
  else if off = 16 then s.after (execApply v s)
  else s

/-! ### The function's own blocks -/

/-- RTSTAT (R321). -/
def State.rtStat (s : State) (part : Nat) : Nat :=
  let clean := s.teams.all (fun t => t.2.part != part || t.2.retired || t.2.saved
    || s.reserved part t.2.helm (s.relUnit (coreUnit t.2.core)) == (s.launch t.2.launch).realtime)
  let throt := (s.clusters part).any (fun c => s.reserved part false (s.relUnit c) && s.clock c != 16)
  bitNat clean + 2 * bitNat throt

/-- The quarantined array cores and helm cores of a partition, in its own numbers (R413). -/
def State.quarantined (s : State) (part : Nat) (helm : Bool) : List Nat :=
  if helm then ((s.helmCores part).filter (fun h => (s.core (256 + h)).quarantined)).map s.relUnit
  else (((s.clusters part).map (fun c => (List.range 4).map (4 * c + ·))).flatten.filter (fun k => (s.core k).quarantined)).map
    (fun k => 4 * s.relUnit (k / 4) + k % 4)

/-- A word of one of the small blocks of a function: the block's number and the offset in it. -/
def State.blockWord (s : State) (part block i : Nat) : Word :=
  let f := s.func part
  match block with
  | 1 =>
    if i < 8 then halfOf f.qArg i
    else if i = 12 then BitVec.ofNat 32 (bitNat f.qCmd.isSome + 16 * f.qResult + 65536 * f.qNumber)
    else 0
  | 2 =>
    if i < 8 then halfOf f.invVa i else if i = 8 then f.invPages else if i = 16 then BitVec.ofNat 32 (bitNat f.invBusy)
    else if i = 32 ∨ i = 36 then halfOf f.prqBase i else if i = 40 then f.prqSize else if i = 44 then f.prqHead
    else if i = 48 then f.prqTail else 0
  | 3 =>
    if i < 8 then halfOf f.cswArea i else if i < 16 then halfOf f.cswSize i
    else if i = 16 then BitVec.ofNat 32 f.cswDrain
    else if i = 24 then BitVec.ofNat 32 (s.cswStat part)
    else if i = 32 ∨ i = 36 then halfOf f.cswNeed i else 0
  | 4 =>
    if i < 8 then halfOf f.stopBase i
    else if i = 8 then BitVec.ofNat 32 (bitNat f.halted + 2 * bitNat f.stopped + 4 * bitNat (f.halted && s.quiet part)) else 0
  | 5 =>
    if i = 0 then f.chkRuns else if i = 4 then f.chkMismatch else if i = 8 then f.chkSkip else if i = 12 then f.sechkDis
    else if 16 ≤ i ∧ i < 48 then bitsWord (s.quarantined part false) (i - 16)
    else if 48 ≤ i ∧ i < 56 then bitsWord (s.quarantined part true) (i - 48) else 0
  | 6 =>
    if i < 64 then bitsWord f.dropReq i
    else if i = 68 then BitVec.ofNat 32 (bitNat f.dropCmd.isSome + 16 * f.dropResult)
    else if i = 72 ∨ i = 76 then halfOf (s.capacity part) i else 0
  | 7 =>
    if i < 8 then halfOf f.rtClus i else if i < 16 then halfOf f.rtHelm i
    else if i = 16 then BitVec.ofNat 32 (s.rtStat part) else 0
  | 8 => if i < 8 then halfOf f.rayStage i else 0
  | 9 =>
    if i < 8 then halfOf f.evBase i else if i = 8 then f.evSize else if i = 12 then f.evHead
    else if i = 16 then f.evTail else if i = 20 then f.evDrop else 0
  | _ => 0

/-- A word written to one of the small blocks of a function. -/
def State.writeBlock (s : State) (part block i : Nat) (v : Word) : State :=
  let mod := s.modFunc part
  let units := 2 ^ (s.clusters part).length
  match block with
  | 1 =>
    if i < 8 then mod (fun f => { f with qArg := putHalf f.qArg i v })
    else if i = 8 ∧ 1 ≤ natField v.toNat 3 0 ∧ natField v.toNat 3 0 ≤ 4 then s.queueCommand part (natField v.toNat 3 0) v
    else s
  | 2 =>
    if i < 8 then mod (fun f => { f with invVa := putHalf f.invVa i v })
    else if i = 8 then mod (fun f => { f with invPages := v })
    else if i = 12 then s.after (execInvalidateGo part v s)
    else if i = 32 ∨ i = 36 then mod (fun f => { f with prqBase := putHalf f.prqBase i v })
    else if i = 40 then mod (fun f => { f with prqSize := v })
    else if i = 48 then s.after (execPrqtailWrite part v s)
    else if i = 56 then s.after (execPrqrespRetry part v.toNat s)
    else s
  | 3 =>
    if i < 8 then mod (fun f => { f with cswArea := putHalf f.cswArea i v })
    else if i < 16 then mod (fun f => { f with cswSize := putHalf f.cswSize i v })
    else if i = 16 then mod (fun f => { f with cswDrain := v.toNat })
    else if i = 20 then
      s.after (if natField v.toNat 9 8 = 1 then execContextSave part v s else execContextRestore part v s)
    else s
  | 4 =>
    if i < 8 then mod (fun f => { f with stopBase := putHalf f.stopBase i v })
    else if i = 12 then s.after (execHaltcmdClear part v s)
    else s
  | 6 => if i = 64 then s.after (execDropgo part v s) else s
  | 7 =>
    if i < 8 then mod (fun f => { f with rtClus := putHalf f.rtClus i v % units })
    else if i < 16 then mod (fun f => { f with rtHelm := putHalf f.rtHelm i v % units })
    else s
  | 8 =>
    if i < 8 ∧ !(s.scenes.any (fun x => x.2.part == part)) then mod (fun f => { f with rayStage := putHalf f.rayStage i v })
    else s
  | 9 =>
    if i < 8 then mod (fun f => { f with evBase := putHalf f.evBase i v })
    else if i = 8 then mod (fun f => { f with evSize := v })
    else if i = 16 then mod (fun f => { f with evTail := v })
    else s
  | _ => s

/-- A word of the fabric block (R427). -/
def State.fabricWord (s : State) (part i : Nat) : Word :=
  let f := s.func part
  if i = 0 then BitVec.ofNat 32 (bitNat f.fabEn)
  else if i = 8 ∨ i = 12 then halfOf f.seqBase i
  else if 0x100 ≤ i ∧ i < 0x100 + 16 * 12 then
    let l := (i - 0x100) / 16
    let k := s.link l
    if i % 16 = 0 then BitVec.ofNat 32 (bitNat (Tab.getD s.pt.link l 0 == part) + 2 * bitNat k.up)
    else if i % 16 = 4 then k.errors else if i % 16 = 8 then k.replays else 0
  else if 0x1000 ≤ i ∧ i < 0x3000 then
    let c := (i - 0x1000) / 2
    BitVec.ofNat 32 ((Tab.getD f.routes c 0).toNat + 65536 * (Tab.getD f.routes (c + 1) 0).toNat)
  else 0

/-- A word written to the fabric block: two routes lie in one word. -/
def State.writeFabric (s : State) (part i : Nat) (v : Word) : State :=
  if i = 0 then s.after (execFabricEnable part v s)
  else if i = 8 ∨ i = 12 then
    if (s.func part).fabEn then s else s.modFunc part (fun f => { f with seqBase := putHalf f.seqBase i v })
  else if 0x1000 ≤ i ∧ i < 0x3000 then
    let c := (i - 0x1000) / 2
    let s1 := s.after (execRouteWrite part c (BitVec.ofNat 32 (v.toNat % 65536)) s)
    s1.after (execRouteWrite part (c + 1) (BitVec.ofNat 32 (v.toNat / 65536)) s1)
  else s

/-- WAKE_WRITE: a host write replaces WAKE (R164, R423). -/
def execWakeWrite (part q : Nat) (v : Word) (s : State) : Host.Outcome State Fault Refusal :=
  if (s.queue part q).live then .next (s.setWake part q v) else .next s

/-- A word of a function's BAR 0 (R423). -/
def State.regRead (s : State) (part off : Nat) : Word :=
  let module := part == s.physFunction
  if off < 0x1000 then s.identityWord off
  else if 8 ≤ part then
    if 0x100000 ≤ off ∧ off < 0x1000C0 then s.tableWord (off - 0x100000)
    else if 0x101000 ≤ off ∧ off < 0x101064 then s.governorWord (off - 0x101000)
    else 0
  else if off < 0xA000 then s.blockWord part (off / 0x1000) (off % 0x1000)
  else if off < 0xD000 then s.fabricWord part (off - 0xA000)
  else if 0x10000 ≤ off ∧ off < 0x10A00 then
    match viewOf (off - 0x10000) with
    | none => 0
    | some v => if s.viewPart v = part then (s.view? v).word (off - 0x10000) else 0
  else if 0x20000 ≤ off ∧ off < 0x24000 then
    match (s.clusters part)[(off - 0x20000) / 256]? with
    | none => 0
    | some c =>
      let w := s.window part c ((off - 0x20000) / 4 % 64)
      BitVec.ofNat 32 (w.1 + 65536 * w.2)
  else if off = 0x24000 then BitVec.ofNat 32 (bitNat (s.func part).csgBusy + 2 * bitNat (s.func part).csgRefused)
  else if 0x30000 ≤ off ∧ off < 0x31000 then (s.queue part ((off - 0x30000) / 4)).wake
  else if (0x40000 ≤ off ∧ off < 0x40100) ∨ (0x48000 ≤ off ∧ off < 0x48008) then Tab.getD (s.func part).msix off 0
  else if module && decide (0x100000 ≤ off ∧ off < 0x1000C0) then s.tableWord (off - 0x100000)
  else if module && decide (0x101000 ≤ off ∧ off < 0x101064) then s.governorWord (off - 0x101000)
  else 0

/-- A word written to a function's BAR 0 (R423). -/
def State.regWrite (s : State) (part off : Nat) (v : Word) : State :=
  let module := part == s.physFunction
  if module && decide (0x100000 ≤ off ∧ off < 0x1000C0) then s.writeTable (off - 0x100000) v
  else if module && decide (0x101000 ≤ off ∧ off < 0x101064) then s.writeGovernor (off - 0x101000) v
  else if 8 ≤ part then s
  else if off < 0xA000 then s.writeBlock part (off / 0x1000) (off % 0x1000) v
  else if off < 0xD000 then s.writeFabric part (off - 0xA000) v
  else if 0x10000 ≤ off ∧ off < 0x10A00 then
    match viewOf (off - 0x10000) with
    | none => s
    | some w => if s.viewPart w = part then s.writeView w (off - 0x10000) v else s
  else if 0x20000 ≤ off ∧ off < 0x24000 then
    s.after (execColumnStoreGrant part ((off - 0x20000) / 256) ((off - 0x20000) / 4 % 64) v s)
  else if off = 0x24000 then
    if v.getLsbD 1 then s.modFunc part (fun f => { f with csgRefused := false }) else s
  else if 0x30000 ≤ off ∧ off < 0x31000 then s.after (execWakeWrite part ((off - 0x30000) / 4) v s)
  else if (0x40000 ≤ off ∧ off < 0x40100) ∨ (0x48000 ≤ off ∧ off < 0x48008) then
    s.modFunc part (fun f => { f with msix := Tab.set 0 f.msix off v })
  else s

/-- REGISTER_WRITE: a word written through a function's BAR 0; one that no function takes has no effect (R421, R423). -/
def execRegisterWrite (part off : Nat) (v : Word) (s : State) : Host.Outcome State Fault Refusal :=
  if off % 4 ≠ 0 ∨ 2 ^ 26 ≤ off ∨ !(s.serves part || part == s.physFunction) then .next s
  else .next (s.regWrite part off v)

/-! ### Kick pages (R73) -/

/-- The number of a queue's state in STATE (R73). -/
def QState.code : QState → Nat
  | .idle => 0 | .fetch => 1 | .check => 2 | .node => 3 | .waitNode => 4 | .error => 5 | .saved => 6

/-- A word of a kick page. -/
def State.kickRead (s : State) (part off : Nat) : Word :=
  let x := s.queue part (off / 4096)
  if off % 4096 = 16 then BitVec.ofNat 32 x.state.code else if off % 4096 = 20 then x.h else 0

/-- A word written to a kick page: CTRL's SKIP and STOP. -/
def State.kickWrite (s : State) (part off : Nat) (v : Word) : State :=
  let q := off / 4096
  if off % 4096 = 0 then s.after (execTail part q v s)
  else if off % 4096 = 8 then
    let s1 := if v.getLsbD 0 then s.after (execSkip part q s) else s
    if v.getLsbD 1 then s1.after (execStop part q s1) else s1
  else s

/-! ### Accesses of groups to the windows (R215, R220) -/

/-- Four or eight bytes read from a window. -/
def State.windowRead (s : State) (part : Nat) (kick : Bool) (off n : Nat) : List Byte :=
  let word := fun o => leBytes 4 (if kick then s.kickRead part o else s.regRead part o).toNat
  if n = 8 then word off ++ word (off + 4) else word off

/-- Four or eight bytes written to a window, the low word first; PRQRESP takes its FAIL bit from an 8-byte write (R222). -/
def State.windowWrite (s : State) (part : Nat) (kick : Bool) (off : Nat) (bs : List Byte) : State :=
  let word := fun (s : State) (o : Nat) (x : List Byte) =>
    let v : Word := BitVec.ofNat 32 (leNat x)
    if kick then s.kickWrite part o v else s.regWrite part o v
  if bs.length = 8 then
    if !kick && off == 0x2038 then
      s.after (if natBit (leNat bs) 32 then execPrqrespFail part (leNat (bs.take 4)) s
        else execPrqrespRetry part (leNat (bs.take 4)) s)
    else word (word s off (bs.take 4)) (off + 4) (bs.drop 4)
  else word s off bs

/-! ### Host accesses to device memory (R363, R421, R422) -/

/-- HOST_MEMORY_REQUEST: a BAR 4 or CXL.mem request is one line action for each line; a read leaves memory as it is, and a
write beyond CAPACITY is dropped. It waits while a pseudo-channel is being dropped (R415). -/
def execHostMemoryRequest (part addr : Nat) (write : Bool) (data : List Byte) (s : State) :
    Host.Outcome State Fault Refusal :=
  if !s.serves part || !write || (s.func part).dropCmd.isSome then .next s
  else
    let bs := ((List.range data.length).filter (fun i => decide (addr + i < s.capacity part))).map
      (fun i => (addr + i, globalKey part (addr + i), data.getD i 0))
    .next ((byLine bs).foldl (fun s l => ((s.clearPoison (l.2.map (fun b => b.2.1))).setKeys
      (l.2.map (fun b => b.2))).bumpTag l.1) s)

end Sys2Proof.Machine
end

