-- ==== Sys2Proof/Machine/LineAction.lean ====
section
/-!
DEFINITION. Line actions at home slices: loads, stores, atomics and futures, and strongly ordered accesses to the windows
(R220, R250 to R269, R356).
-/

namespace Sys2Proof.Machine

/-! ### What an action does in one lane -/

/-- The new value of ATOM and of one word of ATOMV (R261). -/
def atomNew (op : AtomOp) (u : Bool) (w old b : Nat) : Nat :=
  let halves := fun (f : Fmt) =>
    (atomSum f (old % 2 ^ 16) (b % 2 ^ 16)).1 + (atomSum f (old / 2 ^ 16) (b / 2 ^ 16)).1 * 2 ^ 16
  match op with
  | .add => (old + b) % 2 ^ w
  | .min => if u then min old b else if toSigned w old ≤ toSigned w b then old else b
  | .max => if u then max old b else if toSigned w b ≤ toSigned w old then old else b
  | .and => old &&& b
  | .or => old ||| b
  | .xor => old ^^^ b
  | .exch => b
  | .fadd => (atomSum .f32 old b).1
  | .hadd2 => halves .f16
  | .badd2 => halves .bf16

/-- The operation of ATOM that each word of ATOMV follows (R263). -/
def atomvWord : AtomvOp → AtomOp
  | .add => .add | .min => .min | .max => .max | .fadd => .fadd | .hadd2 => .hadd2 | .badd2 => .badd2

/-- The new 16 bytes of ATOMV (R263). -/
def atomvNew (op : AtomvOp) (u : Bool) (old b : List Byte) : List Byte :=
  ((List.range 4).map (fun k =>
    leBytes 4 (atomNew (atomvWord op) u 32 (objNat old (4 * k) 4) (objNat b (4 * k) 4)))).flatten

/-- The slot's bytes 0 to 40 after ATOMX, and whether the add saturates (R264). -/
def atomxNew (ta : XTy) (old data : List Byte) : List Byte × Bool :=
  let acc := objNat old 0 40
  let r := xaAdd acc (if ta = .xa then xaAddend (leNat data) else addendOf ta false (BitVec.ofNat 32 (leNat data)))
  (leBytes 40 r.1 ++ leBytes 1 (objNat old 40 1 ||| r.2.1.toNat), r.2.2)

/-- The bytes that an action of an operation reads and writes at a lane's address. -/
def OpBody.span (b : OpBody) (a : LaneAcc) : Nat :=
  match b with
  | .st _ => a.data.length
  | .atomx _ => 41
  | _ => a.n

/-- Whether an operation's actions write (R253), and whether they read what they meet. -/
def OpBody.writesLines : OpBody → Bool
  | .st _ | .atom _ _ _ | .atomc _ | .atomx _ | .atomv _ _ | .stfut _ | .futrst => true
  | _ => false
def OpBody.readsLines : OpBody → Bool
  | .st _ => false
  | _ => true

/-- One lane's access of memory (R259, R261 to R264): the new bytes, its result, and whether its add is refused. -/
def laneAct (body : OpBody) (det : Nat) (old : List Byte) (a : LaneAcc) : List Byte × LaneRes × Bool :=
  let res : LaneRes := { lane := a.lane, va := a.va, bytes := old }
  match body with
  | .ld size => ([], { res with bytes := loadExtend size old }, false)
  | .st _ => (a.data, res, false)
  | .atom op u _ => (leBytes a.n (atomNew op u (8 * a.n) (leNat old) (leNat a.data)), res, false)
  | .atomc _ => (if old = a.cmp then a.data else old, { res with ok := decide (old = a.cmp) }, false)
  | .atomx ta =>
    let r := atomxNew ta old a.data
    if det = 3 ∧ r.2 then ([], res, true) else (r.1, res, false)
  | .atomv op u => (atomvNew op u old a.data, res, false)
  | _ => ([], res, false)

/-- What the lanes of an action have done so far: memory, results, and the lanes refused. -/
structure Acting where
  s : State
  res : List LaneRes := []
  refused : List Nat := []

/-- The next lane of an action. -/
def Acting.lane (body : OpBody) (det : Nat) (x : Acting) (a : LaneAcc) : Acting :=
  let r := laneAct body det (x.s.bytes a.key (body.span a)) a
  { s := x.s.setBytes a.key r.1
    res := if body.writesLines && body.readsLines || !body.writesLines then x.res ++ [r.2.1] else x.res
    refused := if r.2.2 then x.refused ++ [a.lane] else x.refused }

/-! ### Actions -/

/-- The keys that an action's lanes touch. -/
def LineAct.keys (la : LineAct) (body : OpBody) : List Nat :=
  (la.accs.map (fun a => (List.range (body.span a)).map (a.key + ·))).flatten

/-- The virtual address of an action's line. -/
def LineAct.va (la : LineAct) : Nat :=
  match la.accs with
  | [] => 0
  | a :: _ => a.va - (a.key - la.line)

/-- An action of a load, a store or an atomic on a line of memory. One that would write bytes 0 to 11 of a slot with linked
readers writes nothing (R269); one that meets an uncorrectable word gives the lanes that read it no data, and writes nothing
(R252). -/
def State.memoryAction (s : State) (id : Nat) (op : Op) (la : LineAct) : State :=
  let det := (s.group op.group).detlevel
  let keys := la.keys op.body
  let bad := if op.body.readsLines then s.readsPoison keys else s.writesPoison keys
  let clean := la.accs.filter (fun a => !(s.readsPoison ((List.range (op.body.span a)).map (a.key + ·))))
  if bad then
    let r := if op.body.writesLines then [] else (clean.foldl (Acting.lane op.body det) { s := s }).res
    (s.addRes id r).modOp id (fun o => { o with ue := true })
  else
    let r := la.accs.foldl (Acting.lane op.body det) { s := s }
    let s1 :=
      if !op.body.writesLines then s
      else match s.linkedHit keys with
        | some slot => s.ctxEvent op.part op.ctx 5 0 (la.va + (slot - la.line))
        | none => (r.s.clearPoison keys).bumpTag la.line
    let tag := (Tab.getD s1.tags la.line 0).toNat
    (s1.addRes id (r.res.map (fun x => { x with tag := tag }))).modOp id (fun o => { o with refused := o.refused ++ r.refused })

/-- The slots that an action's lanes name, in order of their lowest lanes. -/
def LineAct.slots (la : LineAct) : List LaneAcc :=
  la.accs.foldl (fun xs a => if xs.any (fun b => b.key == a.key) then xs else xs ++ [a]) []

/-- An action of a future operation on a line (R267 to R269). -/
def State.futureAction (s : State) (id : Nat) (op : Op) (la : LineAct) : State :=
  if s.readsPoison (la.keys op.body) then s.modOp id (fun o => { o with ue := true })
  else match op.body with
    | .ldfut _ =>
      la.slots.foldl (fun s a =>
        let lanes := (la.accs.filter (fun b => b.key == a.key && !(op.res.any (fun r => r.lane == b.lane)))).map LaneAcc.lane
        if lanes.isEmpty then s else s.readFuture id op a.key a.va lanes) s
    | .stfut _ =>
      let r := la.accs.foldl (fun (r : State × Bool) a =>
        let x := r.1.fillFuture id op a.key a.va a.data
        (x.1, r.2 || x.2)) (s, false)
      if r.2 then r.1.bumpTag la.line else r.1
    | .futrst =>
      let r := la.accs.foldl (fun (r : State × Bool) a =>
        let x := r.1.resetFuture op a.key a.va
        (x.1, r.2 || x.2)) (s, false)
      if r.2 then r.1.bumpTag la.line else r.1
    | _ => s

/-- One strongly ordered access to a window (R215, R220). -/
def State.windowAction (s : State) (id : Nat) (op : Op) (a : LaneAcc) : State :=
  let kick := a.reach == .kick
  if op.body.writesLines then s.windowWrite op.part kick a.key a.data
  else s.addRes id [{ lane := a.lane, va := a.va, bytes := s.windowRead op.part kick a.key a.n }]

/-- The action of a line of an operation. -/
def State.lineAction (s : State) (id : Nat) (op : Op) (la : LineAct) : State :=
  match la.accs with
  | [] => s
  | a :: _ =>
    if a.reach != .memory then s.windowAction id op a
    else match op.body with
      | .ldfut _ | .stfut _ | .futrst => s.futureAction id op la
      | _ => s.memoryAction id op la

/-! ### The order of actions -/

/-- The first action of an operation on a line that has not been performed, with its place. -/
def Op.nextAction (op : Op) (line : Nat) : Option (Nat × LineAct) :=
  (((List.range op.lines.length).zip op.lines).find? (fun x => x.2.line == line && !x.2.done))

/-- Whether an action of an operation may be performed: what its release waits for is complete, earlier actions of its group
on its line are performed, and strongly ordered accesses of a group go one after another (R220, R260, R356). -/
def State.actionFree (s : State) (id : Nat) (op : Op) (k : Nat) (la : LineAct) : Bool :=
  (s.pendingOps op.after).isEmpty && !(s.team (s.group op.group).team).saved
    && s.ops.all (fun o => o.2.group != op.group || decide (id ≤ o.1)
      || o.2.lines.all (fun l => l.done || (l.line != la.line && !(la.so && l.so))))
    && (!la.so || (op.lines.take k).all (fun l => l.done || !l.so))

/-- HOME_SLICE_LINE_ACTION. -/
def execHomeSliceLineAction (op line : Nat) (s : State) : Host.Outcome State Fault Refusal :=
  match Tab.get? s.ops op with
  | none => .next s
  | some o =>
    match o.nextAction line with
    | none => .next s
    | some (k, la) =>
      if !s.actionFree op o k la then .next s
      else .next ((s.modOp op (fun o => { o with lines := o.lines.set k { la with done := true } })).lineAction op o la)

end Sys2Proof.Machine
end

