-- ==== Sys2Proof/Machine/Dispatch.lean ====
section
/-!
DEFINITION. The dispatch: each instruction's own meaning.
-/

namespace Sys2Proof.Machine

/-- One instruction executed: a program instruction by the issuer that `cur` names, a step of an engine, the host or the
management subsystem by that agent. -/
def exec (i : Instr) (s : State) : Host.Outcome State Fault Refusal :=
  match i with
  | .nop o => Sys2Proof.Machine.execNop o s
  | .bra o t => Sys2Proof.Machine.execBra o t s
  | .bri o => Sys2Proof.Machine.execBri o s
  | .call o t => Sys2Proof.Machine.execCall o t s
  | .calli o => Sys2Proof.Machine.execCalli o s
  | .ret o => Sys2Proof.Machine.execRet o s
  | .exit o => Sys2Proof.Machine.execExit o s
  | .yield o => Sys2Proof.Machine.execYield o s
  | .trap o code => Sys2Proof.Machine.execTrap o code s
  | .swiWake o => Sys2Proof.Machine.execSwiWake o s
  | .swiClear o => Sys2Proof.Machine.execSwiClear o s
  | .swiMgmt o => Sys2Proof.Machine.execSwiMgmt o s
  | .bkpt o code => Sys2Proof.Machine.execBkpt o code s
  | .getsr o => Sys2Proof.Machine.execGetsr o s
  | .setsr o => Sys2Proof.Machine.execSetsr o s
  | .sleepc o => Sys2Proof.Machine.execSleepc o s
  | .waitc o k => Sys2Proof.Machine.execWaitc o k s
  | .plop o lut => Sys2Proof.Machine.execPlop o lut s
  | .pmovGet o => Sys2Proof.Machine.execPmovGet o s
  | .pmovSet o mask => Sys2Proof.Machine.execPmovSet o mask s
  | .iadd o u sat cc => Sys2Proof.Machine.execIadd o u sat cc s
  | .isub o u sat cc => Sys2Proof.Machine.execIsub o u sat cc s
  | .iadd3 o u sat => Sys2Proof.Machine.execIadd3 o u sat s
  | .iaddc o cc => Sys2Proof.Machine.execIaddc o cc s
  | .imul o u sat => Sys2Proof.Machine.execImul o u sat s
  | .imulh o u => Sys2Proof.Machine.execImulh o u s
  | .imad o u sat => Sys2Proof.Machine.execImad o u sat s
  | .isad o u => Sys2Proof.Machine.execIsad o u s
  | .imin o u => Sys2Proof.Machine.execImin o u s
  | .imax o u => Sys2Proof.Machine.execImax o u s
  | .iabs o sat => Sys2Proof.Machine.execIabs o sat s
  | .ineg o sat => Sys2Proof.Machine.execIneg o sat s
  | .icmp o cond u comb => Sys2Proof.Machine.execIcmp o cond u comb s
  | .isel o => Sys2Proof.Machine.execIsel o s
  | .mov o => Sys2Proof.Machine.execMov o s
  | .movi o v => Sys2Proof.Machine.execMovi o v s
  | .band o => Sys2Proof.Machine.execAnd o s
  | .bor o => Sys2Proof.Machine.execOr o s
  | .bxor o => Sys2Proof.Machine.execXor o s
  | .bnot o => Sys2Proof.Machine.execNot o s
  | .lop3 o lut => Sys2Proof.Machine.execLop3 o lut s
  | .shl o wrap => Sys2Proof.Machine.execShl o wrap s
  | .shr o wrap => Sys2Proof.Machine.execShr o wrap s
  | .sar o wrap => Sys2Proof.Machine.execSar o wrap s
  | .shf o right wrap => Sys2Proof.Machine.execShf o right wrap s
  | .bfe o u => Sys2Proof.Machine.execBfe o u s
  | .bfi o => Sys2Proof.Machine.execBfi o s
  | .brev o => Sys2Proof.Machine.execBrev o s
  | .popc o => Sys2Proof.Machine.execPopc o s
  | .clz o => Sys2Proof.Machine.execClz o s
  | .ctz o => Sys2Proof.Machine.execCtz o s
  | .prmt o => Sys2Proof.Machine.execPrmt o s
  | .lea o n u chk => Sys2Proof.Machine.execLea o n u chk s
  | .cvti o td ts sat => Sys2Proof.Machine.execCvti o td ts sat s
  | .iaddw o u sat cc => Sys2Proof.Machine.execIaddw o u sat cc s
  | .isubw o u sat cc => Sys2Proof.Machine.execIsubw o u sat cc s
  | .imulw o => Sys2Proof.Machine.execImulw o s
  | .imadx o u => Sys2Proof.Machine.execImadx o u s
  | .icmpw o cond u comb => Sys2Proof.Machine.execIcmpw o cond u comb s
  | .shlw o wrap => Sys2Proof.Machine.execShlw o wrap s
  | .shrw o wrap => Sys2Proof.Machine.execShrw o wrap s
  | .sarw o wrap => Sys2Proof.Machine.execSarw o wrap s
  | .movw o => Sys2Proof.Machine.execMovw o s
  | .fadd o rm ftz na nb => Sys2Proof.Machine.execFadd o rm ftz na nb s
  | .fmul o rm ftz na nb => Sys2Proof.Machine.execFmul o rm ftz na nb s
  | .ffma o rm ftz na nc => Sys2Proof.Machine.execFfma o rm ftz na nc s
  | .fmin o nanp ftz => Sys2Proof.Machine.execFmin o nanp ftz s
  | .fmax o nanp ftz => Sys2Proof.Machine.execFmax o nanp ftz s
  | .fcmp o cond ftz comb => Sys2Proof.Machine.execFcmp o cond ftz comb s
  | .frnd o rm ftz => Sys2Proof.Machine.execFrnd o rm ftz s
  | .fclass o f64 => Sys2Proof.Machine.execFclass o f64 s
  | .fdiv o rm ftz => Sys2Proof.Machine.execFdiv o rm ftz s
  | .frcp o rm ftz => Sys2Proof.Machine.execFrcp o rm ftz s
  | .frsq o rm ftz => Sys2Proof.Machine.execFrsq o rm ftz s
  | .fsqrt o rm ftz => Sys2Proof.Machine.execFsqrt o rm ftz s
  | .fexp2 o ftz => Sys2Proof.Machine.execFexp2 o ftz s
  | .flog2 o ftz => Sys2Proof.Machine.execFlog2 o ftz s
  | .fsin o ftz => Sys2Proof.Machine.execFsin o ftz s
  | .fcos o ftz => Sys2Proof.Machine.execFcos o ftz s
  | .dadd o rm na nb => Sys2Proof.Machine.execDadd o rm na nb s
  | .dmul o rm na nb => Sys2Proof.Machine.execDmul o rm na nb s
  | .dfma o rm na nc => Sys2Proof.Machine.execDfma o rm na nc s
  | .dcmp o cond comb => Sys2Proof.Machine.execDcmp o cond comb s
  | .hadd2 o rm ftz bf na nb => Sys2Proof.Machine.execHadd2 o rm ftz bf na nb s
  | .hmul2 o rm ftz bf na nb => Sys2Proof.Machine.execHmul2 o rm ftz bf na nb s
  | .hfma2 o rm ftz bf na nc => Sys2Proof.Machine.execHfma2 o rm ftz bf na nc s
  | .hmnx2 o max nanp ftz bf => Sys2Proof.Machine.execHmnx2 o max nanp ftz bf s
  | .fdp4 o rm ftz ta tb => Sys2Proof.Machine.execFdp4 o rm ftz ta tb s
  | .cvt o rm ftz satf td ts => Sys2Proof.Machine.execCvt o rm ftz satf td ts s
  | .cvtfi o rm ftz ti tf => Sys2Proof.Machine.execCvtfi o rm ftz ti tf s
  | .cvtif o rm satf tf ti => Sys2Proof.Machine.execCvtif o rm satf tf ti s
  | .pack o rm ftz satf td pos => Sys2Proof.Machine.execPack o rm ftz satf td pos s
  | .xadd o ta ftz => Sys2Proof.Machine.execXadd o ta ftz s
  | .xrnd o rm ftz satf td => Sys2Proof.Machine.execXrnd o rm ftz satf td s
  | .xcmb o sub => Sys2Proof.Machine.execXcmb o sub s
  | .xchk o test => Sys2Proof.Machine.execXchk o test s
  | .shfl o mode wc rot q => Sys2Proof.Machine.execShfl o mode wc rot q s
  | .rdlane o => Sys2Proof.Machine.execRdlane o s
  | .wrlane o => Sys2Proof.Machine.execWrlane o s
  | .ballot o k => Sys2Proof.Machine.execBallot o k s
  | .vote o mode => Sys2Proof.Machine.execVote o mode s
  | .vmatch o w64 cnt q => Sys2Proof.Machine.execMatch o w64 cnt q s
  | .pscan o op t incl ftz => Sys2Proof.Machine.execPscan o op t incl ftz s
  | .redux o op t ex ftz => Sys2Proof.Machine.execRedux o op t ex ftz s
  | .compact o q => Sys2Proof.Machine.execCompact o q s
  | .ld o size acq tag => Sys2Proof.Machine.execLd o size acq tag s
  | .st o size rel => Sys2Proof.Machine.execSt o size rel s
  | .atom o op u w64 rtn ord scope tag => Sys2Proof.Machine.execAtom o op u w64 rtn ord scope tag s
  | .atomc o width ord scope tag q => Sys2Proof.Machine.execAtomc o width ord scope tag q s
  | .atomx o ta ord scope => Sys2Proof.Machine.execAtomx o ta ord scope s
  | .atomv o op u rtn ord scope => Sys2Proof.Machine.execAtomv o op u rtn ord scope s
  | .ldfut o w64 scope => Sys2Proof.Machine.execLdfut o w64 scope s
  | .stfut o w64 scope => Sys2Proof.Machine.execStfut o w64 scope s
  | .futrst o => Sys2Proof.Machine.execFutrst o s
  | .lds o size fe lvl off => Sys2Proof.Machine.execLds o size fe lvl off s
  | .sts o size fe lvl off => Sys2Proof.Machine.execSts o size fe lvl off s
  | .atoms o op u w64 rtn lvl => Sys2Proof.Machine.execAtoms o op u w64 rtn lvl s
  | .tmov o sk dk bdone nb => Sys2Proof.Machine.execTmov o sk dk bdone nb s
  | .bufdec o => Sys2Proof.Machine.execBufdec o s
  | .bufdecDrop o => Sys2Proof.Machine.execBufdecDrop o s
  | .bufsetFill o => Sys2Proof.Machine.execBufsetFill o s
  | .bufsetDrain o => Sys2Proof.Machine.execBufsetDrain o s
  | .bufsetReset o => Sys2Proof.Machine.execBufsetReset o s
  | .bufqry o state nb => Sys2Proof.Machine.execBufqry o state nb s
  | .mapr o lvl k => Sys2Proof.Machine.execMapr o lvl k s
  | .unmapr o k => Sys2Proof.Machine.execUnmapr o k s
  | .flushr o k => Sys2Proof.Machine.execFlushr o k s
  | .feset o full lvl => Sys2Proof.Machine.execFeset o full lvl s
  | .feqry o lvl => Sys2Proof.Machine.execFeqry o lvl s
  | .msub o t pri => Sys2Proof.Machine.execMsub o t pri s
  | .mrd o n => Sys2Proof.Machine.execMrd o n s
  | .mwm o => Sys2Proof.Machine.execMwm o s
  | .mlda o clus off => Sys2Proof.Machine.execMlda o clus off s
  | .mldb o off => Sys2Proof.Machine.execMldb o off s
  | .mma o ta tb last => Sys2Proof.Machine.execMma o ta tb last s
  | .msclOff o => Sys2Proof.Machine.execMsclOff o s
  | .mscl o clus => Sys2Proof.Machine.execMscl o clus s
  | .msto o lvl td satf => Sys2Proof.Machine.execMsto o lvl td satf s
  | .mzero o => Sys2Proof.Machine.execMzero o s
  | .mloopDec o t => Sys2Proof.Machine.execMloopDec o t s
  | .mloopAdd o v => Sys2Proof.Machine.execMloopAdd o v s
  | .mbarw o nb => Sys2Proof.Machine.execMbarw o nb s
  | .mbara o nb => Sys2Proof.Machine.execMbara o nb s
  | .mend o => Sys2Proof.Machine.execMend o s
  | .emitPrim o cullb => Sys2Proof.Machine.execEmitPrim o cullb s
  | .emitOpen o => Sys2Proof.Machine.execEmitOpen o s
  | .emitClose o => Sys2Proof.Machine.execEmitClose o s
  | .vbldLat o => Sys2Proof.Machine.execVbldLat o s
  | .vbldSet o => Sys2Proof.Machine.execVbldSet o s
  | .classify o clus => Sys2Proof.Machine.execClassify o clus s
  | .sample o lvl lin => Sys2Proof.Machine.execSample o lvl lin s
  | .chartxf o inv y => Sys2Proof.Machine.execChartxf o inv y s
  | .tileout o clus => Sys2Proof.Machine.execTileout o clus s
  | .raybatOpen o => Sys2Proof.Machine.execRaybatOpen o s
  | .raybatClose o => Sys2Proof.Machine.execRaybatClose o s
  | .raygen o => Sys2Proof.Machine.execRaygen o s
  | .rayput o => Sys2Proof.Machine.execRayput o s
  | .rayqryCnt o => Sys2Proof.Machine.execRayqryCnt o s
  | .rayqryWait o => Sys2Proof.Machine.execRayqryWait o s
  | .spawn o n => Sys2Proof.Machine.execSpawn o n s
  | .launchQ o seq => Sys2Proof.Machine.execLaunchQ o seq s
  | .launchWg o => Sys2Proof.Machine.execLaunchWg o s
  | .recalloc o => Sys2Proof.Machine.execRecalloc o s
  | .reccommit o => Sys2Proof.Machine.execReccommit o s
  | .rinv o n pri trp sc k8 => Sys2Proof.Machine.execRinv o n pri trp sc k8 s
  | .put o n w => Sys2Proof.Machine.execPut o n w s
  | .wcnt o kind => Sys2Proof.Machine.execWcnt o kind s
  | .fence o ord scope => Sys2Proof.Machine.execFence o ord scope s
  | .barinit o scope clus => Sys2Proof.Machine.execBarinit o scope clus s
  | .bararr o obj drop wait => Sys2Proof.Machine.execBararr o obj drop wait s
  | .barwait o obj cur => Sys2Proof.Machine.execBarwait o obj cur s
  | .barrel o => Sys2Proof.Machine.execBarrel o s
  | .nbarSet o => Sys2Proof.Machine.execNbarSet o s
  | .waitm o kind => Sys2Proof.Machine.execWaitm o kind s
  | .clauseStart g => Sys2Proof.Machine.execClauseStart g s
  | .issueWaitEnd g => Sys2Proof.Machine.execIssueWaitEnd g s
  | .activeTimeExpiry g => Sys2Proof.Machine.execActiveTimeExpiry g s
  | .sleepcExpiry g => Sys2Proof.Machine.execSleepcExpiry g s
  | .flagCompletion op => Sys2Proof.Machine.execFlagCompletion op s
  | .writeAcknowledged op => Sys2Proof.Machine.execWriteAcknowledged op s
  | .silentCheckReplay g ag => Sys2Proof.Machine.execSilentCheckReplay g ag s
  | .homeSliceLineAction op line => Sys2Proof.Machine.execHomeSliceLineAction op line s
  | .futureWalk op => Sys2Proof.Machine.execFutureWalk op s
  | .deferredRecordGrant op => Sys2Proof.Machine.execDeferredRecordGrant op s
  | .prqrespRetry part req => Sys2Proof.Machine.execPrqrespRetry part req s
  | .prqrespFail part req => Sys2Proof.Machine.execPrqrespFail part req s
  | .prqtailWrite part v => Sys2Proof.Machine.execPrqtailWrite part v s
  | .invalidateGo part cmd => Sys2Proof.Machine.execInvalidateGo part cmd s
  | .invalidateDone part => Sys2Proof.Machine.execInvalidateDone part s
  | .createContext part cmd => Sys2Proof.Machine.execCreateContext part cmd s
  | .destroyContext part cmd => Sys2Proof.Machine.execDestroyContext part cmd s
  | .createQueue part cmd => Sys2Proof.Machine.execCreateQueue part cmd s
  | .destroyQueue part cmd => Sys2Proof.Machine.execDestroyQueue part cmd s
  | .queueCommandDone part => Sys2Proof.Machine.execQueueCommandDone part s
  | .tail part q t => Sys2Proof.Machine.execTail part q t s
  | .skip part q => Sys2Proof.Machine.execSkip part q s
  | .stop part q => Sys2Proof.Machine.execStop part q s
  | .queueFetch part q => Sys2Proof.Machine.execQueueFetch part q s
  | .graphCheck part q => Sys2Proof.Machine.execGraphCheck part q s
  | .nodeStart part q => Sys2Proof.Machine.execNodeStart part q s
  | .nodeComplete part q => Sys2Proof.Machine.execNodeComplete part q s
  | .waitNodePoll part q => Sys2Proof.Machine.execWaitNodePoll part q s
  | .launchQAppend part q => Sys2Proof.Machine.execLaunchQAppend part q s
  | .gangServed gang unit => Sys2Proof.Machine.execGangServed gang unit s
  | .codeLoadComplete gang => Sys2Proof.Machine.execCodeLoadComplete gang s
  | .placementHold gang => Sys2Proof.Machine.execPlacementHold gang s
  | .wgLaunchAccept op => Sys2Proof.Machine.execWgLaunchAccept op s
  | .blockTimeoutSeal inst node block => Sys2Proof.Machine.execBlockTimeoutSeal inst node block s
  | .invReceived pkt => Sys2Proof.Machine.execInvReceived pkt s
  | .putReceived pkt => Sys2Proof.Machine.execPutReceived pkt s
  | .putLanded pkt => Sys2Proof.Machine.execPutLanded pkt s
  | .replyReceived pkt => Sys2Proof.Machine.execReplyReceived pkt s
  | .retransmitTimeout pair => Sys2Proof.Machine.execRetransmitTimeout pair s
  | .packetForward pkt => Sys2Proof.Machine.execPacketForward pkt s
  | .landSlotFill part q => Sys2Proof.Machine.execLandSlotFill part q s
  | .handlerBatchLaunch part q => Sys2Proof.Machine.execHandlerBatchLaunch part q s
  | .tileMoveComplete op => Sys2Proof.Machine.execTileMoveComplete op s
  | .regionFill team k line => Sys2Proof.Machine.execRegionFill team k line s
  | .writeBackComplete team k line => Sys2Proof.Machine.execWriteBackComplete team k line s
  | .arbiterGrant cluster => Sys2Proof.Machine.execArbiterGrant cluster s
  | .passEnd cluster => Sys2Proof.Machine.execPassEnd cluster s
  | .tileCommit cluster => Sys2Proof.Machine.execTileCommit cluster s
  | .submissionComplete team => Sys2Proof.Machine.execSubmissionComplete team s
  | .columnStoreGrant part cluster ctx v => Sys2Proof.Machine.execColumnStoreGrant part cluster ctx v s
  | .grantZeroDone part => Sys2Proof.Machine.execGrantZeroDone part s
  | .primitiveBinned op => Sys2Proof.Machine.execPrimitiveBinned op s
  | .tileResolve team slot => Sys2Proof.Machine.execTileResolve team slot s
  | .classifyComplete op => Sys2Proof.Machine.execClassifyComplete op s
  | .brgsy view v => Sys2Proof.Machine.execBrgsy view v s
  | .bearingLatch view => Sys2Proof.Machine.execBearingLatch view s
  | .stripDeadline view => Sys2Proof.Machine.execStripDeadline view s
  | .stripScan view => Sys2Proof.Machine.execStripScan view s
  | .tileoutComplete op => Sys2Proof.Machine.execTileoutComplete op s
  | .scanEnable view v => Sys2Proof.Machine.execScanEnable view v s
  | .scanDisable view v => Sys2Proof.Machine.execScanDisable view v s
  | .batchOpenDone op => Sys2Proof.Machine.execBatchOpenDone op s
  | .rayAdmit g => Sys2Proof.Machine.execRayAdmit g s
  | .rayPassChoose cluster => Sys2Proof.Machine.execRayPassChoose cluster s
  | .rayPass cluster => Sys2Proof.Machine.execRayPass cluster s
  | .rayBatchComplete die entry => Sys2Proof.Machine.execRayBatchComplete die entry s
  | .rayRecordCommit die entry => Sys2Proof.Machine.execRayRecordCommit die entry s
  | .groupRetire g => Sys2Proof.Machine.execGroupRetire g s
  | .teamRetire team => Sys2Proof.Machine.execTeamRetire team s
  | .trapEnter g => Sys2Proof.Machine.execTrapEnter g s
  | .engineStop part record skid => Sys2Proof.Machine.execEngineStop part record skid s
  | .haltcmdClear part v => Sys2Proof.Machine.execHaltcmdClear part v s
  | .contextSave part cmd => Sys2Proof.Machine.execContextSave part cmd s
  | .drainTimeout team => Sys2Proof.Machine.execDrainTimeout team s
  | .contextSaveDone part => Sys2Proof.Machine.execContextSaveDone part s
  | .contextRestore part cmd => Sys2Proof.Machine.execContextRestore part cmd s
  | .dropgo part v => Sys2Proof.Machine.execDropgo part v s
  | .dropComplete part => Sys2Proof.Machine.execDropComplete part s
  | .commit v => Sys2Proof.Machine.execCommit v s
  | .apply v => Sys2Proof.Machine.execApply v s
  | .governorThrottle cluster step => Sys2Proof.Machine.execGovernorThrottle cluster step s
  | .sensorSample temps volts current => Sys2Proof.Machine.execSensorSample temps volts current s
  | .moduleReset reason upTo => Sys2Proof.Machine.execModuleReset reason upTo s
  | .bootStageTimeout stage => Sys2Proof.Machine.execBootStageTimeout stage s
  | .flashImageWrite image svn version => Sys2Proof.Machine.execFlashImageWrite image svn version s
  | .fscClear => Sys2Proof.Machine.execFscClear s
  | .eventLogRead nonce => Sys2Proof.Machine.execEventLogRead nonce s
  | .getVersion => Sys2Proof.Machine.execGetVersion s
  | .getCapabilities => Sys2Proof.Machine.execGetCapabilities s
  | .negotiateAlgorithms algs => Sys2Proof.Machine.execNegotiateAlgorithms algs s
  | .getDigests => Sys2Proof.Machine.execGetDigests s
  | .getCertificate off len => Sys2Proof.Machine.execGetCertificate off len s
  | .challenge nonce => Sys2Proof.Machine.execChallenge nonce s
  | .getMeasurements nonce => Sys2Proof.Machine.execGetMeasurements nonce s
  | .hostMemoryRequest part addr write data => Sys2Proof.Machine.execHostMemoryRequest part addr write data s
  | .wakeWrite part q v => Sys2Proof.Machine.execWakeWrite part q v s
  | .fabricEnable part v => Sys2Proof.Machine.execFabricEnable part v s
  | .routeWrite part chip v => Sys2Proof.Machine.execRouteWrite part chip v s
  | .flitReceived link good packets => Sys2Proof.Machine.execFlitReceived link good packets s
  | .linkDown link => Sys2Proof.Machine.execLinkDown link s
  | .registerWrite part off v => Sys2Proof.Machine.execRegisterWrite part off v s
  | .nonInstructionIssue w => Sys2Proof.Machine.execNonInstructionIssue w s
  | .linkUp link => Sys2Proof.Machine.execLinkUp link s
  | .powerFail => Sys2Proof.Machine.execPowerFail s
  | .hbmTestPath stack pass => Sys2Proof.Machine.execHbmTestPath stack pass s
  | .vfEnable vfs => Sys2Proof.Machine.execVfEnable vfs s

end Sys2Proof.Machine
end

