-- ==== Sys2Proof/Machine/Turn.lean ====
section
/-!
DEFINITION. One turn of the module: what passes before it, whose it is, and the instruction that it fetches (R35, R53, R55,
R131, R139, R277, R280, R431, R432).
-/

namespace Sys2Proof.Machine

/-! ### Time, errors and the host's own memory -/

/-- The sixteenths of an array cycle that a core's clock counts in each cycle of 1.25 GHz: its cluster's steps, and for a
helm core twice those of its unit's slowest cluster (R16). -/
def State.coreRate (s : State) (core : Nat) : Nat :=
  if coreIsHelm core then
    2 * (((List.range 4).map (fun k => s.clock (coreUnit core / 4 * 4 + k))).foldl min 16)
  else s.clock (coreUnit core)

/-- A core's cycles after sixteenths of cycles have passed. -/
def CoreSt.advance (k : CoreSt) (n : Nat) : CoreSt :=
  { k with cycles := k.cycles + (k.frac + n) / 16, frac := (k.frac + n) % 16 }

/-- Array cycles pass: the module's time and every core's cycle count rise (R2, R16). -/
def State.elapse (s : State) (dt : Nat) : State :=
  if dt = 0 then s
  else { s with now := s.now + dt
                cores := ((List.range 320).map (fun c => (c, (s.core c).advance (dt * s.coreRate c)))).filter
                  (fun x => x.2 != {}) }

/-- What passes before a turn's act: cycles, errors, and what the host has written in its own memory. -/
def State.begin (s : State) (t : Turn) : State :=
  let s1 := t.poison.foldl State.uncorrectable (s.elapse t.dt)
  let s2 := if t.corrected = 0 then s1
    else s1.modMgmt (fun m => { m with corrected := m.corrected + BitVec.ofNat 32 t.corrected })
  s2.setKeys ((t.host.filter (fun b => decide (b.1 < 2 ^ 51))).map (fun b => (hostKey b.1, b.2)))

/-! ### Fetching -/

/-- The opcode map of a context (R55, R56). -/
def State.contextMap (s : State) (part ctx : Nat) : Nat → Option Nat := opcodeMap (s.context part ctx).table

/-- The instruction that a word stands for, or a word that is none (R53). -/
def fetched (map : Nat → Option Nat) (w : Nat) : Instr :=
  match decodeBytes map (leBytes 12 w) with
  | .ok i => i
  | .header | .undef | .illopnd | .short => .nonInstructionIssue (BitVec.ofNat 96 w)

/-- What a group's turn executes: the start of its next clause, or the instruction in its slot. -/
def State.groupInstr (s : State) (id : Nat) (g : Group) : Instr :=
  match g.clause with
  | none => .clauseStart id
  | some c => fetched (s.contextMap g.part g.ctx) ((s.codeWord? g c.handler c.slotPc).getD 0)

/-- The word at an offset of a team's matrix stream, where it lies below MSSIZE (R277). -/
def State.streamWord? (s : State) (t off : Nat) : Option Nat :=
  if off % 12 = 0 ∧ off + 12 ≤ (s.copy (s.team t).copy).msSize then
    some (s.nat (spaceKey (s.team t).copy (streamBase + off)) 12)
  else none

/-- Whether a stream may issue: it runs, its pass is not over and its engine has not stopped (R280, R391). -/
def State.streamMay (s : State) (t : Nat) : Bool :=
  (s.mx t).state == .running && (s.engine (s.teamCluster t)).running == some t && !(s.mx t).passOver
    && !s.hasStopped (s.team t).part (s.stopKey (s.teamCluster t) 20)

/-! ### Who may act -/

/-- What Binnacle and its management interfaces do, in every mode (R431 to R433, R440, R441). -/
def isManagement : Sys2Proof.Instr → Bool
  | .moduleReset _ _ | .bootStageTimeout _ | .powerFail | .flashImageWrite _ _ _ | .fscClear | .eventLogRead _ | .getVersion
  | .getCapabilities | .negotiateAlgorithms _ | .getDigests | .getCertificate _ _ | .challenge _ | .getMeasurements _
  | .hbmTestPath _ _ => true
  | _ => false

/-- The function through which a driver or the host makes a step, where it does (R421). -/
def State.throughFunction (s : State) : Instr → Option Nat
  | .prqrespRetry p _ | .prqrespFail p _ | .prqtailWrite p _ | .invalidateGo p _ | .createContext p _ | .destroyContext p _
  | .createQueue p _ | .destroyQueue p _ | .tail p _ _ | .skip p _ | .stop p _ | .columnStoreGrant p _ _ _
  | .haltcmdClear p _ | .contextSave p _ | .contextRestore p _ | .dropgo p _ | .wakeWrite p _ _ | .fabricEnable p _
  | .routeWrite p _ _ => some p
  | .brgsy v _ | .scanEnable v _ | .scanDisable v _ => some (s.viewPart v)
  | _ => none

/-- Whether the module runs, and no reset is due. -/
def State.running (s : State) : Bool := s.mgmt.mode == .up && s.mgmt.due.isNone

/-- Whether a step of an engine, the host or the management subsystem may be made: it is no instruction of a program, the
module is in a mode that makes it, and its function serves its partition. -/
def State.admits (s : State) (i : Instr) : Bool :=
  !i.isProgram && !(i matches .nonInstructionIssue _) && (s.running || isManagement i)
    && ((s.throughFunction i).all s.serves)

/-! ### Turns -/

/-- No issuer is left once a turn is over. -/
def turnOver (o : Host.Outcome State Fault Refusal) : Host.Outcome State Fault Refusal :=
  match o with
  | .next t => .next { t with cur := .none }
  | .fault r => .fault r
  | .refused r => .refused r

/-- A group's turn: nothing where it may not issue. -/
def State.groupTurn (s : State) (id : Nat) : Host.Outcome State Fault Refusal :=
  if !(s.running && s.mayIssue id) then .next s
  else
    let s1 : State := { s with cur := s.issuer id }
    match s1.curGroup? with
    | none => .next s
    | some g => turnOver (exec (s1.groupInstr id g) s1)

/-- A matrix stream's turn (R277, R279). -/
def State.streamTurn (s : State) (t : Nat) : Host.Outcome State Fault Refusal :=
  if !(s.running && s.streamMay t) then .next s
  else match s.streamWord? t (s.mx t).pc with
    | none => .next (s.streamFault t .codeRange 0)
    | some w =>
      let i := fetched (s.contextMap (s.team t).part (s.team t).ctx) w
      if i.form.all (fun f => f.pool == .stream) then turnOver (exec i { s with cur := .stream t })
      else .next (s.streamFault t .undef 0)

/-- A step of an engine, the host or the management subsystem. -/
def State.eventTurn (s : State) (i : Instr) : Host.Outcome State Fault Refusal :=
  if s.admits i then turnOver (exec i { s with cur := .none }) else .next s

/-- The act of a turn. -/
def State.act (s : State) (a : Act) : Host.Outcome State Fault Refusal :=
  match a with
  | .group g => s.groupTurn g
  | .stream t => s.streamTurn t
  | .event i => s.eventTurn i

/-- The next turn, and the state without it: the head of the agenda, or where that is empty one that nothing fixes. -/
def State.nextTurn (s : State) : Turn × State :=
  match s.agenda with
  | t :: ts => (t, { s with agenda := ts })
  | [] => (Config.schedule s.fresh, s.tick)

/-- One turn. -/
def State.turn (s : State) : Host.Outcome State Fault Refusal :=
  (s.nextTurn.2.begin s.nextTurn.1).act s.nextTurn.1.act

/-! ### Placing one instruction -/

/-- A clause of one slot that names both set-flags. -/
def placedClause : Clause := { pc := 0, len := 1, fa := some 0, fb := some 1 }

/-- The pool that a word is for: that of the instruction it decodes to, else the array. -/
def wordPool (w : Nat) : Pool :=
  match decodeTableWord 96 w with
  | some i => (i.form.map Form.pool).getD .array
  | none => .array

/-- A team in residence on a core, with one group at the only slot of an open clause whose word is `w`, or with a matrix
stream that runs and stands at `w`; the next turn is its. -/
def State.place (s : State) (w : Nat) : State :=
  let id := s.fresh
  let helm := wordPool w == .helm
  let stream := wordPool w == .stream
  let core := if helm then 256 else 0
  let part := Tab.getD s.pt.unit 0 0
  let lanes := if helm then 16 else 128
  let g : Group := { team := id, part := part, core := core, lanes := lanes, vregs := 320, sregs := 1024
                     frontier := [⟨0, 0, lanesMask (List.range lanes), false⟩], clause := some placedClause }
  let x : Mx := { tiles := some 1, mapped := true, state := .running, subs := [{ op := id + 1 }] }
  let t : Team := { part := part, helm := helm, core := core, copy := id, groups := [id]
                    mx := if stream then some x else none }
  let c : Copy := { part := part, helm := helm, codeSize := 24, msSize := if stream then 12 else 0, refs := 1, loaded := true }
  let k := s.core core
  let s1 : State :=
    { s with
      fresh := id + 2, mgmt := { s.mgmt with mode := .up, due := none }
      contexts := Tab.put s.contexts (64 * part) { s.context part 0 with live := true, saved := false, table := none }
      queues := Tab.put s.queues (1024 * part) { s.queue part 0 with live := true }
      groups := Tab.put s.groups id g, teams := Tab.put s.teams id t, copies := Tab.put s.copies id c
      ops := if stream then Tab.put s.ops (id + 1) { group := id, part := part, body := .msub, counter := some 2 } else s.ops
      engines := if stream then Tab.put s.engines 0 { s.engine 0 with running := some id } else s.engines
      agenda := [{ act := if stream then .stream id else .group id }] }
  let s2 := (s1.putCore core { k with active := (id :: k.active.filter (· != id)).take (activeSize core) }).modFunc part
    (fun f => { f with halted := false })
  (s2.setBytes (spaceKey id 0) (leBytes 12 (0x3FF + 2 ^ 15 + 2 ^ 35 + 2 ^ 36 + 2 ^ 40))).setBytes
    (spaceKey id (if stream then streamBase else 12)) (leBytes 12 w)

end Sys2Proof.Machine
end

