-- ==== Sys2Proof/Machine/Step.lean ====
section
/-!
DEFINITION. One step of the module.
-/

namespace Sys2Proof.Machine

/-- One step: the next turn. -/
def step (s : State) : Host.Outcome State Fault Refusal := s.turn

/-- The state with an instruction placed where the next step fetches it. -/
def State.withFetchWord (s : State) (_nbits w : Nat) : State := s.place (w % 2 ^ 96)

end Sys2Proof.Machine
end

