-- ==== Sys2Proof/Safety.lean ====
section
/-!
DEFINITION. What counts as a safe run: no step stops, memory keeps its canonical form, and no issuer is left between steps.
-/

namespace Sys2Proof.Safety

open Sys2Proof.Machine

/-- The step from a state answers a next state. -/
def Goes (s : State) : Prop := ∃ t, step s = .next t

/-- Memory is in its canonical form, and nobody is issuing. -/
def Sound (s : State) : Prop := Memory.wf s.mem = true ∧ s.cur = .none

/-! ### The issue of one slot -/

/-- A group is at an instruction in its slot that has its own effect now (R40 to R54, R138): the group waits for nothing and
has not stopped, nothing of R54 stops the instruction, nothing holds it at issue, a lane's guard is true, and none of its
registers is pending. -/
structure Issues (i : Instr) (s : State) (id : Nat) (g : Group) (c : Clause) (f : Form) : Prop where
  cur : s.cur = .group id
  here : Tab.get? s.groups id = some g
  free : g.waiting = false
  form : i.form = some f
  clause : g.clause = some c
  buffers : g.number ≠ 0 ∨ (s.team g.team).badBuf = none
  fate : slotFate f g c = none
  gate : s.gate g f.op = []
  lane : g.guarded f.slot ≠ []
  ready : (formNames f).any g.isPending = false

/-- A group has moved past the slot that it was at: the slot counts in $clock, the group waits, traps and stops no more than
before, and stands at its next slot; after the last slot of a clause no clause is open, unless a handler has returned. -/
structure Passed (t : State) (id : Nat) (g : Group) (c : Clause) : Prop where
  clock : (t.group id).clock = g.clock + 1
  wait : (t.group id).wait = g.wait
  trapping : (t.group id).trapping = g.trapping
  stopped : (t.group id).stopped = g.stopped
  next : c.last = false → (t.group id).clause = some { c with slot := c.slot + 1 }
  ended : c.last = true → g.handler = none → (t.group id).clause = none

/-- What the end of a slot adds to a state that an instruction's effect has left: the slot counts, the group stands at its
next slot or at no clause, and the schedulers of the cores turn; nothing else changes. -/
structure SlotOver (u t : State) (id : Nat) (c : Clause) : Prop where
  passed : Passed t id (u.group id) c
  rest : t = { u with groups := t.groups, cores := t.cores }
  others : ∀ j, j ≠ id → Tab.get? t.groups j = Tab.get? u.groups j
  cycles : ∀ k, (t.core k).cycles = (u.core k).cycles
  same : ∃ ck ms fr cl hd dr, t.group id = { u.group id with
    clock := (u.group id).clock + 1, checks := ck, misses := ms, frontier := fr, clause := cl, handler := hd, draining := dr }

/-- A step has changed nothing but one group and the schedulers of the cores: memory, every other group, every team, queue
and register are as before, and no core's cycles have changed. -/
structure OnlyGroup (s t : State) (id : Nat) : Prop where
  rest : t = { s with groups := t.groups, cores := t.cores }
  others : ∀ j, j ≠ id → Tab.get? t.groups j = Tab.get? s.groups j
  cycles : ∀ k, (t.core k).cycles = (s.core k).cycles

/-- The registers of a group that an instruction of a form leaves in its lanes `ls`: every register but its destinations,
every lane of a vector or predicate destination but those of `ls`, and the trap registers. -/
structure KeepsOthers (f : Form) (ls : List Nat) (g h : Group) : Prop where
  vec : ∀ r l, l < 128 → (.v r ∉ formDests f ∨ l ∉ ls) → h.readV r l = g.readV r l
  scl : ∀ r, .s r ∉ formDests f → h.readS r = g.readS r
  preds : ∀ p l, (.p p ∉ formDests f ∨ l ∉ ls) → h.pred p l = g.pred p l
  trap : h.trapPc = g.trapPc ∧ h.trapCause = g.trapCause ∧ h.trapInfo = g.trapInfo
  place : h.team = g.team ∧ h.core = g.core ∧ h.number = g.number ∧ h.lanes = g.lanes ∧ h.ctx = g.ctx ∧ h.part = g.part
  engines : h.flags = g.flags ∧ h.counters = g.counters ∧ h.pending = g.pending

/-! ### Runs -/

/-- A run of `n` steps from a state, each of which answers a next state that is sound. -/
def SafeRun : Nat → State → Prop
  | 0, s => Sound s
  | n + 1, s => Sound s ∧ ∃ t, step s = .next t ∧ SafeRun n t

end Sys2Proof.Safety
end

