-- ==== Sys2Proof/Certificates/Slice0/Obligations.lean ====
section
/-!
DEFINITION. The statements for the provers, with the words in which they are said.
-/

namespace Sys2Proof.Claims

open Sys2Proof.Machine
open Sys2Proof.Safety

/-! ### Words of the statements: results of register instructions -/

/-- What an instruction leaves in its group: from the group before and the lanes it acts in, the group after. -/
abbrev Out := Group → List Nat → Group → Prop

/-- An instruction, issued where `ok` holds, answers a next state: its group has moved past the slot, its registers are as
`out` says, every other register of the group is as before, and so is everything outside the group (memory, every other
group, every team, queue and engine). -/
def CompletesIf (i : Instr) (ok : State → Group → List Nat → Prop) (out : Out) : Prop :=
  ∀ s id g c f, Issues i s id g c f → ok s g (g.guarded f.slot) →
    ∃ t, exec i s = .next t ∧ Passed t id g c ∧ OnlyGroup s t id ∧ KeepsOthers f (g.guarded f.slot) g (t.group id)
      ∧ out g (g.guarded f.slot) (t.group id)

/-- The same, of an instruction that nothing but the checks of issue can stop. -/
def Completes (i : Instr) (out : Out) : Prop := CompletesIf i (fun _ _ _ => True) out

/-- An instruction, issued where `ok` holds, raises a cause with its information at its slot, before anything of it has
acted (`State.raise`: a trap where the cause is one and a handler can run, else a fault). -/
def Raises (i : Instr) (ok : State → Group → List Nat → Prop) (cause : Cause) (info : Group → List Nat → Word) : Prop :=
  ∀ s id g c f, Issues i s id g c f → ok s g (g.guarded f.slot) →
    ∃ va h, exec i s = .next (s.raise id c.slotPc cause (info g (g.guarded f.slot)) va h)

/-- Both. -/
def both (a b : Out) : Out := fun g ls h => a g ls h ∧ b g ls h

/-- $fpflags is as before. -/
def noFlags : Out := fun g _ h => h.fpflags = g.fpflags

/-- $fpflags has taken the flags that the lanes raise (R180). -/
def raises (fl : Group → Nat → FFlags) : Out := fun g ls h => h.fpflags = g.fpflags ||| allFlags (ls.map (fl g))

/-- The destination holds, in each lane that acts, a word of which `p` is true; a scalar one that of the lowest lane. -/
def wordThat (d : Operand) (p : Group → Nat → Word → Prop) : Out := fun g ls h =>
  (∀ k, d = .vec k → ∀ l ∈ ls, p g l (h.readV k.toNat l)) ∧ (∀ k, d = .scl k → p g (ls.headD 0) (h.readS k.toNat))

/-- The destination holds a word in each lane that acts. -/
def word (d : Operand) (v : Group → Nat → Word) : Out := wordThat d (fun g l w => w = v g l)

/-- The destination pair holds a 64-bit number in each lane that acts, the low word in the lower register. -/
def pair (d : Operand) (v : Group → Nat → DWord) : Out := fun g ls h =>
  (∀ k, d = .vec k → ∀ l ∈ ls, h.readV (k.toNat + 1) l ++ h.readV k.toNat l = v g l)
    ∧ (∀ k, d = .scl k → h.readS (k.toNat + 1) ++ h.readS k.toNat = v g (ls.headD 0))

/-- The destination holds a 64-bit number, or its low word where it is one register. -/
def sized (wide : Bool) (d : Operand) (v : Group → Nat → DWord) : Out :=
  if wide then pair d v else word d (fun g l => (v g l).setWidth 32)

/-- The ten destination registers hold the words of a number in each lane that acts. -/
def run10 (d : Operand) (v : Group → Nat → Nat) : Out := fun g ls h =>
  ∀ k, d = .vec k → ∀ l ∈ ls, ∀ j, j < 10 → h.readV (k.toNat + j) l = BitVec.ofNat 32 (v g l / 2 ^ (32 * j))

/-- The destination predicate is true, in each lane that acts, where `v` is; p0 stays true (R30). -/
def predicate (d : Operand) (v : Group → Nat → Bool) : Out := fun g ls h =>
  ∀ p, d = .prd p → ∀ l ∈ ls, h.pred p.toNat l = (p == 0 || v g l)

/-- The same of a predicate that an instruction may name beside its destination (R206). -/
def optPredicate (q : Option (BitVec 4)) (v : Group → List Nat → Nat → Bool) : Out := fun g ls h =>
  ∀ p, q = some p → ∀ l ∈ ls, h.pred p.toNat l = (p == 0 || v g ls l)

/-! ### Words of the statements: integers -/

/-- A value read under U (R146). -/
def readAs {w : Nat} (u : Bool) (x : BitVec w) : Int := if u then (x.toNat : Int) else x.toInt

/-- An exact result kept in `w` bits: reduced modulo 2^w, or the nearest value of the type first (R150). -/
def keep (u sat : Bool) (w : Nat) (r : Int) : BitVec w :=
  BitVec.ofInt w
    (if !sat then r
      else if u then (if r < 0 then 0 else if 2 ^ w - 1 < r then 2 ^ w - 1 else r)
      else if r < -(2 ^ (w - 1)) then -(2 ^ (w - 1)) else if 2 ^ (w - 1) - 1 < r then 2 ^ (w - 1) - 1 else r)

/-- A condition between exact values (R152). -/
def meets (k : Cond) (a b : Int) : Bool :=
  match k with
  | .eq => a == b
  | .ne => a != b
  | .lt => decide (a < b)
  | .le => decide (a ≤ b)
  | .gt => decide (a > b)
  | .ge => decide (a ≥ b)

/-- A comparison combined with a predicate (R152). -/
def combined (k : Combine) (t p : Bool) : Bool :=
  match k with
  | .none => t
  | .and => t && p
  | .or => t || p
  | .xor => t ^^ p

end Sys2Proof.Claims

open Sys2Proof Sys2Proof.Machine Sys2Proof.Safety Sys2Proof.Claims

/-! ## Integer, logic and address instructions -/

/-- R150, R151: every arithmetic instruction writes its exact result reduced modulo 2^w, clamped first with SAT, and with CC
the carry of the unsaturated sum; and it completes. -/
def Obligations.ArithmeticResults : Prop :=
  (∀ o u sat cc, Completes (.iadd o u sat cc) (both noFlags (both
    (word o.d fun g l => keep u sat 32 (readAs u (g.value o.a l) + readAs u (g.value o.b l)))
    (if cc then predicate o.c fun g l => decide (2 ^ 32 ≤ (g.value o.a l).toNat + (g.value o.b l).toNat)
      else fun _ _ _ => True))))
  ∧ (∀ o u sat cc, Completes (.isub o u sat cc) (both noFlags (both
    (word o.d fun g l => keep u sat 32 (readAs u (g.value o.a l) - readAs u (g.value o.b l)))
    (if cc then predicate o.c fun g l => decide ((g.value o.b l).toNat ≤ (g.value o.a l).toNat)
      else fun _ _ _ => True))))
  ∧ (∀ o u sat cc, Completes (.iaddw o u sat cc) (both noFlags (both
    (pair o.d fun g l => keep u sat 64 (readAs u (g.value64 o.a l) + readAs u (g.value64 o.b l)))
    (if cc then predicate o.c fun g l => decide (2 ^ 64 ≤ (g.value64 o.a l).toNat + (g.value64 o.b l).toNat)
      else fun _ _ _ => True))))
  ∧ (∀ o u sat cc, Completes (.isubw o u sat cc) (both noFlags (both
    (pair o.d fun g l => keep u sat 64 (readAs u (g.value64 o.a l) - readAs u (g.value64 o.b l)))
    (if cc then predicate o.c fun g l => decide ((g.value64 o.b l).toNat ≤ (g.value64 o.a l).toNat)
      else fun _ _ _ => True))))
  ∧ (∀ o cc, Completes (.iaddc o cc) (both noFlags (both
    (word o.d fun g l => BitVec.ofNat 32 ((g.value o.a l).toNat + (g.value o.b l).toNat + (g.holds o.c l).toNat))
    (if cc then predicate o.c fun g l =>
        decide (2 ^ 32 ≤ (g.value o.a l).toNat + (g.value o.b l).toNat + (g.holds o.c l).toNat)
      else fun _ _ _ => True))))
  ∧ (∀ o u sat, Completes (.iadd3 o u sat) (both noFlags (word o.d fun g l =>
    keep u sat 32 (readAs u (g.value o.a l) + readAs u (g.value o.b l) + readAs u (g.value o.c l)))))
  ∧ (∀ o u sat, Completes (.imul o u sat) (both noFlags (word o.d fun g l =>
    keep u sat 32 (readAs u (g.value o.a l) * readAs u (g.value o.b l)))))
  ∧ (∀ o u, Completes (.imulh o u) (both noFlags (word o.d fun g l =>
    BitVec.ofInt 32 ((readAs u (g.value o.a l) * readAs u (g.value o.b l)).fdiv (2 ^ 32)))))
  ∧ (∀ o, Completes (.imulw o) (both noFlags (pair o.d fun g l => g.value64 o.a l * g.value64 o.b l)))
  ∧ (∀ o u sat, Completes (.imad o u sat) (both noFlags (word o.d fun g l =>
    keep u sat 32 (readAs u (g.value o.a l) * readAs u (g.value o.b l) + readAs u (g.value o.c l)))))
  ∧ (∀ o u, Completes (.imadx o u) (both noFlags (pair o.d fun g l =>
    BitVec.ofInt 64 (readAs u (g.value o.a l) * readAs u (g.value o.b l) + readAs u (g.value64 o.c l)))))
  ∧ (∀ o u, Completes (.isad o u) (both noFlags (word o.d fun g l =>
    BitVec.ofInt 32 (((readAs u (g.value o.a l) - readAs u (g.value o.b l)).natAbs : Int)
      + readAs u (g.value o.c l)))))
  ∧ (∀ o u, Completes (.imin o u) (both noFlags (word o.d fun g l =>
    if readAs u (g.value o.a l) ≤ readAs u (g.value o.b l) then g.value o.a l else g.value o.b l)))
  ∧ (∀ o u, Completes (.imax o u) (both noFlags (word o.d fun g l =>
    if readAs u (g.value o.a l) ≤ readAs u (g.value o.b l) then g.value o.b l else g.value o.a l)))
  ∧ (∀ o sat, Completes (.iabs o sat) (both noFlags (word o.d fun g l => keep false sat 32 ((g.value o.a l).toInt.natAbs : Int))))
  ∧ (∀ o sat, Completes (.ineg o sat) (both noFlags (word o.d fun g l => keep false sat 32 (-(g.value o.a l).toInt))))
  ∧ (∀ o, Completes (.mov o) (both noFlags (word o.d fun g l => g.value o.a l)))
  ∧ (∀ o, Completes (.movw o) (both noFlags (pair o.d fun g l => g.value64 o.a l)))
  ∧ (∀ o v, Completes (.movi o v) (both noFlags (word o.d fun _ _ => v)))

/-- R152, R153: a comparison writes its condition, combined with pC where it combines; ISEL selects by pC; AND, OR, XOR and NOT
act bit by bit, and LOP3 looks each bit up, A's bit the lowest of the index. -/
def Obligations.CompareSelectAndLogic : Prop :=
  (∀ o k u comb, Completes (.icmp o k u comb) (both noFlags (predicate o.d fun g l =>
    combined comb (meets k (readAs u (g.value o.a l)) (readAs u (g.value o.b l))) (g.holds o.c l))))
  ∧ (∀ o k u comb, Completes (.icmpw o k u comb) (both noFlags (predicate o.d fun g l =>
    combined comb (meets k (readAs u (g.value64 o.a l)) (readAs u (g.value64 o.b l))) (g.holds o.c l))))
  ∧ (∀ o, Completes (.isel o) (both noFlags (word o.d fun g l =>
    if g.holds o.c l then g.value o.a l else g.value o.b l)))
  ∧ (∀ o, Completes (.band o) (both noFlags (wordThat o.d fun g l w =>
    ∀ i < 32, w.getLsbD i = ((g.value o.a l).getLsbD i && (g.value o.b l).getLsbD i))))
  ∧ (∀ o, Completes (.bor o) (both noFlags (wordThat o.d fun g l w =>
    ∀ i < 32, w.getLsbD i = ((g.value o.a l).getLsbD i || (g.value o.b l).getLsbD i))))
  ∧ (∀ o, Completes (.bxor o) (both noFlags (wordThat o.d fun g l w =>
    ∀ i < 32, w.getLsbD i = ((g.value o.a l).getLsbD i ^^ (g.value o.b l).getLsbD i))))
  ∧ (∀ o, Completes (.bnot o) (both noFlags (wordThat o.d fun g l w =>
    ∀ i < 32, w.getLsbD i = !(g.value o.a l).getLsbD i)))
  ∧ (∀ o lut, Completes (.lop3 o lut) (both noFlags (wordThat o.d fun g l w =>
    ∀ i < 32, w.getLsbD i = lut.getLsbD (((g.value o.a l).getLsbD i).toNat + 2 * ((g.value o.b l).getLsbD i).toNat
      + 4 * ((g.value o.c l).getLsbD i).toNat))))


/-- R154: shifts of words and pairs by any amount, with WRAP and without, and the funnel shifts. -/
def Obligations.ShiftsByAnyAmount : Prop :=
  let amount := fun (w : Nat) (wrap : Bool) (n : Word) => if wrap then n.toNat % w else n.toNat
  (∀ o wrap, Completes (.shl o wrap) (both noFlags (word o.d fun g l =>
    BitVec.ofNat 32 ((g.value o.a l).toNat * 2 ^ amount 32 wrap (g.value o.b l)))))
  ∧ (∀ o wrap, Completes (.shr o wrap) (both noFlags (word o.d fun g l =>
    BitVec.ofNat 32 ((g.value o.a l).toNat / 2 ^ amount 32 wrap (g.value o.b l)))))
  ∧ (∀ o wrap, Completes (.sar o wrap) (both noFlags (word o.d fun g l =>
    BitVec.ofInt 32 ((g.value o.a l).toInt.fdiv (2 ^ amount 32 wrap (g.value o.b l))))))
  ∧ (∀ o wrap, Completes (.shlw o wrap) (both noFlags (pair o.d fun g l =>
    BitVec.ofNat 64 ((g.value64 o.a l).toNat * 2 ^ amount 64 wrap (g.value o.b l)))))
  ∧ (∀ o wrap, Completes (.shrw o wrap) (both noFlags (pair o.d fun g l =>
    BitVec.ofNat 64 ((g.value64 o.a l).toNat / 2 ^ amount 64 wrap (g.value o.b l)))))
  ∧ (∀ o wrap, Completes (.sarw o wrap) (both noFlags (pair o.d fun g l =>
    BitVec.ofInt 64 ((g.value64 o.a l).toInt.fdiv (2 ^ amount 64 wrap (g.value o.b l))))))
  ∧ (∀ o right wrap, Completes (.shf o right wrap) (both noFlags (word o.d fun g l =>
    let h := (g.value o.a l).toNat * 2 ^ 32 + (g.value o.b l).toNat
    let n := if wrap then (g.value o.c l).toNat % 32 else min (g.value o.c l).toNat 32
    BitVec.ofNat 32 (if right then h / 2 ^ n else h * 2 ^ n / 2 ^ 32))))

/-- R155, R156: BFE takes a field and extends it, BFI replaces one, bit by bit; the reversal of bits, the counts, and PRMT byte
by byte. -/
def Obligations.BitFieldsAndCounts : Prop :=
  (∀ o u, Completes (.bfe o u) (both noFlags (wordThat o.d fun g l w =>
    let p := (g.value o.b l).toNat % 256
    let k := min ((g.value o.b l).toNat / 256 % 256) 32
    let bit := fun (n : Nat) => if n < 32 then (g.value o.a l).getLsbD n else !u && (g.value o.a l).getLsbD 31
    ∀ i < 32, w.getLsbD i = if i < k then bit (p + i) else !u && k != 0 && bit (p + k - 1))))
  ∧ (∀ o, Completes (.bfi o) (both noFlags (wordThat o.d fun g l w =>
    let p := (g.value o.b l).toNat % 256
    let k := min ((g.value o.b l).toNat / 256 % 256) 32
    ∀ i < 32, w.getLsbD i = if p ≤ i ∧ i < p + k then (g.value o.a l).getLsbD (i - p) else (g.value o.c l).getLsbD i)))
  ∧ (∀ o, Completes (.brev o) (both noFlags (wordThat o.d fun g l w =>
    ∀ i < 32, w.getLsbD i = (g.value o.a l).getLsbD (31 - i))))
  ∧ (∀ o, Completes (.popc o) (both noFlags (word o.d fun g l =>
    BitVec.ofNat 32 (((List.range 32).map (fun i => ((g.value o.a l).getLsbD i).toNat)).sum))))
  ∧ (∀ o, Completes (.clz o) (both noFlags (wordThat o.d fun g l w =>
    w.toNat ≤ 32 ∧ (∀ i < w.toNat, (g.value o.a l).getLsbD (31 - i) = false)
      ∧ (w.toNat < 32 → (g.value o.a l).getLsbD (31 - w.toNat) = true))))
  ∧ (∀ o, Completes (.ctz o) (both noFlags (wordThat o.d fun g l w =>
    w.toNat ≤ 32 ∧ (∀ i < w.toNat, (g.value o.a l).getLsbD i = false)
      ∧ (w.toNat < 32 → (g.value o.a l).getLsbD w.toNat = true))))
  ∧ (∀ o, Completes (.prmt o) (both noFlags (wordThat o.d fun g l w =>
    ∀ j < 4, w.toNat / 2 ^ (8 * j) % 256 =
      let c := g.value o.c l
      let k := c.toNat / 2 ^ (3 * j) % 8
      let named := ((g.value o.b l).toNat * 2 ^ 32 + (g.value o.a l).toNat) / 2 ^ (8 * k) % 256
      if c.getLsbD (12 + j) then 0 else if c.getLsbD (16 + j) then (if 128 ≤ named then 255 else 0) else named)))


/-- R157, R158: LEA adds a scaled offset to a pair; with .chk a sum beyond the address space in any lane that acts raises PROT
0x04 with the lowest such lane, and no lane writes D; CVTI reads under the source type, reduces or clamps, and extends; from a
type to itself it moves. -/
def Obligations.AddressSumsAndConversions : Prop :=
  let sum := fun (o : Slot) (n : BitVec 3) (u : Bool) (g : Group) (l : Nat) =>
    BitVec.ofInt 64 ((g.value64 o.a l).toNat + readAs u (g.value o.b l) * 2 ^ n.toNat)
  let beyond := fun (o : Slot) (n : BitVec 3) (u : Bool) (g : Group) (l : Nat) => decide (2 ^ 54 ≤ (sum o n u g l).toNat)
  (∀ o n u chk, CompletesIf (.lea o n u chk) (fun _ g ls => chk = true → ls.any (beyond o n u g) = false)
    (both noFlags (pair o.d (sum o n u))))
  ∧ (∀ o n u, Raises (.lea o n u true) (fun _ g ls => ls.any (beyond o n u g) = true) .prot
    (fun g ls => BitVec.ofNat 32 (0x04 + 256 * (ls.find? (beyond o n u g)).getD 0)))
  ∧ (∀ o td ts sat, Completes (.cvti o td ts sat) (both noFlags (sized td.is64 o.d fun g l =>
    let n := if ts.is64 then (g.value64 o.a l).toNat else (g.value o.a l).toNat
    let ws := intTyWidth ts
    let wd := intTyWidth td
    let x := readAs (intTyUnsigned ts) (BitVec.ofNat ws n)
    if td = ts then BitVec.ofNat 64 n
    else BitVec.ofInt 64 (readAs (intTyUnsigned td) (keep (intTyUnsigned td) sat wd x)))))/-! ## Floating point and exact accumulation -/

namespace Sys2Proof.Claims

/-- $fpflags has taken some flags of the group's (R180). -/
def raisesAll (fl : Group → List Nat → FFlags) : Out := fun g ls h => h.fpflags = g.fpflags ||| fl g ls

/-- The destination holds a pattern of a format in each lane that acts, and $fpflags has taken the flags. -/
def pattern (fmt : Fmt) (d : Operand) (r : Group → Nat → Nat × FFlags) : Out :=
  both (sized (fmt = .f64) d fun g l => BitVec.ofNat 64 (r g l).1) (raises fun g l => (r g l).2)

/-- An exact result rounded once to a format, with the flags of both (R177, R180, R190). -/
def once (fmt : Fmt) (d n : Operand) (rm : RMode) (ftz : Bool) (x : Group → Nat → FVal × FFlags) : Out :=
  pattern fmt d fun g l =>
    let r := roundFmt fmt (x g l).1 rm false ftz ((g.value n l).toNat % 2 ^ 16)
    (r.1, r.2 ||| (x g l).2)

/-- Both 16-bit elements of the destination, each from those of its sources (R190). -/
def packed (d : Operand) (r : Group → Nat → Nat → Nat × FFlags) : Out :=
  both (word d fun g l => BitVec.ofNat 32 ((r g l 0).1 + 2 ^ 16 * (r g l 1).1))
    (raises fun g l => (r g l 0).2 ||| (r g l 1).2)

/-- The 16 bits of an element, in the format that BF names. -/
def element (bf ftz : Bool) (w : Word) (e : Nat) : FVal :=
  fpValue (if bf then .bf16 else .f16) ftz (w.toNat / 2 ^ (16 * e) % 2 ^ 16)

/-- Whether a value is less than another, both numbers, -0 below +0 (R192). -/
def below (x y : FVal) : Bool := fCompare x y == .lt || (fCompare x y == .eq && x.neg? && !y.neg?)

/-- The value that a minimum or a maximum takes (R192). -/
def chosen (max nanp : Bool) (x y : FVal) : FVal :=
  if x.isNaN && y.isNaN then .nan false
  else if x.isNaN then (if nanp then .nan false else y)
  else if y.isNaN then (if nanp then .nan false else x)
  else if max then (if below x y then y else x) else (if below y x then y else x)

/-- The flag of NaN operands: NV for a signalling one (R174). -/
def signals (x y : FVal) : FFlags := if x.isSNaN || y.isSNaN then 1 else 0

/-- The binary32 pattern that FEXP2, FLOG2, FSIN and FCOS read: an immediate stands for its integer (R38). -/
def single (g : Group) (o : Operand) (l : Nat) : Word :=
  match o with
  | .imm _ => BitVec.ofNat 32 (roundFmt .f32 (g.fval .f32 false o l) .rn false false 0).1
  | .vec _ | .scl _ | .prd _ | .spc _ | .none => g.value o l

/-- The number that ten registers hold (R181). -/
def accumulator (g : Group) (o : Operand) (l : Nat) : Nat :=
  ((List.range 10).map (fun j => (g.valueAt o j l).toNat * 2 ^ (32 * j))).sum

end Sys2Proof.Claims

/-- R187, R190: the float operations of one rounding, binary32 and binary64: the exact result of their operands, negated
where M says so, rounded once; flags ORed into $fpflags. -/
def Obligations.FloatsRoundOnce : Prop :=
  let val := fun (fmt : Fmt) (ftz neg : Bool) (o : Operand) (g : Group) (l : Nat) => (g.fval fmt ftz o l).flipIf neg
  (∀ o rm ftz na nb, Completes (.fadd o rm ftz na nb) (once .f32 o.d o.c rm ftz fun g l =>
    fAdd rm (val .f32 ftz na o.a g l) (val .f32 ftz nb o.b g l)))
  ∧ (∀ o rm ftz na nb, Completes (.fmul o rm ftz na nb) (once .f32 o.d o.c rm ftz fun g l =>
    fMul (val .f32 ftz na o.a g l) (val .f32 ftz nb o.b g l)))
  ∧ (∀ o rm ftz na nc, Completes (.ffma o rm ftz na nc) (once .f32 o.d o.n rm ftz fun g l =>
    fFma rm (val .f32 ftz na o.a g l) (val .f32 ftz false o.b g l) (val .f32 ftz nc o.c g l)))
  ∧ (∀ o rm ftz, Completes (.fdiv o rm ftz) (once .f32 o.d o.c rm ftz fun g l =>
    fDiv (val .f32 ftz false o.a g l) (val .f32 ftz false o.b g l)))
  ∧ (∀ o rm ftz, Completes (.frcp o rm ftz) (once .f32 o.d o.c rm ftz fun g l =>
    fDiv (.fin false 1 0 false) (val .f32 ftz false o.a g l)))
  ∧ (∀ o rm ftz, Completes (.frsq o rm ftz) (once .f32 o.d o.c rm ftz fun g l =>
    fRsqrt (val .f32 ftz false o.a g l)))
  ∧ (∀ o rm ftz, Completes (.fsqrt o rm ftz) (once .f32 o.d o.c rm ftz fun g l =>
    fSqrt (val .f32 ftz false o.a g l)))
  ∧ (∀ o rm na nb, Completes (.dadd o rm na nb) (once .f64 o.d o.c rm false fun g l =>
    fAdd rm (val .f64 false na o.a g l) (val .f64 false nb o.b g l)))
  ∧ (∀ o rm na nb, Completes (.dmul o rm na nb) (once .f64 o.d o.c rm false fun g l =>
    fMul (val .f64 false na o.a g l) (val .f64 false nb o.b g l)))
  ∧ (∀ o rm na nc, Completes (.dfma o rm na nc) (once .f64 o.d o.n rm false fun g l =>
    fFma rm (val .f64 false na o.a g l) (val .f64 false false o.b g l) (val .f64 false nc o.c g l)))

/-- R190, R197: the packed operations act on both 16-bit elements, each rounded once, and FDP4 rounds the exact sum of its
four products and C once. -/
def Obligations.PackedAndDotProduct : Prop :=
  let fmt := fun (bf : Bool) => if bf then Fmt.bf16 else Fmt.f16
  let el := fun (bf ftz neg : Bool) (o : Operand) (g : Group) (l e : Nat) => (element bf ftz (g.value o l) e).flipIf neg
  let one := fun (bf ftz : Bool) (rm : RMode) (x : FVal × FFlags) =>
    ((roundFmt (fmt bf) x.1 rm false ftz 0).1, (roundFmt (fmt bf) x.1 rm false ftz 0).2 ||| x.2)
  (∀ o rm ftz bf na nb, Completes (.hadd2 o rm ftz bf na nb) (packed o.d fun g l e =>
    one bf ftz rm (fAdd rm (el bf ftz na o.a g l e) (el bf ftz nb o.b g l e))))
  ∧ (∀ o rm ftz bf na nb, Completes (.hmul2 o rm ftz bf na nb) (packed o.d fun g l e =>
    one bf ftz rm (fMul (el bf ftz na o.a g l e) (el bf ftz nb o.b g l e))))
  ∧ (∀ o rm ftz bf na nc, Completes (.hfma2 o rm ftz bf na nc) (packed o.d fun g l e =>
    one bf ftz rm (fFma rm (el bf ftz na o.a g l e) (el bf ftz false o.b g l e) (el bf ftz nc o.c g l e))))
  ∧ (∀ o max nanp ftz bf, Completes (.hmnx2 o max nanp ftz bf) (packed o.d fun g l e =>
    ((roundFmt (fmt bf) (chosen max nanp (el bf ftz false o.a g l e) (el bf ftz false o.b g l e)) .rn false false 0).1,
      signals (el bf ftz false o.a g l e) (el bf ftz false o.b g l e))))
  ∧ (∀ o rm ftz ta tb, Completes (.fdp4 o rm ftz ta tb) (once .f32 o.d o.n rm ftz fun g l =>
    let x := fun (t : Bool) (w : Word) (k : Nat) => fpValue (if t then .e5m2 else .e4m3) false (w.toNat / 2 ^ (8 * k) % 256)
    let ps := (List.range 4).map (fun k => fMul (x ta (g.value o.a l) k) (x tb (g.value o.b l) k))
    let r := fSum rm (ps.map Prod.fst ++ [g.fval .f32 ftz o.c l])
    (r.1, r.2 ||| allFlags (ps.map Prod.snd))))

/-- R192 to R195: minima, maxima, comparisons, integral rounding and classes; and the eight conditions, on numbers and on a NaN,
with their flags. -/
def Obligations.FloatSelection : Prop :=
  (∀ o nanp ftz, Completes (.fmin o nanp ftz) (pattern .f32 o.d fun g l =>
    ((roundFmt .f32 (chosen false nanp (g.fval .f32 ftz o.a l) (g.fval .f32 ftz o.b l)) .rn false false 0).1,
      signals (g.fval .f32 ftz o.a l) (g.fval .f32 ftz o.b l))))
  ∧ (∀ o nanp ftz, Completes (.fmax o nanp ftz) (pattern .f32 o.d fun g l =>
    ((roundFmt .f32 (chosen true nanp (g.fval .f32 ftz o.a l) (g.fval .f32 ftz o.b l)) .rn false false 0).1,
      signals (g.fval .f32 ftz o.a l) (g.fval .f32 ftz o.b l))))
  ∧ (∀ o k ftz comb, Completes (.fcmp o k ftz comb) (both
    (predicate o.d fun g l => combined comb (fCond k (g.fval .f32 ftz o.a l) (g.fval .f32 ftz o.b l)).1 (g.holds o.c l))
    (raises fun g l => (fCond k (g.fval .f32 ftz o.a l) (g.fval .f32 ftz o.b l)).2)))
  ∧ (∀ o k comb, Completes (.dcmp o k comb) (both
    (predicate o.d fun g l => combined comb (fCond k (g.fval .f64 false o.a l) (g.fval .f64 false o.b l)).1 (g.holds o.c l))
    (raises fun g l => (fCond k (g.fval .f64 false o.a l) (g.fval .f64 false o.b l)).2)))
  ∧ (∀ o rm ftz, Completes (.frnd o rm ftz) (pattern .f32 o.d fun g l =>
    match g.fval .f32 ftz o.a l with
    | .nan sg => (0x7FC00000, if sg then 1 else 0)
    | .inf n => (if n then 0xFF800000 else 0x7F800000, 0)
    | .fin n m e st =>
      if 0 ≤ e then ((roundFmt .f32 (.fin n m e st) .rn false false 0).1, 0)
      else ((roundFmt .f32 (.fin n (roundAt rm n m e st 0 0).1 0 false) .rn false false 0).1, 0)))
  ∧ (∀ o f64, Completes (.fclass o f64) (both noFlags (word o.d fun g l =>
    let f := if f64 then Fmt.f64 else .f32
    match fpValue f false (if f64 then (g.value64 o.a l).toNat else (g.value o.a l).toNat) with
    | .nan sg => if sg then 1 else 2
    | .inf n => if n then 4 else 0x200
    | .fin n m _ _ =>
      if m = 0 then (if n then 0x20 else 0x40) else if m < 2 ^ fmtW f then (if n then 0x10 else 0x80)
      else (if n then 8 else 0x100))))
  ∧ (∀ x y : FVal,
    (x.isNaN = false → y.isNaN = false → ∀ k, fCond k x y =
      ((match k with
        | .eq => fCompare x y == .eq
        | .ne => fCompare x y != .eq
        | .lt => fCompare x y == .lt
        | .le => fCompare x y == .lt || fCompare x y == .eq
        | .gt => fCompare x y == .gt
        | .ge => fCompare x y == .gt || fCompare x y == .eq
        | .un => false
        | .ord => true), 0))
    ∧ (x.isNaN = true ∨ y.isNaN = true → ∀ k,
      (fCond k x y).1 = (k == .ne || k == .un)
        ∧ (fCond k x y).2 = if k == .lt || k == .le || k == .gt || k == .ge then flagNV else signals x y))


/-- R191: the invalid operations, the divisions by zero and the signs of exact zeros. -/
def Obligations.FloatSpecialResults : Prop :=
  (∀ rm n, fAdd rm (.inf n) (.inf !n) = (.nan false, flagNV))
  ∧ (∀ n m e, (fMul (.inf n) (.fin m 0 e false)) = (.nan false, flagNV) ∧ (fMul (.fin m 0 e false) (.inf n)) = (.nan false, flagNV))
  ∧ (∀ rm n m e sg, ∃ st, fFma rm (.inf n) (.fin m 0 e false) (.nan sg) = (.nan st, flagNV))
  ∧ (∀ rm n m e, fAdd rm (.fin n m e false) (.fin (!n) m e false) = (.fin (decide (rm = .rd)) 0 0 false, 0))
  ∧ (∀ rm n e e', fAdd rm (.fin n 0 e false) (.fin n 0 e' false) = (.fin n 0 0 false, 0))
  ∧ (∀ n m e e', (fDiv (.fin n 0 e false) (.fin m 0 e' false)) = (.nan false, flagNV)
      ∧ (fDiv (.inf n) (.inf m)) = (.nan false, flagNV))
  ∧ (∀ n k m e e', 0 < k → (fDiv (.fin n k e false) (.fin m 0 e' false)) = (.inf (n != m), flagDZ))
  ∧ (∀ n e, fSqrt (.fin n 0 e false) = (.fin n 0 0 false, 0) ∧ fRsqrt (.fin n 0 e false) = (.inf n, flagDZ))
  ∧ (∀ k e, 0 < k → fSqrt (.fin true k e false) = (.nan false, flagNV) ∧ fRsqrt (.fin true k e false) = (.nan false, flagNV))
  ∧ fSqrt (.inf true) = (.nan false, flagNV) ∧ fRsqrt (.inf true) = (.nan false, flagNV)
  ∧ fRsqrt (.inf false) = (.fin false 0 0 false, 0)
  ∧ (∀ rm x y, x.isNaN = true ∨ y.isNaN = true → (fAdd rm x y).1.isNaN = true ∧ (fMul x y).1.isNaN = true
      ∧ (fDiv x y).1.isNaN = true ∧ (fAdd rm x y).2 = signals x y ∧ (fMul x y).2 = signals x y)

/-- R177, R183: a value that a format holds is returned unchanged, in every mode and with no flag; and of a finite exact value
whose result is finite, RD gives a value at most it, RU one at least it, and RZ one no larger than it in magnitude. -/
def Obligations.RoundingOfExactValues : Prop :=
  (∀ (f : Fmt) (bits : Nat) (rm : RMode) (sat : Bool) (rnd : Nat), f ≠ .e8m0 → bits < 2 ^ fmtBits f →
    (fpValue f false bits).isNaN = false → roundFmt f (fpValue f false bits) rm sat false rnd = (bits, 0))
  ∧ (∀ (f : Fmt) (n : Bool) (m : Nat) (e : Int) (r : Nat), f ≠ .e8m0 → m ≠ 0 →
    let x : FVal := .fin n m e false
    let finite := fun (b : Nat) => !(fpValue f false b).isNaN && !(fpValue f false b).isInf
    (r = (roundFmt f x .rd false false 0).1 → (roundFmt f x .rd false false 0).2 &&& flagOF = 0 → finite r →
      fCompare (fpValue f false r) x ≠ .gt)
    ∧ (r = (roundFmt f x .ru false false 0).1 → (roundFmt f x .ru false false 0).2 &&& flagOF = 0 → finite r →
      fCompare (fpValue f false r) x ≠ .lt)
    ∧ (r = (roundFmt f x .rz false false 0).1 → finite r →
      fCompare (fpValue f false r) x ≠ (if n then .lt else .gt)))


/-- R198 to R201: the conversions between formats, to and from integers, and the packing of two; a float rounded to an integer
of a type is 0 for a NaN, the limit of its sign beyond the type, both with NV alone; else the rounded integer, with NX exactly
where it differs. -/
def Obligations.FloatConversions : Prop :=
  (∀ o rm ftz satf td ts, Completes (.cvt o rm ftz satf td ts) (pattern td o.d fun g l =>
    roundFmt td (g.fval ts ftz o.a l) rm satf ftz ((g.value o.c l).toNat % 2 ^ 16)))
  ∧ (∀ o rm ftz ti tf, Completes (.cvtfi o rm ftz ti tf) (both
    (sized ti.is64 o.d fun g l => BitVec.ofInt 64 (floatToInt ti rm (g.fval tf ftz o.a l) ((g.value o.c l).toNat % 2 ^ 16)).1)
    (raises fun g l => (floatToInt ti rm (g.fval tf ftz o.a l) ((g.value o.c l).toNat % 2 ^ 16)).2)))
  ∧ (∀ o rm satf tf ti, Completes (.cvtif o rm satf tf ti) (pattern tf o.d fun g l =>
    let n := if ti.is64 then (g.value64 o.a l).toNat else (g.value o.a l).toNat
    let x := readAs (intTyUnsigned ti) (BitVec.ofNat (intTyWidth ti) n)
    roundFmt tf (.fin (decide (x < 0)) x.natAbs 0 false) rm satf false ((g.value o.c l).toNat % 2 ^ 16)))
  ∧ (∀ o rm ftz satf td pos, Completes (.pack o rm ftz satf td pos) (pattern .f32 o.d fun g l =>
    let y := fun (a : Operand) => roundFmt td (g.fval .f32 ftz a l) rm satf ftz 0
    let c := (g.value o.c l).toNat
    (match td with
      | .f16 | .bf16 => (y o.b).1 * 2 ^ 16 + (y o.a).1
      | .e4m3 | .e5m2 => if pos = 0 then c / 2 ^ 16 * 2 ^ 16 + (y o.b).1 * 256 + (y o.a).1
        else c % 2 ^ 16 + 2 ^ 16 * ((y o.b).1 * 256 + (y o.a).1)
      | .e2m1 => c % 2 ^ (8 * pos.toNat) + 2 ^ (8 * pos.toNat) * ((y o.b).1 * 16 + (y o.a).1)
        + c / 2 ^ (8 * pos.toNat + 8) * 2 ^ (8 * pos.toNat + 8)
      | .f64 | .f32 | .e8m0 => c, (y o.a).2 ||| (y o.b).2)))
  ∧ (∀ (t : IntTy) (rm : RMode) (rnd : Nat),
    let lo : Int := if intTyUnsigned t then 0 else -(2 ^ (intTyWidth t - 1))
    let hi : Int := if intTyUnsigned t then 2 ^ intTyWidth t - 1 else 2 ^ (intTyWidth t - 1) - 1
    (∀ sg, floatToInt t rm (.nan sg) rnd = (0, flagNV))
    ∧ (∀ n, floatToInt t rm (.inf n) rnd = (if n then lo else hi, flagNV))
    ∧ (∀ n m e, let r := (roundAt rm n m e false 0 rnd).1
        let v : Int := if n then -(r : Int) else r
        floatToInt t rm (.fin n m e false) rnd =
          if v < lo then (lo, flagNV) else if hi < v then (hi, flagNV)
          else (v, if 0 ≤ e ∨ m % 2 ^ (-e).toNat = 0 then 0 else flagNX)))


/-- R196, R204: at a level below 3 the approximate functions write their result and flags, and at level 3 they raise DET_VIOL
with their OP, and nothing is written; and the special operands and the exact cases have their results. -/
def Obligations.ApproximateFunctions : Prop :=
  let low := fun (_ : State) (g : Group) (_ : List Nat) => g.detlevel ≠ 3
  let three := fun (_ : State) (g : Group) (_ : List Nat) => g.detlevel = 3
  (∀ o ftz, CompletesIf (.fexp2 o ftz) low (pattern .f32 o.d fun g l => fExp2 ftz (single g o.a l)))
  ∧ (∀ o ftz, CompletesIf (.flog2 o ftz) low (pattern .f32 o.d fun g l => fLog2 ftz (single g o.a l)))
  ∧ (∀ o ftz, CompletesIf (.fsin o ftz) low (pattern .f32 o.d fun g l => fTrig false ftz (single g o.a l)))
  ∧ (∀ o ftz, CompletesIf (.fcos o ftz) low (pattern .f32 o.d fun g l => fTrig true ftz (single g o.a l)))
  ∧ (∀ o ftz, Raises (.fexp2 o ftz) three .detViol (fun _ _ => 0x0CC))
  ∧ (∀ o ftz, Raises (.flog2 o ftz) three .detViol (fun _ _ => 0x0CD))
  ∧ (∀ o ftz, Raises (.fsin o ftz) three .detViol (fun _ _ => 0x0CE))
  ∧ (∀ o ftz, Raises (.fcos o ftz) three .detViol (fun _ _ => 0x0CF))
  ∧ (∀ (a : Word) (ftz : Bool),
    (∀ sg, fpValue .f32 ftz a.toNat = .nan sg →
      (fExp2 ftz a).1 = 0x7FC00000 ∧ (fLog2 ftz a).1 = 0x7FC00000 ∧ (fTrig false ftz a).1 = 0x7FC00000
        ∧ (fExp2 ftz a).2 = (if sg then flagNV else 0))
    ∧ (∀ n, fpValue .f32 ftz a.toNat = .inf n →
      fExp2 ftz a = (if n then 0 else 0x7F800000, 0) ∧ fLog2 ftz a = (if n then (0x7FC00000, flagNV) else (0x7F800000, 0))
        ∧ ∀ c, fTrig c ftz a = (0x7FC00000, flagNV))
    ∧ (∀ n e, fpValue .f32 ftz a.toNat = .fin n 0 e false →
      fExp2 ftz a = (0x3F800000, 0) ∧ fLog2 ftz a = (0xFF800000, flagDZ) ∧ fTrig false ftz a = (0, 0)
        ∧ fTrig true ftz a = (0x3F800000, 0))
    ∧ (∀ k e, k ≠ 0 → fpValue .f32 ftz a.toNat = .fin true k e false → fLog2 ftz a = (0x7FC00000, flagNV))
    ∧ (∀ k : Int, -126 ≤ k → k < 128 → k ≠ 0 → a = BitVec.ofNat 32 (roundFmt .f32 (.fin (decide (k < 0)) k.natAbs 0 false) .rn false false 0).1 →
      fExp2 ftz a = (2 ^ 23 * (k + 127).toNat, 0)))


/-- R184, R202, R203: the exact accumulator: addition of a value or of another accumulator, and at level 3 the refusal of a sum
that saturates; rounding once; the tests; the exact sum is the sum of the integers wherever it fits, in whatever order the
addends come; and the special patterns absorb. -/
def Obligations.ExactAccumulation : Prop :=
  let add := fun (o : Slot) (x : Group → Nat → XAddend) (g : Group) (l : Nat) => xaAdd (accumulator g o.a l) (x g l)
  let sat := fun (o : Slot) (x : Group → Nat → XAddend) (_ : State) (g : Group) (ls : List Nat) =>
    g.detlevel = 3 ∧ ls.any (fun l => (add o x g l).2.2) = true
  let fine := fun (o : Slot) (x : Group → Nat → XAddend) (s : State) (g : Group) (ls : List Nat) => ¬ sat o x s g ls
  let out := fun (o : Slot) (x : Group → Nat → XAddend) =>
    both (run10 o.d fun g l => (add o x g l).1) (raises fun g l => (add o x g l).2.1)
  let value := fun (ta : XTy) (ftz : Bool) (o : Slot) (g : Group) (l : Nat) => addendOf ta ftz (g.addendWord ta o.b l)
  let other := fun (sub : Bool) (o : Slot) (g : Group) (l : Nat) =>
    xaAddend (if sub then xaNegate (accumulator g o.b l) else accumulator g o.b l)
  (∀ o ta ftz, CompletesIf (.xadd o ta ftz) (fine o (value ta ftz o)) (out o (value ta ftz o)))
  ∧ (∀ o sub, CompletesIf (.xcmb o sub) (fine o (other sub o)) (out o (other sub o)))
  ∧ (∀ o ta ftz, Raises (.xadd o ta ftz) (sat o (value ta ftz o)) .detXovf (fun _ _ => 0))
  ∧ (∀ o sub, Raises (.xcmb o sub) (sat o (other sub o)) .detXovf (fun _ _ => 0))
  ∧ (∀ o rm ftz satf td, Completes (.xrnd o rm ftz satf td) (pattern td o.d fun g l =>
    xaRound td (accumulator g o.a l) rm satf ftz ((g.value o.c l).toNat % 2 ^ 16)))
  ∧ (∀ o test, Completes (.xchk o test) (both noFlags (predicate o.d fun g l =>
    let n := accumulator g o.a l
    match test with
    | .sat => n == 2 ^ 319 - 1 || n == 2 ^ 319 + 1
    | .inv => n == 2 ^ 319
    | .spec => n == 2 ^ 319 - 1 || n == 2 ^ 319 + 1 || n == 2 ^ 319
    | .zero => n == 0)))
  ∧ (∀ (acc : Nat) (u : Int), acc < 2 ^ 320 → xaIsSpecial acc = false → (xaInt acc + u).natAbs ≤ 2 ^ 319 - 2 →
    xaInt (xaAdd acc (.units u)).1 = xaInt acc + u ∧ (xaAdd acc (.units u)).2 = (0, false)
      ∧ xaIsSpecial (xaAdd acc (.units u)).1 = false)
  ∧ (∀ (acc : Nat) (u v : Int), acc < 2 ^ 320 → xaIsSpecial acc = false → (xaInt acc + u).natAbs ≤ 2 ^ 319 - 2 →
    (xaInt acc + v).natAbs ≤ 2 ^ 319 - 2 → (xaInt acc + u + v).natAbs ≤ 2 ^ 319 - 2 →
    xaAdd (xaAdd acc (.units u)).1 (.units v) = xaAdd (xaAdd acc (.units v)).1 (.units u))
  ∧ (∀ acc u, acc < 2 ^ 320 → xaIsSpecial acc = false → 2 ^ 319 - 2 < (xaInt acc + u).natAbs →
    xaAdd acc (.units u) = (if xaInt acc + u < 0 then 2 ^ 319 + 1 else 2 ^ 319 - 1, flagXOVF ||| flagOF, true))
  ∧ (∀ x, xaAdd (2 ^ 319) x = (2 ^ 319, 0, false))
  ∧ (∀ u acc, acc = 2 ^ 319 - 1 ∨ acc = 2 ^ 319 + 1 → xaAdd acc (.units u) = (acc, 0, false))


/-! ## Cross-lane instructions and predicates -/


/-- R168, R208 to R211: a lane read and written, the ballot, the vote, the match and the compaction; PLOP looks its predicates
up, pmov.get reads a lane's predicates as a word, and pmov.set writes those of its mask. -/
def Obligations.LanesBallotsAndPredicates : Prop :=
  (∀ o, Completes (.rdlane o) (both noFlags (word o.d fun g l => g.value o.a ((g.value o.b l).toNat % g.lanes))))
  ∧ (∀ o, Completes (.wrlane o) (both noFlags (word o.d fun g l =>
    if l = (g.value o.b l).toNat % g.lanes then g.value o.a l else g.value o.d l)))
  ∧ (∀ o k, Completes (.ballot o k) (both noFlags (fun g ls h => wordThat o.d (fun g _ w =>
    ∀ i < 32, w.getLsbD i = (ls.contains (32 * k.toNat + i) && g.holds o.a (32 * k.toNat + i))) g ls h)))
  ∧ (∀ o mode, Completes (.vote o mode) (both noFlags (fun g ls h => predicate o.d (fun _ _ =>
    match mode with
    | .all => ls.all (g.holds o.a)
    | .any => ls.any (g.holds o.a)
    | .same => ls.all (g.holds o.a) || !ls.any (g.holds o.a)) g ls h)))
  ∧ (∀ o w64 cnt q, Completes (.vmatch o w64 cnt q) (both noFlags (both
    (fun g ls h => word o.d (fun g l =>
      let same := ls.filter (fun m => if w64 then g.value64 o.a m == g.value64 o.a l else g.value o.a m == g.value o.a l)
      BitVec.ofNat 32 (if cnt then same.length else same.headD 0)) g ls h)
    (optPredicate q fun g ls l => (ls.find? (fun m =>
      if w64 then g.value64 o.a m == g.value64 o.a l else g.value o.a m == g.value o.a l)) == some l))))
  ∧ (∀ o q, Completes (.compact o q) (both noFlags (both
    (fun g ls h => word o.d (fun g l =>
      let us := ls.filter (g.holds o.b)
      let k := (ls.filter (· < l)).length
      if k < us.length then g.value o.a (us.getD k 0) else g.value o.d l) g ls h)
    (optPredicate q fun g ls l => decide ((ls.filter (· < l)).length < (ls.filter (g.holds o.b)).length)))))
  ∧ (∀ o lut, Completes (.plop o lut) (both noFlags (predicate o.d fun g l =>
    lut.getLsbD ((g.holds o.a l).toNat + 2 * (g.holds o.b l).toNat + 4 * (g.holds o.c l).toNat))))
  ∧ (∀ o, Completes (.pmovGet o) (both noFlags (wordThat o.d fun g l w =>
    ∀ i < 32, w.getLsbD i = (decide (i < 16) && g.pred i l))))
  ∧ (∀ o mask, Completes (.pmovSet o mask) (both noFlags (fun g ls h =>
    ∀ i < 16, ∀ l ∈ ls, h.pred i l = if i ≠ 0 ∧ mask.getLsbD i then (g.value o.a l).getLsbD i else g.pred i l)))

namespace Sys2Proof.Claims

/-- A combination of values in order: the first begins it, each further one is combined with it (R212, R213). -/
def foldedFrom (op : LaneOp) (t : LaneTy) (ftz : Bool) (acc : Word × FFlags) (ws : List Word) : Word × FFlags :=
  ws.foldl (fun acc w => ((laneStep op t ftz acc.1 w).1, acc.2 ||| (laneStep op t ftz acc.1 w).2)) acc

/-- The combination of the values of some lanes, the operation's identity where there is none. -/
def folded (op : LaneOp) (t : LaneTy) (ftz : Bool) : List Word → Word × FFlags
  | [] => (laneIdentity op t, 0)
  | w :: ws => foldedFrom op t ftz (laneStart t ftz w) ws

end Sys2Proof.Claims

/-- R207, R212, R213: scans and reductions combine the lanes that act in ascending order: each lane those before it, itself
included where INCL says so, and REDUX all; EX rounds the exact sum once; and SHFL takes the word of the lane that its mode, its
segment and B give. -/
def Obligations.ShufflesScansAndReductions : Prop :=
  (∀ o op t incl ftz, Completes (.pscan o op t incl ftz) (both
    (fun g ls h => word o.d (fun g l =>
      (folded op t ftz ((ls.filter (fun m => decide (m < l) || (incl && m == l))).map (g.value o.a))).1) g ls h)
    (raisesAll fun g ls => (folded op t ftz ((if incl then ls else ls.dropLast).map (g.value o.a))).2)))
  ∧ (∀ o op t ftz, Completes (.redux o op t false ftz) (both
    (fun g ls h => word o.d (fun g _ => (folded op t ftz (ls.map (g.value o.a))).1) g ls h)
    (raisesAll fun g ls => (folded op t ftz (ls.map (g.value o.a))).2)))
  ∧ (∀ o op t ftz, Completes (.redux o op t true ftz) (both
    (fun g ls h => word o.d (fun g _ => BitVec.ofNat 32
      (roundFmt .f32 (fSum .rn (ls.map (fun l => fpValue .f32 ftz (g.value o.a l).toNat))).1 .rn false ftz 0).1) g ls h)
    (raisesAll fun g ls => let x := fSum .rn (ls.map (fun l => fpValue .f32 ftz (g.value o.a l).toNat))
      (roundFmt .f32 x.1 .rn false ftz 0).2 ||| x.2)))
  ∧ (∀ o mode wc rot q,
    let width := fun (g : Group) => if wc = 0 then g.lanes else min g.lanes (2 ^ wc.toNat)
    let from_ := fun (g : Group) (l : Nat) =>
      let w := width g
      let base := l / w * w
      let r := l % w
      let b := (g.value o.b l).toNat
      match mode with
      | .lane => (base + b, decide (b < w))
      | .back => if rot then (base + (r + (w - b % w)) % w, true) else (l - b, decide (b ≤ r))
      | .fwd => if rot then (base + (r + b) % w, true) else (l + b, decide (r + b < w))
      | .xor => (base + (r ^^^ b), decide (b < w))
    CompletesIf (.shfl o mode wc rot q) (fun _ g _ => g.lanes = 128 ∨ g.lanes = 16) (both noFlags (both
      (word o.d fun g l => if (from_ g l).2 then g.value o.a (from_ g l).1 else g.value o.a l)
      (optPredicate q fun g ls l => (from_ g l).2 && ls.contains (from_ g l).1))))/-! ## Words and steps -/

/-- R36, R161, R187, R206 and the worked examples of their chapters: words that the spec writes out, byte by byte. -/
def Obligations.SpecWordsDecode : Prop :=
  let read := fun (bs : List Byte) => decodeBytes mapOne bs
  read [0xC2, 0, 0, 1, 2, 0x40, 0, 8, 3, 0x50, 0x40, 0]
      = .ok (.ffma { p := 0, d := .vec 8, a := .vec 1, b := .vec 2, c := .vec 3, n := .scl 5 } .rs false false false)
  ∧ read [0x0E, 0, 0, 0, 2, 0x18, 0, 0, 0, 0, 0, 0] = .ok (.waitc { a := .imm 1 } .cw)
  ∧ read [0x47, 1, 0x80, 0x80, 2, 0, 0, 0x20, 0, 0, 0, 0]
      = .ok (.redux { d := .scl 4, a := .vec 1 } .add .f32 false false)
  ∧ read [8, 0, 0, 0, 0, 0, 0, 0, 0x55, 0, 0, 0] = .ok (.trap {} 0x55)
  ∧ read [0, 7, 0, 0, 0, 0x20, 0x80, 0x0F, 0, 0, 0, 0] = .ok (.spawn { p := 1, a := .vec 0, b := .imm 1 } 7)
  ∧ read [3, 2, 0x80, 0x80, 0x20, 0x88, 0x82, 0x90, 0x15, 4, 0, 0]
      = .ok (.tmov { d := .scl 4, a := .scl 16, b := .scl 20, c := .scl 21 } .g .core true none)
  ∧ read [0x86, 1, 0xC0, 0, 0x14, 8, 0, 0, 0, 0xCC, 0, 0]
      = .ok (.ldfut { d := .vec 6, a := .scl 10, c := .imm 0 } false .dev)
  ∧ read [0xC0, 2, 0, 0, 0x14, 0x80, 2, 0, 0x1E, 4, 0, 0]
      = .ok (.emitPrim { a := .vec 10, b := .vec 20, c := .scl 30 } false)
  ∧ read [0xD3, 2, 0xC0, 0x83, 2, 0x18, 0, 2, 0, 0, 0, 0] = .ok (.rayqryWait { d := .scl 30, a := .imm 1 })

/-- R35 to R39, R50, R51: every instruction of a program has a word, and the decoder reads that word as the instruction,
whatever its operands and modifiers. -/
def Obligations.EncodedInstructionsDecode : Prop :=
  ∀ i : Instr, i.wf = true → i.isProgram = true →
    ∃ w : BitVec 96, encode i = some w ∧ decodeBytes mapOne (leBytes 12 w.toNat) = .ok i

/-- R37, R50, R53: a word that decodes is the one word of a listed instruction, so a word with a field out of its entry is
refused; OP 0x3FF is a header, and an OP that names none of the operations raises UNDEF. -/
def Obligations.OnlyListedWordsDecode : Prop :=
  (∀ (w : Nat) (i : Instr), w < 2 ^ 96 → decodeWord mapOne w = .ok i →
    i.wf = true ∧ i.isProgram = true ∧ encode i = some (BitVec.ofNat 96 w))
  ∧ (∀ (map : Nat → Option Nat) (w : Nat), w % 1024 = 0x3FF → decodeWord map w = .header)
  ∧ (∀ w : Nat, w % 1024 ≠ 0x3FF → isOperation (w % 1024) = false → decodeWord mapOne w = .undef)

namespace Sys2Proof.Claims

/-- The kinds of unit of the partition table, and how many there are of each (R18, R424). -/
def unitKinds : List ((PartTable → Tab Nat) × Nat) :=
  [(fun t => t.unit, 16), (fun t => t.mem, 128), (fun t => t.port, 4), (fun t => t.link, 12), (fun t => t.view, 16)]

/-- The next turn is an act, with no time passing and nothing from outside before it. -/
def NextIs (s : State) (a : Act) (ts : List Turn) : Prop := s.agenda = { act := a } :: ts

/-- What a state is once a turn is over: no issuer is left. -/
def afterTurn (o : Host.Outcome State Fault Refusal) : Host.Outcome State Fault Refusal :=
  match o with
  | .next t => .next { t with cur := .none }
  | o => o

end Sys2Proof.Claims

/-- R35, R131, R133: where the word in the slot of a group that may issue decodes, under its context's opcode map, to an
instruction, the step that is the group's turn runs that instruction as the group; a group between clauses starts one. -/
def Obligations.StepRunsGroupInstruction : Prop :=
  ∀ (s : State) (ts : List Turn) (id : Nat) (g : Group), NextIs s (.group id) ts →
    let s1 : State := { s with agenda := ts, cur := .group id }
    s.running = true → s.mayIssue id = true → Tab.get? s.spec id = none → Tab.get? s.groups id = some g →
    (∀ c w i, g.clause = some c → s.codeWord? g c.handler c.slotPc = some w →
      decodeBytes (s.contextMap g.part g.ctx) (leBytes 12 w) = .ok i → step s = afterTurn (exec i s1))
    ∧ (g.clause = none → step s = afterTurn (exec (.clauseStart id) s1))

/-- R277, R279, R431, R432: the step that is the turn of a running matrix stream runs the stream instruction at its pc, and
raises UNDEF at a word of another pool; the step of an engine or of the host runs its own instruction; where such a step is not
admitted, nothing changes; and while the module is anchored, or in reset, no group issues and no step is admitted but those of
the management subsystem. -/
def Obligations.StepRunsStreamsAndEvents : Prop :=
  (∀ (s : State) (ts : List Turn) (t w : Nat) (i : Instr) (f : Form), NextIs s (.stream t) ts →
    s.running = true → s.streamMay t = true → s.streamWord? t (s.mx t).pc = some w →
    decodeBytes (s.contextMap (s.team t).part (s.team t).ctx) (leBytes 12 w) = .ok i → i.form = some f →
    (f.pool = .stream → step s = afterTurn (exec i { s with agenda := ts, cur := .stream t }))
    ∧ (f.pool ≠ .stream → step s = .next (State.streamFault { s with agenda := ts } t .undef 0)))
  ∧ (∀ (s : State) (ts : List Turn) (i : Instr), NextIs s (.event i) ts →
    (s.admits i = true → step s = afterTurn (exec i { s with agenda := ts, cur := .none }))
    ∧ (s.admits i = false → step s = .next { s with agenda := ts }))
  ∧ (∀ (s : State) (ts : List Turn), s.mgmt.mode ≠ .up →
    (∀ id, NextIs s (.group id) ts → step s = .next { s with agenda := ts })
    ∧ (∀ t, NextIs s (.stream t) ts → step s = .next { s with agenda := ts })
    ∧ (∀ i, NextIs s (.event i) ts → isManagement i = false → step s = .next { s with agenda := ts }))


/-- The model's own statement: every step answers a next state. No instruction that a step fetches stops the machine. -/
def Obligations.EveryStepAnswers : Prop := ∀ s : State, Safety.Goes s

/-- The canonical form of memory, and that nobody is left issuing, are kept by every step, whatever it executes. -/
def Obligations.EveryStepKeepsSound : Prop := ∀ s t : State, Safety.Sound s → step s = .next t → Safety.Sound t

/-- R5, R17, R171, R253, R424, R431, R438 and the reset columns of the tables: memory lists nothing, every granule is empty
and every sequence tag 0; nothing is resident or in flight; the whole module is one partition with a budget of 2,000 W, and runs
at full clock; and every function block, queue, context and view is at its reset value. That memory reads 0 where nothing has
written it is the model's own choice (notes/assumptions/1.md). -/
def Obligations.ResetState : Prop :=
  Safety.Sound State.reset
    ∧ State.reset.mem = [] ∧ State.reset.full = [] ∧ State.reset.tags = [] ∧ State.reset.poison = []
    ∧ State.reset.groups = [] ∧ State.reset.teams = [] ∧ State.reset.ops = [] ∧ State.reset.copies = []
    ∧ State.reset.allocs = [] ∧ State.reset.spec = []
    ∧ (∀ p, State.reset.pt = State.reset.ptStaged ∧ ∀ x ∈ unitKinds, Tab.getD (x.1 State.reset.pt) p 0 = 0)
    ∧ (∀ p, Tab.getD State.reset.mgmt.budgets p 0 = if p = 0 then 2000 else 0) ∧ State.reset.pt.chipid = 0
    ∧ (∀ c, State.reset.clock c = 16 ∧ (State.reset.core c).cycles = 0)
    ∧ (∀ p, let f := State.reset.func p
        f.halted = false ∧ f.stopped = false ∧ f.stopBase = 0 ∧ f.prqBase = 0 ∧ f.prqSize = 16 ∧ f.prqHead = 0 ∧ f.prqTail = 0
          ∧ f.qArg = 0 ∧ f.invVa = 0 ∧ f.cswArea = 0 ∧ f.dropReq = [] ∧ f.rtClus = 0 ∧ f.rtHelm = 0 ∧ f.evBase = 0
          ∧ f.fabEn = false ∧ f.chkRuns = 0 ∧ f.chkMismatch = 0 ∧ f.chkSkip = 0)
    ∧ (∀ p k, (State.reset.queue p k).live = false ∧ (State.reset.queue p k).wake = 0)
    ∧ (∀ p c, (State.reset.context p c).live = false)
    ∧ (∀ v, (State.reset.view? v).scanen = false ∧ (State.reset.view? v).port = 7 ∧ (State.reset.view? v).pclk = 0
        ∧ (State.reset.view? v).frameBase = 0)

/-! ## Control, traps and waits -/

namespace Sys2Proof.Claims

/-- An instruction, issued where `ok` holds, has an effect: the state `u` that `eff` says, and after it the end of its
slot. -/
def Does (i : Instr) (ok : State → Nat → Group → List Nat → Prop)
    (eff : State → Nat → Group → List Nat → State → Prop) : Prop :=
  ∀ s id g c f, Issues i s id g c f → ok s id g (g.guarded f.slot) →
    ∃ u t, exec i s = .next t ∧ eff s id g (g.guarded f.slot) u ∧ SlotOver u t id c

/-- An instruction, issued where `ok` holds, begins a wait: its group waits as `w` says, at its slot, and nothing else of
the state changes. -/
def Waits (i : Instr) (ok : State → Nat → Group → List Nat → Prop) (w : State → Group → List Nat → Wait) : Prop :=
  ∀ s id g c f, Issues i s id g c f → ok s id g (g.guarded f.slot) →
    ∃ t, exec i s = .next t ∧ OnlyGroup s t id ∧ t.group id = { g with wait := some (w s g (g.guarded f.slot)) }

/-- A lane of a group stands at an offset, in an entry of the kernel or of the handler. -/
def standsAt (h : Group) (handler : Bool) (l pc : Nat) : Prop :=
  ∃ x ∈ h.frontier, x.pc = pc ∧ x.handler = handler ∧ x.mask.getLsbD l = true

/-- The lanes of a group after the end of a clause (R134): the lanes of the issuing entry `e` that stay are at their next
offset, merged with what stood there; every other entry is as it was; and the entries that they joined have the priority of
the clause there. -/
structure Moved (s : State) (g h : Group) (c : Clause) (e : Entry) (stays : Nat → Prop) (to_ : Nat → Nat) : Prop where
  lanes : ∀ hd l pc, standsAt h hd l pc ↔
    (∃ x ∈ g.frontier, ¬(x.pc = c.pc ∧ x.handler = c.handler) ∧ x.pc = pc ∧ x.handler = hd ∧ x.mask.getLsbD l = true)
      ∨ (hd = c.handler ∧ l < g.lanes ∧ e.mask.getLsbD l = true ∧ stays l ∧ pc = to_ l)
  prio : ∀ x ∈ h.frontier, (∃ l, l < g.lanes ∧ e.mask.getLsbD l = true ∧ stays l ∧ x.pc = to_ l ∧ x.handler = c.handler) →
    x.prio = s.prioAt g c.handler x.pc

/-- A control transfer to its lanes' targets: where each target is a header of the code, and the entries fit, each lane
whose guard is true goes to its target and each other lane to the next header; D takes the link where it links. -/
def Transfers (i : Instr) (target : Group → Nat → Nat) (link : Option Operand) : Prop :=
  ∀ s id g c f e, Issues i s id g c f → g.entry? = some e → c.handler = g.handler.isSome →
    let ls := g.guarded f.slot
    let next := fun (l : Nat) => if ls.contains l then target g l else c.follow
    (∀ l ∈ ls, target g l % 12 = 0 ∧ ∃ w, s.codeWord? g c.handler (target g l) = some w ∧ w % 1024 = 0x3FF) →
    (g.handOn (s.prioAt g c.handler) (fun _ => false) next).length ≤ 80 →
    ∃ t, exec i s = .next t ∧ OnlyGroup s t id ∧ (t.group id).clock = g.clock + 1 ∧ (t.group id).clause = none
      ∧ KeepsOthers f ls g (t.group id) ∧ (t.group id).fpflags = g.fpflags
      ∧ Moved s g (t.group id) c e (fun _ => True) next
      ∧ (∀ d, link = some d → word d (fun _ _ => BitVec.ofNat 32 c.follow) g ls (t.group id))

/-- A control transfer with a target beyond the code, or at no header, raises CODE_RANGE or ILLCLAUSE with the lowest lane
of that cause, and moves no lane (R160). -/
def RefusesTargets (i : Instr) (target : Group → Nat → Nat) : Prop :=
  ∀ s id g c f, Issues i s id g c f →
    let ls := g.guarded f.slot
    let out := fun (l : Nat) => decide (s.codeSize g c.handler ≤ target g l)
    let bad := fun (l : Nat) => target g l % 12 != 0
      || (s.codeWord? g c.handler (target g l)).all (fun w => w % 1024 != 0x3FF)
    (∀ l, ls.find? out = some l →
      exec i s = .next (s.raiseFault id c.slotPc .codeRange (BitVec.ofNat 32 (256 * l)) 0 0))
    ∧ (∀ l, ls.find? out = none → ls.find? bad = some l →
      exec i s = .next (s.raiseFault id c.slotPc .illclause (BitVec.ofNat 32 (256 * l)) 0 0))

end Sys2Proof.Claims

/-- R134, R135, R139, R160 to R162: the control transfers; NOP and the end of a clause by sequential flow, YIELD's offer of its
place, and EXIT, which removes its lanes for good: a group whose last lane has left drains. -/
def Obligations.ControlTransfersAndExit : Prop :=
  (∀ o t, Transfers (.bra o t) (fun _ _ => t.toNat) none)
  ∧ (∀ o, Transfers (.bri o) (fun g l => (g.value o.a l).toNat) none)
  ∧ (∀ o, Transfers (.ret o) (fun g l => (g.value o.a l).toNat) none)
  ∧ (∀ o t, Transfers (.call o t) (fun _ _ => t.toNat) (some o.d))
  ∧ (∀ o, Transfers (.calli o) (fun g l => (g.value o.a l).toNat) (some o.d))
  ∧ (∀ o t, RefusesTargets (.bra o t) (fun _ _ => t.toNat))
  ∧ (∀ o, RefusesTargets (.bri o) (fun g l => (g.value o.a l).toNat))
  ∧ (∀ o, RefusesTargets (.ret o) (fun g l => (g.value o.a l).toNat))
  ∧ (∀ o t, RefusesTargets (.call o t) (fun _ _ => t.toNat))
  ∧ (∀ o, RefusesTargets (.calli o) (fun g l => (g.value o.a l).toNat))
  ∧ (∀ o, Completes (.nop o) noFlags) ∧ (∀ o, Completes (.yield o) noFlags)
  ∧ (∀ o s id g c f e t, Issues (.nop o) s id g c f → g.entry? = some e → g.handler = none → c.last = true →
    exec (.nop o) s = .next t → Moved s g (t.group id) c e (fun _ => True) (fun _ => c.follow))
  ∧ (∀ o s id g c f r rs, Issues (.yield o) s id g c f → c.last = false → (s.core g.core).ready = r :: rs →
    (s.core g.core).active.contains id = true →
    ∃ t, exec (.yield o) s = .next t ∧ (t.core g.core).active = (s.core g.core).active.map (fun x => if x = id then r else x)
      ∧ (t.core g.core).ready = rs ++ [id])
  ∧ (∀ o s id g c f e, Issues (.exit o) s id g c f → g.entry? = some e → g.handler = none → c.handler = false →
    g.recs = [] → (g.handOn (s.prioAt g false) (g.guarded o).contains (fun _ => c.follow)).length ≤ 80 →
    ∃ t, exec (.exit o) s = .next t ∧ OnlyGroup s t id ∧ (t.group id).clock = g.clock + 1 ∧ (t.group id).clause = none
      ∧ KeepsOthers f (g.guarded o) g (t.group id) ∧ (t.group id).fpflags = g.fpflags
      ∧ Moved s g (t.group id) c e (fun l => l ∉ g.guarded o) (fun _ => c.follow)
      ∧ ((t.group id).draining = (g.draining || (t.group id).frontier.isEmpty)))
  ∧ (∀ o, Raises (.exit o) (fun _ g _ => g.recs ≠ []) .recpool (fun _ _ => 7))


/-- R163, R385, R389: TRAP and BKPT take their trap at their slot, with X as the information; and what taking a cause is:
where a handler can run the group stops issuing with the trap to enter, and elsewhere it faults: the trap registers hold the
slot, the cause and the information, and the partition halts, unless the team is a re-executed copy. -/
def Obligations.TrapsAndFaultsTaken : Prop :=
  (∀ o code, Raises (.trap o code) (fun _ _ _ => True) .trap (fun _ _ => code))
  ∧ (∀ o code, Raises (.bkpt o code) (fun _ _ _ => True) .bkpt (fun _ _ => code))
  ∧ (∀ (s : State) (id pc : Nat) (g : Group) (k : Cause) (info : Word) (va : Nat) (hn : Word),
    Tab.get? s.groups id = some g →
    let t := s.raise id pc k info va hn
    let traps := k = .detViol ∨ k = .detXovf ∨ k = .rinvFail ∨ k = .trap ∨ k = .bkpt
    let handled := (s.team g.team).trapen = true ∧ (s.context g.part g.ctx).traph ≠ 0 ∧ g.handler = none
    (traps ∧ handled → OnlyGroup s t id ∧ (t.group id).trapping = some ⟨pc, k, info⟩ ∧ (t.group id).clock = g.clock + 1
      ∧ (t.group id).stopped = g.stopped ∧ (t.group id).clause = g.clause ∧ (t.group id).vec = g.vec
      ∧ (t.group id).scl = g.scl ∧ (t.group id).preds = g.preds ∧ (t.group id).fpflags = g.fpflags
      ∧ (t.group id).counters = g.counters ∧ (t.group id).trapPc = g.trapPc)
    ∧ (¬(traps ∧ handled) → (t.group id).stopped = true ∧ (t.group id).trapPc = BitVec.ofNat 32 pc
      ∧ (t.group id).trapCause = BitVec.ofNat 32 k.code ∧ (t.group id).trapInfo = info ∧ (t.group id).clause = g.clause
      ∧ (t.group id).vec = g.vec ∧ (t.group id).scl = g.scl ∧ (t.group id).preds = g.preds
      ∧ (t.group id).clock = g.clock ∧ (∀ j, j ≠ id → Tab.get? t.groups j = Tab.get? s.groups j)
      ∧ ((s.team g.team).copyOf = none → (t.func g.part).halted = true)
      ∧ ((s.team g.team).copyOf ≠ none → OnlyGroup s t id)))

/-- R385, R387, R388: a trapping group whose flags are clear enters its handler: the trap registers are set, the trapping
entry gives way to a handler entry with its lanes, at the handler's entry point, and until that ends no other entry is
taken. When the last handler lane leaves, the trapped lanes continue after the trapping slot where $trappc is unchanged,
else at the clause that it names. -/
def Obligations.HandlersEnteredAndLeft : Prop :=
  (∀ (s : State) (id : Nat) (g : Group) (r : TrapReq) (c : Clause) (e : Entry), Tab.get? s.groups id = some g →
    g.trapping = some r → g.clause = some c → g.entry? = some e → s.attends id = true →
    (∀ x ∈ g.flags, x.2 = []) → s.hasStopped g.part (s.coreStopKey g.core) = false →
    ∃ t, exec (.trapEnter id) s = .next t ∧ OnlyGroup s t id
      ∧ (t.group id).trapPc = BitVec.ofNat 32 r.pc ∧ (t.group id).trapCause = BitVec.ofNat 32 r.cause.code
      ∧ (t.group id).trapInfo = r.info ∧ (t.group id).trapping = none ∧ (t.group id).clause = none
      ∧ (t.group id).frontier = g.frontier.filter (fun x => !(x.pc == c.pc && x.handler == c.handler))
        ++ [⟨(s.copy (s.team g.team).copy).handlerEntry,
              s.prioAt g true (s.copy (s.team g.team).copy).handlerEntry, e.mask, true⟩]
      ∧ (t.group id).vec = g.vec ∧ (t.group id).scl = g.scl ∧ (t.group id).preds = g.preds
      ∧ (t.group id).clock = g.clock ∧ (t.group id).fpflags = g.fpflags ∧ (t.group id).counters = g.counters)
  ∧ (∀ (g : Group) (x e : Entry), x ∈ g.frontier → x.handler = true → g.next? = some e → e.handler = true)
  ∧ (∀ (g : Group) (r : TrapReturn), g.handler = some r →
    (g.trapPc = r.pcAtEntry → r.clause.last = false →
      g.handlerReturn = { g with handler := none, clause := some { r.clause with slot := r.clause.slot + 1 }
                                 frontier := g.frontier ++ [r.entry] })
    ∧ (g.trapPc = r.pcAtEntry → r.clause.last = true → g.handlerReturn.handler = none ∧ g.handlerReturn.clause = none
      ∧ ∀ l, r.entry.mask.getLsbD l = true → standsAt g.handlerReturn r.entry.handler l r.clause.follow)
    ∧ (g.trapPc ≠ r.pcAtEntry → g.handlerReturn.handler = none ∧ g.handlerReturn.clause = none
      ∧ ∀ l, r.entry.mask.getLsbD l = true → standsAt g.handlerReturn r.entry.handler l g.trapPc.toNat))

/-- R41, R49, R54: what stands before an instruction's own effect, in its order: ILLCLAUSE for a long-latency form without
its flag, UNDEF for a form or a pool that the entry does not list, ILLOPND for an operand, HAZARD for a pending guard, the
hold behind acquires and fences, no effect where no lane's guard is true, and HAZARD for a pending register. -/
def Obligations.SlotFates : Prop :=
  ∀ (i : Instr) (s : State) (id : Nat) (g : Group) (c : Clause) (f : Form), s.cur = .group id →
    Tab.get? s.groups id = some g → i.form = some f → f.pool ≠ .stream → ¬(1 ≤ f.op ∧ f.op ≤ 6) → g.clause = some c →
    (g.number = 0 → (s.team g.team).badBuf = none) →
    let pc := c.slotPc
    let flag := if f.slot.sel then c.fb else c.fa
    let listed := f.legal = true ∧ poolOk f.pool g.core = true
    let named := f.operandsOk = true ∧ ∀ r ∈ formNames f, g.inBudget r = true
    let guardFree := f.slot.p = 0 ∨ g.isPending (.p f.slot.p.toNat) = false
    (f.long = true → flag = none → exec i s = .next (s.raiseFault id pc .illclause 0 0 0))
    ∧ ((f.long = true → flag ≠ none) → ¬listed → exec i s = .next (s.raiseFault id pc .undef 0 0 0))
    ∧ ((f.long = true → flag ≠ none) → listed → ¬named → exec i s = .next (s.raiseFault id pc .illopnd 0 0 0))
    ∧ ((f.long = true → flag ≠ none) → listed → named → ¬guardFree →
      exec i s = .next (s.raiseFault id pc .hazard 0 0 0))
    ∧ ((f.long = true → flag ≠ none) → listed → named → guardFree →
      (s.gate g f.op ≠ [] → exec i s = .next (s.beginWait id { why := .ops (s.gate g f.op) }))
      ∧ (s.gate g f.op = [] → g.guarded f.slot = [] → ∃ t, exec i s = .next t ∧ SlotOver s t id c)
      ∧ (s.gate g f.op = [] → g.guarded f.slot ≠ [] → (∃ r ∈ formNames f, g.isPending r = true) →
        exec i s = .next (s.raiseFault id pc .hazard 0 0 0)))

/-- R138, R164 to R167: the queue wake-ups, the sleep and the counter wait: SWI changes one WAKE register, and marks the
sleeps that it ends; SLEEPC waits until its count or a bit of its mask, WAITC until its counter is at the threshold. -/
def Obligations.WakesAndWaits : Prop :=
  let value := fun (o : Operand) (g : Group) (ls : List Nat) => g.value o (ls.headD 0)
  let names := fun (o : Slot) (s : State) (g : Group) (ls : List Nat) (q : Nat) =>
    (value o.a g ls).toNat % 65536 = q ∧ q < 1024 ∧ (s.queue g.part q).live = true ∧ (s.queue g.part q).ctx = g.ctx
      ∧ (s.queue g.part q).gen = (value o.a g ls).toNat / 65536
  let wakes := fun (o : Slot) (f : Word → Word → Word) (s : State) (g : Group) (ls : List Nat) (q : Nat) (u : State) =>
    (u.queue g.part q).wake = f (s.queue g.part q).wake (value o.b g ls)
      ∧ (∀ k, k ≠ 1024 * g.part + q → Tab.get? u.queues k = Tab.get? s.queues k)
      ∧ u = { s with queues := u.queues, groups := u.groups }
      ∧ ∀ j x, Tab.get? s.groups j = some x → Tab.get? u.groups j = some
          { x with wait := match x.wait with
            | some ⟨.sleep n m, a, e⟩ => some ⟨.sleep n m, a, e || (x.part == g.part && x.queue == q
                && f (s.queue g.part q).wake (value o.b g ls) &&& m != 0)⟩
            | w => w }
  (∀ o q, Does (.swiWake o) (fun s _ g ls => (s.team g.team).copyOf = none ∧ names o s g ls q)
    (fun s _ g ls u => wakes o (fun w b => w ||| b) s g ls q u))
  ∧ (∀ o q, Does (.swiClear o) (fun s _ g ls => (s.team g.team).copyOf = none ∧ names o s g ls q)
    (fun s _ g ls u => wakes o (fun w b => w &&& ~~~b) s g ls q u))
  ∧ (∀ o, Raises (.swiWake o) (fun s g ls => ∀ q, ¬ names o s g ls q) .prot (fun _ _ => 6))
  ∧ (∀ o, Raises (.swiClear o) (fun s g ls => ∀ q, ¬ names o s g ls q) .prot (fun _ _ => 6))
  ∧ (∀ o, Does (.swiMgmt o) (fun s _ g _ => (s.team g.team).copyOf = none ∧ s.mgmt.softQ.length < 64)
    (fun s _ g ls u => u = { s with mgmt := { s.mgmt with softQ := s.mgmt.softQ ++ [(value o.b g ls, g.part, g.ctx)] } }))
  ∧ (∀ o, Does (.sleepc o)
    (fun s _ g ls => value o.a g ls = 0 ∨ (s.queue g.part g.queue).wake &&& value o.b g ls ≠ 0) (fun s _ _ _ u => u = s))
  ∧ (∀ o, Waits (.sleepc o)
    (fun s _ g ls => value o.a g ls ≠ 0 ∧ (s.queue g.part g.queue).wake &&& value o.b g ls = 0)
    (fun s g ls => ⟨.sleep ((s.core g.core).cycles + (value o.a g ls).toNat) (value o.b g ls), true, false⟩))
  ∧ (∀ o k, Does (.waitc o k) (fun _ _ g ls => g.counter k.code ≤ min (value o.a g ls).toNat 0xFFFF)
    (fun s _ _ _ u => u = s))
  ∧ (∀ o k, Waits (.waitc o k) (fun _ _ g ls => min (value o.a g ls).toNat 0xFFFF < g.counter k.code)
    (fun _ g ls => ⟨.counter k.code (min (value o.a g ls).toNat 0xFFFF), false, false⟩))

namespace Sys2Proof.Claims

/-- The value of a special register in a lane (R169). -/
def specialValue (s : State) (g : Group) (r : Nat) (view : Word) (l : Nat) : DWord :=
  match r with
  | 0x00 => BitVec.ofNat 64 l
  | 0x01 => BitVec.ofNat 64 g.lanes
  | 0x02 => BitVec.ofNat 64 g.number
  | 0x03 => BitVec.ofNat 64 g.role
  | 0x04 => BitVec.ofNat 64 (s.team g.team).x
  | 0x05 => BitVec.ofNat 64 (s.team g.team).y
  | 0x06 => BitVec.ofNat 64 (s.team g.team).z
  | 0x07 => BitVec.ofNat 64 (s.team g.team).gx
  | 0x08 => BitVec.ofNat 64 (s.team g.team).gy
  | 0x09 => BitVec.ofNat 64 (s.team g.team).gz
  | 0x10 => BitVec.ofNat 64 (if 256 ≤ g.core then s.relUnit (g.core - 256) else g.core % 4)
  | 0x11 => BitVec.ofNat 64 (s.relUnit (if 256 ≤ g.core then g.core - 256 else g.core / 4))
  | 0x12 => BitVec.ofNat 64 ((if 256 ≤ g.core then g.core - 256 else g.core / 4) / 32)
  | 0x13 => BitVec.ofNat 64 g.part
  | 0x14 => BitVec.ofNat 64 g.ctx
  | 0x15 => BitVec.ofNat 64 s.pt.chipid
  | 0x20 => BitVec.ofNat 64 (s.core g.core).cycles
  | 0x21 => g.clock
  | 0x30 => g.fpflags.setWidth 64
  | 0x31 => BitVec.ofNat 64 g.detlevel
  | 0x32 => g.seed
  | 0x40 => g.trapPc.setWidth 64
  | 0x41 => g.trapCause.setWidth 64
  | 0x42 => g.trapInfo.setWidth 64
  | 0x48 => BitVec.ofNat 64 ((g.frontier.length + 256 * (g.frontier.length - 16)) % 2 ^ 32)
  | 0x50 => (Tab.getD s.views (view.toNat % 16) {}).brgx.setWidth 64
  | 0x51 => (Tab.getD s.views (view.toNat % 16) {}).brgy.setWidth 64
  | _ => 0

/-- The determinism level from which a special register is refused, 4 where none refuses it (R172). -/
def refusedFrom (r : Nat) : Nat :=
  match r with
  | 0x20 => 1
  | 0x10 | 0x11 | 0x12 => 2
  | 0x13 | 0x15 => 3
  | _ => 4

end Sys2Proof.Claims

/-- R169 to R172: GETSR reads each special register, but for the levels that refuse it and a view of another partition;
SETSR writes $fpflags and the trap registers, and nothing else. -/
def Obligations.SpecialRegisters : Prop :=
  let denied := fun (s : State) (g : Group) (r : BitVec 8) (b : Word) =>
    (r = 0x50 ∨ r = 0x51) ∧ Tab.getD s.pt.view (b.toNat % 16) 0 ≠ g.part
  (∀ o r, o.a = .spc r → ∀ s id g c f, Issues (.getsr o) s id g c f →
    let ls := g.guarded f.slot
    let b := g.value o.b (ls.headD 0)
    (g.detlevel < refusedFrom r.toNat → ¬denied s g r b →
      ∃ t, exec (.getsr o) s = .next t ∧ Passed t id g c ∧ OnlyGroup s t id ∧ KeepsOthers f ls g (t.group id)
        ∧ (t.group id).fpflags = g.fpflags
        ∧ sized (r = 0x20 || r = 0x21 || r = 0x32) o.d (fun g l => specialValue s g r.toNat b l) g ls (t.group id))
    ∧ (refusedFrom r.toNat ≤ g.detlevel →
      exec (.getsr o) s = .next (s.raise id c.slotPc .detViol (BitVec.ofNat 32 (0x00B + 65536 * r.toNat)) 0 0))
    ∧ (g.detlevel < refusedFrom r.toNat → denied s g r b →
      exec (.getsr o) s = .next (s.raise id c.slotPc .prot 0x13 0 0)))
  ∧ (∀ o r, o.d = .spc r → Does (.setsr o) (fun _ _ _ _ => True) (fun s id g ls u =>
    let a := g.value o.a (ls.headD 0)
    u = s.putGroup id
      { g with fpflags := if r = 0x30 then a &&& 0x3F else g.fpflags
               trapPc := if r = 0x40 then a else g.trapPc
               trapCause := if r = 0x41 then a &&& 0xFF else g.trapCause
               trapInfo := if r = 0x42 then a else g.trapInfo }))

/-! ## Scratch memory -/

namespace Sys2Proof.Claims

/-- An operation joins a state that an effect has left: it is listed under a fresh number, its flag and its counter take
it, its destinations are pending on it, and nothing else changes. -/
structure Started (m u : State) (id : Nat) (op : Op) (dests : List RegName) : Prop where
  rest : u = { m with ops := Tab.put m.ops m.fresh op, groups := u.groups, fresh := m.fresh + 1 }
  others : ∀ j, j ≠ id → Tab.get? u.groups j = Tab.get? m.groups j
  same : u.group id = { m.group id with flags := (u.group id).flags, counters := (u.group id).counters
                                        pending := (m.group id).pending ++ dests.map (fun r => (r, m.fresh)) }
  flag : ∀ x, (u.group id).flagOps x = (m.group id).flagOps x ++ if op.flag = some x then [m.fresh] else []
  counter : ∀ x, (u.group id).counterOps x
    = (m.group id).counterOps x ++ if op.counter = some x then [(m.fresh, false)] else []

/-- An operation of a group at its slot, with nothing of its own yet. -/
def opOf (g : Group) (id : Nat) (body : OpBody) : Op :=
  { group := id, part := g.part, ctx := g.ctx, pc := g.slotPc, body := body }

/-- The flag that a slot selects has room for one operation more (R46). -/
def flagRoom (g : Group) (o : Slot) : Prop := ∀ x, g.slotFlag o = some x → (g.flagOps x).length < 255

/-- A counter has room for one operation more (R166). -/
def counterRoom (g : Group) (k : Nat) : Prop := g.counter k < 0xFFFF

/-- The scratch address of a lane (R243). -/
def scratchAt (o : Operand) (off : Word) (g : Group) (l : Nat) : Nat := (g.value o l + off).toNat

/-- An access of `n` bytes lies within its view, where determinism allows it (R231). -/
def inView (s : State) (t : Team) (lvl : Lvl) (atoms : Bool) (n a : Nat) : Prop :=
  (∃ x, s.view t lvl a n = .ok x)
    ∧ (t.detlevel = 0 ∨ lvl = .core
      ∨ (lvl = .clus ∧ t.gangPos * t.obj.clusScr ≤ a ∧ a + n ≤ (t.gangPos + 1) * t.obj.clusScr)
      ∨ (lvl = .die ∧ atoms = false ∧ (t.detlevel < 2 ∨ a < 2 ^ 31)))

/-- Nothing of R233, R235 and R240 holds or refuses an access that lies within its view. -/
def canAct (s : State) (t : Team) (lvl : Lvl) (k : Standing) (n a : Nat) : Prop :=
  (∀ j r, t.regionAt lvl a = some (j, r) → k.modifier = false ∧ r.unmap = none
      ∧ ∀ i ∈ r.granules a n, i / 8 ∈ r.filled ∧ (k.write = true → ∀ w ∈ r.wb, w.1 ≠ i))
    ∧ (∀ j b, t.bufAt lvl a = some (j, b) →
        if k.write then b.state = .empty ∨ b.state = .filling else b.state = .full ∨ b.state = .draining)
    ∧ (∀ b, k.needs = some b → s.isFull (s.viewKey t lvl a) = b)
    ∧ (∀ i, i < n → s.poison.contains (wordKey (s.viewKey t lvl a + i)) = false)

/-- The standing of each load and store in the table of R233. -/
def ldStanding : FeLd → Standing
  | .plain => {}
  | .full => { needs := some true, leaves := some true, modifier := true }
  | .take => { needs := some true, leaves := some false, modifier := true }
def stStanding : FeSt → Standing
  | .plain => { write := true }
  | .fill => { leaves := some true, write := true, modifier := true }
  | .empty => { needs := some false, leaves := some true, write := true, modifier := true }

/-- Bytes written at the keys of a set of lanes, in ascending order of lane: where no higher lane writes, a lane's bytes
stand, and every other byte of memory is as before. -/
def storesBytes (s u : State) (ls : List Nat) (n : Nat) (key : Nat → Nat) (data : Nat → List Byte) : Prop :=
  (∀ l ∈ ls, (∀ k ∈ ls, l < k → key k + n ≤ key l ∨ key l + n ≤ key k) →
    ∀ i, i < n → Memory.get u.mem (key l + i) = (data l).getD i 0)
  ∧ (∀ x, (∀ l ∈ ls, x < key l ∨ key l + n ≤ x) → Memory.get u.mem x = Memory.get s.mem x)

/-- The bytes of a load's size extended to its registers, as one number (R243). -/
def extended (size : LdSize) (v : Nat) : Nat :=
  match size with
  | .s8 => ((BitVec.ofNat 8 v).signExtend 32).toNat
  | .s16 => ((BitVec.ofNat 16 v).signExtend 32).toNat
  | .z8 | .z16 | .b32 | .b64 | .b128 | .xa => v

/-- The new value of an atomic operation of w bits (R244, R261). -/
def atomsSays {w : Nat} (op : AtomsOp) (u : Bool) (old b c : BitVec w) : BitVec w :=
  match op with
  | .add => old + b
  | .min => if u then (if old.toNat ≤ b.toNat then old else b) else (if old.toInt ≤ b.toInt then old else b)
  | .max => if u then (if old.toNat ≤ b.toNat then b else old) else (if old.toInt ≤ b.toInt then b else old)
  | .and => old &&& b
  | .or => old ||| b
  | .xor => old ^^^ b
  | .exch => b
  | .cas => if old = c then b else old
  | .fadd => BitVec.ofNat w (atomSum .f32 old.toNat b.toNat).1

end Sys2Proof.Claims

/-- R231, R233, R234, R243: LDS reads every lane's bytes at issue, extended, for its destination; STS writes them, the
highest lane's standing; each then acts on granules, buffers and regions by its standing (`State.applyStanding`). A lane
out of alignment or of its view stops the instruction, the lowest first, and a bit that is not as a blocking form needs
makes it wait. What an access does (R233, R237, R240) by its standing: it leaves the bits of its granules as named, moves an EMPTY
buffer that it writes to FILLING and a FULL one that it reads to DRAINING, with the queries armed for that state fired, and
marks the granules of a region that it writes dirty; memory's bytes are as before. Where no buffer and no region holds an
access, only bits change. -/
def Obligations.ScratchLoadsAndStores : Prop :=
  let fine := fun (s : State) (g : Group) (ls : List Nat) (lvl : Lvl) (k : Standing) (n : Nat) (at_ : Nat → Nat) =>
    ∀ l ∈ ls, at_ l % n = 0 ∧ inView s (s.team g.team) lvl false n (at_ l) ∧ canAct s (s.team g.team) lvl k n (at_ l)
  (∀ o size fe lvl off, Does (.lds o size fe lvl off)
    (fun s _ g ls => fine s g ls lvl (ldStanding fe) (loadBytes size) (scratchAt o.a off g) ∧ flagRoom g o)
    (fun s id g ls u => ∃ f m res, (Instr.lds o size fe lvl off).form = some f
      ∧ m = s.applyStanding g.team lvl (ldStanding fe)
          (ls.map (fun l => ⟨l, scratchAt o.a off g l, loadBytes size⟩))
      ∧ Started m u id { opOf g id .value with flag := g.slotFlag o, dest := o.d, destN := loadRegs size, res := res }
          (formDests f)
      ∧ res.map LaneRes.lane = ls
      ∧ ∀ r ∈ res, leNat r.bytes = extended size
          (s.nat (s.viewKey (s.team g.team) lvl (scratchAt o.a off g r.lane)) (loadBytes size))))
  ∧ (∀ o size fe lvl off, Does (.sts o size fe lvl off)
    (fun s _ g ls => fine s g ls lvl (stStanding fe) (storeBytes size) (scratchAt o.a off g)
      ∧ ((s.team g.team).copyOf = none ∨ lvl ≠ .die))
    (fun s id g ls u => ∃ m, u = m.applyStanding g.team lvl (stStanding fe)
        (ls.map (fun l => ⟨l, scratchAt o.a off g l, storeBytes size⟩))
      ∧ m = { s with mem := m.mem, poison := m.poison, teams := m.teams, groups := m.groups }
      ∧ (∀ t, m.team t = { s.team t with wrote := (m.team t).wrote })
      ∧ (∀ j, m.group j = { s.group j with stores := (m.group j).stores }) ∧ (∀ j, j ≠ id → m.group j = s.group j)
      ∧ storesBytes s m ls (storeBytes size)
          (fun l => s.viewKey (s.team g.team) lvl (scratchAt o.a off g l))
          (fun l => leBytes (storeBytes size) (wordsNat (g.valueRun o.b ((storeBytes size + 3) / 4) l)))))
  ∧ (∀ o size fe lvl off l, Raises (.lds o size fe lvl off)
    (fun _ g ls => ls.find? (fun l => scratchAt o.a off g l % loadBytes size != 0) = some l)
    .align (fun _ _ => BitVec.ofNat 32 (0x36 + 256 * l)))
  ∧ (∀ o size fe lvl off l, Raises (.sts o size fe lvl off)
    (fun _ g ls => ls.find? (fun l => scratchAt o.a off g l % storeBytes size != 0) = some l)
    .align (fun _ _ => BitVec.ofNat 32 (0x36 + 256 * l)))
  ∧ (∀ o size fe lvl off l k, Raises (.lds o size fe lvl off)
    (fun s g ls => (∀ l ∈ ls, scratchAt o.a off g l % loadBytes size = 0)
      ∧ ls.find? (fun l => !(s.view (s.team g.team) lvl (scratchAt o.a off g l) (loadBytes size)).isOk) = some l
      ∧ s.view (s.team g.team) lvl (scratchAt o.a off g l) (loadBytes size) = .error k)
    .scratchRange (fun _ _ => BitVec.ofNat 32 (k + 256 * l)))
  ∧ (∀ o size fe lvl off l k, Raises (.sts o size fe lvl off)
    (fun s g ls => (∀ l ∈ ls, scratchAt o.a off g l % storeBytes size = 0)
      ∧ ls.find? (fun l => !(s.view (s.team g.team) lvl (scratchAt o.a off g l) (storeBytes size)).isOk) = some l
      ∧ s.view (s.team g.team) lvl (scratchAt o.a off g l) (storeBytes size) = .error k)
    .scratchRange (fun _ _ => BitVec.ofNat 32 (k + 256 * l)))
  ∧ (∀ o size fe lvl off l j b, Raises (.sts o size fe lvl off)
    (fun s g ls => fe ≠ .empty
      ∧ (∀ l ∈ ls, scratchAt o.a off g l % storeBytes size = 0
        ∧ inView s (s.team g.team) lvl false (storeBytes size) (scratchAt o.a off g l)
        ∧ (s.team g.team).regionAt lvl (scratchAt o.a off g l) = none)
      ∧ ls.find? (fun l => ((s.team g.team).bufAt lvl (scratchAt o.a off g l)).any
          (fun x => x.2.state == .full || x.2.state == .draining)) = some l
      ∧ (s.team g.team).bufAt lvl (scratchAt o.a off g l) = some (j, b))
    .bufstate (fun _ _ => BitVec.ofNat 32 (6 + 256 * l + 65536 * j)))
  ∧ (∀ o size fe lvl off l, fe ≠ .plain → Waits (.lds o size fe lvl off)
    (fun s _ g ls => (∀ l ∈ ls, scratchAt o.a off g l % loadBytes size = 0
        ∧ inView s (s.team g.team) lvl false (loadBytes size) (scratchAt o.a off g l)
        ∧ (s.team g.team).regionAt lvl (scratchAt o.a off g l) = none
        ∧ (s.team g.team).bufAt lvl (scratchAt o.a off g l) = none)
      ∧ ls.find? (fun l => !s.isFull (s.viewKey (s.team g.team) lvl (scratchAt o.a off g l))) = some l)
    (fun s g _ => ⟨.granule (s.viewKey (s.team g.team) lvl (scratchAt o.a off g l) / 16 * 16) true, false, false⟩))
  ∧ (∀ (s : State) (t : Nat) (lvl : Lvl) (k : Standing) (accs : List Acc),
    (∀ x ∈ accs, (s.team t).bufAt lvl x.a = none ∧ (s.team t).regionAt lvl x.a = none) →
    let u := s.applyStanding t lvl k accs
    u = { s with full := u.full }
      ∧ ∀ key, u.full.contains key = match k.leaves with
        | some b => if ∃ x ∈ accs, s.viewKey (s.team t) lvl x.a / 16 * 16 = key then b else s.full.contains key
        | none => s.full.contains key)
  ∧ (∀ (s : State) (t : Nat) (lvl : Lvl) (a j : Nat) (write : Bool) (b : Buf), (s.team t).bufAt lvl a = some (j, b) →
    (b.state = .empty → write = true → s.touchBuf t lvl a write = s.enterBuf t j b .filling)
    ∧ (b.state = .full → write = false → s.touchBuf t lvl a write = s.enterBuf t j b .draining)
    ∧ ((b.state = .filling ∨ b.state = .draining) → s.touchBuf t lvl a write = s))
  ∧ (∀ (s : State) (t j : Nat) (b : Buf) (st : BufState) (x : Team), Tab.get? s.teams t = some x →
    (∀ q ∈ b.queries, q.state ≠ st) →
    let u := s.enterBuf t j b st
    u = { s with teams := u.teams } ∧ (∀ k, k ≠ t → Tab.get? u.teams k = Tab.get? s.teams k)
      ∧ u.team t = { x with bufs := (u.team t).bufs }
      ∧ (∀ k, k ≠ j → Tab.get? (u.team t).bufs k = Tab.get? x.bufs k)
      ∧ Tab.get? (u.team t).bufs j = some { b with
          state := st, fills := if st = .empty then 0 else b.fills
          drains := if st = .empty ∨ st = .full then 0 else b.drains })
  ∧ (∀ (s : State) (t : Nat) (lvl : Lvl) (a n j : Nat) (r : Region) (x : Team), Tab.get? s.teams t = some x →
    x.regionAt lvl a = some (j, r) →
    let u := s.dirtyRegion t lvl a n
    u = { s with teams := u.teams } ∧ (∀ k, k ≠ t → Tab.get? u.teams k = Tab.get? s.teams k)
      ∧ u.team t = { x with regions := (u.team t).regions }
      ∧ (∀ k, k ≠ j → Tab.get? (u.team t).regions k = Tab.get? x.regions k)
      ∧ ∃ r', Tab.get? (u.team t).regions j = some r' ∧ r' = { r with dirty := r'.dirty, filled := r'.filled }
        ∧ (∀ i, i ∈ r'.dirty ↔ i ∈ r.dirty ∨ i ∈ r.granules a n)
        ∧ (∀ i, i ∈ r'.filled ↔ i ∈ r.filled ∨ ∃ k ∈ r.granules a n, k / 8 = i))


/-- R244, R245, R249: ATOMS reads, combines and writes lane after lane, each seeing the lanes below it, waits at level 1
and above until its group's clock is the least, and returns the old values; FESET leaves the bits of its granules as named,
and FEQRY reports thirty-two of them. -/
def Obligations.ScratchAtomicsAndBits : Prop :=
  (∀ o op u w64 rtn lvl,
    let n := if w64 then 8 else 4
    let at_ := fun (g : Group) (l : Nat) => scratchAt o.a 0 g l
    let key := fun (s : State) (g : Group) (l : Nat) => s.viewKey (s.team g.team) lvl (at_ g l)
    let num := fun (g : Group) (x : Operand) (l : Nat) =>
      BitVec.ofNat (8 * n) (if w64 then (g.value64 x l).toNat else (g.value x l).toNat)
    let after := fun (s : State) (g : Group) (ls : List Nat) (l : Nat) =>
      (ls.filter (fun k => key s g k == key s g l)).foldl
        (fun v k => atomsSays op u v (num g o.b k) (num g o.c k)) (BitVec.ofNat (8 * n) (s.nat (key s g l) n))
    let before := fun (s : State) (g : Group) (ls : List Nat) (l : Nat) => after s g (ls.filter (fun k => decide (k < l))) l
    let fine := fun (s : State) (g : Group) (ls : List Nat) =>
      (∀ l ∈ ls, at_ g l % n = 0 ∧ inView s (s.team g.team) lvl true n (at_ g l)
        ∧ canAct s (s.team g.team) lvl { write := true } n (at_ g l))
      ∧ ((s.team g.team).copyOf = none ∨ lvl ≠ .die) ∧ (op ≠ .fadd ∨ w64 = false)
    Does (.atoms o op u w64 rtn lvl)
      (fun s id g ls => fine s g ls ∧ (g.detlevel = 0 ∨ s.clockLeast id = true) ∧ (rtn = true → flagRoom g o))
      (fun s id g ls v => ∃ f m res, (Instr.atoms o op u w64 rtn lvl).form = some f
        ∧ (if rtn then Started m v id
            { opOf g id .value with flag := g.slotFlag o, dest := o.d, destN := if w64 then 2 else 1, res := res }
            (formDests f) else v = m)
        ∧ res = ls.map (fun l => { lane := l, bytes := leBytes n (before s g ls l).toNat })
        ∧ m.full = s.full
        ∧ (m.group id).fpflags = g.fpflags ||| (if op = .fadd then allFlags (ls.map (fun l =>
            (atomSum .f32 (before s g ls l).toNat (num g o.b l).toNat).2)) else 0)
        ∧ ((∀ x ∈ (s.team g.team).bufs, x.2.queries = []) →
          (∀ l ∈ ls, m.nat (key s g l) n = (after s g ls l).toNat)
            ∧ (∀ x, (∀ l ∈ ls, x < key s g l ∨ key s g l + n ≤ x) → Memory.get m.mem x = Memory.get s.mem x)
            ∧ m = { s with mem := m.mem, poison := m.poison, teams := m.teams, groups := m.groups }
            ∧ (∀ t, m.team t = { s.team t with
                wrote := (m.team t).wrote, bufs := (m.team t).bufs, regions := (m.team t).regions })
            ∧ m.group id = { g with fpflags := (m.group id).fpflags, stores := (m.group id).stores }
            ∧ ∀ j, j ≠ id → m.group j = s.group j))
    ∧ Waits (.atoms o op u w64 rtn lvl)
      (fun s id g ls => fine s g ls ∧ 1 ≤ g.detlevel ∧ s.clockLeast id = false) (fun _ _ _ => ⟨.clock, false, false⟩))
  ∧ (∀ o full lvl,
    let n := fun (g : Group) (ls : List Nat) => (g.value o.b (ls.headD 0)).toNat
    let at_ := fun (g : Group) (l : Nat) => scratchAt o.a 0 g l
    Does (.feset o full lvl)
      (fun s _ g ls => n g ls % 16 = 0 ∧ 16 ≤ n g ls ∧ n g ls ≤ 65536
        ∧ ∀ l ∈ ls, at_ g l % 16 = 0 ∧ inView s (s.team g.team) lvl false (n g ls) (at_ g l)
          ∧ ∀ i, i < n g ls / 16 → (s.team g.team).regionAt lvl (at_ g l + 16 * i) = none)
      (fun s _ g ls u => u = { s with full := u.full }
        ∧ ∀ key, u.full.contains key =
          if ∃ l ∈ ls, ∃ i, i < n g ls / 16 ∧ key = s.viewKey (s.team g.team) lvl (at_ g l + 16 * i) then full
          else s.full.contains key)
    ∧ Raises (.feset o full lvl) (fun _ g ls => n g ls % 16 ≠ 0 ∨ n g ls < 16 ∨ 65536 < n g ls) .align (fun _ _ => 0x32))
  ∧ (∀ o lvl,
    let at_ := fun (g : Group) (l : Nat) => scratchAt o.a 0 g l
    Does (.feqry o lvl)
      (fun s _ g ls => flagRoom g o ∧ ∀ l ∈ ls, at_ g l % 16 = 0
        ∧ inView s (s.team g.team) lvl false 512 (at_ g l)
        ∧ (∀ i, i < 32 → ∀ k r, (s.team g.team).regionAt lvl (at_ g l + 16 * i) = some (k, r) → r.unmap = none)
        ∧ ∀ i, i < 512 → s.poison.contains (wordKey (s.viewKey (s.team g.team) lvl (at_ g l) + i)) = false)
      (fun s id g ls u => ∃ f res, (Instr.feqry o lvl).form = some f
        ∧ Started s u id { opOf g id .value with flag := g.slotFlag o, dest := o.d, destN := 1, res := res } (formDests f)
        ∧ res.map LaneRes.lane = ls
        ∧ ∀ r ∈ res, r.bytes.length = 4 ∧ ∀ i, i < 32 → (leNat r.bytes).testBit i
            = s.isFull (s.viewKey (s.team g.team) lvl (at_ g r.lane + 16 * i))))

/-! ## Buffers, regions and barriers -/

namespace Sys2Proof.Claims

/-- Nothing but one listed team changes, as `p` says. -/
def TeamOnly (s u : State) (t : Nat) (p : Team → Team → Prop) : Prop :=
  u = { s with teams := u.teams } ∧ (∀ k, k ≠ t → Tab.get? u.teams k = Tab.get? s.teams k)
    ∧ ∃ x y, Tab.get? s.teams t = some x ∧ Tab.get? u.teams t = some y ∧ p x y

/-- The group's team is listed. -/
def teamed (s : State) (g : Group) : Prop := Tab.get? s.teams g.team ≠ none

/-- A table has the entry `v` at a key, and its other entries as before. -/
def oneEntry {α : Type} (before after : Tab α) (k : Nat) (v : Option α) : Prop :=
  Tab.get? after k = v ∧ ∀ j, j ≠ k → Tab.get? after j = Tab.get? before j

/-- Four words that declare a buffer well for a slot (R236). -/
structure Declares (s : State) (t : Team) (slot : Nat) (w0 base size w3 : Nat) (lvl : Lvl) : Prop where
  reserved : w0 / 4 % 2 ^ 14 = 0 ∧ w3 / 2 ^ 16 = 0
  level : Lvl.ofCode (w0 % 4) = some lvl
  counts : 0 < w0 / 2 ^ 16 ∧ 0 < w3 % 2 ^ 16
  granules : size % 16 = 0 ∧ 0 < size ∧ base % 16 = 0
  view : ∃ x, s.view t lvl base size = .ok x
  bufs : ∀ x ∈ t.bufs, x.1 ≠ slot → x.2.lvl = lvl → base + size ≤ x.2.base ∨ x.2.base + x.2.size ≤ base
  regions : ∀ x ∈ t.regions, x.2.lvl = lvl → base + size ≤ x.2.off ∨ x.2.off + x.2.size ≤ base

/-- The scalar operand of an instruction that acts once. -/
def onceOf (o : Operand) (g : Group) (ls : List Nat) : Nat := (g.value o (ls.headD 0)).toNat

end Sys2Proof.Claims

/-- R236, R237, R238, R247: the buffer instructions, with the counts that a count event makes, the state it enters with the
queries armed for it fired in order, and the sub-codes of BUFSTATE. -/
def Obligations.DeclaredBuffers : Prop :=
  let buf := fun (s : State) (g : Group) (k : Nat) => Tab.get? (s.team g.team).bufs k
  let info := fun (sub slot : Nat) => BitVec.ofNat 32 (sub + 65536 * slot)
  (∀ o, Does (.bufdec o)
    (fun s _ g ls => teamed s g ∧ onceOf o.a g ls < 64 ∧ (∀ b, buf s g (onceOf o.a g ls) = some b → b.state = .empty)
      ∧ ∃ lvl, Declares s (s.team g.team) (onceOf o.a g ls) (g.valueAt o.b 0 (ls.headD 0)).toNat
        (g.valueAt o.b 1 (ls.headD 0)).toNat (g.valueAt o.b 2 (ls.headD 0)).toNat (g.valueAt o.b 3 (ls.headD 0)).toNat lvl)
    (fun s _ g ls u => TeamOnly s u g.team (fun x y => y = { x with bufs := y.bufs }
      ∧ ∃ b, oneEntry x.bufs y.bufs (onceOf o.a g ls) (some b)
        ∧ some b.lvl = Lvl.ofCode ((g.valueAt o.b 0 (ls.headD 0)).toNat % 4)
        ∧ b = { lvl := b.lvl, base := (g.valueAt o.b 1 (ls.headD 0)).toNat
                size := (g.valueAt o.b 2 (ls.headD 0)).toNat
                maxFills := (g.valueAt o.b 0 (ls.headD 0)).toNat / 2 ^ 16
                maxDrains := (g.valueAt o.b 3 (ls.headD 0)).toNat % 2 ^ 16
                state := .empty, fills := 0, drains := 0, queries := [] })))
  ∧ (∀ o, Raises (.bufdec o) (fun s g ls => 63 < onceOf o.a g ls ∨ ∃ b, buf s g (onceOf o.a g ls) = some b ∧ b.state ≠ .empty)
    .bufstate (fun g ls => info 2 (onceOf o.a g ls % 256)))
  ∧ (∀ o, Does (.bufdecDrop o)
    (fun s _ g ls => teamed s g ∧ ∃ b, buf s g (onceOf o.a g ls) = some b ∧ b.state = .empty)
    (fun s _ g ls u => TeamOnly s u g.team (fun x y => y = { x with bufs := y.bufs }
      ∧ oneEntry x.bufs y.bufs (onceOf o.a g ls) none)))
  ∧ (∀ o b, Does (.bufsetFill o)
    (fun s _ g ls => teamed s g ∧ buf s g (onceOf o.a g ls) = some b ∧ 0 < onceOf o.b g ls ∧ onceOf o.b g ls < 65536
      ∧ (b.state = .empty ∨ b.state = .filling) ∧ b.fills + onceOf o.b g ls ≤ b.maxFills)
    (fun s _ g ls u =>
      let b1 := { b with fills := b.fills + onceOf o.b g ls }
      (b1.fills = b.maxFills → u = s.enterBuf g.team (onceOf o.a g ls) b1 .full)
      ∧ (b1.fills < b.maxFills → b.state = .empty → u = s.enterBuf g.team (onceOf o.a g ls) b1 .filling)
      ∧ (b1.fills < b.maxFills → b.state = .filling → TeamOnly s u g.team (fun x y => y = { x with bufs := y.bufs }
        ∧ oneEntry x.bufs y.bufs (onceOf o.a g ls) (some b1)))))
  ∧ (∀ o b, Does (.bufsetDrain o)
    (fun s _ g ls => teamed s g ∧ buf s g (onceOf o.a g ls) = some b ∧ 0 < onceOf o.b g ls ∧ onceOf o.b g ls < 65536
      ∧ (b.state = .full ∨ b.state = .draining) ∧ b.drains + onceOf o.b g ls ≤ b.maxDrains)
    (fun s _ g ls u =>
      let b1 := { b with drains := b.drains + onceOf o.b g ls }
      (b1.drains = b.maxDrains → u = s.enterBuf g.team (onceOf o.a g ls) b1 .empty)
      ∧ (b1.drains < b.maxDrains → b.state = .full → u = s.enterBuf g.team (onceOf o.a g ls) b1 .draining)
      ∧ (b1.drains < b.maxDrains → b.state = .draining → TeamOnly s u g.team (fun x y => y = { x with bufs := y.bufs }
        ∧ oneEntry x.bufs y.bufs (onceOf o.a g ls) (some b1)))))
  ∧ (∀ o b, Does (.bufsetReset o) (fun s _ g ls => buf s g (onceOf o.a g ls) = some b)
    (fun s _ g ls u => u = s.enterBuf g.team (onceOf o.a g ls) b .empty))
  ∧ (∀ o b, Raises (.bufsetFill o) (fun s g ls => buf s g (onceOf o.a g ls) = some b
      ∧ (onceOf o.b g ls = 0 ∨ 65535 < onceOf o.b g ls ∨ b.state = .full ∨ b.state = .draining
        ∨ b.maxFills < b.fills + onceOf o.b g ls)) .bufstate (fun g ls => info 4 (onceOf o.a g ls)))
  ∧ (∀ o b, Raises (.bufsetDrain o) (fun s g ls => buf s g (onceOf o.a g ls) = some b
      ∧ (onceOf o.b g ls = 0 ∨ 65535 < onceOf o.b g ls ∨ b.state = .empty ∨ b.state = .filling
        ∨ b.maxDrains < b.drains + onceOf o.b g ls)) .bufstate (fun g ls => info 4 (onceOf o.a g ls)))
  ∧ (∀ o st nb b, Does (.bufqry o st nb)
    (fun s _ g ls => teamed s g ∧ buf s g (onceOf o.a g ls) = some b ∧ (b.state = st ∨ b.queries.length < 4))
    (fun s id g ls u => (b.state = st → u = s.engineArrive id g.slotPc nb.toNat)
      ∧ (b.state ≠ st → TeamOnly s u g.team (fun x y => y = { x with bufs := y.bufs }
        ∧ oneEntry x.bufs y.bufs (onceOf o.a g ls)
          (some { b with queries := b.queries ++ [⟨st, nb.toNat, id, g.slotPc⟩] })))))
  ∧ (∀ o st nb b, Raises (.bufqry o st nb)
    (fun s g ls => buf s g (onceOf o.a g ls) = some b ∧ b.state ≠ st ∧ 4 ≤ b.queries.length)
    .bufstate (fun g ls => info 5 (onceOf o.a g ls)))
  ∧ (∀ (s : State) (t j : Nat) (b : Buf) (st : BufState), s.enterBuf t j b st
    = (b.queries.filter (fun q => q.state == st)).foldl (fun s q => s.engineArrive q.group q.pc q.nb)
        (s.enterBuf t j { b with queries := b.queries.filter (fun q => q.state != st) } st))

/-- R239, R240, R248: MAPR binds a range with every line UNFILLED and no granule dirty; FLUSHR and UNMAPR start the
write-back of every dirty granule under one operation counted in ct, and one without a dirty granule completes at once. -/
def Obligations.MappedRegions : Prop :=
  let region := fun (s : State) (g : Group) (k : BitVec 3) => Tab.get? (s.team g.team).regions k.toNat
  let off := fun (o : Slot) (g : Group) (ls : List Nat) => onceOf o.a g ls
  let va := fun (o : Slot) (g : Group) (ls : List Nat) => (g.value64 o.b (ls.headD 0)).toNat
  let size := fun (o : Slot) (g : Group) (ls : List Nat) => onceOf o.c g ls
  let paged := fun (o : Slot) (g : Group) (ls : List Nat) =>
    off o g ls % 4096 = 0 ∧ va o g ls % 4096 = 0 ∧ size o g ls % 4096 = 0 ∧ size o g ls ≠ 0
  let clear := fun (o : Slot) (lvl : Lvl) (k : BitVec 3) (s : State) (g : Group) (ls : List Nat) =>
    region s g k = none
      ∧ (∀ x ∈ (s.team g.team).bufs, x.2.lvl = lvl →
          off o g ls + size o g ls ≤ x.2.base ∨ x.2.base + x.2.size ≤ off o g ls)
      ∧ (∀ x ∈ (s.team g.team).regions, x.2.lvl = lvl →
          off o g ls + size o g ls ≤ x.2.off ∨ x.2.off + x.2.size ≤ off o g ls)
  let started := fun (s : State) (id : Nat) (g : Group) (k : BitVec 3) (r : Region) (unmap : Bool) (u : State) =>
    Started { s with teams := u.teams } u id { opOf g id .writeBack with counter := some 1 } []
      ∧ (∀ j, j ≠ g.team → Tab.get? u.teams j = Tab.get? s.teams j)
      ∧ u.team g.team = { s.team g.team with wrote := true, regions := (u.team g.team).regions }
      ∧ oneEntry (s.team g.team).regions (u.team g.team).regions k.toNat
        (some { r with wb := r.wb ++ r.dirty.map (fun i => (i, s.fresh)), dirty := []
                       unmap := if unmap then some s.fresh else none })
  (∀ o lvl k, Does (.mapr o lvl k)
    (fun s _ g ls => teamed s g ∧ paged o g ls ∧ (∃ x, s.view (s.team g.team) lvl (off o g ls) (size o g ls) = .ok x)
      ∧ va o g ls < 2 ^ 54 ∧ clear o lvl k s g ls)
    (fun s id g ls u => TeamOnly s u g.team (fun x y => y = { x with regions := y.regions }
      ∧ oneEntry x.regions y.regions k.toNat (some { lvl := lvl, off := off o g ls, va := va o g ls, size := size o g ls
                                                     pc := g.slotPc, group := id, filled := [], dirty := [], wb := []
                                                     unmap := none, want := [] }))))
  ∧ (∀ o lvl k, Raises (.mapr o lvl k) (fun _ g ls => ¬paged o g ls) .align (fun _ _ => 0x31))
  ∧ (∀ o lvl k, Raises (.mapr o lvl k) (fun s g ls => paged o g ls
      ∧ (∃ x, s.view (s.team g.team) lvl (off o g ls) (size o g ls) = .ok x) ∧ 2 ^ 54 ≤ va o g ls) .prot (fun _ _ => 5))
  ∧ (∀ o lvl k, Raises (.mapr o lvl k) (fun s g ls => paged o g ls
      ∧ (∃ x, s.view (s.team g.team) lvl (off o g ls) (size o g ls) = .ok x) ∧ va o g ls < 2 ^ 54
      ∧ ¬clear o lvl k s g ls) .bufstate (fun _ _ => 7))
  ∧ (∀ o k r, Does (.flushr o k) (fun s _ g _ => teamed s g ∧ region s g k = some r ∧ r.unmap = none ∧ counterRoom g 1
      ∧ r.dirty ≠ []) (fun s id g _ u => started s id g k r false u))
  ∧ (∀ o k r, Does (.flushr o k) (fun s _ g _ => teamed s g ∧ region s g k = some r ∧ r.unmap = none ∧ counterRoom g 1
      ∧ r.dirty = [] ∧ (∀ w ∈ r.wb, w.2 ≠ s.fresh))
    (fun s id g _ u => u = { s with teams := u.teams, groups := u.groups, ops := u.ops, fresh := s.fresh + 1 }
      ∧ Tab.get? u.ops s.fresh = none ∧ (∀ j, j ≠ s.fresh → Tab.get? u.ops j = Tab.get? s.ops j)
      ∧ (∀ j, j ≠ id → Tab.get? u.groups j = Tab.get? s.groups j)
      ∧ (∀ j, j ≠ g.team → Tab.get? u.teams j = Tab.get? s.teams j)
      ∧ oneEntry (s.team g.team).regions (u.team g.team).regions k.toNat (some r)))
  ∧ (∀ o k r, Does (.unmapr o k) (fun s _ g _ => teamed s g ∧ region s g k = some r ∧ r.unmap = none ∧ counterRoom g 1
      ∧ (r.dirty ≠ [] ∨ r.wb ≠ [])) (fun s id g _ u => started s id g k r true u))
  ∧ (∀ o k r, Does (.unmapr o k) (fun s _ g _ => teamed s g ∧ region s g k = some r ∧ r.unmap = none ∧ counterRoom g 1
      ∧ r.dirty = [] ∧ r.wb = [])
    (fun s id g _ u => u = { s with teams := u.teams, groups := u.groups, ops := u.ops, fresh := s.fresh + 1 }
      ∧ Tab.get? u.ops s.fresh = none ∧ (∀ j, j ≠ s.fresh → Tab.get? u.ops j = Tab.get? s.ops j)
      ∧ (∀ j, j ≠ id → Tab.get? u.groups j = Tab.get? s.groups j)
      ∧ (∀ j, j ≠ g.team → Tab.get? u.teams j = Tab.get? s.teams j)
      ∧ oneEntry (s.team g.team).regions (u.team g.team).regions k.toNat none))
  ∧ (∀ o k r, Waits (.flushr o k) (fun s _ g _ => region s g k = some r ∧ r.unmap.isSome = true)
    (fun _ _ _ => ⟨.region, false, false⟩))
  ∧ (∀ o k r, Waits (.unmapr o k) (fun s _ g _ => region s g k = some r ∧ r.unmap.isSome = true)
    (fun _ _ _ => ⟨.region, false, false⟩))
  ∧ (∀ o k, Raises (.flushr o k) (fun s g _ => region s g k = none) .bufstate (fun _ _ => 7))
  ∧ (∀ o k, Raises (.unmapr o k) (fun s g _ => region s g k = none) .bufstate (fun _ _ => 7))

namespace Sys2Proof.Claims

/-- What an arrival of `k` makes of a barrier (R367, R368). -/
def arrived (b : Bar) (k : Nat) (drop : Bool) : Bar :=
  let n := if drop then b.nextexp - k else b.nextexp
  if k < b.pending then { b with pending := b.pending - k, nextexp := n }
  else { b with phase := b.phase + 1, expect := n, pending := n, nextexp := n }

/-- An arrival that R367 refuses, with its sub-code. -/
def overArrival (b : Bar) (k : Nat) : Option Nat :=
  if k = 0 ∨ 65535 < k then some 2 else if b.pending < k then some 1 else none

/-- A handle names a held barrier object of a group's context (R371). -/
def namesObj (s : State) (g : Group) (h : Word) : Prop :=
  h.toNat / 1024 % 32 = 0 ∧ (s.barObj (handleEntry h)).held = true
    ∧ (s.barObj (handleEntry h)).gen = h.toNat / 65536 ∧ (s.barObj (handleEntry h)).part = g.part
    ∧ (s.barObj (handleEntry h)).ctx = g.ctx

/-- The lowest free entry of a die's table of barrier objects, if one is free (R378). -/
def lowestFree (s : State) (die : Nat) (e : Option Nat) : Prop :=
  match e with
  | none => ∀ i, i < 1024 → (s.barObj (1024 * die + i)).held = true
  | some e => e / 1024 = die ∧ (s.barObj e).held = false ∧ ∀ i, i < e % 1024 → (s.barObj (1024 * die + i)).held = true

/-- A phase of a barrier is complete where the phase now is one to 2^31 - 1 ahead of it (R366). -/
def past (b : Bar) (p : Word) : Prop := 1 ≤ (b.phase - p).toNat ∧ (b.phase - p).toNat < 2 ^ 31

end Sys2Proof.Claims

/-- R365 to R381: the fence and the barrier instructions: a fence's gate, the objects that BARINIT takes and BARREL frees,
arrivals with their records, waits, and what is refused. -/
def Obligations.BarriersAndFences : Prop :=
  let handle := fun (o : Slot) (g : Group) (ls : List Nat) => g.value o.a (ls.headD 0)
  let nbOf := fun (o : Slot) (s : State) (g : Group) (ls : List Nat) => (s.team g.team).nbar (onceOf o.a g ls)
  let objOf := fun (o : Slot) (s : State) (g : Group) (ls : List Nat) => (s.barObj (handleEntry (handle o g ls))).bar
  let lastObj := fun (g : Group) (h : Word) => (g.objArr.find? (fun x => x.1 == h)).map Prod.snd
  let arrivesNb := fun (o : Slot) (drop : Bool) (s : State) (id : Nat) (g : Group) (ls : List Nat) (u : State) =>
    let m := (s.modTeam g.team (fun x => x.putNbar (onceOf o.a g ls) (arrived (nbOf o s g ls) (onceOf o.b g ls) drop))).wakeStream
      g.team
    u = m.putGroup id { g with nbarArr := Tab.put g.nbarArr (onceOf o.a g ls) (nbOf o s g ls).phase }
  let mayArriveNb := fun (o : Slot) (s : State) (id : Nat) (g : Group) (ls : List Nat) =>
    teamed s g ∧ onceOf o.a g ls < 16 ∧ s.releaseWrites id .team = [] ∧ overArrival (nbOf o s g ls) (onceOf o.b g ls) = none
  let arrivesObj := fun (o : Slot) (drop : Bool) (s : State) (id : Nat) (g : Group) (ls : List Nat) (u : State) =>
    u = { s with teams := u.teams, groups := u.groups, barObjs := u.barObjs }
      ∧ (∀ t, u.team t = { s.team t with wrote := (s.team t).wrote || ((Tab.get? s.teams t).isSome && t == g.team) })
      ∧ (∀ e, u.barObj e = if e = handleEntry (handle o g ls)
          then { s.barObj e with bar := arrived (s.barObj e).bar (onceOf o.b g ls) drop } else s.barObj e)
      ∧ (∀ j, j ≠ id → Tab.get? u.groups j = Tab.get? s.groups j)
      ∧ u.group id = { g with objArr := (u.group id).objArr } ∧ (u.group id).objArr.length ≤ 4
      ∧ (u.group id).objArr.getLast? = some (handle o g ls, (objOf o s g ls).phase)
  let mayArriveObj := fun (o : Slot) (s : State) (id : Nat) (g : Group) (ls : List Nat) =>
    g.detlevel = 0 ∧ namesObj s g (handle o g ls) ∧ s.releaseWrites id (objOf o s g ls).scope = []
      ∧ overArrival (objOf o s g ls) (onceOf o.b g ls) = none
  (∀ o ord scope, Does (.fence o ord scope) (fun _ _ _ _ => True) (fun s id g _ u =>
    ∃ gs, u = s.putGroup id { g with gates := gs }
      ∧ ∀ op, (isAccessOp op = true ∨ op = 9) → ∀ n, n ∈ s.gate { g with gates := gs } op ↔ n ∈ s.gate g op
        ∨ ((Tab.get? s.ops n).isSome = true ∧ match ord with
          | .rlx => False
          | .acq => n ∈ s.fenceLoads id
          | .rel => isReadOp op = false ∧ (n ∈ s.fenceLoads id ∨ n ∈ s.fenceWrites id scope)
          | .acqrel => n ∈ s.fenceLoads id ∨ n ∈ s.fenceWrites id scope)))
  ∧ (∀ o scope clus e, Does (.barinit o scope clus)
    (fun s _ g ls => let lvl : Lvl := if clus then .clus else .core
      g.detlevel = 0 ∧ onceOf o.b g ls % 16 = 0 ∧ 0 < onceOf o.a g ls ∧ onceOf o.a g ls < 65536
        ∧ inView s (s.team g.team) lvl false 16 (onceOf o.b g ls)
        ∧ canAct s (s.team g.team) lvl (stStanding .fill) 16 (onceOf o.b g ls) ∧ lowestFree s (coreDie g.core) e)
    (fun s id g ls u => let lvl : Lvl := if clus then .clus else .core
      let h := match e with
        | none => 0
        | some e => BitVec.ofNat 32 (e % 1024 + 32768 * (e / 1024) + 65536 * (s.barObj e).gen)
      ∃ m : State, (∀ k, m.barObj k = if some k = e then { s.barObj k with
            held := true, part := g.part, ctx := g.ctx, bar := ⟨0, onceOf o.a g ls, onceOf o.a g ls, onceOf o.a g ls, scope⟩ }
          else s.barObj k)
        ∧ m = { s with barObjs := m.barObjs }
        ∧ u = (m.scratchWrite id lvl (onceOf o.b g ls) (leBytes 16 h.toNat)).applyStanding g.team lvl (stStanding .fill)
            [⟨0, onceOf o.b g ls, 16⟩]))
  ∧ (∀ o drop, Does (.bararr o false drop false) (mayArriveNb o) (arrivesNb o drop))
  ∧ (∀ o drop, Does (.bararr o true drop false) (mayArriveObj o) (arrivesObj o drop))
  ∧ (∀ o drop s id g c f, Issues (.bararr o false drop true) s id g c f → let ls := g.guarded f.slot
    mayArriveNb o s id g ls → ∃ u, arrivesNb o drop s id g ls u
      ∧ (past ((u.team g.team).nbar (onceOf o.a g ls)) (nbOf o s g ls).phase →
        ∃ t, exec (.bararr o false drop true) s = .next t ∧ SlotOver u t id c)
      ∧ (¬past ((u.team g.team).nbar (onceOf o.a g ls)) (nbOf o s g ls).phase →
        exec (.bararr o false drop true) s
          = .next (u.beginWait id ⟨.nbar (onceOf o.a g ls) (nbOf o s g ls).phase, true, false⟩)))
  ∧ (∀ o drop s id g c f, Issues (.bararr o true drop true) s id g c f → let ls := g.guarded f.slot
    mayArriveObj o s id g ls → ∃ u, arrivesObj o drop s id g ls u
      ∧ ((arrived (objOf o s g ls) (onceOf o.b g ls) drop).phase ≠ (objOf o s g ls).phase →
        ∃ t, exec (.bararr o true drop true) s = .next t ∧ SlotOver u t id c)
      ∧ ((arrived (objOf o s g ls) (onceOf o.b g ls) drop).phase = (objOf o s g ls).phase →
        exec (.bararr o true drop true) s
          = .next (u.beginWait id ⟨.obj (handle o g ls) (objOf o s g ls).phase, true, false⟩)))
  ∧ (∀ o drop wait, Raises (.bararr o false drop wait) (fun _ g ls => 15 < onceOf o.a g ls)
    .barStale (fun g ls => BitVec.ofNat 32 (4 + 256 * (onceOf o.a g ls % 256))))
  ∧ (∀ o drop wait k p, Raises (.bararr o false drop wait) (fun s g ls => onceOf o.a g ls < 16
      ∧ (∀ x ∈ s.ops, x.2.body.isGlobalWrite = false) ∧ overArrival (nbOf o s g ls) (onceOf o.b g ls) = some k
      ∧ (nbOf o s g ls).pending = p) .barOver (fun g ls => BitVec.ofNat 32 (k + 256 * onceOf o.a g ls + 65536 * p)))
  ∧ (∀ o drop wait k p, Raises (.bararr o true drop wait) (fun s g ls => g.detlevel = 0 ∧ namesObj s g (handle o g ls)
      ∧ (∀ x ∈ s.ops, x.2.body.isGlobalWrite = false) ∧ overArrival (objOf o s g ls) (onceOf o.b g ls) = some k
      ∧ (objOf o s g ls).pending = p) .barOver (fun _ _ => BitVec.ofNat 32 (k + 0xFF00 + 65536 * p)))
  ∧ (∀ o p, Does (.barwait o false false) (fun s _ g ls => onceOf o.a g ls < 16 ∧ Tab.get? g.nbarArr (onceOf o.a g ls) = some p
      ∧ ((nbOf o s g ls).expect = 0 ∨ past (nbOf o s g ls) p)) (fun s _ _ _ u => u = s))
  ∧ (∀ o, Does (.barwait o false true) (fun s _ g ls => onceOf o.a g ls < 16 ∧ (nbOf o s g ls).expect = 0)
    (fun s _ _ _ u => u = s))
  ∧ (∀ o p, Does (.barwait o true false) (fun s _ g ls => g.detlevel = 0 ∧ namesObj s g (handle o g ls)
      ∧ lastObj g (handle o g ls) = some p ∧ ((objOf o s g ls).expect = 0 ∨ past (objOf o s g ls) p))
    (fun s _ _ _ u => u = s))
  ∧ (∀ o, Does (.barwait o true true) (fun s _ g ls => g.detlevel = 0 ∧ namesObj s g (handle o g ls)
      ∧ (objOf o s g ls).expect = 0) (fun s _ _ _ u => u = s))
  ∧ (∀ o p, Waits (.barwait o false false) (fun s _ g ls => onceOf o.a g ls < 16
      ∧ Tab.get? g.nbarArr (onceOf o.a g ls) = some p ∧ (nbOf o s g ls).expect ≠ 0 ∧ ¬past (nbOf o s g ls) p)
    (fun _ g ls => ⟨.nbar (onceOf o.a g ls) p, true, false⟩))
  ∧ (∀ o, Waits (.barwait o false true) (fun s _ g ls => onceOf o.a g ls < 16 ∧ (nbOf o s g ls).expect ≠ 0)
    (fun s g ls => ⟨.nbar (onceOf o.a g ls) (nbOf o s g ls).phase, true, false⟩))
  ∧ (∀ o p, Waits (.barwait o true false) (fun s _ g ls => g.detlevel = 0 ∧ namesObj s g (handle o g ls)
      ∧ lastObj g (handle o g ls) = some p ∧ (objOf o s g ls).expect ≠ 0 ∧ ¬past (objOf o s g ls) p)
    (fun _ g ls => ⟨.obj (handle o g ls) p, true, false⟩))
  ∧ (∀ o, Waits (.barwait o true true) (fun s _ g ls => g.detlevel = 0 ∧ namesObj s g (handle o g ls)
      ∧ (objOf o s g ls).expect ≠ 0) (fun s g ls => ⟨.obj (handle o g ls) (objOf o s g ls).phase, true, false⟩))
  ∧ (∀ o, Raises (.barwait o false false) (fun _ g ls => onceOf o.a g ls < 16 ∧ Tab.get? g.nbarArr (onceOf o.a g ls) = none)
    .barStale (fun g ls => BitVec.ofNat 32 (5 + 256 * onceOf o.a g ls)))
  ∧ (∀ o scope clus, Raises (.barinit o scope clus) (fun _ g _ => 1 ≤ g.detlevel) .detViol (fun _ _ => 0x341))
  ∧ (∀ o drop wait, Raises (.bararr o true drop wait) (fun _ g _ => 1 ≤ g.detlevel) .detViol (fun _ _ => 0x342))
  ∧ (∀ o cur, Raises (.barwait o true cur) (fun _ g _ => 1 ≤ g.detlevel) .detViol (fun _ _ => 0x343))
  ∧ (∀ o, Raises (.barrel o) (fun _ g _ => 1 ≤ g.detlevel) .detViol (fun _ _ => 0x344))
  ∧ (∀ o j x, Does (.barrel o) (fun s _ g ls => g.detlevel = 0 ∧ namesObj s g (handle o g ls)
      ∧ Tab.get? s.groups j = some x ∧ x.waitsOn (handle o g ls) = true)
    (fun _ _ _ _ u => (u.group j).stopped = true ∧ (u.group j).wait = none
      ∧ (u.group j).trapPc = BitVec.ofNat 32 x.slotPc ∧ (u.group j).trapCause = 0x0B ∧ (u.group j).trapInfo = 0xFF03))
  ∧ (∀ o, Does (.barrel o) (fun s _ g ls => g.detlevel = 0 ∧ namesObj s g (handle o g ls)
      ∧ ∀ x ∈ s.groups, x.2.waitsOn (handle o g ls) = false)
    (fun s _ g ls u => u = { s with barObjs := u.barObjs } ∧ ∀ e, u.barObj e = if e = handleEntry (handle o g ls)
      then { gen := if (s.barObj e).gen = 0xFFFF then 1 else (s.barObj e).gen + 1, held := false, part := 0, ctx := 0
             bar := {} } else s.barObj e))
  ∧ (∀ o, Does (.nbarSet o) (fun s _ g ls => teamed s g ∧ onceOf o.a g ls < 16 ∧ 0 < onceOf o.b g ls ∧ onceOf o.b g ls < 65536
      ∧ (onceOf o.b g ls = (nbOf o s g ls).expect ∨ (nbOf o s g ls).pending = (nbOf o s g ls).expect))
    (fun s _ g ls u => (onceOf o.b g ls = (nbOf o s g ls).expect → u = s)
      ∧ (onceOf o.b g ls ≠ (nbOf o s g ls).expect → TeamOnly s u g.team (fun x y => y = { x with nbars := y.nbars }
        ∧ ∀ k, y.nbar k = if k = onceOf o.a g ls
          then { x.nbar k with expect := onceOf o.b g ls, pending := onceOf o.b g ls, nextexp := onceOf o.b g ls }
          else x.nbar k))))
  ∧ (∀ o, Raises (.nbarSet o) (fun _ g ls => 15 < onceOf o.a g ls)
    .barStale (fun g ls => BitVec.ofNat 32 (4 + 256 * (onceOf o.a g ls % 256))))

/-! ## Global memory -/

namespace Sys2Proof.Claims

/-- Where a lane's access goes, if its checks pass (R223): its access of a line or of a window, and whether its page is
strongly ordered. -/
def reached (s : State) (g : Group) (k : Ask) (w : Want) : Option (LaneAcc × Bool) :=
  match s.access g.unit g.part g.ctx w.va k.write k.soOk k.hostOk with
  | .ok (.mem x) so | .ok (.host x) so => some (⟨w.lane, w.va, x, k.n, .memory, w.data, w.cmp⟩, so)
  | .ok (.reg x) so => some (⟨w.lane, w.va, x, k.n, .register, w.data, w.cmp⟩, so)
  | .ok (.kick x) so => some (⟨w.lane, w.va, x, k.n, .kick, w.data, w.cmp⟩, so)
  | .ok .nothing _ | .bad _ _ | .miss _ => none

/-- Line actions of a list of lanes (R220, R250): the lanes grouped by line in their order, but each strongly ordered access
by itself; none has been performed. -/
structure Grouped (lines : List LineAct) (ls : List Nat) (x : Nat → LaneAcc) (so : Nat → Bool) : Prop where
  every : ∀ l ∈ ls, ∃ la ∈ lines, x l ∈ la.accs ∧ la.so = so l
  only : ∀ la ∈ lines, la.done = false ∧ ∃ ks, ks ≠ [] ∧ ks.Sublist ls ∧ la.accs = ks.map x
    ∧ ∀ l ∈ ks, la.so = so l ∧ la.line = (x l).key / 128 * 128
  together : ((lines.filter (fun la => !la.so)).map LineAct.line).Nodup
  alone : ∀ la ∈ lines, la.so = true → la.accs.length = 1

/-- A global-memory operation has been sent (R250, R259, R260): it is listed with its line actions, its flag or cw, its
destinations and what its release waits for; an acquire holds its group's later accesses. -/
structure Sent (s u : State) (id : Nat) (g : Group) (o : Slot) (f : Form) (k : Ask) (ls : List Nat) (x : Nat → LaneAcc)
    (so : Nat → Bool) : Prop where
  rest : u = { s with tlb := u.tlb, teams := u.teams, groups := u.groups, ops := u.ops, fresh := s.fresh + 1 }
  op : ∃ lines, Grouped lines ls x so ∧ u.ops = Tab.put s.ops s.fresh { opOf g id k.body with
    flag := if k.returns then g.slotFlag o else none, counter := if k.returns then none else some 0, dest := o.d
    destN := k.regs, tag := k.tag, pq := k.q, lines := lines
    after := match k.release with
      | some sc => s.releaseOps id sc
      | none => [] }
  teams : ∀ t, u.team t = { s.team t with wrote := (u.team t).wrote }
  others : ∀ j, j ≠ id → Tab.get? u.groups j = Tab.get? s.groups j
  same : u.group id = { g with flags := (u.group id).flags, counters := (u.group id).counters, acq := (u.group id).acq
                               stores := (u.group id).stores
                               pending := g.pending ++ (formDests f).map (fun r => (r, s.fresh)) }
  flag : ∀ y, (u.group id).flagOps y = g.flagOps y ++ if k.returns = true ∧ g.slotFlag o = some y then [s.fresh] else []
  counter : ∀ y, (u.group id).counterOps y
    = g.counterOps y ++ if k.returns = false ∧ y = 0 then [(s.fresh, false)] else []
  acq : ∀ n, n ∈ (u.group id).acq ↔
    if k.acquire then n = s.fresh ∨ n ∈ g.acq ∧ (Tab.get? s.ops n).isSome = true else n ∈ g.acq

/-- Every acting lane is aligned, reaches its place, and the operation has room in its flag or in cw. -/
def mayGo (s : State) (g : Group) (o : Slot) (k : Ask) (want : Group → Nat → Want) (ls : List Nat) : Prop :=
  (k.det = true → g.detlevel = 0)
    ∧ (∀ l ∈ actingLanes o ls, (want g l).va % k.align = 0 ∧ (reached s g k (want g l)).isSome = true)
    ∧ (if k.returns then flagRoom g o else counterRoom g 0)

/-- A global-memory instruction sends its operation; a re-executed copy's write is not sent (R409), and an ATOMX at level 3
holds its group until every action of it is acknowledged (R264). -/
def Sends (i : Instr) (o : Slot) (k : Ask) (want : Group → Nat → Want) (waits : Bool) : Prop :=
  ∀ s id g c f, Issues i s id g c f → let ls := g.guarded f.slot
    mayGo s g o k want ls →
    ((k.write = false ∨ (s.team g.team).copyOf = none) → ∃ u,
      Sent s u id g o f k (actingLanes o ls) (fun l => ((reached s g k (want g l)).getD ({}, false)).1)
        (fun l => ((reached s g k (want g l)).getD ({}, false)).2)
      ∧ ((waits = true ∧ g.detlevel = 3) → exec i s = .next (u.beginWait id ⟨.ops [s.fresh], true, false⟩))
      ∧ (¬(waits = true ∧ g.detlevel = 3) → ∃ t, exec i s = .next t ∧ SlotOver u t id c))
    ∧ (k.write = true → (s.team g.team).copyOf ≠ none → ∃ u t, exec i s = .next t ∧ SlotOver u t id c
      ∧ u = { s with tlb := u.tlb, teams := u.teams, groups := u.groups }
      ∧ (∀ x, u.team x = { s.team x with wrote := (u.team x).wrote })
      ∧ (∀ j, u.group j = { s.group j with stores := (u.group j).stores }))

/-- What stops a global-memory instruction before any lane acts (R223, R224, R226, R257, R258): its determinism level, the
lowest lane out of alignment, the lowest lane that fails its checks, and a recoverable miss, with which the group runs
ahead from a checkpoint, or faults where no request can be made. -/
def Stops (i : Instr) (o : Slot) (k : Ask) (want : Group → Nat → Want) (op : Nat) : Prop :=
  let aligned := fun (g : Group) (ls : List Nat) => ∀ l ∈ actingLanes o ls, (want g l).va % k.align = 0
  let fails := fun (s : State) (g : Group) (ls : List Nat) (l : Nat) =>
    (k.det = true → g.detlevel = 0) ∧ aligned g ls
      ∧ (actingLanes o ls).find? (fun l => (reached s g k (want g l)).isNone) = some l
  let at_ := fun (s : State) (g : Group) (l : Nat) => s.access g.unit g.part g.ctx (want g l).va k.write k.soOk k.hostOk
  (k.det = true → Raises i (fun _ g _ => 1 ≤ g.detlevel) .detViol (fun _ _ => BitVec.ofNat 32 op))
    ∧ (∀ l, Raises i (fun _ g ls => (k.det = true → g.detlevel = 0)
        ∧ (actingLanes o ls).find? (fun l => (want g l).va % k.align != 0) = some l)
      .align (fun _ _ => BitVec.ofNat 32 (0x20 + 256 * l)))
    ∧ (∀ l cause r, Raises i (fun s g ls => fails s g ls l ∧ at_ s g l = .bad cause r)
      cause (fun _ _ => BitVec.ofNat 32 (r + 256 * l)))
    ∧ (∀ s id g c f l p, Issues i s id g c f → fails s g (g.guarded f.slot) l → at_ s g l = .miss p →
      ((s.func g.part).prqBase = 0 →
        exec i s = .next (s.raiseFault id c.slotPc .nomap (BitVec.ofNat 32 (3 + 256 * l)) p.va 0))
      ∧ ((s.func g.part).prqBase ≠ 0 → g.misses.1 = p.page + 1 → 15 ≤ g.misses.2 →
        exec i s = .next (s.raiseFault id c.slotPc .nomap (BitVec.ofNat 32 (4 + 256 * l)) p.va 0))
      ∧ ((s.func g.part).prqBase ≠ 0 → ¬(g.misses.1 = p.page + 1 ∧ 15 ≤ g.misses.2) →
        ∃ t sp, exec i s = .next t ∧ t = { s with groups := t.groups, spec := t.spec, cur := .spec id }
          ∧ t.group id = { g with misses := (t.group id).misses }
          ∧ (∀ j, j ≠ id → Tab.get? t.groups j = Tab.get? s.groups j)
          ∧ Tab.get? t.spec id = some sp ∧ sp.pages = [{ p with lane := l }] ∧ sp.pc = c.slotPc
          ∧ ∀ r, r ∈ sp.poison ↔ r ∈ formDests f ∨ ∃ x ∈ g.pending, x.1 = r))

/-- The address of A plus the signed offset in C, modulo 2^64 (R255). -/
def addressOf (o : Slot) (g : Group) (l : Nat) : Nat :=
  ((g.value64 o.a l).toNat + 2 ^ 64 + (g.value o.c l).toInt.toNat - (-(g.value o.c l).toInt).toNat) % 2 ^ 64

/-- The low bytes of a lane's run of registers, least significant first. -/
def lowBytes (o : Operand) (g : Group) (n l : Nat) : List Byte :=
  (List.range n).map (fun i => BitVec.ofNat 8 ((g.valueAt o (i / 4) l).toNat / 2 ^ (8 * (i % 4))))

end Sys2Proof.Claims

/-- R220, R223 to R226, R250, R254 to R260, R264, R267 to R269: each instruction of global memory sends its operation, with
its sizes, its alignment, the pages that accept it, its order, its flag or cw; and what stops it before. -/
def Obligations.GlobalInstructionsSend : Prop :=
  let both_ := fun (i : Instr) (o : Slot) (k : Ask) (op : Nat) (want : Group → Nat → Want) =>
    Sends i o k want false ∧ Stops i o k want op
  let rel := fun (ord : Ord) (sc : Scope) => if ord = .rel ∨ ord = .acqrel then some sc else none
  let acq := fun (ord : Ord) => decide (ord = .acq ∨ ord = .acqrel)
  let ld : LdSize → Nat × Nat := fun z => match z with
    | .s8 | .z8 => (1, 1) | .s16 | .z16 => (2, 1) | .b32 => (4, 1) | .b64 => (8, 2) | .b128 => (16, 4) | .xa => (40, 10)
  let st : StSize → Nat := fun z => match z with
    | .b8 => 1 | .b16 => 2 | .b32 => 4 | .b64 => 8 | .b128 => 16 | .xa => 40
  let xbytes := fun (ta : XTy) (o : Slot) (g : Group) (l : Nat) =>
    if ta = .xa then lowBytes o.b g 40 l else leBytes 4 (g.addendWord ta o.b l).toNat
  (∀ o z sc tag, both_ (.ld o z sc tag) o
    { n := (ld z).1, align := if z = .xa then 64 else (ld z).1, soOk := decide (z = .b32 ∨ z = .b64), hostOk := true
      det := tag, body := .ld z, returns := true, regs := (ld z).2, tag := tag, acquire := sc.isSome }
    0x180 (fun g l => { lane := l, va := addressOf o g l }))
  ∧ (∀ o z sc, both_ (.st o z sc) o
    { n := st z, align := if z = .xa then 64 else st z, write := true, soOk := decide (z = .b32 ∨ z = .b64)
      hostOk := true, body := .st z, release := sc }
    0x181 (fun g l => { lane := l, va := addressOf o g l, data := lowBytes o.b g (st z) l }))
  ∧ (∀ o op u w64 rtn ord sc tag, both_ (.atom o op u w64 rtn ord sc tag) o
    { n := if w64 then 8 else 4, align := if w64 then 8 else 4, write := true, det := true, body := .atom op u w64
      returns := rtn, regs := if w64 then 2 else 1, tag := tag, release := rel ord sc, acquire := acq ord }
    0x182 (fun g l => { lane := l, va := addressOf o g l, data := lowBytes o.b g (if w64 then 8 else 4) l }))
  ∧ (∀ o w ord sc tag q, let n := match w with | .b32 => 4 | .b64 => 8 | .b128 => 16
    both_ (.atomc o w ord sc tag q) o
    { n := n, align := n, write := true, det := true, body := .atomc w, returns := true, regs := n / 4, tag := tag, q := q
      release := rel ord sc, acquire := acq ord }
    0x183 (fun g l => { lane := l, va := (g.value64 o.a l).toNat, data := lowBytes o.b g n l, cmp := lowBytes o.c g n l }))
  ∧ (∀ o ta ord sc, let k : Ask := { n := 64, align := 64, write := true, body := .atomx ta, release := rel ord sc }
    let want := fun (g : Group) (l : Nat) => { lane := l, va := addressOf o g l, data := xbytes ta o g l : Want }
    Sends (.atomx o ta ord sc) o k want true ∧ Stops (.atomx o ta ord sc) o k want 0x184)
  ∧ (∀ o op u rtn ord sc, both_ (.atomv o op u rtn ord sc) o
    { n := 16, align := 16, write := true, det := true, body := .atomv op u, returns := rtn, regs := 4
      release := rel ord sc, acquire := acq ord }
    0x185 (fun g l => { lane := l, va := addressOf o g l, data := lowBytes o.b g 16 l }))
  ∧ (∀ o w64 sc, both_ (.ldfut o w64 sc) o
    { n := 16, align := 16, body := .ldfut w64, returns := true, regs := if w64 then 2 else 1, acquire := true }
    0x186 (fun g l => { lane := l, va := addressOf o g l }))
  ∧ (∀ o w64 sc, both_ (.stfut o w64 sc) o
    { n := 16, align := 16, write := true, det := true, body := .stfut w64, release := some sc }
    0x187 (fun g l => { lane := l, va := addressOf o g l
                        data := if w64 then lowBytes o.b g 8 l else lowBytes o.b g 4 l ++ leBytes 4 0 }))
  ∧ (∀ o, both_ (.futrst o) o { n := 16, align := 16, write := true, det := true, body := .futrst }
    0x188 (fun g l => { lane := l, va := addressOf o g l }))

namespace Sys2Proof.Claims

/-- Accesses of a line one after another, on the bytes of memory: what each finds, and the bytes after them all. `new` is
what an access of `n` bytes leaves. -/
def inTurn (n : LaneAcc → Nat) (new : LaneAcc → List Byte → List Byte) :
    List LaneAcc → (Nat → Byte) → (Nat → Byte) × List (List Byte)
  | [], m => (m, [])
  | a :: rest, m =>
    let old := (List.range (n a)).map (fun i => m (a.key + i))
    let r := inTurn n new rest
      (fun x => if a.key ≤ x ∧ x < a.key + n a then (new a old).getD (x - a.key) 0 else m x)
    (r.1, old :: r.2)

/-- The new value of ATOM and of a word of ATOMV (R261, R263). -/
def atomSays {w : Nat} (op : AtomOp) (u : Bool) (old b : BitVec w) : BitVec w :=
  let halves := fun (f : Fmt) => BitVec.ofNat w
    ((atomSum f (old.toNat % 2 ^ 16) (b.toNat % 2 ^ 16)).1
      + 2 ^ 16 * (atomSum f (old.toNat / 2 ^ 16) (b.toNat / 2 ^ 16)).1)
  match op with
  | .add => old + b
  | .min => if u then (if old.toNat ≤ b.toNat then old else b) else (if old.toInt ≤ b.toInt then old else b)
  | .max => if u then (if old.toNat ≤ b.toNat then b else old) else (if old.toInt ≤ b.toInt then b else old)
  | .and => old &&& b
  | .or => old ||| b
  | .xor => old ^^^ b
  | .exch => b
  | .fadd => BitVec.ofNat w (atomSum .f32 old.toNat b.toNat).1
  | .hadd2 => halves .f16
  | .badd2 => halves .bf16

/-- The operation of ATOM that the words of ATOMV follow. -/
def wordOp : AtomvOp → AtomOp
  | .add => .add | .min => .min | .max => .max | .fadd => .fadd | .hadd2 => .hadd2 | .badd2 => .badd2

/-- The bytes that an operation's access leaves where it found `old`, on `n` bytes (R259, R261 to R264). -/
def leaves (body : OpBody) (a : LaneAcc) (old : List Byte) : List Byte :=
  match body with
  | .st _ => a.data
  | .atom op u w64 => if w64
      then leBytes 8 (atomSays op u (BitVec.ofNat 64 (leNat old)) (BitVec.ofNat 64 (leNat a.data))).toNat
      else leBytes 4 (atomSays op u (BitVec.ofNat 32 (leNat old)) (BitVec.ofNat 32 (leNat a.data))).toNat
  | .atomc _ => if old = a.cmp then a.data else old
  | .atomv op u => ((List.range 4).map (fun k => leBytes 4 (atomSays (wordOp op) u
      (BitVec.ofNat 32 (leNat old / 2 ^ (32 * k))) (BitVec.ofNat 32 (leNat a.data / 2 ^ (32 * k)))).toNat)).flatten
  | .atomx ta =>
    let r := xaAdd (leNat old % 2 ^ 320)
      (if ta = .xa then xaAddend (leNat a.data) else addendOf ta false (BitVec.ofNat 32 (leNat a.data)))
    leBytes 40 r.1 ++ leBytes 1 (leNat old / 2 ^ 320 % 256 ||| r.2.1.toNat)
  | _ => old

/-- The bytes that an access of an operation spans: ATOMX's 40 of the value and the one of the flags. -/
def spans (body : OpBody) (a : LaneAcc) : Nat :=
  match body with
  | .st _ => a.data.length
  | .atomx _ => 41
  | _ => a.n

/-- An operation with an action of a line that may be performed now: the first one on its line, after all that its release
waits for and all that its group has sent before to that line, and in order among strongly ordered accesses. -/
structure LineReady (s : State) (id line : Nat) (o : Op) (k : Nat) (la : LineAct) : Prop where
  listed : Tab.get? s.ops id = some o
  this : o.lines[k]? = some la
  onLine : la.line = line
  todo : la.done = false
  first : ∀ j lb, j < k → o.lines[j]? = some lb → lb.line ≠ line ∨ lb.done = true
  release : ∀ n ∈ o.after, Tab.get? s.ops n = none
  resident : (s.team (s.group o.group).team).saved = false
  order : ∀ x ∈ s.ops, x.2.group = o.group → x.1 < id → ∀ lb ∈ x.2.lines,
    lb.done = true ∨ lb.line ≠ line ∧ ¬(la.so = true ∧ lb.so = true)
  strong : la.so = true → ∀ j lb, j < k → o.lines[j]? = some lb → lb.so = true → lb.done = true

/-- The operation with its action performed and results added. -/
def performed (o : Op) (k : Nat) (la : LineAct) (rs : List LaneRes) : Op :=
  { o with lines := o.lines.set k { la with done := true }, res := o.res ++ rs }

/-- No key of an action meets an uncorrectable word. -/
def clean (s : State) (body : OpBody) (la : LineAct) : Prop :=
  ∀ a ∈ la.accs, ∀ i, i < spans body a → s.poison.contains (wordKey (a.key + i)) = false

/-- No access of an action meets bytes 0 to 11 of a slot with linked readers. -/
def unlinked (s : State) (body : OpBody) (la : LineAct) : Prop :=
  ∀ r ∈ s.futs, ∀ a ∈ la.accs, ∀ i, i < spans body a → a.key + i < r.slot ∨ r.slot + 12 ≤ a.key + i

/-- The sequence tag of a line (R253). -/
def tagOf (s : State) (line : Nat) : Word := Tab.getD s.tags line 0

end Sys2Proof.Claims

/-- R220, R250, R252, R253, R259 to R264, R269: the actions of a line at its home slice: a load reads, stores and atomics
write lane after lane and raise the line's tag, each lane sees the lanes below it and takes what it found; one that would
write a slot with linked readers writes nothing and raises FUTWRITE; a strongly ordered access reaches its window. -/
def Obligations.LineActions : Prop :=
  (∀ s id line o k la a rest z, LineReady s id line o k la → o.body = .ld z → la.accs = a :: rest → a.reach = .memory →
    clean s o.body la →
    ∃ t, exec (.homeSliceLineAction id line) s = .next t ∧ t = { s with ops := t.ops }
      ∧ (∀ j, j ≠ id → Tab.get? t.ops j = Tab.get? s.ops j)
      ∧ Tab.get? t.ops id = some (performed o k la (la.accs.map (fun a =>
          { lane := a.lane, va := a.va, bytes := loadExtend z (s.bytes a.key a.n), tag := (tagOf s line).toNat }))))
  ∧ (∀ s id line o k la a rest, LineReady s id line o k la → o.body.isGlobalWrite = true →
    (∀ w, o.body ≠ .stfut w) → o.body ≠ .futrst → la.accs = a :: rest → a.reach = .memory →
    clean s o.body la → unlinked s o.body la →
    (∀ a ∈ la.accs, ∀ op u w, o.body = .atom op u w → a.data.length = a.n ∧ a.n = if w then 8 else 4) →
    (∀ a ∈ la.accs, ∀ op u, o.body = .atomv op u → a.n = 16 ∧ a.data.length = 16) →
    (∀ a ∈ la.accs, ∀ w, o.body = .atomc w → a.data.length = a.n) →
    ((∀ ta, o.body ≠ .atomx ta) ∨ (s.group o.group).detlevel < 3) →
    let r := inTurn (spans o.body) (leaves o.body) la.accs (Memory.get s.mem)
    ∃ t, exec (.homeSliceLineAction id line) s = .next t
      ∧ t = { s with ops := t.ops, mem := t.mem, tags := t.tags, poison := t.poison }
      ∧ (∀ x, Memory.get t.mem x = r.1 x)
      ∧ (∀ x, tagOf t x = if x = line ∧ line < 2 ^ 55 then tagOf s x + 1 else tagOf s x)
      ∧ (∀ j, j ≠ id → Tab.get? t.ops j = Tab.get? s.ops j)
      ∧ ∃ rs, Tab.get? t.ops id = some (performed o k la rs)
        ∧ ((∀ z, o.body = .st z → rs = [])
        ∧ ((∃ op u w, o.body = .atom op u w) ∨ (∃ w, o.body = .atomc w) ∨ (∃ op u, o.body = .atomv op u) →
          rs = (la.accs.zip r.2).map (fun x =>
            { lane := x.1.lane, va := x.1.va, bytes := x.2, tag := (tagOf t line).toNat
              ok := (match o.body with | .atomc _ => true | _ => false) && decide (x.2 = x.1.cmp) }))))
  ∧ (∀ s id line o k la a rest slot z, LineReady s id line o k la → o.body = .st z → la.accs = a :: rest →
    a.reach = .memory → clean s o.body la → s.linkedHit (la.keys o.body) = some slot →
    ∃ t, exec (.homeSliceLineAction id line) s = .next t ∧ Tab.get? t.ops id = some (performed o k la [])
      ∧ t.tags = s.tags ∧ t.mem = (s.ctxEvent o.part o.ctx 5 0 (a.va - (a.key - line) + (slot - line))).mem
      ∧ t.funcs = (s.ctxEvent o.part o.ctx 5 0 (a.va - (a.key - line) + (slot - line))).funcs)
  ∧ (∀ s id line o k la a rest z, LineReady s id line o k la → o.body = .st z → la.accs = a :: rest → a.reach ≠ .memory →
    exec (.homeSliceLineAction id line) s
      = .next ((s.modOp id (fun o => performed o k la [])).windowWrite o.part (a.reach == .kick) a.key a.data))
  ∧ (∀ s id line o k la a rest z, LineReady s id line o k la → o.body = .ld z → la.accs = a :: rest → a.reach ≠ .memory →
    ∃ t, exec (.homeSliceLineAction id line) s = .next t ∧ t = { s with ops := t.ops }
      ∧ ∃ bs, Tab.get? t.ops id = some (performed o k la [{ lane := a.lane, va := a.va, bytes := bs }])
        ∧ bs = (s.modOp id (fun o => performed o k la [])).windowRead o.part (a.reach == .kick) a.key a.n)

namespace Sys2Proof.Claims

/-- The CTRL word and the VALUE of a future slot in memory (R265). -/
def ctrlOf (s : State) (slot : Nat) : Nat := s.nat (slot + 8) 4
def valueOf (s : State) (slot : Nat) : Nat := s.nat slot 8

/-- The records linked to a slot, in link order. -/
def linkedTo (s : State) (slot : Nat) : List FutRec := s.futs.filter (fun r => r.slot == slot)

/-- A malformed slot (R265). -/
def malformed (s : State) (slot : Nat) : Prop :=
  ctrlOf s slot ≥ 4 ∨ ctrlOf s slot = 3 ∨ (ctrlOf s slot = 2 ∧ linkedTo s slot = [])

/-- A record of a slice's table is neither linked nor still to be walked (R266). -/
def freeIn (s : State) (slice i : Nat) : Prop :=
  i < 256 ∧ (∀ r ∈ s.futs, r.slice = slice → r.index ≠ i) ∧ ∀ w ∈ s.walks, ∀ r ∈ w.recs, r.slice = slice → r.index ≠ i

/-- The slice of a slot (R251). -/
def sliceOf (s : State) (o : Op) (slot : Nat) : Nat := Config.homeSlice (s.func o.part).dropped.length (slot / 128)

/-- A group's registers and flags after an operation's results are written (R46): every lane's words at the destination, a
scalar from the lowest lane that has one, with the tag after them; the operation has left its flag, and its registers are
no longer pending. -/
structure Written (g h : Group) (id : Nat) (o : Op) : Prop where
  same : h = { g with vec := h.vec, scl := h.scl, preds := h.preds, flags := h.flags, counters := h.counters
                      pending := g.pending.filter (fun x => x.2 != id) }
  flag : ∀ y, h.flagOps y = if o.flag = some y then (g.flagOps y).filter (· != id) else g.flagOps y
  vec : ∀ k l r, o.dest = .vec k → l < 128 → o.res.find? (fun r => r.lane == l) = some r →
    (∀ j, j < o.destN → h.readV (k.toNat + j) l = BitVec.ofNat 32 (leNat r.bytes / 2 ^ (32 * j)))
      ∧ (o.tag = true → h.readV (k.toNat + o.destN) l = BitVec.ofNat 32 r.tag)
  scl : ∀ k l r, o.dest = .scl k → l < 128 → o.res.find? (fun r => r.lane == l) = some r →
    (∀ x ∈ o.res, l ≤ x.lane) →
    (∀ j, j < o.destN → h.readS (k.toNat + j) = BitVec.ofNat 32 (leNat r.bytes / 2 ^ (32 * j)))
      ∧ (o.tag = true → h.readS (k.toNat + o.destN) = BitVec.ofNat 32 r.tag)
  pred : ∀ q l r, o.pq = some q → l < 128 → o.res.find? (fun r => r.lane == l) = some r → h.pred q.toNat l = (q == 0 || r.ok)
  keepV : ∀ r l, l < 128 → (∀ x ∈ o.res, x.lane ≠ l) → h.readV r l = g.readV r l
  keepVec : ∀ r l, l < 128 → (∀ k, o.dest = .vec k → r < k.toNat ∨ k.toNat + o.destN + o.tag.toNat ≤ r) →
    h.readV r l = g.readV r l
  keepScl : ∀ r, (∀ k, o.dest = .scl k → r < k.toNat ∨ k.toNat + o.destN + o.tag.toNat ≤ r) → h.readS r = g.readS r
  keepPred : ∀ q l, (∀ p, o.pq = some p → p.toNat ≠ q) → h.pred q l = g.pred q l

end Sys2Proof.Claims

/-- R46, R166, R252, R264, R265 to R269: futures at their slices, the walk that answers the readers of a filled slot and the
service of held requests; and the ends of operations: a long-latency one writes its results and leaves its flag, a counted
one leaves its counter once every older one has. -/
def Obligations.FuturesAndCompletions : Prop :=
  (∀ s id line o k la a w, LineReady s id line o k la → o.body = .ldfut w → la.accs = [a] → a.reach = .memory →
    clean s o.body la → (∀ r ∈ o.res, r.lane ≠ a.lane) →
    let bytes := fun (v : Nat) => leBytes (if w then 8 else 4) v
    let done := fun (rs : List LaneRes) (t : State) => Tab.get? t.ops id = some (performed o k la rs)
      ∧ ∀ j, j ≠ id → Tab.get? t.ops j = Tab.get? s.ops j
    (¬malformed s a.key → ctrlOf s a.key = 1 → ∃ t, exec (.homeSliceLineAction id line) s = .next t
      ∧ t = { s with ops := t.ops } ∧ done [{ lane := a.lane, va := a.va, bytes := bytes (valueOf s a.key) }] t)
    ∧ (¬malformed s a.key → ctrlOf s a.key ≠ 1 → (∃ i, freeIn s (sliceOf s o a.key) i) →
      ∃ t i, exec (.homeSliceLineAction id line) s = .next t ∧ done [] t ∧ freeIn s (sliceOf s o a.key) i
        ∧ t = { s with ops := t.ops, mem := t.mem, futs := t.futs, fresh := s.fresh + 1 }
        ∧ t.futs = s.futs ++ [⟨sliceOf s o a.key, i, a.key, id, [a.lane]⟩]
        ∧ ctrlOf t a.key = 2
        ∧ valueOf t a.key = (((linkedTo t a.key).headD {}).index + 2 ^ 16 * (linkedTo t a.key).length) % 2 ^ 64
        ∧ ∀ x, (x < a.key ∨ a.key + 12 ≤ x) → Memory.get t.mem x = Memory.get s.mem x)
    ∧ (¬malformed s a.key → ctrlOf s a.key ≠ 1 → (∀ i, ¬freeIn s (sliceOf s o a.key) i) →
      ∃ t, exec (.homeSliceLineAction id line) s = .next t ∧ done [] t
        ∧ t = { s with ops := t.ops, futHeld := s.futHeld ++ [⟨sliceOf s o a.key, 0, a.key, id, [a.lane]⟩] })
    ∧ (malformed s a.key → ∃ t, exec (.homeSliceLineAction id line) s = .next t
      ∧ done [{ lane := a.lane, va := a.va, bytes := bytes (2 ^ 64 - 1) }] t
      ∧ t.mem = (s.ctxEvent o.part o.ctx 3 0 a.va).mem ∧ t.futs = s.futs))
  ∧ (∀ s id line o k la a w, LineReady s id line o k la → o.body = .stfut w → la.accs = [a] → a.reach = .memory →
    clean s o.body la → a.data.length = 8 → line < 2 ^ 55 →
    (¬malformed s a.key → ctrlOf s a.key ≠ 1 → ∃ t, exec (.homeSliceLineAction id line) s = .next t
      ∧ t = { s with ops := t.ops, mem := t.mem, futs := t.futs, walks := t.walks, tags := t.tags }
      ∧ Tab.get? t.ops id = some (performed o k la []) ∧ valueOf t a.key = leNat a.data ∧ ctrlOf t a.key = 1
      ∧ (∀ x, (x < a.key ∨ a.key + 12 ≤ x) → Memory.get t.mem x = Memory.get s.mem x)
      ∧ tagOf t line = tagOf s line + 1 ∧ t.futs = s.futs.filter (fun r => r.slot != a.key)
      ∧ t.walks = s.walks ++ if linkedTo s a.key = [] then [] else [⟨id, a.data, linkedTo s a.key⟩])
    ∧ (¬malformed s a.key → ctrlOf s a.key = 1 → ∃ t, exec (.homeSliceLineAction id line) s = .next t
      ∧ Tab.get? t.ops id = some (performed o k la []) ∧ t.futs = s.futs ∧ t.tags = s.tags
      ∧ t.mem = (s.ctxEvent o.part o.ctx 4 0 a.va).mem))
  ∧ (∀ s id line o k la a, LineReady s id line o k la → o.body = .futrst → la.accs = [a] → a.reach = .memory →
    clean s o.body la → line < 2 ^ 55 → ¬malformed s a.key →
    ∃ t, exec (.homeSliceLineAction id line) s = .next t ∧ t = { s with ops := t.ops, mem := t.mem, tags := t.tags }
      ∧ Tab.get? t.ops id = some (performed o k la [])
      ∧ (linkedTo s a.key = [] → t.nat a.key 16 = 0
        ∧ (∀ x, (x < a.key ∨ a.key + 16 ≤ x) → Memory.get t.mem x = Memory.get s.mem x)
        ∧ tagOf t line = tagOf s line + 1)
      ∧ (linkedTo s a.key ≠ [] → t.mem = s.mem ∧ t.tags = s.tags))
  ∧ (∀ s op w r rs o, s.walks.find? (fun w => w.op == op) = some w → w.recs = r :: rs → Tab.get? s.ops r.op = some o →
    ∃ t, exec (.futureWalk op) s = .next t ∧ t = { s with ops := t.ops, walks := t.walks }
      ∧ Tab.get? t.ops r.op = some { o with res := o.res ++ r.lanes.map (fun l =>
          { lane := l, bytes := leBytes (match o.body with | .ldfut true => 8 | .stfut true => 8 | _ => 4) (leNat w.value) }) }
      ∧ (∀ j, j ≠ r.op → Tab.get? t.ops j = Tab.get? s.ops j)
      ∧ (rs = [] → t.walks = s.walks.filter (· != w))
      ∧ (rs ≠ [] → t.walks = s.walks.map (fun x => if x = w then { w with recs := rs } else x)))
  ∧ (∀ s op o h hs va, Tab.get? s.ops op = some o → s.futHeld = h :: hs → h.op = op → (∃ i, freeIn s h.slice i) →
    va = (((o.lines.map LineAct.accs).flatten.find? (fun a => a.key == h.slot)).map LaneAcc.va).getD 0 →
    ∃ t, exec (.deferredRecordGrant op) s = .next t ∧ t = ({ s with futHeld := hs }.readFuture op o h.slot va h.lanes))
  ∧ (∀ s id o g, Tab.get? s.ops id = some o → Tab.get? s.groups o.group = some g → o.flag.isSome = true →
    (s.team g.team).saved = false → o.ue = false →
    (match o.body with
      | .ld _ | .atom _ _ _ | .atomc _ | .atomv _ _ => o.lines.all LineAct.done = true
      | .ldfut _ => ∀ la ∈ o.lines, ∀ a ∈ la.accs, ∃ r ∈ o.res, r.lane = a.lane
      | .value | .engine => True
      | _ => False) →
    ∃ t, exec (.flagCompletion id) s = .next t ∧ t = { s with ops := Tab.erase s.ops id, groups := t.groups }
      ∧ (∀ j, j ≠ o.group → Tab.get? t.groups j = Tab.get? s.groups j) ∧ Written g (t.group o.group) id o)
  ∧ (∀ s id o g k, Tab.get? s.ops id = some o → Tab.get? s.groups o.group = some g → o.flag = none → o.counter = some k →
    (s.team g.team).saved = false → (o.body.isGlobalWrite = true ∧ o.lines.all LineAct.done = true ∨ o.body = .engine) →
    o.ue = false →
    (o.refused = [] → ∃ t, exec (.writeAcknowledged id) s = .next t
      ∧ t = { s with ops := Tab.erase s.ops id, groups := t.groups }
      ∧ (∀ j, j ≠ o.group → Tab.get? t.groups j = Tab.get? s.groups j)
      ∧ t.group o.group = { g with counters := (t.group o.group).counters
                                   pending := g.pending.filter (fun x => x.2 != id) }
      ∧ (∀ y, y ≠ k → (t.group o.group).counterOps y = g.counterOps y)
      ∧ (t.group o.group).counterOps k
        = ((g.counterOps k).map (fun x => if x.1 = id then (id, true) else x)).dropWhile Prod.snd)
    ∧ (∀ l ∈ o.refused, l < 128 → (∀ j ∈ o.refused, l ≤ j) → ∃ u : State,
      u = { s with ops := Tab.erase s.ops id, groups := u.groups }
      ∧ (∀ j, j ≠ o.group → Tab.get? u.groups j = Tab.get? s.groups j) ∧ (u.group o.group).wait = none
      ∧ exec (.writeAcknowledged id) s = .next (u.raise o.group o.pc .detXovf (BitVec.ofNat 32 l) 0 0)))

namespace Sys2Proof.Claims

/-- A bit of an entry, and its frame (R217). -/
def entryBit (e i : Nat) : Bool := e / 2 ^ i % 2 == 1
def frameOf (e : Nat) : Nat := e / 4096 % 2 ^ 40 * 4096

/-- An entry that R218 calls malformed, at the level whose index begins at bit `sh`. -/
def badEntry (s : State) (part sh e : Nat) : Prop :=
  e / 64 % 64 ≠ 0 ∨ e / 2 ^ 52 % 2 ^ 12 ≠ 0
    ∨ (entryBit e 1 = true ∧ (sh = 48 ∨ sh = 39 ∨ frameOf e % 2 ^ sh ≠ 0
      ∨ (entryBit e 2 = true ∧ (entryBit e 3 = true ∨ entryBit e 4 = true))
      ∨ s.rangeTarget part (frameOf e) (2 ^ sh) = .nothing
      ∨ (entryBit e 5 = false ∧ ∃ o, s.rangeTarget part (frameOf e) (2 ^ sh) = .reg o
          ∨ s.rangeTarget part (frameOf e) (2 ^ sh) = .kick o)))
    ∨ (entryBit e 1 = false ∧ (sh = 12 ∨ entryBit e 2 = true ∨ entryBit e 5 = true
      ∨ ∀ k, s.rangeTarget part (frameOf e) 4096 ≠ .mem k ∧ s.rangeTarget part (frameOf e) 4096 ≠ .host k))

/-- A waiting request enters the ring where it has room, at the next entry's address, and the head rises by one with the
interrupt (R227). -/
def entersRing (s t : State) (key : Nat) (r : PageReq) : Prop :=
  let size := ringSize (s.func r.part).prqSize 4096
  t.preqs = Tab.put s.preqs key { r with posted := true }
    ∧ (t.func r.part).prqHead = (s.func r.part).prqHead + 1
    ∧ (t.func r.part).vectors = (s.func r.part).vectors ++ [2]
    ∧ t.mem = (s.physWrite r.part ((s.func r.part).prqBase + 256 * ((s.func r.part).prqHead.toNat % size))
        (leBytes 1 r.ctx ++ leBytes 1 r.kind ++ leBytes 1 r.pages.length ++ leBytes 1 0 ++ leBytes 4 (key % 2 ^ 32)
          ++ leBytes 4 r.pc ++ leBytes 4 r.origin.toNat ++ leBytes 16 0
          ++ (r.pages.map (fun p => leBytes 8 (p.page + p.write.toNat + 2 * p.cow.toNat))).flatten
          ++ leBytes (8 * (28 - r.pages.length)) 0)).mem
    ∧ t = { s with preqs := t.preqs, funcs := t.funcs, mem := t.mem }

end Sys2Proof.Claims

/-- R215 to R223, R226, R227, R254: what one entry of a walk gives, the checks on an access in their order, and the driver's
side of translation: requests that enter the ring, their answers, and invalidations. -/
def Obligations.TranslationAndPages : Prop :=
  (∀ (s : State) (part va sh : Nat) (rest : List Nat) (base : Nat) (sro cow : Bool),
    sh ∈ [48, 39, 30, 21, 12] →
    let e := leNat (s.physRead part (base + 8 * (va / 2 ^ sh % (if sh = 48 then 64 else 512))) 8)
    let r := s.walkFrom part va (sh :: rest) base sro cow
    (entryBit e 0 = false → r = .miss)
    ∧ (entryBit e 0 = true → badEntry s part sh e → r = .malformed)
    ∧ (entryBit e 0 = true → ¬badEntry s part sh e → entryBit e 1 = true →
      r = .leaf { pa := frameOf e, size := 2 ^ sh, w := entryBit e 2, sro := entryBit e 3 || sro
                  cow := entryBit e 4 || cow, so := entryBit e 5 })
    ∧ (entryBit e 0 = true → ¬badEntry s part sh e → entryBit e 1 = false →
      r = s.walkFrom part va rest (frameOf e) (sro || entryBit e 3) (cow || entryBit e 4)))
  ∧ (∀ (s : State) (unit part ctx va : Nat) (write soOk hostOk : Bool),
    let r := s.access unit part ctx va write soOk hostOk
    (2 ^ 54 ≤ va → r = .bad .prot 5)
    ∧ (va < 2 ^ 54 → s.translate unit part ctx va = .malformed → r = .bad .nomap 2)
    ∧ (va < 2 ^ 54 → s.translate unit part ctx va = .miss →
      r = .miss { page := va / 4096 * 4096, write := write, va := va })
    ∧ (∀ l, va < 2 ^ 54 → s.translate unit part ctx va = .leaf l →
      let refused := write = true ∧ (l.w = false ∨ l.sro = true)
      (refused → l.cow = true → r = .miss { page := va / 4096 * 4096, write := true, cow := true, va := va })
      ∧ (refused → l.cow = false → r = .bad .prot 0x10)
      ∧ (¬refused → l.so = true → soOk = false → r = .bad .prot 0x11)
      ∧ (¬refused → (l.so = false ∨ soOk = true) →
        (∀ k, s.target part (l.pa + va % l.size) = .host k → r = if hostOk then .ok (.host k) l.so else .bad .prot 0x12)
        ∧ (∀ k, s.target part (l.pa + va % l.size) = .mem k → r = .ok (.mem k) l.so)
        ∧ (∀ k, s.target part (l.pa + va % l.size) = .reg k → r = .ok (.reg k) l.so)
        ∧ (∀ k, s.target part (l.pa + va % l.size) = .kick k → r = .ok (.kick k) l.so)
        ∧ (s.target part (l.pa + va % l.size) = .nothing → r = .bad .nomap 2))))
  ∧ (∀ (s : State) (part pa : Nat),
    (pa < 3 * 2 ^ 28 * (4 * s.memUnits part - (s.func part).dropped.length) →
      s.target part pa = .mem (2 ^ 52 * part + pa))
    ∧ (s.capacity part ≤ 2 ^ 50 →
      (∀ k, k < 2 ^ 51 → s.target part (2 ^ 51 + k) = .host (2 ^ 55 + k))
      ∧ (∀ k, k < 2 ^ 26 → s.target part (2 ^ 50 + k) = .reg k)
      ∧ (∀ k, k < 2 ^ 22 → s.target part (2 ^ 50 + 2 ^ 32 + k) = .kick k)))
  ∧ (∀ s part req r g, let key := 2 ^ 32 * part + req % 2 ^ 32
    Tab.get? s.preqs key = some r → r.posted = true → r.answer = none → r.kind = 1 → r.part = part →
    (s.context part r.ctx).saved = false → Tab.get? s.groups r.who = some g →
    (∃ t, exec (.prqrespRetry part req) s = .next t
      ∧ t = { s with preqs := Tab.erase s.preqs key, tlb := t.tlb, groups := t.groups, cores := t.cores }
      ∧ (∀ j, j ≠ r.who → Tab.get? t.groups j = Tab.get? s.groups j)
      ∧ t.group r.who = { g with request := none, wait := none }
      ∧ ∀ h, h ∈ t.tlb ↔ h ∈ s.tlb ∧ ¬(h.unit = g.unit ∧ h.ctx = 64 * part + r.ctx
          ∧ ∃ p ∈ r.pages, h.page ≤ p.page ∧ p.page < h.page + h.leaf.size))
    ∧ (∃ u : State, u = { s with preqs := Tab.erase s.preqs key, groups := u.groups }
      ∧ (∀ j, j ≠ r.who → Tab.get? u.groups j = Tab.get? s.groups j)
      ∧ u.group r.who = { g with request := none, wait := none }
      ∧ exec (.prqrespFail part req) s = .next (u.raiseFault r.who r.pc .nomap
          (BitVec.ofNat 32 (1 + 256 * (r.pages.headD {}).lane)) (r.pages.headD {}).va 0)))
  ∧ (∀ s part req, Tab.get? s.preqs (2 ^ 32 * part + req % 2 ^ 32) = none →
    exec (.prqrespRetry part req) s = .next s ∧ exec (.prqrespFail part req) s = .next s)
  ∧ (∀ s part v, (∀ x ∈ s.preqs, x.2.part = part → x.2.posted = true) →
    ∃ t, exec (.prqtailWrite part v) s = .next t ∧ t = { s with funcs := t.funcs }
      ∧ ∀ p, t.func p = if p = part then { s.func p with prqTail := v } else s.func p)
  ∧ (∀ s part v key r, s.preqs = [(key, r)] → r.part = part → r.posted = false →
    (s.func part).prqHead - v ≠ BitVec.ofNat 32 (ringSize (s.func part).prqSize 4096) →
    ∃ u t : State, (∀ p, u.func p = if p = part then { s.func p with prqTail := v } else s.func p)
      ∧ u = { s with funcs := u.funcs } ∧ exec (.prqtailWrite part v) s = .next t ∧ entersRing u t key r)
  ∧ (∀ s part cmd,
    let f := s.func part
    let covered := fun (ctx va n : Nat) => (cmd.getLsbD 6 = true ∨ cmd.toNat % 64 = ctx)
      ∧ (f.invPages = 0 ∨ va < f.invVa / 4096 % 2 ^ 42 * 4096 + 4096 * f.invPages.toNat
          ∧ f.invVa / 4096 % 2 ^ 42 * 4096 < va + n)
    (f.invBusy = true ∨ cmd.getLsbD 7 = false → exec (.invalidateGo part cmd) s = .next s)
    ∧ (f.invBusy = false → cmd.getLsbD 7 = true → ∃ t ids, exec (.invalidateGo part cmd) s = .next t
      ∧ t = { s with funcs := t.funcs }
      ∧ (∀ p, t.func p = if p = part then { f with invBusy := true, invCmd := cmd, invOps := ids } else s.func p)
      ∧ ∀ n, n ∈ ids ↔ ∃ o, (n, o) ∈ s.ops ∧ o.part = part
          ∧ ∃ la ∈ o.lines, la.done = false ∧ ∃ a ∈ la.accs, covered o.ctx a.va a.n))
  ∧ (∀ s part, let f := s.func part
    let covered := fun (ctx va n : Nat) => (f.invCmd.getLsbD 6 = true ∨ f.invCmd.toNat % 64 = ctx)
      ∧ (f.invPages = 0 ∨ va < f.invVa / 4096 % 2 ^ 42 * 4096 + 4096 * f.invPages.toNat
          ∧ f.invVa / 4096 % 2 ^ 42 * 4096 < va + n)
    f.invBusy = true → (∀ n ∈ f.invOps, Tab.get? s.ops n = none) →
    ∃ t, exec (.invalidateDone part) s = .next t ∧ t = { s with funcs := t.funcs, tlb := t.tlb }
      ∧ (∀ p, t.func p = if p = part then { f with invBusy := false, invOps := [] } else s.func p)
      ∧ ∀ h, h ∈ t.tlb ↔ h ∈ s.tlb ∧ ¬(h.ctx / 64 = part ∧ covered (h.ctx % 64) h.page h.leaf.size))

/-! ## Tile moves and the matrix engine -/

namespace Sys2Proof.Claims

/-- The rows of one end of a tile move lie where it may move them (R215, R231, R246, R273). -/
def rowsFit (s : State) (g : Group) (e : TEnd) (a stride n rows : Nat) : Prop :=
  ∀ r, r < rows → match e with
    | .g => a + r * stride + n ≤ 2 ^ 54
    | .col => a + r * stride < 2 ^ 25
        ∧ (a + r * stride) % 2 ^ 18 + n ≤ 32 * (s.window g.part (coreUnit g.core) g.ctx).2
    | .core => inView s (s.team g.team) .core false n (a + r * stride)
    | .clus => inView s (s.team g.team) .clus false n (a + r * stride)
    | .die => inView s (s.team g.team) .die false n (a + r * stride)

/-- The move that a TMOV asks for (R246). -/
def moveOf (o : Slot) (sk dk : TEnd) (bdone : Bool) (nb : Option (BitVec 4)) (g : Group) (ls : List Nat) : Move :=
  let l := ls.headD 0
  { sk := sk, dk := dk, bdone := bdone, nb := nb
    src := if sk = .g then (g.value64 o.a l).toNat else (g.value o.a l).toNat
    dst := if dk = .g then (g.value64 o.b l).toNat else (g.value o.b l).toNat
    rowBytes := (g.valueAt o.c 0 l).toNat % 2 ^ 16, rows := (g.valueAt o.c 0 l).toNat / 2 ^ 16
    ss := (g.valueAt o.c 1 l).toNat, ds := (g.valueAt o.c 2 l).toNat, moved := 0 }

/-- A move's shape and addresses are multiples of 16, and its rows lie apart (R246). -/
def shaped (m : Move) : Prop :=
  m.rowBytes ≠ 0 ∧ m.rows ≠ 0 ∧ m.rowBytes % 16 = 0 ∧ m.ss % 16 = 0 ∧ m.ds % 16 = 0 ∧ m.src % 16 = 0 ∧ m.dst % 16 = 0
    ∧ (1 < m.rows → m.rowBytes ≤ m.ds)

/-- The buffer that holds the first byte of a scratch end. -/
def inBuffer (s : State) (t : Nat) (e : TEnd) (a : Nat) : Bool :=
  match e with
  | .core => ((s.team t).bufAt .core a).isSome
  | .clus => ((s.team t).bufAt .clus a).isSome
  | .die => ((s.team t).bufAt .die a).isSome
  | .g | .col => false

/-- An operation of a group has ended: it is no longer listed, and has left its flag, its counter and its registers. -/
structure Ended (s t : State) (id : Nat) (o : Op) : Prop where
  gone : Tab.get? t.ops id = none
  listed : ∀ j, j ≠ id → Tab.get? t.ops j = Tab.get? s.ops j
  others : ∀ j, j ≠ o.group → Tab.get? t.groups j = Tab.get? s.groups j
  flag : ∀ y, (t.group o.group).flagOps y
    = if o.flag = some y then ((s.group o.group).flagOps y).filter (· != id) else (s.group o.group).flagOps y
  pending : (t.group o.group).pending = (s.group o.group).pending.filter (fun x => x.2 != id)
  same : t.group o.group = { s.group o.group with scl := (t.group o.group).scl, flags := (t.group o.group).flags
                                                  counters := (t.group o.group).counters
                                                  pending := (t.group o.group).pending }

end Sys2Proof.Claims

/-- R228, R233, R240, R241, R246: TMOV starts its move, counted in ct, after its checks; a move from global memory to core
scratch ends with every row's bytes moved, its granules full and the status 0 in D, and one refused by the driver with
status 1 and reason 1; a region's line is filled from memory with its granules full, and its dirty granules are written
back. -/
def Obligations.TileMovesAndRegionLines : Prop :=
  (∀ o sk dk bdone nb, Does (.tmov o sk dk bdone nb)
    (fun s _ g ls => let m := moveOf o sk dk bdone nb g ls
      ¬(dk = .col ∧ 1 ≤ g.detlevel) ∧ shaped m ∧ rowsFit s g sk m.src m.ss m.rowBytes m.rows
        ∧ rowsFit s g dk m.dst m.ds m.rowBytes m.rows
        ∧ (bdone = true → inBuffer s g.team sk m.src = true ∨ inBuffer s g.team dk m.dst = true)
        ∧ flagRoom g o ∧ counterRoom g 1)
    (fun s id g ls u => ∃ f m, (Instr.tmov o sk dk bdone nb).form = some f
      ∧ m = { s with teams := m.teams, groups := m.groups }
      ∧ (∀ t, m.team t = { s.team t with wrote := (m.team t).wrote })
      ∧ (∀ j, m.group j = { s.group j with stores := (m.group j).stores }) ∧ (∀ j, j ≠ id → m.group j = s.group j)
      ∧ Started m u id { opOf g id (.tmov (moveOf o sk dk bdone nb g ls)) with
          flag := g.slotFlag o, counter := some 1, dest := o.d } (formDests f)))
  ∧ (∀ o sk bdone nb, Raises (.tmov o sk .col bdone nb) (fun _ g _ => 1 ≤ g.detlevel) .detViol (fun _ _ => 0x42))
  ∧ (∀ o sk dk bdone nb, Raises (.tmov o sk dk bdone nb)
    (fun _ g ls => ¬(dk = .col ∧ 1 ≤ g.detlevel) ∧ ¬shaped (moveOf o sk dk bdone nb g ls)) .align (fun _ _ => 0x30))
  ∧ (∀ o sk dk nb, Raises (.tmov o sk dk true nb)
    (fun s g ls => let m := moveOf o sk dk true nb g ls
      ¬(dk = .col ∧ 1 ≤ g.detlevel) ∧ shaped m ∧ rowsFit s g sk m.src m.ss m.rowBytes m.rows
        ∧ rowsFit s g dk m.dst m.ds m.rowBytes m.rows
        ∧ inBuffer s g.team sk m.src = false ∧ inBuffer s g.team dk m.dst = false) .bufstate (fun _ _ => 8))
  ∧ (∀ s op x m g k (ps : Nat → List (Nat × Nat)), Tab.get? s.ops op = some x → x.body = .tmov m → m.sk = .g → m.dk = .core →
    m.moved = 0 → m.bdone = false → m.nb = none → shaped m → x.dest = .scl k → s.requestsOf op 0 = [] →
    Tab.get? s.groups x.group = some g → g.part < 8 → (s.team g.team).bufs = [] → (s.team g.team).regions = [] →
    (s.team g.team).checked = false → (∀ r, r < m.rows → m.dst + r * m.ds + m.rowBytes ≤ s.allocSize (s.team g.team).coreScr) →
    (∀ r, r < m.rows → s.range g.unit g.part g.ctx (m.src + r * m.ss) m.rowBytes false = .ok (ps r)
      ∧ ∀ p ∈ ps r, s.poison.contains (wordKey p.2) = false) →
    let key := fun (r : Nat) => spaceKey (s.team g.team).coreScr (m.dst + r * m.ds)
    ∃ t, exec (.tileMoveComplete op) s = .next t
      ∧ t = { s with mem := t.mem, full := t.full, poison := t.poison, groups := t.groups, ops := t.ops }
      ∧ (∀ r i, r < m.rows → i < m.rowBytes → Memory.get t.mem (key r + i) = Memory.get s.mem ((ps r).getD i (0, 0)).2)
      ∧ (∀ y, (∀ r, r < m.rows → y < key r ∨ key r + m.rowBytes ≤ y) → Memory.get t.mem y = Memory.get s.mem y)
      ∧ (∀ y, y ∈ t.full ↔ y ∈ s.full ∨ ∃ r i, r < m.rows ∧ i < m.rowBytes / 16 ∧ y = key r + 16 * i)
      ∧ Ended s t op x ∧ (t.group x.group).readS k.toNat = 0
      ∧ (∀ j, j ≠ k.toNat → (t.group x.group).readS j = g.readS j))
  ∧ (∀ s op x m g k, Tab.get? s.ops op = some x → x.body = .tmov m → m.sk ≠ .col → m.dk ≠ .col → m.nb = none →
    x.dest = .scl k → Tab.get? s.groups x.group = some g → s.answerOf op 0 = .fail →
    ∃ t, exec (.tileMoveComplete op) s = .next t ∧ t = { s with preqs := t.preqs, groups := t.groups, ops := t.ops }
      ∧ Ended s t op x ∧ (t.group x.group).readS k.toNat = BitVec.ofNat 32 (0x101 + 65536 * m.moved))
  ∧ (∀ s team k line r x ps, Tab.get? s.teams team = some x → Tab.get? x.regions k = some r → line ∈ r.want →
    s.requestsOf team (8 * line + k + 1) = [] →
    let g := s.group r.group
    s.range g.unit g.part g.ctx (r.va + 128 * line) 128 false = .ok ps →
    (∀ p ∈ ps, s.poison.contains (wordKey p.2) = false) →
    let key := s.viewKey x r.lvl (r.off + 128 * line)
    key % 16 = 0 →
    ∃ t, exec (.regionFill team k line) s = .next t
      ∧ t = { s with mem := t.mem, full := t.full, teams := t.teams }
      ∧ (∀ i, i < 128 → Memory.get t.mem (key + i) = Memory.get s.mem (ps.getD i (0, 0)).2)
      ∧ (∀ y, y < key ∨ key + 128 ≤ y → Memory.get t.mem y = Memory.get s.mem y)
      ∧ (∀ y, y ∈ t.full ↔ y ∈ s.full ∨ ∃ i, i < 8 ∧ y = key + 16 * i)
      ∧ (∀ j, j ≠ team → Tab.get? t.teams j = Tab.get? s.teams j)
      ∧ t.team team = { x with regions := (t.team team).regions }
      ∧ ∃ r', oneEntry x.regions (t.team team).regions k (some r')
        ∧ r' = { r with filled := r'.filled, want := r'.want }
        ∧ (∀ i, i ∈ r'.filled ↔ i ∈ r.filled ∨ i = line) ∧ (∀ i, i ∈ r'.want ↔ i ∈ r.want ∧ i ≠ line))
  ∧ (∀ s team k line r x ps op o, Tab.get? s.teams team = some x → Tab.get? x.regions k = some r → x.copyOf = none →
    let ws := r.wb.filter (fun w => w.1 / 8 == line)
    ws ≠ [] → (∀ w ∈ ws, w.2 = op) → r.unmap = none → Tab.get? s.ops op = some o → o.flag = none →
    s.requestsOf team (8 * line + k + 1 + 2 ^ 32) = [] →
    let g := s.group r.group
    s.range g.unit g.part g.ctx (r.va + 128 * line) 128 true = .ok ps → s.poison = [] →
    let key := fun (w : Nat × Nat) => s.viewKey x r.lvl (r.off + 128 * line) + 16 * (w.1 % 8)
    let u := s.writePlaces g.part g.ctx (ws.map (fun w => (ps.drop (16 * (w.1 % 8))).take 16)).flatten
      (ws.map (fun w => s.bytes (key w) 16)).flatten
    ∃ t, exec (.writeBackComplete team k line) s = .next t
      ∧ t = { u with teams := t.teams, ops := t.ops, groups := t.groups }
      ∧ (∀ j, j ≠ team → Tab.get? t.teams j = Tab.get? u.teams j)
      ∧ t.team team = { x with regions := (t.team team).regions }
      ∧ oneEntry x.regions (t.team team).regions k
          (some { r with wb := r.wb.filter (fun w => w.1 / 8 != line) })
      ∧ ((∀ w ∈ r.wb, w.2 = op → w.1 / 8 = line) → Ended s t op o)
      ∧ ((∃ w ∈ r.wb, w.2 = op ∧ w.1 / 8 ≠ line) → t.ops = s.ops ∧ t.groups = s.groups))

namespace Sys2Proof.Claims

/-- The matrix entry of a team, idle where it holds none (R280). -/
def entryOf (s : State) (t : Nat) : Mx := ((s.team t).mx).getD {}

/-- A tile of a team. -/
def tileOf (s : State) (t tile : Nat) : Tile := Tab.getD (s.team t).accs tile {}

/-- A stream instruction stands where its stream runs it: the team is listed, and the word is as R277 asks. -/
structure Streams (i : Instr) (s : State) (t : Nat) (f : Form) : Prop where
  cur : s.cur = .stream t
  team : Tab.get? s.teams t ≠ none
  form : i.form = some f
  slot : f.slot.p = 0 ∧ f.slot.neg = false ∧ f.slot.stall = 0 ∧ f.slot.yield = false ∧ f.slot.rel = false ∧ f.slot.sel = false
  legal : f.legal = true ∧ f.operandsOk = true

/-- A stream instruction, where `ok` holds, makes the state `u` that `eff` says, and its stream then stands at its next
instruction: its entry is `m'` with one instruction more in this pass. -/
def StreamDoes (i : Instr) (ok : State → Nat → Mx → Prop) (eff : State → Nat → Mx → Mx → State → Prop) : Prop :=
  ∀ s t f, Streams i s t f → ok s t (entryOf s t) → ∃ u m' v, eff s t (entryOf s t) m' u
    ∧ exec i s = .next v ∧ TeamOnly u v t (fun x y => y = { x with mx := some { m' with passI := m'.passI + 1, done := 0 } })

/-- A stream instruction that changes nothing but its stream's entry. -/
def StreamMoves (i : Instr) (ok : State → Nat → Mx → Prop) (upd : Mx → Mx) : Prop :=
  StreamDoes i ok (fun s _ m m' u => u = s ∧ m' = { upd m with pc := m.pc + 12 })

/-- A stream instruction faults: the stream stops with the cause, and its pass ends (R279). -/
def StreamFaults (i : Instr) (ok : State → Nat → Mx → Prop) (cause : Cause) (info : Word) : Prop :=
  ∀ s t f, Streams i s t f → ok s t (entryOf s t) → exec i s = .next (s.streamFault t cause info)

/-- The stream's entry after `k` K-steps more (R282, R285, R286). -/
def afterSteps (m : Mx) (ta : MmaTy) (k : Nat) : Mx :=
  { m with aStep := m.aStep + k, bStep := m.bStep + k
           scStep := if m.scale.isSome && (ta == .e4m3 || ta == .e5m2 || ta == .e2m1) then m.scStep + k else m.scStep }

/-- A binary32 accumulator after one K-step: the exact sum of the products rounded once, then added with one rounding (R282,
R283). -/
def accumulated (w : Word) (xs ys : List FVal) : Word :=
  let p := (roundFmt .f32 (fSum .rn (List.zipWith (fun x y => (fMul x y).1) xs ys)).1 .rn false false 0).1
  BitVec.ofNat 32 (roundFmt .f32 (fAdd .rn (fpValue .f32 false w.toNat) (fpValue .f32 false p)).1 .rn false false 0).1

/-- The bytes of an element as MSTO stores it (R288). -/
def stored (td : StoTy) (satf : Bool) (w : Word) : List Byte :=
  let r := fun (f : Fmt) => (roundFmt f (fpValue .f32 false w.toNat) .rn satf false 0).1
  match td with
  | .f32 => leBytes 4 w.toNat
  | .bf16 => leBytes 2 (r .bf16)
  | .f16 => leBytes 2 (r .f16)
  | .e4m3 => leBytes 1 (r .e4m3)
  | .e5m2 => leBytes 1 (r .e5m2)

end Sys2Proof.Claims

/-- R277 to R290: the instructions of a matrix stream: descriptors, loops and barriers; MMA's K-steps on every cell of a
tile and the commit that .last starts; MSTO's rows, MZERO and MEND; and what stops or makes a stream wait. -/
def Obligations.MatrixStreams : Prop :=
  let v := fun (m : Mx) (o : Operand) => match o with
    | .scl k => Tab.getD m.m k.toNat 0
    | .imm x => x.signExtend 32
    | _ => 0
  let at_ := fun (m : Mx) (o : Operand) (off : Word) => (v m o + off).toNat
  let free := fun (s : State) (t tile : Nat) => ((tileOf s t tile).wm = 0 ∧ (tileOf s t tile).commit = false)
    ∨ s.teamLeft t = true
  let tiles := fun (m : Mx) (tile : Nat) => ∃ n, m.tiles = some n ∧ tile < n
  (∀ o clus off, StreamMoves (.mlda o clus off) (fun _ _ m => at_ m o.a off % 32 = 0 ∧ (v m o.b).toNat % 32 = 0)
    (fun m => { m with aLvl := if clus then .clus else .core, aBase := at_ m o.a off, aStride := (v m o.b).toNat, aStep := 0 }))
  ∧ (∀ o clus off, StreamFaults (.mlda o clus off)
    (fun _ _ m => at_ m o.a off % 32 ≠ 0 ∨ (v m o.b).toNat % 32 ≠ 0) .align 0x33)
  ∧ (∀ o off, StreamMoves (.mldb o off) (fun _ _ _ => True) (fun m => { m with bLine := at_ m o.a off, bStep := 0 }))
  ∧ (∀ o, StreamMoves (.msclOff o) (fun _ _ _ => True) (fun m => { m with scale := none }))
  ∧ (∀ o clus, StreamMoves (.mscl o clus) (fun _ _ _ => True)
    (fun m => { m with scale := some (if clus then .clus else .core), scBase := (v m o.a).toNat
                       scStride := (v m o.b).toNat, scLine := (v m o.c).toNat, scStep := 0 }))
  ∧ (∀ o target k, o.d = .scl k → StreamDoes (.mloopDec o target)
    (fun s t _ => target.toNat % 12 = 0 ∧ target.toNat < (s.team t).obj.msSize)
    (fun s _ m m' u => u = s ∧ (v m o.d = 0 → m' = { m with pc := m.pc + 12 })
      ∧ (v m o.d ≠ 0 → m' = { m with m := m'.m, pc := target.toNat }
        ∧ ∀ j, Tab.getD m'.m j 0 = if j = k.toNat then v m o.d - 1 else Tab.getD m.m j 0)))
  ∧ (∀ o target, StreamFaults (.mloopDec o target)
    (fun s t _ => target.toNat % 12 ≠ 0 ∨ (s.team t).obj.msSize ≤ target.toNat) .codeRange 0)
  ∧ (∀ o x k, o.d = .scl k → StreamDoes (.mloopAdd o x) (fun _ _ _ => True)
    (fun s _ m m' u => u = s ∧ m' = { m with m := m'.m, pc := m.pc + 12 }
      ∧ ∀ j, Tab.getD m'.m j 0 = if j = k.toNat then v m o.a + x else Tab.getD m.m j 0))
  ∧ (∀ o nb, StreamMoves (.mbarw o nb) (fun s t m => past ((s.team t).nbar nb.toNat) (v m o.a)) (fun m => m))
  ∧ (∀ o nb s t f, Streams (.mbarw o nb) s t f → ¬past ((s.team t).nbar nb.toNat) (v (entryOf s t) o.a) →
    ∃ u, exec (.mbarw o nb) s = .next (u.endPass t) ∧ TeamOnly s u t
      (fun x y => y = { x with mx := some { entryOf s t with state := .wait (.phase nb.toNat (v (entryOf s t) o.a)) } }))
  ∧ (∀ o nb, StreamDoes (.mbara o nb) (fun s t m => overArrival ((s.team t).nbar nb.toNat) 1 = none ∧ ∀ w, m.state ≠ .wait w)
    (fun s t m m' u => m' = { m with pc := m.pc + 12 } ∧ TeamOnly s u t (fun x y => y = { x with nbars := y.nbars }
      ∧ ∀ j, y.nbar j = if j = nb.toNat then arrived (x.nbar j) 1 false else x.nbar j)))
  ∧ (∀ o nb, StreamFaults (.mbara o nb) (fun s t _ => ((s.team t).nbar nb.toNat).pending = 0) .barOver
    (BitVec.ofNat 32 (1 + 256 * nb.toNat)))
  ∧ (∀ o, StreamDoes (.mend o) (fun _ _ _ => True)
    (fun s t m m' u => m' = { m with state := .ending, pc := m.pc + 12 } ∧ u = s.endPass t))
  ∧ (∀ o, StreamDoes (.mzero o) (fun s t m => tiles m (v m o.a).toNat ∧ free s t (v m o.a).toNat)
    (fun s t m m' u => m' = { m with pc := m.pc + 12 } ∧ TeamOnly s u t (fun x y => y = { x with accs := y.accs }
      ∧ oneEntry x.accs y.accs (v m o.a).toNat (some { tileOf s t (v m o.a).toNat with acc := [] }))))
  ∧ (∀ o, StreamFaults (.mzero o) (fun _ _ m => ¬tiles m (v m o.a).toNat) .scratchRange 5)
  ∧ (∀ o s t f, Streams (.mzero o) s t f → let m := entryOf s t
    tiles m (v m o.a).toNat → ¬free s t (v m o.a).toNat →
    ∃ u, exec (.mzero o) s = .next (u.endPass t) ∧ TeamOnly s u t
      (fun x y => y = { x with mx := some { m with state := .wait (.tile (v m o.a).toNat) } }))
  ∧ (∀ o ta tb last, StreamDoes (.mma o ta tb last)
    (fun s t m => let n := (v m o.b).toNat
      0 < n ∧ n ≤ 64 ∧ m.done < n ∧ n - m.done + m.passK ≤ 64 ∧ tiles m (v m o.a).toNat
        ∧ s.mmaFate t m ta tb n = none ∧ (m.done ≠ 0 ∨ free s t (v m o.a).toNat)
        ∧ s.zeroing (s.team t).part (s.teamCluster t) = false
        ∧ (s.team t).bufs = [] ∧ (s.team t).regions = [] ∧ s.poison = [])
    (fun s t m m' u => let n := (v m o.b).toNat
      let tile := (v m o.a).toNat
      m' = { afterSteps m ta (n - m.done) with done := n, passK := m.passK + (n - m.done), pc := m.pc + 12 }
        ∧ (∀ k, k ≠ t → Tab.get? u.teams k = Tab.get? s.teams k)
        ∧ u.team t = { s.team t with accs := (u.team t).accs }
        ∧ (∀ k, k ≠ tile → Tab.get? (u.team t).accs k = Tab.get? (s.team t).accs k)
        ∧ (∀ i j, i < 128 → j < 128 → Tab.getD (tileOf u t tile).acc (128 * i + j) 0
          = (List.range (n - m.done)).foldl (fun w k => accumulated w (s.mmaRow t (afterSteps m ta k) ta i)
              (s.mmaCol t (afterSteps m ta k) tb j)) (Tab.getD (tileOf s t tile).acc (128 * i + j) 0))
        ∧ (last = false → u = { s with teams := u.teams }
          ∧ tileOf u t tile = { tileOf s t tile with acc := (tileOf u t tile).acc })
        ∧ (last = true → u = { s with teams := u.teams, engines := u.engines }
          ∧ tileOf u t tile = { tileOf s t tile with acc := (tileOf u t tile).acc, commit := true, wm := 0 }
          ∧ ∀ c, u.engine c = if c = s.teamCluster t then { s.engine c with commits := (s.engine c).commits ++ [(t, tile)] }
              else s.engine c)))
  ∧ (∀ o ta tb last, StreamFaults (.mma o ta tb last) (fun _ _ m => (v m o.b).toNat = 0 ∨ 64 < (v m o.b).toNat) .align 0x34)
  ∧ (∀ o lvl td satf, let n := match td with | .f32 => 512 | .bf16 | .f16 => 256 | .e4m3 | .e5m2 => 128
    StreamDoes (.msto o lvl td satf)
    (fun s t m => (v m o.b).toNat % 16 = 0 ∧ (v m o.c).toNat % 16 = 0 ∧ n ≤ (v m o.c).toNat ∧ tiles m (v m o.a).toNat
      ∧ (∀ i, i < 128 → inView s (s.team t) lvl false n ((v m o.b).toNat + i * (v m o.c).toNat)
        ∧ (lvl = .die → (v m o.b).toNat + i * (v m o.c).toNat + n ≤ 2 ^ 31
          ∨ 2 ^ 31 ≤ (v m o.b).toNat + i * (v m o.c).toNat))
      ∧ (s.team t).bufs = [] ∧ (s.team t).regions = [] ∧ (s.team t).copyOf = none ∧ (s.team t).checked = false
      ∧ (s.group (s.subOp t).group).team = t)
    (fun s t m m' u =>
      let key := fun (i : Nat) => s.viewKey (s.team t) lvl ((v m o.b).toNat + i * (v m o.c).toNat)
      m' = { m with pc := m.pc + 12 }
        ∧ u = { s with mem := u.mem, full := u.full, poison := u.poison, teams := u.teams }
        ∧ (∀ x, u.team x = { s.team x with wrote := (u.team x).wrote })
        ∧ storesBytes s u (List.range 128) n key (fun i => ((List.range 128).map (fun j =>
            stored td satf (Tab.getD (tileOf s t (v m o.a).toNat).acc (128 * i + j) 0))).flatten)
        ∧ ∀ y, y ∈ u.full ↔ y ∈ s.full ∨ ∃ i j, i < 128 ∧ j < n / 16 ∧ y = key i + 16 * j))
  ∧ (∀ (i : Instr) s t f, s.cur = .stream t → i.form = some f → f.pool = .stream →
    (f.slot.p ≠ 0 ∨ f.slot.neg = true ∨ f.slot.stall ≠ 0 ∨ f.slot.yield = true ∨ f.slot.rel = true ∨ f.slot.sel = true
      ∨ f.legal = false) → exec i s = .next (s.streamFault t .undef 0))

/-- R274 to R276, R280, R281, R291 to R296, R382: a group's submissions, reads and waits; the arbiter, the end of a pass,
the commit of a tile row block by row block, the end of a submission, and the column-store grants. -/
def Obligations.MatrixSubmissionsAndGrants : Prop :=
  let tile := fun (o : Slot) (g : Group) (ls : List Nat) => onceOf o.a g ls
  let hasTile := fun (s : State) (g : Group) (k : Nat) => ∃ n, (entryOf s g.team).tiles = some n ∧ k < n
  let word := fun (s : State) (g : Group) (t r l : Nat) => Tab.getD (tileOf s g.team t).acc (128 * r + l) 0
  (∀ o tc pri, Does (.msub o tc pri)
    (fun s _ g ls => teamed s g ∧ (s.team g.team).obj.mstream = true ∧ onceOf o.a g ls % 12 = 0
      ∧ onceOf o.a g ls < (s.team g.team).obj.msSize
      ∧ ((entryOf s g.team).tiles = none ∨ (entryOf s g.team).tiles = some (tc.toNat + 1))
      ∧ (entryOf s g.team).subs.length < 4 ∧ counterRoom g 2)
    (fun s id g ls u => ∃ m M args, m = { s with teams := m.teams, groups := m.groups }
      ∧ (∀ t, t ≠ g.team → m.team t = s.team t) ∧ m.team g.team = { s.team g.team with mx := some M }
      ∧ (∀ j, m.group j = { s.group j with stores := (m.group j).stores }) ∧ (∀ j, j ≠ id → m.group j = s.group j)
      ∧ Started m u id { opOf g id .msub with counter := some 2 } []
      ∧ M.tiles = some (tc.toNat + 1) ∧ M.index = (entryOf s g.team).index ∧ M.mapped = (entryOf s g.team).mapped
      ∧ M.subs = (entryOf s g.team).subs ++ [⟨s.fresh, onceOf o.a g ls, pri.toNat, args⟩]
      ∧ (∀ k, o.b = .scl k → args.length = 8 ∧ ∀ j, j < 8 → args.getD j 0 = g.readS (k.toNat + j))
      ∧ ((entryOf s g.team).subs ≠ [] → M = { entryOf s g.team with tiles := M.tiles, subs := M.subs })
      ∧ ((entryOf s g.team).subs = [] → M.state = .ready ∧ M.pc = onceOf o.a g ls ∧ M.aBase = 0 ∧ M.bLine = 0 ∧ M.scale = none
        ∧ ∀ j, Tab.getD M.m j 0 = args.getD j 0)))
  ∧ (∀ o tc pri, Raises (.msub o tc pri) (fun s g _ => (s.team g.team).obj.mstream = false) .prot (fun _ _ => 7))
  ∧ (∀ o tc pri, Raises (.msub o tc pri) (fun s g ls => (s.team g.team).obj.mstream = true
      ∧ (onceOf o.a g ls % 12 ≠ 0 ∨ (s.team g.team).obj.msSize ≤ onceOf o.a g ls)) .codeRange (fun _ _ => 0))
  ∧ (∀ o tc pri, Waits (.msub o tc pri) (fun s _ g ls => (s.team g.team).obj.mstream = true ∧ onceOf o.a g ls % 12 = 0
      ∧ onceOf o.a g ls < (s.team g.team).obj.msSize
      ∧ ((entryOf s g.team).tiles = none ∨ (entryOf s g.team).tiles = some (tc.toNat + 1))
      ∧ 4 ≤ (entryOf s g.team).subs.length) (fun _ _ _ => ⟨.room, false, false⟩))
  ∧ (∀ o n, let k := n.toNat + 1
    Does (.mrd o n)
    (fun s _ g ls => hasTile s g (tile o g ls) ∧ onceOf o.b g ls + k ≤ 128
      ∧ onceOf o.b g ls + k ≤ (tileOf s g.team (tile o g ls)).wm ∧ flagRoom g o)
    (fun s id g ls u => ∃ f, (Instr.mrd o n).form = some f
      ∧ Started s u id { opOf g id .engine with
          flag := g.slotFlag o, dest := o.d, destN := k
          res := ls.map (fun l => { lane := l, bytes := ((List.range k).map (fun i =>
            leBytes 4 (word s g (tile o g ls) (onceOf o.b g ls + i) l).toNat)).flatten }) } (formDests f)))
  ∧ (∀ o n, Waits (.mrd o n) (fun s _ g ls => hasTile s g (tile o g ls) ∧ onceOf o.b g ls + (n.toNat + 1) ≤ 128
      ∧ (tileOf s g.team (tile o g ls)).wm < onceOf o.b g ls + (n.toNat + 1))
    (fun _ g ls => ⟨.matrix .wm (tile o g ls) (onceOf o.b g ls + (n.toNat + 1)), false, false⟩))
  ∧ (∀ o n, Raises (.mrd o n) (fun s g ls => ¬hasTile s g (tile o g ls) ∨ 128 < onceOf o.b g ls + (n.toNat + 1))
    .scratchRange (fun _ _ => 5))
  ∧ (∀ o, Does (.mwm o) (fun s _ g ls => teamed s g ∧ hasTile s g (tile o g ls) ∧ ∀ w, (entryOf s g.team).state ≠ .wait w)
    (fun s _ g ls u => let a := tileOf s g.team (tile o g ls)
      TeamOnly s u g.team (fun x y => y = { x with accs := y.accs }
        ∧ (∀ k, k ≠ tile o g ls → Tab.get? y.accs k = Tab.get? x.accs k)
        ∧ (a.commit = true → Tab.getD y.accs (tile o g ls) {} = { a with clear := true })
        ∧ (a.commit = false → (Tab.getD y.accs (tile o g ls) {}).wm = 0 ∧ (Tab.getD y.accs (tile o g ls) {}).acc = a.acc))))
  ∧ (∀ o, Raises (.mwm o) (fun s g ls => ¬hasTile s g (tile o g ls)) .scratchRange (fun _ _ => 5))
  ∧ (∀ o kind, let n := fun (g : Group) (ls : List Nat) => onceOf o.b g ls
    let named := fun (s : State) (g : Group) (ls : List Nat) => (s.team g.team).obj.mstream = true
      ∧ (s.team g.team).helm = false ∧ ∃ k, ((s.team g.team).mx.bind Mx.tiles) = some k
        ∧ (kind = .slots ∨ tile o g ls < k) ∧ (kind = .wm → 1 ≤ n g ls ∧ n g ls ≤ 128) ∧ (kind = .slots → n g ls ≤ 3)
    let holds := fun (s : State) (g : Group) (ls : List Nat) => match kind with
      | .wm => n g ls ≤ (tileOf s g.team (tile o g ls)).wm
      | .free => (tileOf s g.team (tile o g ls)).wm = 0
      | .slots => (entryOf s g.team).subs.length ≤ n g ls
    Does (.waitm o kind) (fun s _ g ls => named s g ls ∧ holds s g ls) (fun s _ _ _ u => u = s)
    ∧ Waits (.waitm o kind) (fun s _ g ls => named s g ls ∧ ¬holds s g ls)
        (fun _ g ls => ⟨.matrix kind (tile o g ls) (n g ls), false, false⟩))
  ∧ (∀ s c t0 rest, (s.engine c).running = none → (∀ t ∈ s.clusterStreams c, ∀ w, (entryOf s t).state ≠ .wait w) →
    s.readyStreams c = t0 :: rest → s.hasStopped (s.team t0).part (s.stopKey c 20) = false →
    ∃ u t, exec (.arbiterGrant c) s = .next u ∧ t ∈ s.readyStreams c
      ∧ (∀ x ∈ s.readyStreams c, (entryOf s x).beats (entryOf s t) = false)
      ∧ u = { s with teams := u.teams, engines := u.engines } ∧ (u.engine c).running = some t
      ∧ (∀ d, d ≠ c → u.engine d = s.engine d)
      ∧ (∀ x, x ∉ s.readyStreams c → u.team x = s.team x)
      ∧ (∀ x ∈ s.readyStreams c, x ≠ t → (entryOf u x).passed ≥ (entryOf s x).passed + 1)
      ∧ (entryOf u t).state = .running ∧ (entryOf u t).mapped = true ∧ (entryOf u t).passK = 0 ∧ (entryOf u t).passI = 0)
  ∧ (∀ s c t, (s.engine c).running = some t → s.teamCluster t = c → Tab.get? s.teams t ≠ none →
    (entryOf s t).state = .running → (64 ≤ (entryOf s t).passK ∨ 32 ≤ (entryOf s t).passI) →
    ∃ u, exec (.passEnd c) s = .next u ∧ u = { s with teams := u.teams, engines := u.engines }
      ∧ u.team t = { s.team t with mx := some { entryOf s t with state := .ready, passed := 0 } }
      ∧ (∀ x, x ≠ t → Tab.get? u.teams x = Tab.get? s.teams x)
      ∧ ∀ d, u.engine d = if d = c then { s.engine c with running := none } else s.engine d)
  ∧ (∀ s c t k rest, (s.engine c).commits = (t, k) :: rest → Tab.get? s.teams t ≠ none →
    let a := tileOf s t k
    (a.wm + 16 < 128 → ∃ u, exec (.tileCommit c) s = .next u ∧ TeamOnly s u t (fun x y => y = { x with accs := y.accs }
      ∧ oneEntry x.accs y.accs k (some { a with wm := a.wm + 16 })))
    ∧ (128 ≤ a.wm + 16 → a.clear = false → ∃ u, exec (.tileCommit c) s = .next u
      ∧ u = { s with teams := u.teams, engines := u.engines } ∧ (∀ x, x ≠ t → Tab.get? u.teams x = Tab.get? s.teams x)
      ∧ u.team t = { s.team t with accs := (u.team t).accs }
      ∧ oneEntry (s.team t).accs (u.team t).accs k (some { a with wm := 128, commit := false })
      ∧ ∀ d, u.engine d = if d = c then { s.engine c with commits := rest } else s.engine d))
  ∧ (∀ s t x rest o, Tab.get? s.teams t ≠ none → (entryOf s t).state = .ending →
    (∀ y ∈ (s.engine (s.teamCluster t)).commits, y.1 ≠ t) → (entryOf s t).subs = x :: rest →
    Tab.get? s.ops x.op = some o → o.flag = none →
    ∃ u, exec (.submissionComplete t) s = .next u ∧ u = { s with teams := u.teams, ops := u.ops, groups := u.groups }
      ∧ Ended s u x.op o ∧ (∀ y, y ≠ t → Tab.get? u.teams y = Tab.get? s.teams y)
      ∧ (entryOf u t).subs = rest ∧ (entryOf u t).tiles = (entryOf s t).tiles
      ∧ (rest = [] → (entryOf u t).state = .idle)
      ∧ (∀ y ys, rest = y :: ys → (entryOf u t).state = .ready ∧ (entryOf u t).pc = y.start))
  ∧ (∀ s part cluster ctx c v, (s.clusters part)[cluster]? = some c → (s.func part).csgBusy = false → ctx < 64 →
    let first := v.toNat % 2 ^ 14
    let lines := v.toNat / 2 ^ 16 % 2 ^ 14
    let refused := 8192 < first + lines ∨ ∃ k, k < 64 ∧ k ≠ ctx ∧ (s.context part k).live = true
      ∧ (s.window part c k).2 ≠ 0 ∧ lines ≠ 0 ∧ first < (s.window part c k).1 + (s.window part c k).2
      ∧ (s.window part c k).1 < first + lines
    ∃ t, exec (.columnStoreGrant part cluster ctx v) s = .next t
      ∧ t = { s with funcs := t.funcs, grants := t.grants } ∧ (∀ p, p ≠ part → t.func p = s.func p)
      ∧ (refused → t.grants = s.grants ∧ t.func part = { s.func part with csgRefused := true })
      ∧ (¬refused → t.window part c ctx = (first, lines) ∧ (t.func part).csgBusy = true
        ∧ (∀ k, k < 64 → k ≠ ctx → t.window part c k = s.window part c k)
        ∧ ∀ z, z ∈ (t.func part).csgZero ↔ ∃ l, z = (c, l, 1) ∧ first ≤ l ∧ l < first + lines
          ∧ ¬((s.window part c ctx).1 ≤ l ∧ l < (s.window part c ctx).1 + (s.window part c ctx).2)))
  ∧ (∀ s part, (s.func part).csgBusy = true → ∃ t, exec (.grantZeroDone part) s = .next t
    ∧ t = { s with mem := t.mem, funcs := t.funcs }
    ∧ (∀ p, t.func p = if p = part then { s.func part with csgBusy := false, csgZero := [] } else s.func p)
    ∧ (∀ z ∈ (s.func part).csgZero, ∀ q b, q < 128 → b < 32 → z.2.1 < 8192 →
      Memory.get t.mem (2 ^ 56 + 2 ^ 25 * z.1 + 2 ^ 18 * q + 32 * z.2.1 + b) = 0)
    ∧ (∀ y, y < 2 ^ 56 → Memory.get t.mem y = Memory.get s.mem y))

/-! ## Views, charts, tile slots and strips -/

namespace Sys2Proof.Claims

/-- A little-endian field of an object in memory. -/
def field (c : List Byte) (off n : Nat) : Nat := leNat ((c.drop off).take n)

/-- A chart object that is well formed (R301). -/
structure Charted (c : List Byte) : Prop where
  magic : field c 0 4 = 0x54524843
  display : ∀ k ∈ [4, 6], 1 ≤ field c k 2 ∧ field c k 2 ≤ 8192
  extent : ∀ k ∈ [8, 10], field c k 2 % 32 = 0 ∧ 32 ≤ field c k 2 ∧ field c k 2 ≤ 4096 ∧ field c (k + 4) 2 ≤ field c k 2
  lengths : ∀ k, k < 16 → 1 ≤ field c (16 + 2 * k) 2 ∧ 1 ≤ field c (64 + 2 * k) 2
  densities : ∀ k, k < 16 → 1 ≤ field c (48 + k) 1 ∧ field c (48 + k) 1 ≤ 64 ∧ 1 ≤ field c (96 + k) 1 ∧ field c (96 + k) 1 ≤ 64
  reserved : field c 112 16 = 0

/-- L_k and q_k of an axis of a snapshot's chart, and its centre C0 (R301, R302). -/
def segLength (sn : Snap) (y : Bool) (k : Nat) : Nat := field sn.chart ((if y then 64 else 16) + 2 * k) 2
def density (sn : Snap) (y : Bool) (k : Nat) : Nat := field sn.chart ((if y then 96 else 48) + k) 1
def centre (sn : Snap) (y : Bool) : Nat := field sn.chart (if y then 14 else 12) 2

/-- A breakpoint: the sum of the segments between it and breakpoint 8, negative before it (R302). -/
def breakAt (f : Nat → Nat) (k : Nat) : Int :=
  if 8 ≤ k then (((List.range k).drop 8).map (fun i => (f i : Int))).sum
  else -(((List.range 8).drop k).map (fun i => (f i : Int))).sum

/-- e_k, and g_k in sixteenths (R302). -/
def displayBreak (sn : Snap) (y : Bool) (k : Nat) : Int := breakAt (segLength sn y) k
def chartBreak (sn : Snap) (y : Bool) (k : Nat) : Int := breakAt (fun i => density sn y i * segLength sn y i) k

/-- The segment of a coordinate: the last whose breakpoint does not lie above it, segment 0 below them all. -/
def segmentOf (brk : Nat → Frac) (u : Frac) : Nat := ((List.range 16).filter (fun k => k == 0 || (brk k).le u)).getLastD 0

/-- C0 + F(d - p), and p + G(c - C0) (R302). -/
def toChart (sn : Snap) (y : Bool) (p d : Frac) : Frac :=
  let u := d.sub p
  let k := segmentOf (fun k => Frac.ofInt (displayBreak sn y k)) u
  (Frac.ofNat (centre sn y)).add ((Frac.make (chartBreak sn y k) 16).add
    ((Frac.make (density sn y k) 16).mul (u.sub (Frac.ofInt (displayBreak sn y k)))))
def toDisplay (sn : Snap) (y : Bool) (p c : Frac) : Frac :=
  let v := c.sub (Frac.ofNat (centre sn y))
  let k := segmentOf (fun k => Frac.make (chartBreak sn y k) 16) v
  p.add ((Frac.ofInt (displayBreak sn y k)).add
    ((Frac.make 16 (density sn y k)).mul (v.sub (Frac.make (chartBreak sn y k) 16))))

/-- The result of CHARTXF for a coordinate, with its flags (R312). -/
def mapped (sn : Snap) (inv y : Bool) (p : Frac) (x : FVal) : Nat × FFlags :=
  match x with
  | .nan sg => (0x7FC00000, if sg then flagNV else 0)
  | .inf neg => (if neg then 0xFF800000 else 0x7F800000, 0)
  | .fin n m e st =>
    match (FVal.fin n m e st).frac? with
    | some v => roundFmt .f32 (if inv then toDisplay sn y p v else toChart sn y p v).val .rn false false 0
    | none => (0, 0)

/-- A global-memory instruction that reads for one result: it sends its operation with the line actions of all its accesses
(R250, R311, R327). -/
def SendsReads (i : Instr) (o : Slot) (ok : State → Group → List Nat → Prop) (k : Group → List Nat → Ask)
    (want : Group → List Nat → List Want) : Prop :=
  ∀ s id g c f, Issues i s id g c f → let ls := g.guarded f.slot
    ok s g ls → ((k g ls).det = true → g.detlevel = 0) →
    (∀ w ∈ want g ls, w.va % (k g ls).align = 0 ∧ (reached s g (k g ls) w).isSome = true) → flagRoom g o →
    let at_ := fun (j : Nat) => (reached s g (k g ls) ((want g ls).getD j {})).getD ({}, false)
    ∃ u t, Sent s u id g o f (k g ls) (List.range (want g ls).length) (fun j => (at_ j).1) (fun j => (at_ j).2)
      ∧ exec i s = .next t ∧ SlotOver u t id c

/-- Four words that describe an image (R326). -/
structure Describes (lvl : SampLvl) (w : Nat → Nat) (im : Image) : Prop where
  base : im.base = w 0 + 2 ^ 32 * w 1
  high : lvl ≠ .glob → w 1 = 0
  size : im.w = w 2 % 2 ^ 16 ∧ im.h = w 2 / 2 ^ 16
  sizes : 1 ≤ im.w ∧ im.w ≤ 16384 ∧ 1 ≤ im.h ∧ im.h ≤ 16384
  pitch : im.pitch = w 3 % 2 ^ 18 ∧ im.pitch % 16 = 0 ∧ im.w * texelBytes im.fmt ≤ im.pitch
  format : im.fmt = w 3 / 2 ^ 18 % 16 ∧ im.fmt ≤ 2 ∧ w 3 / 2 ^ 22 = 0

/-- The texels that a lane of SAMPLE reads. -/
def texels (o : Slot) (lin : Bool) (im : Image) (g : Group) (l : Nat) : List (Nat × Nat) :=
  im.taps lin (g.valueAt o.a 0 l) (g.valueAt o.a 1 l)

/-- A coordinate of SAMPLE: 0 for a NaN, else clamped to [-1, n + 1] (R327). -/
def clamped (n : Nat) (t : Word) : Frac :=
  match fpValue .f32 false t.toNat with
  | .nan _ => ⟨0, 1⟩
  | .inf neg => if neg then ⟨-1, 1⟩ else ⟨n + 1, 1⟩
  | .fin a m e st => (((FVal.fin a m e st).frac?.getD ⟨0, 1⟩).max ⟨-1, 1⟩).min ⟨n + 1, 1⟩

/-- The words of an operand's run. -/
def wordsOf (o : Operand) (g : Group) (ls : List Nat) (j : Nat) : Nat := (g.valueAt o j (ls.headD 0)).toNat

/-- The descriptor of emit.open is right, with the team's snapshot (R310). -/
structure Opens (s : State) (t : Team) (w : Nat → Nat) (sn : Snap) : Prop where
  fields : w 2 / 2 ^ 18 % 4 ≤ 1 ∧ w 2 / 2 ^ 24 = 0 ∧ 1 ≤ w 3 ∧ w 3 < 4096
  places : w 0 % 16 = 0 ∧ w 1 % 16 = 0 ∧ (w 0 + 16384 ≤ w 1 ∨ w 1 + (16 + 64 * w 3) ≤ w 0)
  snap : Tab.get? t.snaps (w 2 / 2 ^ 14 % 16) = some sn
  window : 32 * (w 2 % 128) + 32 ≤ field sn.chart 8 2 ∧ 32 * (w 2 / 2 ^ 7 % 128) + 32 ≤ field sn.chart 10 2
  tile : inView s t (if w 2 / 2 ^ 18 % 4 = 0 then .core else .clus) false 16384 (w 0)
  bin : inView s t (if w 2 / 2 ^ 18 % 4 = 0 then .core else .clus) false (16 + 64 * w 3) (w 1)

end Sys2Proof.Claims

/-- R300, R302, R305, R306, R309 to R313, R324 to R327: CHARTXF maps a coordinate through its segment and rounds once; VBLD
and a SAMPLE of global memory send their reads, and a SAMPLE of scratch returns its weighted texels; EMIT submits
triangles to the OPEN slots of its team and its mask, opens and closes slots; TILEOUT and CLASSIFY start their engines. -/
def Obligations.GraphicsInstructions : Prop :=
  let slotKey := fun (g : Group) (k : Nat) => 16 * g.core + k
  let snapOf := fun (s : State) (g : Group) (v : Nat) => Tab.get? (s.team g.team).snaps v
  let marked := fun (s m : State) => m = { s with teams := m.teams }
    ∧ ∀ t, m.team t = { s.team t with wrote := (m.team t).wrote, committed := (m.team t).committed }
  (∀ o inv y sn p, Does (.chartxf o inv y)
    (fun s _ g ls => snapOf s g (onceOf o.b g ls) = some sn ∧ Charted sn.chart
      ∧ wordFrac? (if y then sn.py else sn.px) = some p)
    (fun s id g ls u => u = { s with groups := u.groups, fresh := s.fresh + 128 }
      ∧ (∀ j, j ≠ id → Tab.get? u.groups j = Tab.get? s.groups j)
      ∧ (∃ f, (Instr.chartxf o inv y).form = some f ∧ KeepsOthers f ls g (u.group id))
      ∧ word o.d (fun g l => BitVec.ofNat 32 (mapped sn inv y p (g.fval .f32 false o.a l)).1) g ls (u.group id)
      ∧ raises (fun g l => (mapped sn inv y p (g.fval .f32 false o.a l)).2) g ls (u.group id)))
  ∧ (∀ o inv y sn, Does (.chartxf o inv y)
    (fun s _ g ls => snapOf s g (onceOf o.b g ls) = some sn)
    (fun s id g ls u => u = { s with groups := u.groups, fresh := s.fresh + 128 }
      ∧ (∀ j, j ≠ id → Tab.get? u.groups j = Tab.get? s.groups j)
      ∧ ∃ f, (Instr.chartxf o inv y).form = some f ∧ KeepsOthers f ls g (u.group id)))
  ∧ (∀ o inv y, Raises (.chartxf o inv y) (fun s g ls => snapOf s g (onceOf o.b g ls) = none) .prot (fun _ _ => 0x0C))
  ∧ (∀ o (set_ : Bool), SendsReads (if set_ then .vbldSet o else .vbldLat o) o (fun _ _ _ => True)
    (fun g ls => { n := 64, align := 64, hostOk := true, det := !set_, returns := true, regs := 2
                   body := .vbld (onceOf o.a g ls)
                     (if set_ then some (g.valueAt o.c 0 (ls.headD 0), g.valueAt o.c 1 (ls.headD 0)) else none) })
    (fun g ls => (List.range 3).map (fun j => { va := (g.value64 o.b (ls.headD 0)).toNat + 64 * j })))
  ∧ (∀ o, Raises (.vbldLat o) (fun _ g _ => 1 ≤ g.detlevel) .detViol (fun _ _ => 0x2C1))
  ∧ (∀ o lin im, SendsReads (.sample o .glob lin) o
    (fun _ g ls => Describes .glob (wordsOf o.b g ls) im ∧ im.base % 16 = 0)
    (fun g ls => { n := texelBytes im.fmt, align := 4, hostOk := true, returns := true, regs := 4
                   body := .sample im lin (ls.map (fun l => (l, g.valueAt o.a 0 l, g.valueAt o.a 1 l))) })
    (fun g ls => (ls.map (fun l => (texels o lin im g l).map (fun t => { lane := l, va := im.base + t.1 }))).flatten))
  ∧ (∀ o sl lvl lin im, sampLvl? sl = some lvl → Does (.sample o sl lin)
    (fun s _ g ls => Describes sl (wordsOf o.b g ls) im ∧ im.base % 16 = 0 ∧ flagRoom g o
      ∧ ∀ l ∈ ls, ∀ t ∈ texels o lin im g l, inView s (s.team g.team) lvl false (texelBytes im.fmt) (im.base + t.1)
        ∧ canAct s (s.team g.team) lvl {} (texelBytes im.fmt) (im.base + t.1))
    (fun s id g ls u => ∃ f m res, (Instr.sample o sl lin).form = some f
      ∧ m = s.applyStanding g.team lvl {} ((ls.map (fun l =>
          (texels o lin im g l).map (fun t => (⟨l, im.base + t.1, texelBytes im.fmt⟩ : Acc)))).flatten)
      ∧ Started m u id { opOf g id .value with flag := g.slotFlag o, dest := o.d, destN := 4, res := res } (formDests f)
      ∧ res.map LaneRes.lane = ls
      ∧ ∀ r ∈ res, ∀ c, c < 4 → leNat ((r.bytes.drop (4 * c)).take 4) = (im.component ((texels o lin im g r.lane).map
          (fun t => (t.2, s.scratchRead g.team lvl (im.base + t.1) (texelBytes im.fmt)))) c).toNat))
  ∧ (∀ o sl lin, Raises (.sample o sl lin)
    (fun _ g ls => ∀ im, ¬Describes sl (wordsOf o.b g ls) im) .prot (fun _ _ => 0x0A))
  ∧ (∀ o sl lin im, Raises (.sample o sl lin)
    (fun _ g ls => Describes sl (wordsOf o.b g ls) im ∧ im.base % 16 ≠ 0) .align (fun _ _ => 0x39))
  ∧ (∀ (im : Image) (u v : Word) (lin : Bool), im.taps lin u v = ((axisTaps lin im.h v).map (fun y =>
      (axisTaps lin im.w u).map (fun x => (y.1 * im.pitch + x.1 * texelBytes im.fmt, x.2 * y.2)))).flatten)
  ∧ (∀ (n : Nat) (t : Word), 1 ≤ n →
    let near := fun (i : Int) => if i < 0 then 0 else if (n : Int) ≤ i then n - 1 else i.toNat
    let x := (clamped n t).sub ⟨1, 2⟩
    let w := ((x.sub (Frac.ofInt x.floor)).snap.mul ⟨256, 1⟩).floor.toNat
    axisTaps false n t = [(near (clamped n t).floor, 256)]
      ∧ (w = 0 → axisTaps true n t = [(near x.floor, 256)])
      ∧ (w = 256 → axisTaps true n t = [(near (x.floor + 1), 256)])
      ∧ (w ≠ 0 → w ≠ 256 → axisTaps true n t = [(near x.floor, 256 - w), (near (x.floor + 1), w)]))
  ∧ (∀ (im : Image) (ts : List (Nat × List Byte)) (c : Nat), im.fmt = 0 →
    im.component ts c = (Frac.make ((ts.map (fun t => t.1 * (t.2.getD c 0).toNat)).sum : Nat) (65536 * 255)).word)
  ∧ (∀ (im : Image) (ts : List (Nat × List Byte)), im.fmt = 2 →
    im.component ts 1 = 0 ∧ im.component ts 2 = 0 ∧ im.component ts 3 = 0x3F800000)
  ∧ (∀ o cullb, Does (.emitPrim o cullb)
    (fun _ _ g ls => (∀ l ∈ ls, (g.value64 o.b l).toNat % 256 = 0) ∧ counterRoom g 4)
    (fun s id g ls u => ∃ slots : List (Nat × Nat), Started s u id { opOf g id (.emit (ls.map (fun l =>
          { verts := (List.range 9).map (fun j => g.valueAt o.a j l), ident := (g.value64 o.b l).toNat
            cull := cullb, slots := slots }))) with counter := some 4 } []
      ∧ ∀ k n, (k, n) ∈ slots ↔ ∃ j, j < 16 ∧ k = slotKey g j ∧ (s.tslot k).state = .opened ∧ (s.tslot k).team = g.team
        ∧ (g.value o.c (ls.headD 0)).getLsbD (s.tslot k).view = true ∧ n = (s.tslot k).opening))
  ∧ (∀ o cullb l, Raises (.emitPrim o cullb)
    (fun _ g ls => ls.find? (fun l => (g.value64 o.b l).toNat % 256 != 0) = some l)
    .prot (fun _ _ => BitVec.ofNat 32 (0x0F + 256 * l)))
  ∧ (∀ o sn, Does (.emitOpen o)
    (fun s _ g ls => onceOf o.a g ls ≤ 15 ∧ (s.tslot (slotKey g (onceOf o.a g ls))).state = .free
      ∧ Opens s (s.team g.team) (wordsOf o.b g ls) sn ∧ counterRoom g 4)
    (fun s _ g ls u => let w := wordsOf o.b g ls
      u = { s with tslots := u.tslots, fresh := s.fresh + 1 }
      ∧ (∀ k, k ≠ slotKey g (onceOf o.a g ls) → u.tslot k = s.tslot k)
      ∧ u.tslot (slotKey g (onceOf o.a g ls))
        = { state := .opened, team := g.team, opening := s.fresh, tile := w 0, bin := w 1, tx := 32 * (w 2 % 128)
            ty := 32 * (w 2 / 2 ^ 7 % 128), view := w 2 / 2 ^ 14 % 16
            lvl := if w 2 / 2 ^ 18 % 4 = 0 then .core else .clus, closes := w 2 / 2 ^ 20 % 16 + 1, cap := w 3
            snap := sn }))
  ∧ (∀ o, Waits (.emitOpen o)
    (fun s _ g ls => onceOf o.a g ls ≤ 15 ∧ (s.tslot (slotKey g (onceOf o.a g ls))).state ≠ .free)
    (fun _ _ _ => ⟨.room, false, false⟩))
  ∧ (∀ o, Raises (.emitOpen o) (fun _ g ls => 15 < onceOf o.a g ls) .prot (fun _ _ => 0x0D))
  ∧ (∀ o, Does (.emitClose o)
    (fun s _ g ls => let x := s.tslot (slotKey g (onceOf o.a g ls))
      onceOf o.a g ls ≤ 15 ∧ x.state = .opened ∧ x.team = g.team ∧ counterRoom g 4)
    (fun s id g ls u => let key := slotKey g (onceOf o.a g ls)
      let x := s.tslot key
      ∃ m before, m = { s with tslots := m.tslots } ∧ (∀ k, k ≠ key → m.tslot k = s.tslot k)
        ∧ (x.made + 1 < x.closes → m.tslot key = { x with made := x.made + 1, before := x.before ++ before })
        ∧ (x.closes ≤ x.made + 1 → m.tslot key = { x with
            made := x.made + 1, before := x.before ++ before, state := .closing, group := id, pc := g.slotPc, op := s.fresh })
        ∧ (∀ n, n ∈ before ↔ ∃ y ps, (n, y) ∈ s.ops ∧ y.group = id ∧ y.body = .emit ps)
        ∧ Started m u id { opOf g id (.emitClose before (decide (x.closes ≤ x.made + 1))) with counter := some 4 } []))
  ∧ (∀ o, Raises (.emitClose o)
    (fun s g ls => 15 < onceOf o.a g ls ∨ (s.tslot (slotKey g (onceOf o.a g ls))).state ≠ .opened
      ∨ (s.tslot (slotKey g (onceOf o.a g ls))).team ≠ g.team) .prot (fun _ _ => 0x0E))
  ∧ (∀ o clus, let lvl : Lvl := if clus then .clus else .core
    let k := fun (g : Group) (ls : List Nat) => wordsOf o.b g ls 1
    Does (.tileout o clus)
      (fun s _ g ls => g.detlevel = 0 ∧ onceOf o.a g ls % 16 = 0 ∧ wordsOf o.b g ls 2 % 16 = 0
        ∧ (∃ x, s.view (s.team g.team) lvl (onceOf o.a g ls) 16384 = .ok x)
        ∧ (∃ x, s.view (s.team g.team) lvl (wordsOf o.b g ls 2) 16 = .ok x)
        ∧ k g ls / 2 ^ 11 = 0 ∧ s.viewPart (k g ls % 16) = g.part
        ∧ 64 * (k g ls / 16 % 128) < (s.view? (k g ls % 16)).hact ∧ counterRoom g 1)
      (fun s id g ls u => ∃ m, marked s m
        ∧ Started m u id { opOf g id (.tileout lvl (onceOf o.a g ls) (g.valueAt o.b 0 (ls.headD 0)) (k g ls % 16)
            (k g ls / 16 % 128) (wordsOf o.b g ls 2)) with counter := some 1 } []))
  ∧ (∀ o clus, Raises (.tileout o clus) (fun _ g _ => 1 ≤ g.detlevel) .detViol (fun _ _ => 0x2C5))
  ∧ (∀ o clus, Raises (.tileout o clus)
    (fun _ g ls => g.detlevel = 0 ∧ (onceOf o.a g ls % 16 ≠ 0 ∨ wordsOf o.b g ls 2 % 16 ≠ 0)) .align (fun _ _ => 0x38))
  ∧ (∀ o clus, let lvl : Lvl := if clus then .clus else .core
    let good := fun (s : State) (g : Group) (ls : List Nat) =>
      inView s (s.team g.team) lvl false 16384 (onceOf o.a g ls) ∧ onceOf o.a g ls % 16 = 0
        ∧ (g.value64 o.b (ls.headD 0)).toNat % 32 = 0
    Does (.classify o clus)
      (fun s id g ls => good s g ls ∧ (∃ x, s.groupNode g = some x) ∧ (g.detlevel = 0 ∨ s.clockLeast id = true)
        ∧ counterRoom g 4)
      (fun s id g ls u => ∃ m, marked s m
        ∧ Started m u id { opOf g id (.classify lvl (onceOf o.a g ls) (g.value64 o.b (ls.headD 0)).toNat none) with
            counter := some 4, after := s.releaseOps id .dev } [])
    ∧ Waits (.classify o clus)
      (fun s id g ls => good s g ls ∧ (∃ x, s.groupNode g = some x) ∧ 1 ≤ g.detlevel ∧ s.clockLeast id = false)
      (fun _ _ _ => ⟨.clock, false, false⟩)
    ∧ Raises (.classify o clus) (fun s g ls => good s g ls ∧ s.groupNode g = none) .recpool (fun _ _ => 1)
    ∧ Raises (.classify o clus)
      (fun s g ls => inView s (s.team g.team) lvl false 16384 (onceOf o.a g ls)
        ∧ (onceOf o.a g ls % 16 ≠ 0 ∨ (g.value64 o.b (ls.headD 0)).toNat % 32 ≠ 0)) .align (fun _ _ => 0x37))

namespace Sys2Proof.Claims

/-- A team's view of core scratch takes accesses plainly: it has no buffers and no mapped regions, and is neither under
comparison nor a copy. -/
structure Plain (s : State) (t : Nat) : Prop where
  bufs : (s.team t).bufs = []
  regions : (s.team t).regions = []
  checked : (s.team t).checked = false
  original : (s.team t).copyOf = none
  clean : s.poison = []

/-- Granules written by an engine in a team's core scratch: 16-byte values at an offset on, each left full. -/
def granulesAt (t : State) (space off : Nat) (vs : List (List Byte)) : Prop :=
  (∀ i b, i < vs.length → b < 16 → Memory.get t.mem (spaceKey space (off + 16 * i) + b) = (vs.getD i []).getD b 0)
    ∧ (∀ i, i < vs.length → spaceKey space (off + 16 * i) ∈ t.full)

/-- Every byte of core scratch but those of some ranges is as before, and every bit but those of their granules. -/
def elsewhere (s t : State) (rs : List (Nat × Nat)) : Prop :=
  (∀ y, (∀ r ∈ rs, y < r.1 ∨ r.1 + r.2 ≤ y) → Memory.get t.mem y = Memory.get s.mem y)
    ∧ (∀ y, y ∈ t.full ↔ y ∈ s.full ∨ ∃ r ∈ rs, r.1 ≤ y ∧ y < r.1 + r.2 ∧ y % 16 = 0)

/-- A visibility sample: PRIM, DEPTH and the cookie of its chart position with its flags (R303, R304). -/
def granule (prim depth flags kx ky view : Nat) : List Byte :=
  leBytes 8 prim ++ leBytes 4 depth ++ leBytes 4 (flags + 16 * ky + 2 ^ 16 * kx + 2 ^ 28 * view)

/-- The display position of a chart sample on an axis: exact, then snapped (R302). -/
def displayAt (sn : Snap) (y : Bool) (p : Frac) (k : Nat) : Frac := (toDisplay sn y p (Frac.make (2 * k + 1) 2)).snap

/-- A corner of a prepared primitive. -/
def corner (ps : List (Int × Nat)) (i : Nat) : Frac := pairFrac (ps.getD (i % 3) (0, 1))

/-- The edge function E_i at a point, negated where the area is negative (R307). -/
def edgeAt (p : Prim) (i : Nat) (sx sy : Frac) : Frac :=
  let e := (((corner p.xs (i + 1)).sub (corner p.xs i)).mul (sy.sub (corner p.ys i))).sub
    (((corner p.ys (i + 1)).sub (corner p.ys i)).mul (sx.sub (corner p.xs i)))
  if (area (p.xs.map pairFrac) (p.ys.map pairFrac)).isNeg then e.neg else e

/-- The direction of an edge, oriented as E_i is (R307). -/
def edgeDir (p : Prim) (cs : List (Int × Nat)) (i : Nat) : Frac :=
  let d := (corner cs (i + 1)).sub (corner cs i)
  if (area (p.xs.map pairFrac) (p.ys.map pairFrac)).isNeg then d.neg else d

/-- A point is covered (R307). -/
def covered (p : Prim) (sx sy : Frac) : Prop :=
  ∀ i, i < 3 → let e := edgeAt p i sx sy
    0 < e.num ∨ (e.num = 0 ∧ ((edgeDir p p.ys i).num < 0 ∨ ((edgeDir p p.ys i).num = 0 ∧ 0 < (edgeDir p p.xs i).num)))

end Sys2Proof.Claims

/-- R233, R302 to R308, R311, R313, R325, R327: the raster unit prepares, bins or drops a primitive in each slot that takes
it, and resolves a slot to its samples and its status granule, whatever the order of the binned primitives; a view and a
sample of global memory complete; the classifier reads its tile and commits its records node by node; the serialiser
writes a tile of a latch whose deadline has not passed, or refuses it, with its status granule. -/
def Obligations.GraphicsEngines : Prop :=
  let member := fun (s : State) (x : TSlot) (t : Nat) => (s.group x.group).team = t
  (∀ s op o p rest, Tab.get? s.ops op = some o → o.body = .emit (p :: rest) → (p.slots.map Prod.fst).Nodup →
    ∃ t, exec (.primitiveBinned op) s = .next t
      ∧ t = { s with tslots := t.tslots, ops := t.ops, groups := t.groups }
      ∧ (∀ k, (∀ n, (k, n) ∉ p.slots) → t.tslot k = s.tslot k)
      ∧ (∀ k n, (k, n) ∈ p.slots → let x := s.tslot k
        let takes := x.opening = n ∧ (x.state = .opened ∨ (x.state = .closing ∧ op ∈ x.before))
        (¬takes → t.tslot k = x)
        ∧ (takes → x.prepare p = none → t.tslot k = { x with dropped := x.dropped + 1 })
        ∧ (∀ q, takes → x.prepare p = some q → x.binTest q = false → t.tslot k = x)
        ∧ (∀ q, takes → x.prepare p = some q → x.binTest q = true → t.tslot k =
            { x with prims := x.prims ++ (if x.binned < x.cap then [q] else []), binned := x.binned + 1 }))
      ∧ (rest ≠ [] → t.groups = s.groups ∧ Tab.get? t.ops op = some { o with body := .emit rest }
        ∧ ∀ j, j ≠ op → Tab.get? t.ops j = Tab.get? s.ops j)
      ∧ (rest = [] → Ended s t op o))
  ∧ (∀ (sn : Snap) (m v : Nat → Frac), (∀ k, k < 16 → wordFrac? (BitVec.ofNat 32 (field sn.chart (128 + 4 * k) 4)) = some (m k)) →
    (∀ k, 0 < (v k).den) →
    let row := fun (i : Nat) =>
      ((((m (4 * i)).mul (v 0)).add ((m (4 * i + 1)).mul (v 1))).add ((m (4 * i + 2)).mul (v 2))).add (m (4 * i + 3))
    ((row 3).num ≤ 0 → sn.vertex [v 0, v 1, v 2] = none)
    ∧ (0 < (row 3).num → sn.vertex [v 0, v 1, v 2] = some
        (((Frac.make (field sn.chart 4 2) 2).mul (((row 0).div (row 3)).add ⟨1, 1⟩)).snap,
          ((Frac.make (field sn.chart 6 2) 2).mul ((⟨1, 1⟩ : Frac).sub ((row 1).div (row 3)))).snap, (row 2).div (row 3))))
  ∧ (∀ (x : TSlot) (p : Emitted) (w : Nat → Frac) (v : Nat → Frac × Frac × Frac), p.verts.length = 9 →
    (∀ k, k < 9 → wordFrac? (p.verts.getD k 0) = some (w k)) →
    (∀ k, k < 3 → x.snap.vertex [w (3 * k), w (3 * k + 1), w (3 * k + 2)] = some (v k)) →
    let a := area [(v 0).1, (v 1).1, (v 2).1] [(v 0).2.1, (v 1).2.1, (v 2).2.1]
    let far := ∃ k, k < 3 ∧ ((Frac.ofNat 32768).le (v k).1.abs = true ∨ (Frac.ofNat 32768).le (v k).2.1.abs = true)
    ((far ∨ a.num = 0 ∨ (p.cull = true ∧ a.num < 0)) → x.prepare p = none)
    ∧ (¬far → a.num ≠ 0 → ¬(p.cull = true ∧ a.num < 0) → ∃ q, x.prepare p = some q ∧ q.ident = p.ident + 16 * x.view
        ∧ ∀ k, k < 3 → corner q.xs k = (v k).1 ∧ corner q.ys k = (v k).2.1 ∧ corner q.zs k = (v k).2.2))
  ∧ (∀ (p : Prim) (sx sy : Frac) (d : Word), p.depth? sx sy = some d ↔
    covered p sx sy ∧ d = (((((edgeAt p 1 sx sy).mul (corner p.zs 0)).add ((edgeAt p 2 sx sy).mul (corner p.zs 1))).add
        ((edgeAt p 0 sx sy).mul (corner p.zs 2))).div (area (p.xs.map pairFrac) (p.ys.map pairFrac)).abs).word
      ∧ ∃ v, wordFrac? d = some v ∧ 0 ≤ v.num ∧ v.le ⟨1, 1⟩ = true)
  ∧ (∀ (x : TSlot) (i : Nat) (px py : Frac), i < 1024 → Charted x.snap.chart → wordFrac? x.snap.px = some px →
    wordFrac? x.snap.py = some py →
    let kx := x.tx + i % 32
    let ky := x.ty + i / 32
    let sx := displayAt x.snap false px kx
    let sy := displayAt x.snap true py ky
    let off := sx.num < 0 ∨ (Frac.ofNat (field x.snap.chart 4 2)).le sx = true
      ∨ sy.num < 0 ∨ (Frac.ofNat (field x.snap.chart 6 2)).le sy = true
    (off → x.sample i = granule (2 ^ 64 - 1) 0 4 kx ky x.view)
    ∧ (¬off → x.cap < x.binned → x.sample i = granule (2 ^ 64 - 1) 0 8 kx ky x.view)
    ∧ (¬off → x.binned ≤ x.cap → (∀ p ∈ x.prims, p.depth? sx sy = none) →
      x.sample i = granule (2 ^ 64 - 1) 0 0 kx ky x.view)
    ∧ (¬off → x.binned ≤ x.cap → (∃ p ∈ x.prims, (p.depth? sx sy).isSome = true) →
      ∃ p ∈ x.prims, ∃ d v, p.depth? sx sy = some d ∧ wordFrac? d = some v
        ∧ x.sample i = granule p.ident d.toNat
          (if (area (p.xs.map pairFrac) (p.ys.map pairFrac)).isNeg then 1 else 3) kx ky x.view
        ∧ ∀ q ∈ x.prims, ∀ e, q.depth? sx sy = some e →
          ∃ u, wordFrac? e = some u ∧ (u.lt v = true ∨ (v.lt u = false ∧ p.ident ≤ q.ident))))
  ∧ (∀ s team slot, let key := 16 * (s.team team).core + slot
    let x := s.tslot key
    let sp := (s.team team).coreScr
    slot ≤ 15 → x.team = team → x.state = .closing → member s x team → s.pendingOps x.before = [] → x.lvl = .core →
    Plain s team → x.tile + 16384 ≤ s.allocSize sp → x.bin + 16 ≤ s.allocSize sp → x.tile % 16 = 0 → x.bin % 16 = 0 →
    (x.tile + 16384 ≤ x.bin ∨ x.bin + 16 ≤ x.tile) →
    ∃ t, exec (.tileResolve team slot) s = .next t
      ∧ t = { s with mem := t.mem, full := t.full, tslots := t.tslots, ops := t.ops, groups := t.groups }
      ∧ granulesAt t sp x.tile ((List.range 1024).map x.sample)
      ∧ granulesAt t sp x.bin [leBytes 4 x.binned ++ leBytes 4 x.dropped ++ leBytes 8 (if x.cap < x.binned then 1 else 0)]
      ∧ elsewhere s t [(spaceKey sp x.tile, 16384), (spaceKey sp x.bin, 16)]
      ∧ t.tslot key = {} ∧ (∀ k, k ≠ key → t.tslot k = s.tslot k)
      ∧ ∀ o, Tab.get? s.ops x.op = some o → Ended s t x.op o)
  ∧ (∀ s op o x view (set_ : Option (Word × Word)) k a (r : Nat → LaneRes), Tab.get? s.ops op = some o →
    o.body = .vbld view set_ → o.flag.isSome = true → o.ue = false → o.lines.all LineAct.done = true →
    o.dest = .scl k → o.destN = 2 → o.tag = false → o.pq = none → a < 2 ^ 63 →
    (∀ va, va ∈ ((o.lines.map LineAct.accs).flatten).map LaneAcc.va ↔ va = a ∨ va = a + 64 ∨ va = a + 128) →
    (∀ j, j < 3 → o.res.find? (fun y => y.va == a + 64 * j) = some (r j)) →
    Tab.get? s.teams (s.group o.group).team = some x → x.saved = false → Tab.get? s.groups o.group ≠ none →
    let v := s.view? view
    let chart := (r 0).bytes ++ (r 1).bytes ++ (r 2).bytes
    let sn : Snap := { chart := chart, px := (set_.getD (v.brgx, v.brgy)).1, py := (set_.getD (v.brgx, v.brgy)).2
                       lseq := if set_.isSome then 0 else v.lseq }
    ∃ t, exec (.flagCompletion op) s = .next t
      ∧ t = { s with ops := Tab.erase s.ops op, groups := t.groups, teams := t.teams }
      ∧ (∀ j, j ≠ o.group → Tab.get? t.groups j = Tab.get? s.groups j)
      ∧ (∀ j, j ≠ (s.group o.group).team → Tab.get? t.teams j = Tab.get? s.teams j)
      ∧ (∃ y, Tab.get? t.teams (s.group o.group).team = some y ∧ y = { x with snaps := y.snaps }
        ∧ ((view < 16 ∧ Tab.getD s.pt.view view 0 = o.part) → Charted chart → oneEntry x.snaps y.snaps view (some sn)
          ∧ (t.group o.group).readS (k.toNat + 1) = 0)
        ∧ ((view < 16 ∧ Tab.getD s.pt.view view 0 = o.part) → ¬Charted chart → oneEntry x.snaps y.snaps view none
          ∧ (t.group o.group).readS (k.toNat + 1) = 1)
        ∧ (¬(view < 16 ∧ Tab.getD s.pt.view view 0 = o.part) → oneEntry x.snaps y.snaps view none
          ∧ (t.group o.group).readS (k.toNat + 1) = 2))
      ∧ ((view < 16 ∧ Tab.getD s.pt.view view 0 = o.part) → (t.group o.group).readS k.toNat = sn.lseq)
      ∧ (∀ j, j ≠ k.toNat → j ≠ k.toNat + 1 → (t.group o.group).readS j = (s.group o.group).readS j))
  ∧ (∀ s op o im lin uv k l u v, Tab.get? s.ops op = some o → o.body = .sample im lin uv → o.flag.isSome = true →
    o.ue = false → o.lines.all LineAct.done = true → o.dest = .vec k → o.destN = 4 → o.tag = false → o.pq = none →
    (s.team (s.group o.group).team).saved = false → Tab.get? s.groups o.group ≠ none → (uv.map Prod.fst).Nodup →
    (l, u, v) ∈ uv → l < 128 →
    ∃ t, exec (.flagCompletion op) s = .next t ∧ t = { s with ops := Tab.erase s.ops op, groups := t.groups }
      ∧ (∀ j, j ≠ o.group → Tab.get? t.groups j = Tab.get? s.groups j)
      ∧ ∀ c, c < 4 → (t.group o.group).readV (k.toNat + c) l = im.component ((im.taps lin u v).map (fun p =>
          (p.2, ((o.res.find? (fun y => y.lane == l && y.va == im.base + p.1)).getD {}).bytes))) c)
  ∧ (∀ (s : State) (g : Group) (d e : List Byte), let prim := field e 0 8
    let inst := prim / 2 ^ 40
    let mesh := prim / 2 ^ 16 % 2 ^ 24
    let read := fun (va n : Nat) => s.readRange g.unit g.part g.ctx va n
    let nodeOf := fun (m : Nat) => read (field d 16 8 + m) 1
    (prim = 2 ^ 64 - 1 → s.classifySample g d e = .ok (field d 14 1))
    ∧ (∀ b, prim ≠ 2 ^ 64 - 1 → field d 8 4 ≤ inst → nodeOf (field d 12 2) = .ok b →
      s.classifySample g d e = .ok (leNat b))
    ∧ (∀ ent b, prim ≠ 2 ^ 64 - 1 → inst < field d 8 4 → read (field d 0 8 + 16 * inst) 16 = .ok ent →
      field ent 8 4 ≤ mesh → nodeOf (field d 12 2) = .ok b → s.classifySample g d e = .ok (leNat b))
    ∧ (∀ ent m b, prim ≠ 2 ^ 64 - 1 → inst < field d 8 4 → read (field d 0 8 + 16 * inst) 16 = .ok ent →
      mesh < field ent 8 4 → read (field ent 0 8 + 2 * mesh) 2 = .ok m → nodeOf (leNat m) = .ok b →
      s.classifySample g d e = .ok (leNat b)))
  ∧ (∀ s op o lvl tile desc d (n : Nat → Nat), Tab.get? s.ops op = some o → o.body = .classify lvl tile desc none →
    (∃ x, s.groupNode (s.group o.group) = some x) → s.pendingOps o.after = [] → s.requestsOf op 0 = [] →
    Plain s (s.group o.group).team →
    let g := s.group o.group
    let at_ := fun (k : Nat) => s.scratchRead g.team lvl (tile + 16 * k) 16
    (∀ k, k < 1024 → s.isFull (s.viewKey (s.team g.team) lvl (tile + 16 * k)) = true) →
    s.readRange g.unit g.part g.ctx desc 32 = .ok d → (∀ k, k < 1024 → s.classifySample g d (at_ k) = .ok (n k)) →
    ∃ t work, exec (.classifyComplete op) s = .next t ∧ t = { s with ops := t.ops }
      ∧ Tab.get? t.ops op = some { o with body := .classify lvl tile desc (some work) }
      ∧ (∀ j, j ≠ op → Tab.get? t.ops j = Tab.get? s.ops j)
      ∧ (work.map Prod.fst).Pairwise (· < ·)
      ∧ ∀ m es, (m, es) ∈ work ↔ m < 255 ∧ es ≠ [] ∧ es = ((List.range 1024).filter (fun k => n k == m)).map at_)
  ∧ (∀ s op o lvl tile desc i own n e rest s1 a s2, Tab.get? s.ops op = some o →
    o.body = .classify lvl tile desc (some ((n, [e]) :: rest)) → s.groupNode (s.group o.group) = some (i, own) →
    s.requestsOf op 0 = [] →
    let g := s.group o.group
    let w := s.inst i
    (w.targetOk own n = false → ∃ t, exec (.classifyComplete op) s = .next t
      ∧ t = (s.engineFault o.group o.pc .recpool 2).finishOp op)
    ∧ (w.targetOk own n = true → (w.node n).recBytes < 16 → ∃ t, exec (.classifyComplete op) s = .next t
      ∧ t = (s.engineFault o.group o.pc .recpool 3).finishOp op)
    ∧ (w.targetOk own n = true → 16 ≤ (w.node n).recBytes → State.reserveRun i n g.producer 1 s = none → 1 ≤ g.detlevel →
      ∃ t, exec (.classifyComplete op) s = .next t ∧ t = (s.engineFault o.group o.pc .recpool 6).finishOp op)
    ∧ (w.targetOk own n = true → 16 ≤ (w.node n).recBytes → State.reserveRun i n g.producer 1 s = some (s1, [a]) →
      s1.writeRange g.unit g.part g.ctx a (e ++ leBytes ((w.node n).recBytes - 16) 0) = .ok s2 →
      ∃ t, exec (.classifyComplete op) s = .next t
        ∧ t = (if rest = [] then (s2.commitRec i a).finishOp op
            else (s2.commitRec i a).modOp op (fun y => { y with body := .classify lvl tile desc (some rest) })).settleInst i))
  ∧ (∀ s op o tile k view col status, Tab.get? s.ops op = some o → o.body = .tileout .core tile k view col status →
    let tm := (s.group o.group).team
    let sp := (s.team tm).coreScr
    let v := s.view? view
    let cols := (v.hact + 63) / 64
    let strips := (v.vact + 63) / 64
    let f := (k - v.lseq0).toNat / strips
    let row := fun (r : Nat) => v.frameBase + f % 2 * (64 * cols * (64 * strips) * 4)
      + 4 * (64 * cols * (64 * ((k - v.lseq0).toNat % strips) + r) + 64 * col)
    Plain s tm → tile + 16384 ≤ s.allocSize sp → status + 16 ≤ s.allocSize sp → tile % 16 = 0 → status % 16 = 0 →
    o.part < 8 → 0 < cols → (∀ r, r < 64 → row r + 256 ≤ s.capacity o.part) →
    ∃ t st, exec (.tileoutComplete op) s = .next t
      ∧ t = { s with mem := t.mem, full := t.full, tags := t.tags, views := t.views, ops := t.ops, groups := t.groups }
      ∧ st = (if v.scanen = false then 4 else if 0 < (k - v.lseq).toInt then 2
          else if v.latched = false ∨ (k - v.passed).toInt ≤ 0 then 1 else 0)
      ∧ granulesAt t sp status [leBytes 4 st ++ leBytes 4 k.toNat ++ leBytes 4 col ++ leBytes 4 0]
      ∧ (∀ w, w ≠ view → t.view? w = s.view? w)
      ∧ (st = 0 → t.view? view = { v with delivered := v.delivered ++ [(k, col)] }
        ∧ (∀ r i, r < 64 → i < 256 → Memory.get t.mem (globalKey o.part (row r) + i)
          = Memory.get s.mem (spaceKey sp (tile + 256 * r) + i))
        ∧ ∀ y, (y < spaceKey sp status ∨ spaceKey sp status + 16 ≤ y) →
          (∀ r, r < 64 → y < globalKey o.part (row r) ∨ globalKey o.part (row r) + 256 ≤ y) →
          Memory.get t.mem y = Memory.get s.mem y)
      ∧ (∀ y, y ∈ t.full ↔ y ∈ s.full ∨ y = spaceKey sp status)
      ∧ (st ≠ 0 → t.views = s.views ∧ t.tags = s.tags
        ∧ ∀ y, (y < spaceKey sp status ∨ spaceKey sp status + 16 ≤ y) → Memory.get t.mem y = Memory.get s.mem y)
      ∧ Ended s t op o)

/-- R299, R300, R315 to R318, R320, R323, R430: a write of BRGSY makes a bearing live; a latch copies it and adds one to
LSEQ, the first setting LSEQ0; a deadline counts and streams the tiles of its strip; the scan of a strip sends its pixels and
copies the tiles that replaced missing ones; SCANEN is set unless refused, and cleared at the end of the frame. -/
def Obligations.ViewsAndStrips : Prop :=
  let only := fun (s t : State) (v : Nat) (x : View) => t = { s with views := t.views } ∧ t.view? v = x
    ∧ ∀ w, w ≠ v → t.view? w = s.view? w
  (∀ s view w, view < 16 → ∃ t, exec (.brgsy view w) s = .next t
    ∧ only s t view { s.view? view with brgsy := w, livex := (s.view? view).brgsx, livey := w })
  ∧ (∀ s view, let v := s.view? view
    v.scanen = true → v.latched = true → (v.lseq - v.passed).toNat < 3 → ∃ t, exec (.bearingLatch view) s = .next t
      ∧ only s t view { v with brgx := v.livex, brgy := v.livey, lseq := v.lseq + 1 })
  ∧ (∀ s view, let v := s.view? view
    v.scanen = true → v.latched = false → ∃ t, exec (.bearingLatch view) s = .next t
      ∧ only s t view { v with brgx := v.livex, brgy := v.livey, lseq := v.lseq + 1, lseq0 := v.lseq + 1, latched := true
                               passed := v.lseq })
  ∧ (∀ s view, let v := s.view? view
    let k := v.passed + 1
    let strips := (v.vact + 63) / 64
    let missing := (List.range ((v.hact + 63) / 64)).filter (fun c => !v.delivered.contains (k, c))
    v.scanen = true → v.latched = true → v.passed ≠ v.lseq → v.toScan.length ≤ 1 →
    (k ≠ v.lseq ∨ (k - v.lseq0).toNat % strips + 1 = strips) →
    ∃ t u, exec (.stripDeadline view) s = .next t
      ∧ only s u view { v with
          passed := k, delivered := v.delivered.filter (fun d => d.1 != k), toScan := v.toScan ++ [(k, missing)]
          missTiles := v.missTiles + BitVec.ofNat 32 missing.length
          lateStrips := if missing = [] then v.lateStrips else v.lateStrips + 1 }
      ∧ t = (List.range ((v.hact + 63) / 64)).foldl (fun s c => s.streamTile view k c (missing.contains c)) u
      ∧ (v.streamen = false → t = u))
  ∧ (∀ (s : State) (view : Nat) (k : Word) (col : Nat) (rep : Bool), let v := s.view? view
    let size := ringSize v.strSize 4096
    let part := s.viewPart view
    let cols := (v.hact + 63) / 64
    let strips := (v.vact + 63) / 64
    let f := (k - v.lseq0).toNat / strips
    let at_ := hostKey (v.strBase + 16448 * (v.strHead.toNat % size))
    let image := v.frameBase + (f + rep.toNat) % 2 * (64 * cols * (64 * strips) * 4)
    (v.streamen = true → v.strHead - v.strTail = BitVec.ofNat 32 size →
      only s (s.streamTile view k col rep) view { v with strDrop := v.strDrop + 1 })
    ∧ (v.streamen = true → v.strHead - v.strTail ≠ BitVec.ofNat 32 size → part < 8 →
      image + 64 * cols * (64 * strips) * 4 ≤ s.capacity part → col < cols → 0 < strips →
      let t := s.streamTile view k col rep
      t = { s with mem := t.mem, views := t.views } ∧ t.view? view = { v with strHead := v.strHead + 1 }
        ∧ (∀ w, w ≠ view → t.view? w = s.view? w)
        ∧ (∀ r i, r < 64 → i < 256 → Memory.get t.mem (at_ + 256 * r + i) = Memory.get s.mem (globalKey part
            (image + 4 * (64 * cols * (64 * ((k - v.lseq0).toNat % strips) + r) + 64 * col)) + i))
        ∧ t.nat (at_ + 16384) 4 = k.toNat ∧ t.nat (at_ + 16388) 4 = f % 2 ^ 32
        ∧ t.nat (at_ + 16392) 2 = (k - v.lseq0).toNat % strips % 2 ^ 16 ∧ t.nat (at_ + 16394) 2 = col % 2 ^ 16
        ∧ t.nat (at_ + 16396) 1 = rep.toNat ∧ t.nat (at_ + 16397) 51 = 0
        ∧ ∀ y, (y < at_ ∨ at_ + 16448 ≤ y) → Memory.get t.mem y = Memory.get s.mem y))
  ∧ (∀ s view k missing rest, let v := s.view? view
    let part := s.viewPart view
    let cols := (v.hact + 63) / 64
    let strips := (v.vact + 63) / 64
    let f := (k - v.lseq0).toNat / strips
    let st := (k - v.lseq0).toNat % strips
    let at_ := fun (image y x : Nat) =>
      globalKey part (v.frameBase + image % 2 * (64 * cols * (64 * strips) * 4) + 4 * (64 * cols * y + x))
    let last := v.ending = true ∧ st + 1 = strips
    v.toScan = (k, missing) :: rest → part < 8 → v.frameBase + 2 * (64 * cols * (64 * strips) * 4) ≤ s.capacity part →
    0 < v.hact → 0 < v.vact → missing.Nodup → (∀ c ∈ missing, c < cols) → s.poison = [] →
    ∃ t, exec (.stripScan view) s = .next t ∧ t = { s with mem := t.mem, tags := t.tags, views := t.views }
      ∧ (∀ w, w ≠ view → t.view? w = s.view? w)
      ∧ (¬last → t.view? view = { v with toScan := rest, sent := (t.view? view).sent })
      ∧ (last → t.view? view = { v with toScan := [], sent := (t.view? view).sent, scanen := false, ending := false
                                        latched := false, delivered := [], passed := v.lseq })
      ∧ (∀ y x b, y < 64 → 64 * st + y < v.vact → x < v.hact → b < 4 →
        (t.view? view).sent.getD (4 * (v.hact * y + x) + b) 0
          = Memory.get s.mem (at_ (if x / 64 ∈ missing then f + 1 else f) (64 * st + y) x + b))
      ∧ (∀ c y x b, c ∈ missing → y < 64 → x < 64 → b < 4 →
        Memory.get t.mem (at_ f (64 * st + y) (64 * c + x) + b) = Memory.get s.mem (at_ (f + 1) (64 * st + y) (64 * c + x) + b))
      ∧ (∀ z, (∀ c y, c ∈ missing → y < 64 → z < at_ f (64 * st + y) (64 * c) ∨ at_ f (64 * st + y) (64 * c) + 256 ≤ z) →
        Memory.get t.mem z = Memory.get s.mem z))
  ∧ (∀ s view w, let v := s.view? view
    let part := s.viewPart view
    let size := 64 * ((v.hact + 63) / 64) * (64 * ((v.vact + 63) / 64)) * 4
    let x : View := { v with streamen := w.getLsbD 1, fmt := w.toNat / 4 % 4 }
    let others := ((List.range 16).filter (fun j => j != view && (s.view? j).scanen && (s.view? j).port == v.port)).map s.view?
    let need := ((x :: others).map (fun (y : View) =>
      y.pclk * (if y.dscbpp = 0 then (if y.fmt = 1 then 480 else 384) else y.dscbpp))).sum
    let p := Tab.getD s.ports v.port {}
    let refused := v.frameBase % 4096 ≠ 0 ∨ s.capacity part < v.frameBase + 2 * size
      ∨ (v.port ≠ 7 ∧ (3 < v.port ∨ Tab.getD s.pt.port v.port 0 ≠ part ∨ (∃ y ∈ others, y.mst = v.mst)
        ∨ (p.uhbr = true ∧ 16 * p.lanes * p.rate * 1000 * 128 < need * 132)
        ∨ (p.uhbr = false ∧ 16 * p.lanes * p.rate * 1000 * 8 < need * 10)))
    view < 16 → w.getLsbD 0 = true → v.scanen = false →
    ∃ t, exec (.scanEnable view w) s = .next t
      ∧ (refused → only s t view x)
      ∧ (¬refused → only s t view { x with scanen := true, ending := false, latched := false }))
  ∧ (∀ s view w, let v := s.view? view
    view < 16 → w.getLsbD 0 = false → v.scanen = true → ∃ t, exec (.scanDisable view w) s = .next t
      ∧ only s t view { v with streamen := w.getLsbD 1, ending := true, scanen := v.latched })
  ∧ (∀ s view w, let v := s.view? view
    view < 16 → w.getLsbD 0 = false → v.scanen = false → ∃ t, exec (.scanDisable view w) s = .next t
      ∧ only s t view { v with streamen := w.getLsbD 1, fmt := w.toNat / 4 % 4 })

/-! ## Rays -/

namespace Sys2Proof.Claims

/-- The 128 bytes of a submitted ray, with its batch handle (R328). -/
def rayBytes (head : List Byte) (index handle flags mask cookie payaddr : Nat) : List Byte :=
  head ++ leBytes 4 index ++ leBytes 4 handle ++ leBytes 4 (2 ^ 32 - 1) ++ leBytes 2 flags ++ leBytes 1 mask ++ leBytes 1 0
    ++ leBytes 8 (2 ^ 64 - 1) ++ leBytes 4 0 ++ leBytes 4 0x7F800000 ++ leBytes 16 (2 ^ 128 - 1) ++ leBytes 4 0
    ++ leBytes 4 cookie ++ leBytes 8 payaddr ++ leBytes 32 0

/-- A slot of a group's team is open on a batch entry. -/
def openOn (s : State) (g : Group) (k e : Nat) : Prop :=
  k ≤ 3 ∧ ∃ b : BatchSlot, Tab.get? (s.team g.team).batches k = some b ∧ b.opening = false ∧ b.entry = some e

/-- $trapinfo of a check of a ray instruction (R348). -/
def rayInfo (sub lane : Nat) : Word := BitVec.ofNat 32 (0x0B + 256 * lane + 65536 * sub)

/-- The first `n` rays of a submission are admissible to their batch: each INDEX, the count and each FLAGS (R348). -/
def raysFine (b : Batch) (index flags : Nat → Nat) (n : Nat) : Prop :=
  ∀ j, j < n → index j < b.count ∧ b.submitted + j + 1 ≤ b.count ∧ flags j / 8 = 0

/-- The cap of a scene admits rays, and no earlier producer waits (R337). -/
def admitted (x : Scene) (id n : Nat) : Prop :=
  x.held + n ≤ 32 * (x.blocks / 2 - x.subs.length - 32) ∧ ∀ w, x.waiting.head? = some w → w.1 = id

/-- Rays submitted by a group to the batch of an entry: they are counted and held, and an operation counted in cx will list
and queue them (R337, R350, R351). -/
def Submitted (s u : State) (id : Nat) (g : Group) (e : Nat) (recs : List (List Byte × Bool)) : Prop :=
  ∃ m, m = { s with teams := m.teams, groups := m.groups, scenes := m.scenes, batches := m.batches }
    ∧ (∀ t, m.team t = { s.team t with wrote := (m.team t).wrote })
    ∧ (∀ j, m.group j = { s.group j with stores := (m.group j).stores })
    ∧ m.batch e = { s.batch e with submitted := (s.batch e).submitted + recs.length }
    ∧ (∀ j, j ≠ e → m.batch j = s.batch j)
    ∧ m.scene (s.batch e).scene = { s.scene (s.batch e).scene with
        held := (s.scene (s.batch e).scene).held + recs.length
        waiting := (s.scene (s.batch e).scene).waiting.filter (fun w => w.1 != id) }
    ∧ (∀ j, j ≠ (s.batch e).scene → m.scene j = s.scene j)
    ∧ Started m u id { opOf g id (.rays e recs) with counter := some 4 } []

/-- A producer that its scene does not admit waits in the scene's order. -/
def Queues (i : Instr) (ok : State → Nat → Group → List Nat → Prop) (scene n : State → Group → List Nat → Nat) : Prop :=
  ∀ s id g c f, Issues i s id g c f → ok s id g (g.guarded f.slot) →
    let k := scene s g (g.guarded f.slot)
    let w := (s.scene k).waiting
    ∃ t, exec i s = .next t ∧ (t.group id).wait = some ⟨.room, false, false⟩
      ∧ t = { s with groups := t.groups, cores := t.cores, scenes := t.scenes }
      ∧ (∀ j, j ≠ k → t.scene j = s.scene j)
      ∧ t.scene k = { s.scene k with
          waiting := if w.any (fun x => x.1 == id) then w else w ++ [(id, n s g (g.guarded f.slot))] }

/-- A component of a ray's direction: F + xR + yU, exact, rounded once (R350). -/
def direction (fr : Nat → Frac) (x y : Frac) (k : Nat) : List Byte :=
  leBytes 4 (((fr (3 + k)).add (x.mul (fr (6 + k)))).add (y.mul (fr (9 + k)))).word.toNat

end Sys2Proof.Claims

/-- R328, R337, R343, R348 to R352: RAYBAT starts an open, and closes a slot once its batch is complete; RAYPUT and RAYGEN
submit their rays, admitted together, or wait for stores or admission; RAYQRY returns the count and the status, or waits for
the batch; and what each raises. -/
def Obligations.RayInstructions : Prop :=
  let slot := fun (s : State) (g : Group) (k : Nat) => Tab.get? (s.team g.team).batches k
  let storesDone := fun (s : State) (id : Nat) => s.pendingOps (s.releaseWrites id .dev) = []
  let cam := fun (o : Slot) (g : Group) (ls : List Nat) => (g.value64 o.a (ls.headD 0)).toNat
  let put := fun (o : Slot) (g : Group) (ls : List Nat) (j n : Nat) => (g.valueAt o.b j (ls.getD n 0)).toNat
  let count := fun (o : Slot) (g : Group) (ls : List Nat) => wordsOf o.b g ls 2 % 65536 * (wordsOf o.b g ls 2 / 65536)
  let gotSlot := fun (o : Slot) (s : State) (g : Group) (ls : List Nat) (e : Nat) (bs : List Byte) (sn : Snap) =>
    openOn s g (wordsOf o.b g ls 0 % 4) e ∧ cam o g ls % 64 = 0 ∧ s.readRange g.unit g.part g.ctx (cam o g ls) 64 = .ok bs
      ∧ Tab.get? (s.team g.team).snaps (wordsOf o.b g ls 0 / 4 % 16) = some sn
  let window := fun (o : Slot) (g : Group) (ls : List Nat) (sn : Snap) =>
    0 < count o g ls ∧ count o g ls ≤ 4096
      ∧ wordsOf o.b g ls 1 % 4096 + wordsOf o.b g ls 2 % 65536 ≤ field sn.chart 8 2
      ∧ wordsOf o.b g ls 1 / 4096 % 4096 + wordsOf o.b g ls 2 / 65536 ≤ field sn.chart 10 2
  let index := fun (o : Slot) (g : Group) (ls : List Nat) (k : Nat) => (wordsOf o.b g ls 3 + k) % 2 ^ 32
  (∀ o, Does (.raybatOpen o)
    (fun s _ g ls => teamed s g ∧ onceOf o.a g ls ≤ 3 ∧ slot s g (onceOf o.a g ls) = none
      ∧ (g.value64 o.b (ls.headD 0)).toNat % 32 = 0
      ∧ (∃ ps, s.range g.unit g.part g.ctx (g.value64 o.b (ls.headD 0)).toNat 32 false = .ok ps) ∧ counterRoom g 4)
    (fun s id g ls u => ∃ m, TeamOnly s m g.team (fun x y => y = { x with wrote := true, batches := y.batches }
        ∧ oneEntry x.batches y.batches (onceOf o.a g ls) (some { opening := true, status := 0, entry := none }))
      ∧ Started m u id { opOf g id (.rayOpen (onceOf o.a g ls) (g.value64 o.b (ls.headD 0)).toNat) with
          counter := some 4 } []))
  ∧ (∀ o, Raises (.raybatOpen o) (fun _ g ls => 3 < onceOf o.a g ls) .prot (fun _ _ => rayInfo 1 0))
  ∧ (∀ o, Raises (.raybatOpen o) (fun s g ls => onceOf o.a g ls ≤ 3 ∧ slot s g (onceOf o.a g ls) ≠ none)
    .prot (fun _ _ => rayInfo 8 0))
  ∧ (∀ o, Raises (.raybatOpen o) (fun s g ls => onceOf o.a g ls ≤ 3 ∧ slot s g (onceOf o.a g ls) = none
      ∧ (g.value64 o.b (ls.headD 0)).toNat % 32 ≠ 0) .align (fun _ _ => 0x3A))
  ∧ (∀ o b, b.opening = false → b.entry = none → Does (.raybatClose o)
    (fun s _ g ls => teamed s g ∧ onceOf o.a g ls ≤ 3 ∧ slot s g (onceOf o.a g ls) = some b)
    (fun s _ g ls u => TeamOnly s u g.team (fun x y => y = { x with batches := y.batches }
      ∧ oneEntry x.batches y.batches (onceOf o.a g ls) none)))
  ∧ (∀ o e, Does (.raybatClose o)
    (fun s _ g ls => teamed s g ∧ openOn s g (onceOf o.a g ls) e ∧ (s.batch e).complete = true)
    (fun s _ g ls u => ∃ m, TeamOnly s m g.team (fun x y => y = { x with batches := y.batches }
        ∧ oneEntry x.batches y.batches (onceOf o.a g ls) none)
      ∧ u = { m with batches := u.batches, scenes := u.scenes } ∧ u.batch e = { gen := (s.batch e).gen }
      ∧ (∀ j, j ≠ e → u.batch j = s.batch j)
      ∧ ((∃ x ∈ u.batches, x.2.held = true ∧ x.2.scene = (s.batch e).scene) → u.scenes = s.scenes)
      ∧ ((∀ x ∈ u.batches, x.2.held = true → x.2.scene ≠ (s.batch e).scene) →
        u.scenes = Tab.erase s.scenes (s.batch e).scene)))
  ∧ (∀ o, Waits (.raybatClose o)
    (fun s _ g ls => onceOf o.a g ls ≤ 3 ∧ ∃ b, slot s g (onceOf o.a g ls) = some b
      ∧ (b.opening = true ∨ ∃ e, b.entry = some e ∧ (s.batch e).complete = false))
    (fun _ _ _ => ⟨.room, false, false⟩))
  ∧ (∀ o, Raises (.raybatClose o) (fun s g ls => onceOf o.a g ls ≤ 3 ∧ slot s g (onceOf o.a g ls) = none)
    .prot (fun _ _ => rayInfo 2 0))
  ∧ (∀ o e, let fine := fun (s : State) (g : Group) (ls : List Nat) (n : Nat) =>
      openOn s g (onceOf o.c g ls) e ∧ raysFine (s.batch e) (put o g ls 0) (fun j => put o g ls 1 j % 65536) n
    Does (.rayput o)
      (fun s id g ls => fine s g ls ls.length ∧ storesDone s id ∧ (s.team g.team).copyOf = none
        ∧ admitted (s.scene (s.batch e).scene) id ls.length ∧ counterRoom g 4)
      (fun s id g ls u => Submitted s u id g e (ls.map (fun l => (rayBytes
          ((List.range 8).map (fun j => leBytes 4 (g.valueAt o.a j l).toNat)).flatten (g.valueAt o.b 0 l).toNat
          (e + 65536 * (s.batch e).gen) ((g.valueAt o.b 1 l).toNat % 65536) ((g.valueAt o.b 1 l).toNat / 65536 % 256)
          (g.valueAt o.b 2 l).toNat ((g.valueAt o.b 3 l).toNat + 2 ^ 32 * (g.valueAt o.b 4 l).toNat), false))))
    ∧ Waits (.rayput o) (fun s id g ls => fine s g ls ls.length ∧ ¬storesDone s id)
      (fun s _ _ => ⟨.ops (s.pendingOps (s.releaseWrites s.curId .dev)), false, false⟩)
    ∧ Queues (.rayput o)
      (fun s id g ls => fine s g ls ls.length ∧ storesDone s id ∧ (s.team g.team).copyOf = none ∧ (s.team g.team).checked = false
        ∧ ¬admitted (s.scene (s.batch e).scene) id ls.length ∧ Tab.get? s.scenes (s.batch e).scene ≠ none)
      (fun s _ _ => (s.batch e).scene) (fun _ _ ls => ls.length)
    ∧ (∀ n sub lane, Raises (.rayput o)
      (fun s g ls => fine s g ls n ∧ n < ls.length ∧ lane = ls.getD n 0
        ∧ (((s.batch e).count ≤ put o g ls 0 n ∧ sub = 4)
          ∨ (put o g ls 0 n < (s.batch e).count ∧ (s.batch e).count < (s.batch e).submitted + n + 1 ∧ sub = 5)
          ∨ (put o g ls 0 n < (s.batch e).count ∧ (s.batch e).submitted + n + 1 ≤ (s.batch e).count
            ∧ put o g ls 1 n % 65536 / 8 ≠ 0 ∧ sub = 6)))
      .prot (fun _ _ => rayInfo sub lane)))
  ∧ (∀ o k b, b.opening = true → Waits (.rayput o)
    (fun s _ g ls => k = onceOf o.c g ls ∧ k ≤ 3 ∧ slot s g k = some b) (fun _ _ _ => ⟨.room, false, false⟩))
  ∧ (∀ o k b, b.opening = false → b.entry = none → Raises (.rayput o)
    (fun s g ls => k = onceOf o.c g ls ∧ k ≤ 3 ∧ slot s g k = some b) .prot (fun _ _ => rayInfo 3 0))
  ∧ (∀ o e bs sn px py (fr : Nat → Frac), bs.length = 64 → Charted sn.chart → wordFrac? sn.px = some px →
    wordFrac? sn.py = some py → (∀ k, k < 12 → wordFrac? (BitVec.ofNat 32 (field bs (4 * k) 4)) = some (fr k)) →
    Does (.raygen o)
      (fun s id g ls => gotSlot o s g ls e bs sn ∧ window o g ls sn
        ∧ raysFine (s.batch e) (index o g ls) (fun _ => field bs 56 2) (count o g ls) ∧ storesDone s id
        ∧ (s.team g.team).copyOf = none ∧ admitted (s.scene (s.batch e).scene) id (count o g ls) ∧ counterRoom g 4)
      (fun s id g ls u => Submitted s u id g e ((List.range (count o g ls)).map (fun k =>
        let sx := wordsOf o.b g ls 1 % 4096 + k % (wordsOf o.b g ls 2 % 65536)
        let sy := wordsOf o.b g ls 1 / 4096 % 4096 + k / (wordsOf o.b g ls 2 % 65536)
        let dx := displayAt sn false px sx
        let dy := displayAt sn true py sy
        let x := ((Frac.ofNat 2).mul (dx.div (Frac.ofNat (field sn.chart 4 2)))).sub (Frac.ofNat 1)
        let y := (Frac.ofNat 1).sub ((Frac.ofNat 2).mul (dy.div (Frac.ofNat (field sn.chart 6 2))))
        (rayBytes (bs.take 12 ++ ((List.range 3).map (fun c => direction fr x y c)).flatten ++ (bs.drop 48).take 8)
            (index o g ls k) (e + 65536 * (s.batch e).gen) (field bs 56 2) (field bs 58 1)
            (16 * sy + 65536 * sx + 2 ^ 28 * (wordsOf o.b g ls 0 / 4 % 16)) 0,
          decide (dx.num < 0) || (Frac.ofNat (field sn.chart 4 2)).le dx
            || decide (dy.num < 0) || (Frac.ofNat (field sn.chart 6 2)).le dy)))))
  ∧ (∀ o e bs sn, Raises (.raygen o)
    (fun s g ls => gotSlot o s g ls e bs sn ∧ ¬window o g ls sn) .prot (fun _ _ => rayInfo 7 0))
  ∧ (∀ o e, Raises (.raygen o)
    (fun s g ls => openOn s g (wordsOf o.b g ls 0 % 4) e ∧ cam o g ls % 64 ≠ 0) .align (fun _ _ => 0x3B))
  ∧ (∀ o e bs, Raises (.raygen o)
    (fun s g ls => openOn s g (wordsOf o.b g ls 0 % 4) e ∧ cam o g ls % 64 = 0
      ∧ s.readRange g.unit g.part g.ctx (cam o g ls) 64 = .ok bs
      ∧ Tab.get? (s.team g.team).snaps (wordsOf o.b g ls 0 / 4 % 16) = none) .prot (fun _ _ => 0x0C))
  ∧ (∀ o (wait : Bool), let i : Instr := if wait then .rayqryWait o else .rayqryCnt o
    let level := fun (g : Group) => wait = true ∨ g.detlevel = 0
    let answers := fun (s u : State) (id : Nat) (g : Group) (body : OpBody) (res : List LaneRes) =>
      ∃ f, i.form = some f ∧ Started s u id { opOf g id body with
        flag := g.slotFlag o, dest := o.d, destN := 2, res := res } (formDests f)
    let value := fun (ls : List Nat) (d status : Nat) =>
      [{ lane := ls.headD 0, bytes := leBytes 4 d ++ leBytes 4 status : LaneRes }]
    (∀ b, b.opening = false → b.entry = none → Does i
      (fun s _ g ls => level g ∧ onceOf o.a g ls ≤ 3 ∧ slot s g (onceOf o.a g ls) = some b ∧ flagRoom g o)
      (fun s id g ls u => answers s u id g .engine (value ls 0 b.status)))
    ∧ (∀ b e, b.opening = false → b.entry = some e → Does i
      (fun s _ g ls => level g ∧ onceOf o.a g ls ≤ 3 ∧ slot s g (onceOf o.a g ls) = some b ∧ flagRoom g o
        ∧ (wait = true → (s.batch e).complete = true))
      (fun s id g ls u => answers s u id g .engine
        (value ls (if wait then (s.batch e).hits else (s.batch e).completed) b.status)))
    ∧ (wait = true → ∀ b e, b.opening = false → b.entry = some e → Does i
      (fun s _ g ls => onceOf o.a g ls ≤ 3 ∧ slot s g (onceOf o.a g ls) = some b ∧ flagRoom g o
        ∧ (s.batch e).complete = false)
      (fun s id g _ u => answers s u id g (.rayWait e) []))
    ∧ (∀ b, b.opening = true → Waits i
      (fun s _ g ls => level g ∧ onceOf o.a g ls ≤ 3 ∧ slot s g (onceOf o.a g ls) = some b)
      (fun _ _ _ => ⟨.room, false, false⟩))
    ∧ Raises i (fun s g ls => level g ∧ onceOf o.a g ls ≤ 3 ∧ slot s g (onceOf o.a g ls) = none) .prot
      (fun _ _ => rayInfo 2 0)
    ∧ Raises i (fun _ g ls => level g ∧ 3 < onceOf o.a g ls) .prot (fun _ _ => rayInfo 1 0)
    ∧ (wait = false → Raises i (fun _ g _ => 1 ≤ g.detlevel) .detViol (fun _ _ => 0x2D3)))

namespace Sys2Proof.Claims

/-- A fraction in lowest terms with a positive denominator. -/
def reduced (x : Frac) : Prop := 0 < x.den ∧ Nat.gcd x.num.natAbs x.den = 1

/-- Between two bounds. -/
def between (lo x hi : Frac) : Prop := lo.le x = true ∧ x.le hi = true

/-- A ray at a parameter lies in a box with finite bounds (R332). -/
def inBox (p : RayPar) (b : Nat → Frac) (t : Frac) : Prop :=
  ∀ k, k < 3 → between (b k) ((comp p.o k).add (t.mul (comp p.d k))) (b (k + 3))

/-- The key of one subtree lies below another's (R332). -/
def keyBelow (subs : List Subtree) (p : RayPar) (i j : Nat) : Prop :=
  ∃ t u, boxEntry p (subs.getD i {}).box = some t ∧ boxEntry p (subs.getD j {}).box = some u
    ∧ (t.lt u = true ∨ (t = u ∧ i < j))

/-- A subtree that a listing from a key may take (R332). -/
def listable (subs : List Subtree) (p : RayPar) (mask : Nat) (above : Option (Frac × Nat)) (i : Nat) : Prop :=
  i < subs.length ∧ (subs.getD i {}).mask &&& mask ≠ 0 ∧ ∃ t, boxEntry p (subs.getD i {}).box = some t
    ∧ ∀ k, above = some k → k.1.lt t = true ∨ (k.1 = t ∧ k.2 < i)

/-- A triangle's edges from its first vertex, and the triple product of its normal with the direction (R333). -/
def sideOf (v : Nat → Frac) (e k : Nat) : Frac := (v (3 * e + k)).sub (v k)
def facing (v : Nat → Frac) (p : RayPar) : Frac :=
  let n := fun (i j : Nat) => ((sideOf v 1 i).mul (sideOf v 2 j)).sub ((sideOf v 1 j).mul (sideOf v 2 i))
  (((n 1 2).mul (comp p.d 0)).add ((n 2 0).mul (comp p.d 1))).add ((n 0 1).mul (comp p.d 2))

/-- A next subtree lies wholly behind the hit of a record (R334). -/
def behindHit (subs : List Subtree) (p : RayPar) (r : List Byte) (y : Nat) : Prop :=
  field r 48 8 ≠ 2 ^ 64 - 1 ∧ ∃ d t, nextAbove (BitVec.ofNat 32 (field r 60 4)) = some d
    ∧ boxEntry p (subs.getD y {}).box = some t ∧ d.lt t = true

/-- A record that leaves for a subtree: SUBTREE, STATE 0 and the list still to visit; its other bytes are as before. -/
structure Leaves (r r' : List Byte) (y : Nat) (rest : List Nat) : Prop where
  subtree : field r' 40 4 = y
  state : field r' 47 1 = 0
  resume : ∀ j, j < 4 → field r' (64 + 4 * j) 4 = rest.getD j (2 ^ 32 - 1)
  count : field r' 80 1 = rest.length
  same : ∀ i, (i < 40 ∨ (44 ≤ i ∧ i < 47) ∨ (48 ≤ i ∧ i < 64) ∨ 80 < i) → r'.getD i 0 = r.getD i 0

/-- The queue of a subtree in a scene slot. -/
def queueOf (s : State) (k sub : Nat) : SQueue := (s.scene k).queue sub

/-- What ranks a queue before others: its age where some queue has an age of 63 or more, else its rays (R341). -/
def rank (all : List (Nat × Nat × SQueue)) (y : Nat × Nat × SQueue) : Nat :=
  if all.any (fun z => decide (63 ≤ z.2.2.age)) then y.2.2.age else (y.2.2.blocks.map Prod.snd).sum

end Sys2Proof.Claims

/-- R332 to R334: the parameter at which a ray enters a box is the least; a listing takes the five lowest keys; a candidate
is the one solution within its bounds; a visit leaves the least pair of rounded distance and PRIM, whatever the order of
its triangles; and the next subtree follows RESUME or a new listing, unless it lies behind the hit. -/
def Obligations.RayTraversal : Prop :=
  (∀ (r : List Byte) (f : Nat → Frac), (∀ k, k < 8 → wordFrac? (BitVec.ofNat 32 (field r (4 * k) 4)) = some (f k)) →
    let bad := ((f 3).num = 0 ∧ (f 4).num = 0 ∧ (f 5).num = 0) ∨ (f 7).lt (f 6) = true
    (bad → rayPar? r = none) ∧ (¬bad → rayPar? r = some ⟨[f 0, f 1, f 2], [f 3, f 4, f 5], f 6, f 7⟩))
  ∧ (∀ (r : List Byte) k, k < 8 → wordFrac? (BitVec.ofNat 32 (field r (4 * k) 4)) = none → rayPar? r = none)
  ∧ (∀ r p (box : List Word) (b : Nat → Frac), rayPar? r = some p → (∀ k, k < 6 → wordFrac? (box.getD k 0) = some (b k)) →
    (∀ t, boxEntry p box = some t → reduced t ∧ between p.tmin t p.tmax ∧ inBox p b t
      ∧ ∀ u, 0 < u.den → between p.tmin u p.tmax → inBox p b u → t.le u = true)
    ∧ (boxEntry p box = none → ∀ u, 0 < u.den → between p.tmin u p.tmax → ¬inBox p b u))
  ∧ (∀ r p (subs : List Subtree) mask above, rayPar? r = some p → (∀ k, above = some k → reduced k.1) →
    let l := listing subs p mask above
    l.length ≤ 5 ∧ (∀ i ∈ l, listable subs p mask above i) ∧ l.Pairwise (keyBelow subs p)
      ∧ ∀ i, listable subs p mask above i → i ∉ l → l.length = 5 ∧ ∀ j ∈ l, keyBelow subs p j i)
  ∧ (∀ r p (tri : Tri) (v : Nat → Frac) (opaque_ cull : Bool), rayPar? r = some p → tri.v.length = 9 →
    (∀ k, k < 9 → tri.v.getD k none = some (v k) ∧ 0 < (v k).den) →
    ∀ t u w, tri.candidate p opaque_ cull = some (t, u, w) ↔
      (tri.transp = false ∨ opaque_ = true) ∧ (facing v p).num ≠ 0 ∧ (cull = true → (facing v p).num < 0)
        ∧ reduced t ∧ reduced u ∧ reduced w
        ∧ (∀ k, k < 3 → (comp p.o k).add (t.mul (comp p.d k))
            = (v k).add ((u.mul (sideOf v 1 k)).add (w.mul (sideOf v 2 k))))
        ∧ 0 ≤ u.num ∧ 0 ≤ w.num ∧ (u.add w).le ⟨1, 1⟩ = true ∧ between p.tmin t p.tmax)
  ∧ (∀ (a b : Word) (i j : Nat) x y, wordFrac? a = some x → wordFrac? b = some y →
    (hitLt (a, i) (b, j) = true ↔ x.lt y = true ∨ (x = y ∧ i < j)))
  ∧ (∀ (im : RayImage) p r det free tri c, 1 ≤ det →
    ((tri, c) ∈ im.candidates p r det free ↔ ∃ i path, (i, path) ∈ leafTris im.nodes (im.nodes.length + 1) [] im.root
      ∧ tri = im.tris.getD i {} ∧ tri.candidate p (natBit (field r 44 2) 0) (natBit (field r 44 2) 2) = some c))
  ∧ (∀ (im : RayImage) p r det free rp, rayPar? rp = some p → r.length = 128 → 1 ≤ det →
    (∀ t ∈ im.tris, t.prim % 16 = 0 ∧ t.prim < 2 ^ 64) →
    let cs := im.candidates p r det free
    let had := field r 48 8 ≠ 2 ^ 64 - 1
    let old := (BitVec.ofNat 32 (field r 60 4), field r 48 8)
    (had → ∃ x, wordFrac? old.1 = some x) →
    (im.visit p r det free).2 = false
    ∧ ((∀ c ∈ cs, had ∧ hitLt (c.2.1.word, c.1.prim) old = false) → (im.visit p r det free).1 = r)
    ∧ ((∃ c ∈ cs, ¬had ∨ hitLt (c.2.1.word, c.1.prim) old = true) →
      ∃ c ∈ cs, (im.visit p r det free).1 = r.take 48 ++ leBytes 8 c.1.prim ++ leBytes 2 (half c.2.2.1)
          ++ leBytes 2 (half c.2.2.2) ++ leBytes 4 c.2.1.word.toNat ++ r.drop 64
        ∧ (had → hitLt (c.2.1.word, c.1.prim) old = true)
        ∧ ∀ d ∈ cs, hitLt (d.2.1.word, d.1.prim) (c.2.1.word, c.1.prim) = false))
  ∧ (∀ (im : RayImage) p r free, (im.visit p r 0 free).2 = false ∨ (natBit (field r 44 2) 1 = true
    ∧ ∃ c ∈ im.candidates p r 0 free, (im.visit p r 0 free).1 = takeHit r c.1 c.2))
  ∧ (∀ (w : Word) v d, wordFrac? w = some v → nextAbove w = some d →
    v.lt d = true ∧ ∀ w' x, wordFrac? w' = some x → v.lt x = true → x.lt d = false)
  ∧ (∀ rp p (subs : List Subtree) x r, rayPar? rp = some p → r.length = 128 → 0 < field r 80 1 → field r 80 1 ≤ 4 →
    (∀ j, field r 80 1 ≤ j → j < 4 → field r (64 + 4 * j) 4 = 2 ^ 32 - 1) →
    let rest := ((List.range 4).map (fun j => field r (64 + 4 * j) 4)).take (field r 80 1)
    (behindHit subs p r (field r 64 4) → nextSubtree subs p x r = none)
    ∧ (¬behindHit subs p r (field r 64 4) → ∃ r', nextSubtree subs p x r = some (field r 64 4, r')
      ∧ Leaves r r' (field r 64 4) (rest.drop 1)))
  ∧ (∀ rp p (subs : List Subtree) x r tx, rayPar? rp = some p → r.length = 128 → field r 80 1 = 0 →
    boxEntry p (subs.getD x {}).box = some tx → subs.length ≤ 4096 →
    let l := listing subs p (field r 46 1) (some (tx, x))
    (l = [] → nextSubtree subs p x r = none)
    ∧ (∀ y rest, l = y :: rest → behindHit subs p r y → nextSubtree subs p x r = none)
    ∧ (∀ y rest, l = y :: rest → ¬behindHit subs p r y → ∃ r', nextSubtree subs p x r = some (y, r') ∧ Leaves r r' y rest))

/-- R335 to R345, R349, R350, R352: an open resolves with its status or binds a free entry; the first waiting producer of a
scene is admitted; submitted rays are listed and queued; a stage cluster's pass takes the queue that R341 chooses and ages
the others; it completes its rays and spills those that leave; records are committed; and a batch whose rays and records are
all done is complete, with the waits for it answered. -/
def Obligations.RayScheduling : Prop :=
  (∀ s g key n x, (key, x) ∈ s.scenes → x.waiting.head? = some (g, n) →
    x.held + n ≤ 32 * (x.blocks / 2 - x.subs.length - 32) →
    (∃ w, (s.group g).wait = some w ∧ w.why = .room) → ∃ t, exec (.rayAdmit g) s = .next t ∧ t = s.endWait g)
  ∧ (∀ s op o slot desc e d x, Tab.get? s.ops op = some o → o.body = .rayOpen slot desc →
    let g := s.group o.group
    let die := coreDie g.core
    Tab.get? s.teams g.team = some x → e < 256 → (s.batch (256 * die + e)).held = false →
    (∀ j, j < e → (s.batch (256 * die + j)).held = true) → s.readRange g.unit g.part g.ctx desc 32 = .ok d →
    (∀ r ∈ s.preqs, r.2.who ≠ op) →
    let node := fun (n : Nat) => n = 255 ∨ ∃ i own, s.groupNode g = some (i, own) ∧ (s.inst i).targetOk own n = true
      ∧ 32 ≤ ((s.inst i).node n).recBytes
    let status := if field d 22 10 ≠ 0 ∨ field d 16 4 = 0 ∨ 2 ^ 24 < field d 16 4 then 6
      else if field d 8 8 % 128 ≠ 0 then 4 else 3
    let ok := ¬(field d 22 10 ≠ 0 ∨ field d 16 4 = 0 ∨ 2 ^ 24 < field d 16 4) ∧ field d 8 8 % 128 = 0
      ∧ node (field d 20 1) ∧ node (field d 21 1)
    let staged := ∃ c ∈ s.clusters g.part, c / 32 = die ∧ natBit (s.func g.part).rayStage (s.relUnit c) = true
    let resolved := fun (m t : State) (b : BatchSlot) => t = { m with teams := t.teams, groups := t.groups, ops := t.ops }
      ∧ (∀ j, j ≠ g.team → Tab.get? t.teams j = Tab.get? m.teams j) ∧ Ended m t op o
      ∧ ∃ y, Tab.get? t.teams g.team = some y ∧ y = { x with batches := y.batches }
        ∧ oneEntry x.batches y.batches slot (some b)
    let bound := fun (sc : Nat) (m t : State) =>
      ∃ u, u = { m with batches := u.batches, fresh := m.fresh + 1 }
        ∧ (∀ j, j ≠ 256 * die + e → u.batch j = m.batch j)
        ∧ u.batch (256 * die + e)
          = { gen := ((s.batch (256 * die + e)).gen + 1) % 65536, held := true, part := g.part, ctx := g.ctx, team := g.team
              group := o.group, pc := o.pc, det := g.detlevel, scene := sc, result := field d 8 8, count := field d 16 4
              hitNode := field d 20 1, missNode := field d 21 1, order := m.fresh }
        ∧ resolved u t { status := 0, entry := some (256 * die + e) }
    let slotOf := s.sceneSlot die g.part g.ctx (field d 0 8)
    (¬ok → ∃ t, exec (.batchOpenDone op) s = .next t ∧ resolved s t { status := status, entry := none })
    ∧ (ok → ¬staged → ∃ t, exec (.batchOpenDone op) s = .next t ∧ resolved s t { status := 5, entry := none })
    ∧ (∀ k, ok → staged → slotOf = some k → ∃ t, exec (.batchOpenDone op) s = .next t ∧ bound k s t)
    ∧ (∀ k st, ok → staged → slotOf = none → s.freeScene die = some k →
      s.loadScene op o.group o.pc (field d 0 8) = .ok (.error st) →
      ∃ t, exec (.batchOpenDone op) s = .next t ∧ resolved s t { status := st, entry := none })
    ∧ (∀ k sc, ok → staged → slotOf = none → s.freeScene die = some k →
      s.loadScene op o.group o.pc (field d 0 8) = .ok (.ok sc) →
      ∃ t, exec (.batchOpenDone op) s = .next t ∧ bound k { s with scenes := Tab.put s.scenes k sc } t))
  ∧ (∀ (s : State) who group pc addr h body, let g := s.group group
    s.readRange g.unit g.part g.ctx addr 64 = .ok h →
    s.readRange g.unit g.part g.ctx (addr + 64) (if 4096 < field h 4 4 then 0 else 48 * field h 4 4) = .ok body →
    let entry := fun (i : Nat) => (body.drop (48 * i)).take 48
    let bad := addr % 64 ≠ 0 ∨ field h 0 4 ≠ 0x4E454353 ∨ field h 4 4 = 0 ∨ 4096 < field h 4 4 ∨ field h 16 4 % 2 ≠ 0
      ∨ field h 16 4 < 2 ∨ 2 ^ 20 < field h 16 4 ∨ field h 8 8 % 4096 ≠ 0 ∨ field h 24 8 % 4 ≠ 0 ∨ field h 20 4 ≠ 0
      ∨ field h 32 32 ≠ 0
      ∨ ∃ i, i < field h 4 4 ∧ (field (entry i) 24 8 % 4096 ≠ 0 ∨ field (entry i) 37 11 ≠ 0
        ∨ ∃ k b, k < 6 ∧ fpValue .f32 false (field (entry i) (4 * k) 4) = .nan b)
    (bad → s.loadScene who group pc addr = .ok (.error 1))
    ∧ (¬bad → field h 16 4 < 2 * (field h 4 4 + 33) → s.loadScene who group pc addr = .ok (.error 2))
    ∧ (¬bad → 2 * (field h 4 4 + 33) ≤ field h 16 4 → ∃ sc, s.loadScene who group pc addr = .ok (.ok sc)
      ∧ sc.part = g.part ∧ sc.ctx = g.ctx ∧ sc.addr = addr ∧ sc.pool = field h 8 8 ∧ sc.blocks = field h 16 4
      ∧ sc.links = field h 24 8 ∧ sc.queues = [] ∧ sc.held = 0 ∧ sc.waiting = [] ∧ sc.subs.length = field h 4 4
      ∧ ∀ i, i < field h 4 4 → let e := entry i
        sc.subs.getD i {} = { box := (List.range 6).map (fun k => BitVec.ofNat 32 (field e (4 * k) 4))
                              image := field e 24 8, bytes := field e 32 4, mask := field e 36 1 }))
  ∧ (∀ (s : State) who unit key r s' b, Tab.get? s.batches key = some b →
    s.writeRange unit b.part b.ctx (b.result + 128 * field r 32 4) r = .ok s' →
    let node := if field r 47 1 = 2 then b.hitNode else b.missNode
    ∃ t, s.completeRay who unit key r = .ok t ∧ t = { s' with batches := t.batches, scenes := t.scenes }
      ∧ (∀ j, j ≠ key → t.batch j = s.batch j)
      ∧ t.batch key = { b with
          completed := b.completed + 1, hits := b.hits + (if field r 47 1 = 2 then 1 else 0)
          recs := b.recs ++ (if b.det = 0 ∧ node ≠ 255 then [(node, field r 32 4, r)] else []) }
      ∧ (Tab.get? s.scenes b.scene ≠ none → t.scene b.scene = { s.scene b.scene with held := (s.scene b.scene).held - 1 })
      ∧ ∀ j, j ≠ b.scene → t.scene j = s.scene j)
  ∧ (∀ (s : State) who unit key r b c re va, Tab.get? s.batches key = some b →
    s.writeRange unit b.part b.ctx (b.result + 128 * field r 32 4) r = .error (.bad c re va) →
    ∃ t, s.completeRay who unit key r = .ok t
      ∧ t.mem = (s.ctxEvent b.part b.ctx 11 (field r 32 4) (b.result + 128 * field r 32 4)).mem
      ∧ t.batch key = { b with completed := b.completed + 1, hits := b.hits + (if field r 47 1 = 2 then 1 else 0)
                               lost := b.lost ++ [field r 32 4] })
  ∧ (∀ (s : State) who unit key r (off : Bool), let b := s.batch key
    let subs := (s.scene b.scene).subs
    let missed := s.completeRay who unit key (r.take 47 ++ [3] ++ r.drop 48)
    r.length = 128 →
    (off = true → s.submitRay who unit key r off = missed)
    ∧ (rayPar? r = none → s.submitRay who unit key r off = missed)
    ∧ (∀ p, off = false → rayPar? r = some p → listing subs p (field r 46 1) none = [] →
      s.submitRay who unit key r off = missed)
    ∧ (∀ p y rest, off = false → rayPar? r = some p → listing subs p (field r 46 1) none = y :: rest → subs.length ≤ 4096 →
      ∃ r', s.submitRay who unit key r off = s.appendRay who unit key y r' ∧ Leaves r r' y rest))
  ∧ (∀ (s : State) who unit key sub r s' bs blk n, let b := s.batch key
    let x := s.scene b.scene
    Tab.get? s.scenes b.scene = some x → (queueOf s b.scene sub).blocks = bs ++ [(blk, n)] → n < 32 →
    s.writeRange unit b.part b.ctx (x.pool + 4096 * blk + 128 * n) r = .ok s' →
    ∃ t, s.appendRay who unit key sub r = .ok t ∧ t = { s' with scenes := t.scenes }
      ∧ queueOf t b.scene sub = { age := (queueOf s b.scene sub).age, blocks := bs ++ [(blk, n + 1)] })
  ∧ (∀ (s : State) who unit key sub r s' nb, let b := s.batch key
    let x := s.scene b.scene
    Tab.get? s.scenes b.scene = some x → (queueOf s b.scene sub).blocks = [] → s.freeBlock b.scene = some nb →
    s.writeRange unit b.part b.ctx (x.pool + 4096 * nb) r = .ok s' →
    ∃ t, s.appendRay who unit key sub r = .ok t ∧ t = { s' with scenes := t.scenes }
      ∧ queueOf t b.scene sub = { age := (queueOf s b.scene sub).age, blocks := [(nb, 1)] })
  ∧ (∀ (s : State) k nb, s.freeBlock k = some nb → let half := (s.scene k).blocks / 2
    k / 16 * half ≤ nb ∧ nb < k / 16 * half + half
      ∧ (∀ q ∈ (s.scene k).queues, ∀ y ∈ q.2.blocks, y.1 ≠ nb)
      ∧ ∀ p ∈ s.passes, p.2.scene = k → ∀ y ∈ p.2.blocks ++ p.2.broken, y.1 ≠ nb)
  ∧ (∀ s id o key recs s2, Tab.get? s.ops id = some o → o.body = .rays key recs → o.counter.isSome = true → o.flag = none →
    (s.team (s.group o.group).team).saved = false → s.pendingOps o.after = [] →
    s.submitRays id (s.group o.group).unit key recs = .ok s2 →
    ∃ t, exec (.writeAcknowledged id) s = .next t ∧ t = (s2.rayDone id).finishOp id)
  ∧ (∀ (s : State) die k sub q, (k, sub, q) ∈ s.waitingQueues die ↔ ∃ x, (k, x) ∈ s.scenes ∧ k / 16 = die
    ∧ (s.context x.part x.ctx).saved = false ∧ (sub, q) ∈ x.queues ∧ q.blocks ≠ []
    ∧ ∀ p ∈ s.passes, ¬(p.2.scene = k ∧ p.2.sub = sub))
  ∧ (∀ s cluster k sub age b n s1, let part := Tab.getD s.pt.unit (cluster / 4) 0
    let all := s.waitingQueues (cluster / 32)
    let mine := all.filter (fun y => (s.scene y.1).part == part)
    let c : Nat × Nat × SQueue := (k, sub, { age := age, blocks := [(b, n)] })
    cluster < 64 → natBit (s.func part).rayStage (s.relUnit cluster) = true → Tab.get? s.passes cluster = none →
    (s.func part).halted = false → c ∈ mine → (all.map (fun y => (y.1, y.2.1))).Nodup →
    (∀ y ∈ mine, rank mine y < rank mine c ∨ (rank mine y = rank mine c ∧ (k < y.1 ∨ (k = y.1 ∧ sub ≤ y.2.1)))) →
    (∀ y ∈ all, Tab.get? s.scenes y.1 ≠ none) →
    s.markRays (passWho cluster) cluster (s.sceneGroup k) (s.scene k)
      ((List.range n).map (fun i => (s.scene k).pool + 4096 * b + 128 * i)) = .ok s1 → s1.scenes = s.scenes →
    ∃ t, exec (.rayPassChoose cluster) s = .next t
      ∧ t = { s1 with preqs := t.preqs, scenes := t.scenes, passes := t.passes }
      ∧ oneEntry s1.passes t.passes cluster (some { scene := k, sub := sub, blocks := [(b, n)], broken := [] })
      ∧ queueOf t k sub = { age := 0, blocks := [] }
      ∧ ∀ y ∈ all, y ≠ c → queueOf t y.1 y.2.1 = { y.2.2 with age := y.2.2.age + 1 })
  ∧ (∀ s cluster p im rs r s2, let x := s.scene p.scene
    let who := passWho cluster
    let g := s.sceneGroup p.scene
    Tab.get? s.passes cluster = some p → p.broken = [] → (s.func x.part).halted = false →
    s.passImage who cluster g x p.sub = .ok (some im) → s.readRays who cluster g x (x.records p.blocks) = .ok rs →
    s.passRays who cluster p.scene p.sub (some im) rs [] = .ok r →
    ({ r.1 with passes := Tab.erase r.1.passes cluster }).spill who cluster r.2 = .ok s2 →
    ∃ t, exec (.rayPass cluster) s = .next t ∧ t = s2.rayDone who)
  ∧ (∀ (s : State) who unit k sub im r key p, s.recBatch k r = some key → rayPar? r = some p →
    let v := im.visit p r (s.batch key).det s.fresh
    let s1 : State := { s with fresh := s.fresh + 2 }
    let ends := v.2 = true ∨ nextSubtree (s.scene k).subs p sub v.1 = none
    (∀ y r', v.2 = false → nextSubtree (s.scene k).subs p sub v.1 = some (y, r') →
      s.passRay who unit k sub (some im) r false = .ok (s1, some (key, y, r')))
    ∧ (∀ t, ends → s1.completeRay who unit key (doneAs v.1) = .ok t →
      s.passRay who unit k sub (some im) r false = .ok (t, none)))
  ∧ (∀ (s : State) who unit k sub r key t, s.recBatch k r = some key → s.completeRay who unit key (doneAs r) = .ok t →
    s.passRay who unit k sub none r false = .ok (t, none))
  ∧ (∀ s die entry node index r rest i own s1 a s2, let key := 256 * die + entry
    let b := s.batch key
    let g := s.group b.group
    let rec_ := leBytes 8 (b.result + 128 * index) ++ (r.drop 32).take 96
    let n := ((s.inst i).node node).recBytes
    b.held = true → (s.context b.part b.ctx).saved = false → (s.func b.part).halted = false →
    b.recs = (node, index, r) :: rest → s.groupNode g = some (i, own) → r.length = 128 →
    State.reserveRun i node g.producer 1 s = some (s1, [a]) →
    s1.writeRange g.unit b.part b.ctx a (rec_.take n ++ leBytes (n - 104) 0) = .ok s2 →
    ∃ t, exec (.rayRecordCommit die entry) s = .next t
      ∧ t = ((((s2.rayDone (batchWho key)).modBatch key (fun y => { y with recs := y.recs.drop 1 })).modTeam b.team
          (fun y => { y with committed := true })).commitRec i a).settleInst i)
  ∧ (∀ s die entry l, let key := 256 * die + entry
    let b := s.batch key
    b.held = true → (s.context b.part b.ctx).saved = false → (s.func b.part).halted = false → b.recs = [] →
    1 ≤ b.det → b.reaped = false → b.count ≤ b.completed →
    s.reapBatch (batchWho key) key (List.range b.count) = .ok l →
    ∃ t, exec (.rayRecordCommit die entry) s = .next t ∧ t = { s with batches := t.batches, preqs := t.preqs }
      ∧ (∀ j, j ≠ key → t.batch j = s.batch j)
      ∧ t.batch key = { b with
          reaped := true
          recs := l.filter (fun x => x.1 == min b.hitNode b.missNode) ++ l.filter (fun x => x.1 != min b.hitNode b.missNode) })
  ∧ (∀ s die entry, let key := 256 * die + entry
    let b := s.batch key
    b.held = true → b.complete = false → b.count ≤ b.completed → b.recs = [] →
    (b.det = 0 ∨ b.reaped = true ∨ (b.hitNode = 255 ∧ b.missNode = 255)) →
    ∃ t, exec (.rayBatchComplete die entry) s = .next t ∧ t = { s with batches := t.batches, ops := t.ops }
      ∧ (∀ j, j ≠ key → t.batch j = s.batch j) ∧ t.batch key = { b with complete := true }
      ∧ ∀ j, Tab.get? t.ops j = (Tab.get? s.ops j).map (fun o => if o.body = .rayWait key then
          { o with body := .engine, res := [{ lane := 0, bytes := leBytes 4 b.hits ++ leBytes 4 0 }] } else o))

/-! ## Launches, records and remote invocation -/

namespace Sys2Proof.Claims

/-- One position of a node's fill order handed out (R90, R91): it lies in the node's open block, or in the next FREE one,
which opens; a block that reaches BATCH allocations is SEALED with its node's next batch number. -/
def Took (i node : Nat) (prod : Option Nat) (a : Nat) (s u : State) : Prop :=
  ∃ w b, Tab.get? s.insts i = some w
    ∧ (w.openBlock node prod = some b ∨ (w.openBlock node prod = none ∧ w.nextBlock prod = some b))
    ∧ (
      let x : Block := if (w.block b).state = .opened then w.block b else { state := .opened, node := node, producer := prod }
      let n := w.node node
      a = w.pool + b * 2 ^ w.blklog + x.count * n.recBytes
      ∧ u = { s with insts := u.insts, fresh := u.fresh, launches := u.launches, gangs := u.gangs }
      ∧ (∀ j, j ≠ i → Tab.get? u.insts j = Tab.get? s.insts j)
      ∧ (∀ c, c ≠ b → (u.inst i).block c = w.block c)
      ∧ (x.count + 1 < n.batch → u = { s with insts := u.insts } ∧ u.inst i = { w with blocks := (u.inst i).blocks }
        ∧ (u.inst i).block b = { x with count := x.count + 1 })
      ∧ (n.batch ≤ x.count + 1 → x.commits.length ≤ x.count → u = { s with insts := u.insts, fresh := s.fresh + 1 }
        ∧ (u.inst i).block b = { x with count := x.count + 1, state := .sealed, order := s.fresh, seq := (w.node x.node).seq }
        ∧ u.inst i = { w with
            blocks := (u.inst i).blocks
            nodes := w.nodes.modify x.node (fun y => { y with seq := y.seq + 1 }) }))

/-- Positions handed out one after another, each a node and an address. -/
def Reserved (i : Nat) (prod : Option Nat) : List (Nat × Nat) → State → State → Prop
  | [], s, u => u = s
  | x :: rest, s, u => ∃ m, Took i x.1 prod x.2 s m ∧ Reserved i prod rest m u

/-- A group runs in a node of an instance. -/
def inNode (s : State) (g : Group) (i own : Nat) : Prop := s.groupNode g = some (i, own)

/-- A node may be named by the groups of another (R85, R97). -/
abbrev aims (s : State) (i own n : Nat) : Prop := n < (s.inst i).nodes.length ∧ natBit ((s.inst i).node own).targets n = true

/-- A group may reserve now: its clock is the least of its team at level 1 and above, and no group waits before it (R94,
R95). -/
def mayReserve (s : State) (id : Nat) (g : Group) (i : Nat) : Prop :=
  (1 ≤ g.detlevel → s.clockLeast id = true) ∧ ∀ w, (s.inst i).waiting.head? = some w → w = id

/-- The instance no longer lists a group as waiting. -/
def Served (i id : Nat) (s u : State) : Prop :=
  u = { s with insts := u.insts } ∧ (∀ j, j ≠ i → Tab.get? u.insts j = Tab.get? s.insts j)
    ∧ Tab.get? u.insts i = (Tab.get? s.insts i).map (fun w => { w with waiting := w.waiting.filter (· != id) })

/-- A commit begins (R97, R100): the team has written and committed, and an operation counted in cw will write and commit
the records once the group's earlier accesses are complete. -/
def Commits (s u : State) (id : Nat) (g : Group) (i : Nat) (recs : List (Nat × List Byte)) : Prop :=
  ∃ m, TeamOnly s m g.team (fun x y => y = { x with wrote := true, committed := true })
    ∧ Started m u id { opOf g id (.commit i recs) with counter := some 0, after := s.releaseOps id .dev } []

/-- $trapinfo of a refusal of the record instructions: the sub-code and the lane (R96). -/
def recInfo (sub : Nat) (l : Nat) : Word := BitVec.ofNat 32 (sub + 256 * l)

end Sys2Proof.Claims

/-- R85, R87, R90, R91, R94 to R101, R456: SPAWN and RECALLOC reserve positions in their nodes, lane after lane, SPAWN and
RECCOMMIT send a commit, LAUNCH sends its entry or its packet, each counted or flagged; what each of them raises; and a
commit writes the records and tells the scheduler. -/
def Obligations.RecordsAndLaunches : Prop :=
  let clean_ := fun (s : State) (g : Group) => (s.team g.team).copyOf = none
  let graph := fun (o : Slot) (g : Group) (ls : List Nat) => (g.value64 o.a (ls.headD 0)).toNat
  (∀ (s u : State) i node prod k as, Tab.get? s.insts i ≠ none → State.reserveRun i node prod k s = some (u, as) →
    as.length = k ∧ Reserved i prod (as.map (fun a => (node, a))) s u)
  ∧ (∀ o n i own, Does (.spawn o n)
    (fun s id g ls => let b := onceOf o.b g ls
      teamed s g ∧ inNode s g i own ∧ aims s i own b ∧ 4 * (n.toNat + 1) ≤ ((s.inst i).node b).recBytes
        ∧ mayReserve s id g i ∧ (State.reserveRun i b g.producer ls.length s).isSome = true ∧ counterRoom g 0)
    (fun s id g ls u => let b := onceOf o.b g ls
      ∃ (as : List Nat) (m m2 : State), as.length = ls.length ∧ Reserved i g.producer (as.map (fun a => (b, a))) s m ∧ Served i id m m2
        ∧ Commits m2 u id g i ((as.zip ls).map (fun x => (x.1,
            (List.range (n.toNat + 1)).flatMap (fun j => leBytes 4 (g.valueAt o.a j x.2).toNat)
              ++ List.replicate (((s.inst i).node b).recBytes - 4 * (n.toNat + 1)) 0)))))
  ∧ (∀ o n, Raises (.spawn o n) (fun s g _ => s.groupNode g = none) .recpool (fun _ ls => recInfo 1 (ls.headD 0)))
  ∧ (∀ o n i own, Raises (.spawn o n) (fun s g ls => inNode s g i own ∧ ¬aims s i own (onceOf o.b g ls)) .recpool
    (fun _ ls => recInfo 2 (ls.headD 0)))
  ∧ (∀ o n i own, Raises (.spawn o n) (fun s g ls => inNode s g i own ∧ aims s i own (onceOf o.b g ls)
      ∧ ((s.inst i).node (onceOf o.b g ls)).recBytes < 4 * (n.toNat + 1)) .recpool (fun _ ls => recInfo 3 (ls.headD 0)))
  ∧ (∀ o i own, let node := fun (g : Group) (l : Nat) => (g.value o.a l).toNat
    Does (.recalloc o)
      (fun s id g ls => inNode s g i own ∧ (∀ l ∈ ls, aims s i own (node g l)) ∧ mayReserve s id g i
        ∧ (recallocRun i g.producer (node g) ls s).isSome = true ∧ flagRoom g o)
      (fun s id g ls u => ∃ (as : List Nat) (m m2 m3 : State) (f : Form), as.length = ls.length
        ∧ Reserved i g.producer ((ls.map (node g)).zip as) s m ∧ Served i id m m2
        ∧ m3 = { m2 with groups := m3.groups } ∧ (∀ j, j ≠ id → Tab.get? m3.groups j = Tab.get? m2.groups j)
        ∧ m3.group id = { g with recs := g.recs ++ (ls.map (node g)).zip as } ∧ (Instr.recalloc o).form = some f
        ∧ Started m3 u id { opOf g id .engine with
            flag := g.slotFlag o, dest := o.d, destN := 2
            res := (ls.zip as).map (fun x => { lane := x.1, bytes := leBytes 8 x.2 }) } (formDests f))
    ∧ (∀ l, Raises (.recalloc o) (fun s g ls => inNode s g i own
        ∧ ls.find? (fun l => decide (¬aims s i own (node g l))) = some l) .recpool (fun _ _ => recInfo 2 l)))
  ∧ (∀ o, Raises (.recalloc o) (fun s g _ => s.groupNode g = none) .recpool (fun _ ls => recInfo 1 (ls.headD 0)))
  ∧ (∀ o i own, let rec_ := fun (g : Group) (l : Nat) => (g.value64 o.a l).toNat
    let mine := fun (g : Group) (l : Nat) => rec_ g l ∈ g.recs.map Prod.snd
    Does (.reccommit o)
      (fun s _ g ls => teamed s g ∧ inNode s g i own ∧ (ls.map (rec_ g)).Nodup ∧ (∀ l ∈ ls, mine g l) ∧ counterRoom g 0)
      (fun s id g ls u => ∃ m, m = { s with groups := m.groups }
        ∧ (∀ j, j ≠ id → Tab.get? m.groups j = Tab.get? s.groups j)
        ∧ m.group id = { g with recs := g.recs.filter (fun r => !(ls.map (rec_ g)).contains r.2) }
        ∧ Commits m u id g i (ls.map (fun l => (rec_ g l, []))))
    ∧ (∀ a l b, Raises (.reccommit o) (fun s g ls => inNode s g i own ∧ ls = a ++ l :: b ∧ (a.map (rec_ g)).Nodup
        ∧ (∀ k ∈ a, mine g k) ∧ rec_ g l ∈ a.map (rec_ g)) .recpool (fun _ _ => recInfo 5 l))
    ∧ (∀ a l b, Raises (.reccommit o) (fun s g ls => inNode s g i own ∧ ls = a ++ l :: b ∧ (a.map (rec_ g)).Nodup
        ∧ (∀ k ∈ a, mine g k) ∧ rec_ g l ∉ a.map (rec_ g) ∧ ¬mine g l) .recpool (fun _ _ => recInfo 4 l)))
  ∧ (∀ o, Raises (.reccommit o) (fun s g _ => s.groupNode g = none) .recpool (fun _ ls => recInfo 1 (ls.headD 0)))
  ∧ (∀ o seq, let q := fun (g : Group) (ls : List Nat) => onceOf o.b g ls % 65536
    let here := fun (s : State) (g : Group) (ls : List Nat) => q g ls < 1024 ∧ (s.queue g.part (q g ls)).live = true
      ∧ (s.queue g.part (q g ls)).ctx = g.ctx ∧ (s.queue g.part (q g ls)).gen = onceOf o.b g ls / 65536
    Does (.launchQ o seq)
      (fun s id g ls => teamed s g ∧ g.detlevel = 0 ∧ here s g ls ∧ s.launchesOf id < 4 ∧ counterRoom g 0
        ∧ Tab.get? s.queues (1024 * g.part + q g ls) ≠ none)
      (fun s id g ls u => ∃ m m2, TeamOnly s m g.team (fun x y => y = { x with wrote := true })
        ∧ Started m m2 id { opOf g id (.launchQ (q g ls) (s.queue g.part (q g ls)).gen (graph o g ls) seq) with
            counter := some 0, after := s.releaseOps id .dev } []
        ∧ u = { m2 with queues := u.queues }
        ∧ oneEntry s.queues u.queues (1024 * g.part + q g ls) (some { s.queue g.part (q g ls) with
            held := (s.queue g.part (q g ls)).held ++ [(graph o g ls, seq, s.fresh)] }))
    ∧ Waits (.launchQ o seq) (fun s id g ls => g.detlevel = 0 ∧ here s g ls ∧ 4 ≤ s.launchesOf id)
      (fun _ _ _ => ⟨.room, false, false⟩)
    ∧ Raises (.launchQ o seq) (fun _ g _ => 1 ≤ g.detlevel) .detViol (fun _ _ => 0x301)
    ∧ Raises (.launchQ o seq) (fun s g ls => g.detlevel = 0 ∧ ¬here s g ls) .prot (fun _ _ => 1))
  ∧ (∀ o bs,
    let read := fun (s : State) (g : Group) (ls : List Nat) =>
      graph o g ls % 64 = 0 ∧ s.readRange g.unit g.part g.ctx (graph o g ls) 64 = .ok bs
    let full := fun (s : State) (id : Nat) (g : Group) => 4 ≤ s.launchesOf id ∨ 64 ≤ s.instCount g.part (coreDie g.core)
    Does (.launchWg o)
      (fun s id g ls => teamed s g ∧ read s g ls ∧ ¬full s id g ∧ counterRoom g 0 ∧ clean_ s g)
      (fun s id g _ u => ∃ m, TeamOnly s m g.team (fun x y => y = { x with wrote := true })
        ∧ Started m u id { opOf g id (.launchWg bs) with counter := some 0 } [])
    ∧ Waits (.launchWg o) (fun s id g ls => read s g ls ∧ full s id g) (fun _ _ _ => ⟨.room, false, false⟩))
  ∧ (∀ o, Raises (.launchWg o) (fun _ g ls => graph o g ls % 64 ≠ 0) .align (fun _ _ => 0x20))
  ∧ (∀ s id op i recs, Tab.get? s.ops id = some op → op.body = .commit i recs → op.counter = some 0 → op.flag = none →
    (s.team (s.group op.group).team).saved = false → s.pendingOps op.after = [] → s.requestsOf id 0 = [] →
    (∀ r ∈ recs, r.2 = []) →
    ∃ t m, exec (.writeAcknowledged id) s = .next t ∧ t = m.settleInst i
      ∧ m = { recs.foldl (fun u r => u.commitRec i r.1) s with ops := m.ops, groups := m.groups }
      ∧ Ended (recs.foldl (fun u r => u.commitRec i r.1) s) m id op)
  ∧ (∀ s id op i va bs (s1 : State), Tab.get? s.ops id = some op → op.body = .commit i [(va, bs)] → op.counter = some 0 →
    op.flag = none → (s.team (s.group op.group).team).saved = false → s.pendingOps op.after = [] → s.requestsOf id 0 = [] →
    let g := s.group op.group
    bs ≠ [] → s.writeRange g.unit g.part g.ctx va bs = .ok s1 →
    ∃ t m, exec (.writeAcknowledged id) s = .next t ∧ t = m.settleInst i
      ∧ m = { s1.commitRec i va with ops := m.ops, groups := m.groups } ∧ Ended (s1.commitRec i va) m id op)
  ∧ (∀ (s : State) i w addr, let b := (addr - w.pool) / 2 ^ w.blklog
    let x := w.block b
    let slot := (addr - w.blockBase b) / (w.node x.node).recBytes
    Tab.get? s.insts i = some w → x.state = .opened → slot ∉ x.commits →
    ∃ u, s.commitRec i addr = u ∧ u = { s with insts := u.insts } ∧ (∀ j, j ≠ i → Tab.get? u.insts j = Tab.get? s.insts j)
      ∧ u.inst i = { w with blocks := (u.inst i).blocks } ∧ (∀ c, c ≠ b → (u.inst i).block c = w.block c)
      ∧ (u.inst i).block b = { x with commits := ((u.inst i).block b).commits, first := some (x.first.getD s.now) }
      ∧ ((u.inst i).block b).commits.length = x.commits.length + 1
      ∧ ∀ k, k ∈ ((u.inst i).block b).commits ↔ k = slot ∨ k ∈ x.commits)

namespace Sys2Proof.Claims

/-- The key of the pair that a route word names, from a partition. -/
def pairOf (g : Group) (w : Word) : Nat := pairKey g.part (w.toNat % 2 ^ 12) (w.toNat / 2 ^ 12 % 8)

/-- One packet on its way (R105, R107): it is counted in cr, takes its pair's next number, is kept until it is answered, and
goes to this chip's own receiver or onto the link of its route. -/
def OnePacket (id : Nat) (g : Group) (w : Word) (x : Machine.Sent) (mk : Word → List Byte) (s u : State) : Prop :=
  let k := pairOf g w
  let chip := w.toNat % 2 ^ 12
  let bs := mk (s.pair k).next
  ∃ m, Started s m id { opOf g id .packet with counter := some 3 } []
    ∧ u = { m with pairs := u.pairs, packets := u.packets, links := u.links, fresh := u.fresh }
    ∧ u.pair k = { s.pair k with
        next := (s.pair k).next + 1, link := s.routeLink g.part chip
        sent := (s.pair k).sent ++ [{ x with
          op := s.fresh, ctx := g.ctx, seq := (s.pair k).next, bytes := bs, at_ := s.now }] }
    ∧ (∀ j, j ≠ k → u.pair j = s.pair j)
    ∧ (chip = s.pt.chipid → u.links = s.links ∧ oneEntry s.packets u.packets m.fresh (some { bytes := bs }))
    ∧ (chip ≠ s.pt.chipid → u.packets = s.packets ∧ ∀ l, s.routeLink g.part chip = some l →
        u.link l = { s.link l with out := (s.link l).out ++ [bs] } ∧ ∀ j, j ≠ l → u.link j = s.link j)

/-- A packet of each lane, in their order. -/
def Packets (id : Nat) (g : Group) (w : Nat → Word) (x : Nat → Machine.Sent) (mk : Nat → Word → List Byte) :
    List Nat → State → State → Prop
  | [], s, u => u = s
  | l :: ls, s, u => ∃ m, OnePacket id g (w l) (x l) (mk l) s m ∧ Packets id g w x mk ls m u

/-- Every pair has room for its packets, and cr for all of them (R105). -/
def packetRoom (s : State) (g : Group) (w : Nat → Word) (ls : List Nat) : Prop :=
  g.counter 3 + ls.length ≤ 0xFFFF
    ∧ ∀ l ∈ ls, (s.pair (pairOf g (w l))).sent.length
        + (ls.filter (fun k => decide (pairOf g (w k) = pairOf g (w l)))).length ≤ 256

/-- The sixteen bytes that begin every packet (R103). -/
def headOf (s : State) (g : Group) (type pri : Nat) (w seq tgt : Word) : List Byte :=
  leBytes 1 type ++ leBytes 1 pri ++ leBytes 2 (w.toNat % 2 ^ 12) ++ leBytes 2 s.pt.chipid
    ++ leBytes 1 (w.toNat / 2 ^ 12 % 8) ++ leBytes 1 g.part ++ leBytes 4 seq.toNat ++ leBytes 4 tgt.toNat

/-- Bytes with zeros after them, to a length. -/
def filled (n : Nat) (bs : List Byte) : List Byte := bs ++ List.replicate (n - bs.length) 0

end Sys2Proof.Claims

/-- R103 to R105, R111, R115, R119 to R123: RINV and PUT wait for the group's earlier stores, then send one packet for each
lane that a route reaches, RINV answering the others at once and PUT counting them refused; WCNT returns a window's counter
once it has reached its threshold; and what each raises or waits for. -/
def Obligations.RemoteInstructions : Prop :=
  let stored := fun (s : State) (id : Nat) => s.pendingOps (s.releaseWrites id .sys) = []
  let wins := fun (s : State) (g : Group) => (s.context g.part g.ctx).windows
  (∀ o n pri trp sr k8, let w := fun (g : Group) (l : Nat) => g.value o.b l
    let routed := fun (s : State) (g : Group) (l : Nat) =>
      decide ((w g l).toNat < 2 ^ 31) && s.hasRoute g.part ((w g l).toNat % 2 ^ 12)
    let sending := fun (s : State) (g : Group) (ls : List Nat) => ls.filter (routed s g)
    let ok := fun (s : State) (id : Nat) (g : Group) (ls : List Nat) =>
      teamed s g ∧ g.detlevel = 0 ∧ stored s id ∧ packetRoom s g (w g) (sending s g ls) ∧ flagRoom g o
    let eff := fun (s : State) (id : Nat) (g : Group) (ls : List Nat) (u : State) => ∃ m m2 f,
      (Instr.rinv o n pri trp sr k8).form = some f ∧ TeamOnly s m g.team (fun x y => y = { x with wrote := true })
        ∧ Started m m2 id { opOf g id (.rinv trp (sending s g ls).length) with
            flag := g.slotFlag o, dest := o.d, destN := 1
            res := (ls.filter (fun l => !routed s g l)).map (fun l =>
              { lane := l, bytes := leBytes 4 (if 2 ^ 31 ≤ (w g l).toNat then 0x904 else 0x804), tag := 4 }) } (formDests f)
        ∧ Packets id g (w g) (fun l => { main := some (s.fresh, l) })
          (fun l seq => headOf s g 1 pri.toNat (w g l) seq (g.value o.c l) ++ leBytes 2 ((w g l).toNat / 2 ^ 15 % 2 ^ 16)
            ++ leBytes 1 (n.toNat + 1) ++ leBytes 1 k8.toNat ++ List.replicate 12 0
            ++ filled 64 ((List.range (2 * k8.toNat)).flatMap (fun j => leBytes 4 (g.readS (sr.toNat + j)).toNat))
            ++ filled 32 ((List.range (n.toNat + 1)).flatMap (fun j => leBytes 4 (g.valueAt o.a j l).toNat)))
          (sending s g ls) m2 u
    k8.toNat ≤ 8 →
    (trp = false → Does (.rinv o n pri trp sr k8) ok eff)
    ∧ (trp = true → ∀ s id g c f, Issues (.rinv o n pri trp sr k8) s id g c f → ok s id g (g.guarded f.slot) →
        ∃ u, eff s id g (g.guarded f.slot) u
          ∧ exec (.rinv o n pri trp sr k8) s = .next (u.beginWait id ⟨.flags (g.slotFlag o).toList, true, false⟩))
    ∧ Waits (.rinv o n pri trp sr k8) (fun s id g _ => g.detlevel = 0 ∧ ¬stored s id)
      (fun s _ _ => ⟨.ops (s.pendingOps (s.releaseWrites s.curId .sys)), false, false⟩)
    ∧ Waits (.rinv o n pri trp sr k8)
      (fun s id g ls => g.detlevel = 0 ∧ stored s id ∧ ¬packetRoom s g (w g) (sending s g ls))
      (fun _ _ _ => ⟨.room, false, false⟩)
    ∧ Raises (.rinv o n pri trp sr k8) (fun _ g _ => 1 ≤ g.detlevel) .detViol (fun _ _ => 0x310))
  ∧ (∀ o n win, let w := fun (g : Group) (l : Nat) => g.value o.c l
    let routed := fun (s : State) (g : Group) (l : Nat) =>
      decide ((w g l).toNat < 2 ^ 29) && s.hasRoute g.part ((w g l).toNat % 2 ^ 12)
    let sending := fun (s : State) (g : Group) (ls : List Nat) => ls.filter (routed s g)
    let src := fun (s : State) (g : Group) => win.toNat < (wins s g).length ∧ ((wins s g).getD win.toNat {}).src = true
    Does (.put o n win)
      (fun s id g ls => teamed s g ∧ src s g ∧ (s.team g.team).copyOf = none ∧ stored s id
        ∧ packetRoom s g (w g) (sending s g ls) ∧ ∀ l ∈ ls, routed s g l = true)
      (fun s id g ls u => ∃ m, TeamOnly s m g.team (fun x y => y = { x with wrote := true })
        ∧ Packets id g (w g) (fun _ => { win := win.toNat })
          (fun l seq => headOf s g 2 0 (w g l) seq (BitVec.ofNat 32 ((w g l).toNat / 2 ^ 21 % 256
              + 256 * ((w g l).toNat / 2 ^ 15 % 64))) ++ leBytes 4 (g.value o.b l).toNat ++ leBytes 1 (4 * (n.toNat + 1))
            ++ List.replicate 11 0
            ++ filled 32 ((List.range (n.toNat + 1)).flatMap (fun j => leBytes 4 (g.valueAt o.a j l).toNat))) ls m u)
    ∧ Does (.put o n win)
      (fun s id g ls => teamed s g ∧ src s g ∧ (s.team g.team).copyOf = none ∧ stored s id ∧ g.counter 3 ≤ 0xFFFF
        ∧ ∀ l ∈ ls, routed s g l = false)
      (fun s _ g ls u => ∃ m, TeamOnly s m g.team (fun x y => y = { x with wrote := true })
        ∧ u = ls.foldl (fun u l => u.refusePut g.part g.ctx win.toNat (if (w g l).toNat < 2 ^ 29 then 8 else 9)) m)
    ∧ Does (.put o n win) (fun s _ g _ => src s g ∧ (s.team g.team).copyOf ≠ none) (fun s _ _ _ u => u = s)
    ∧ Waits (.put o n win) (fun s id g _ => src s g ∧ (s.team g.team).copyOf = none ∧ ¬stored s id)
      (fun s _ _ => ⟨.ops (s.pendingOps (s.releaseWrites s.curId .sys)), false, false⟩)
    ∧ Waits (.put o n win)
      (fun s id g ls => src s g ∧ (s.team g.team).copyOf = none ∧ stored s id
        ∧ ¬packetRoom s g (w g) (sending s g ls)) (fun _ _ _ => ⟨.room, false, false⟩)
    ∧ Raises (.put o n win) (fun s g _ => ¬src s g) .prot (fun _ _ => 2))
  ∧ (∀ o kind,
    let count := fun (s : State) (g : Group) (ls : List Nat) =>
      Tab.getD (s.context g.part g.ctx).wcounts
        (4 * onceOf o.a g ls + match kind with | .src => 0 | .dst => 1 | .ref => 2) 0
    let thr := fun (g : Group) (ls : List Nat) => g.value o.b (ls.headD 0)
    let met := fun (s : State) (g : Group) (ls : List Nat) => (count s g ls - thr g ls).toNat < 2 ^ 31
    Does (.wcnt o kind)
      (fun s _ g ls => onceOf o.a g ls < (wins s g).length ∧ met s g ls ∧ flagRoom g o)
      (fun s id g ls u => ∃ f, (Instr.wcnt o kind).form = some f ∧ Started s u id { opOf g id .engine with
        flag := g.slotFlag o, dest := o.d, destN := 1
        res := ls.map (fun l =>
          { lane := l, bytes := leBytes 4 (if g.detlevel = 0 then count s g ls else thr g ls).toNat }) } (formDests f))
    ∧ Waits (.wcnt o kind) (fun s _ g ls => onceOf o.a g ls < (wins s g).length ∧ ¬met s g ls)
      (fun _ _ _ => ⟨.room, false, false⟩)
    ∧ Raises (.wcnt o kind) (fun s g ls => (wins s g).length ≤ onceOf o.a g ls) .prot (fun _ _ => 3))

namespace Sys2Proof.Claims

/-- Fields of a packet: the destination partition, the source chip and partition, and the number (R103). -/
def toPart (bs : List Byte) : Nat := field bs 6 1 % 8
def fromChip (bs : List Byte) : Nat := field bs 4 2 % 4096
def fromPart (bs : List Byte) : Nat := field bs 7 1 % 8
def numberOf (bs : List Byte) : Nat := field bs 8 4

/-- A packet of a type for this chip has arrived, and its partition takes packets (R106, R427). -/
structure Arrived (s : State) (pkt ty : Nat) (bs : List Byte) : Prop where
  listed : ∃ p, Tab.get? s.packets pkt = some p ∧ p.bytes = bs ∧ p.landing = false
  type : field bs 0 1 = ty
  chip : field bs 2 2 % 4096 = s.pt.chipid
  on : (s.func (toPart bs)).fabEn = true
  free : ty = 2 → (s.func (toPart bs)).dropCmd = none

/-- Where the sequence table keeps a packet's source, and the number it expects (R106). -/
def seqBaseOf (s : State) (bs : List Byte) : Nat :=
  (s.func (toPart bs)).seqBase + 1024 * (8 * fromChip bs + fromPart bs)
def expectedOf (s : State) (bs : List Byte) : Nat := leNat (s.physRead (toPart bs) (seqBaseOf s bs) 4)

/-- How far a packet's number lies behind the expected one. -/
def behindBy (s : State) (bs : List Byte) : Nat := (expectedOf s bs + 2 ^ 32 - numberOf bs) % 2 ^ 32

/-- The packet has left the receiver, and nothing else has changed. -/
def Dropped (s u : State) (pkt : Nat) : Prop :=
  u = { s with packets := u.packets } ∧ oneEntry s.packets u.packets pkt none

/-- A reply is stored at the place of its number, and the next number is expected (R106). -/
def Stored (s u : State) (bs : List Byte) (code reason : Nat) : Prop :=
  u = (s.physWrite (toPart bs) (seqBaseOf s bs + 256 + 2 * (numberOf bs % 256))
        (leBytes 1 code ++ leBytes 1 reason)).physWrite (toPart bs) (seqBaseOf s bs) (leBytes 4 (numberOf bs + 1))

/-- A reply is sent: an ACK for the codes 0 and 1, else a NACK (R103, R104). -/
def Replied (s u : State) (bs : List Byte) (code reason : Nat) : Prop :=
  u = s.transmit (toPart bs) (fromChip bs)
    (filled 32 (leBytes 1 (if code ≤ 1 then 3 else 4) ++ leBytes 1 0 ++ leBytes 2 (field bs 4 2) ++ leBytes 2 (field bs 2 2)
      ++ leBytes 1 (field bs 7 1) ++ leBytes 1 (field bs 6 1) ++ leBytes 4 (numberOf bs) ++ leBytes 1 code
      ++ leBytes 1 reason ++ leBytes 2 0))

/-- What the table of R112 says of an INV before its image is placed: a refusal, or nothing. `verdict` is what the check of
the handler's code object comes to, `none` where it is refused or cannot be read. -/
def refusalOf (s : State) (bs : List Byte) (verdict : Bool) : Option (Nat × Nat) :=
  let q := field bs 12 4 % 65536
  let x := s.queue (toPart bs) q
  let hs := (s.context (toPart bs) x.ctx).handlers
  let h := field bs 16 2
  if 1024 ≤ q ∨ x.live = false ∨ s.liveContexts (toPart bs) = [] then some (4, 1)
  else if x.inb.recv = false then some (4, 2)
  else if field bs 12 4 / 65536 ≠ x.gen then some (3, 3)
  else if hs.length ≤ h ∨ (hs.getD h {}).valid = false then some (4, 4)
  else if (hs.getD h {}).maxPw < field bs 18 1 ∨ (hs.getD h {}).maxSb < field bs 19 1 then some (4, 5)
  else if verdict = false then some (4, 6)
  else if x.inb.rsize ≤ x.inb.waiting.length then some (2, 7)
  else none

/-- The object check of an INV's handler, at most once for each queue and handler (R112). -/
def verdictOf (s : State) (bs : List Byte) : Option (Option (CodeObj × Option CodeObj)) :=
  match s.handlerObjs (toPart bs) (field bs 12 4 % 65536) (field bs 16 2) with
  | .ok v => some v
  | .wait _ | .bad _ _ | .ue => none

/-- The state with that check remembered. -/
def remembered (s : State) (bs : List Byte) (v : Option (CodeObj × Option CodeObj)) : State :=
  s.modQueue (toPart bs) (field bs 12 4 % 65536) (fun x =>
    { x with inb := { x.inb with verdicts := Tab.put x.inb.verdicts (field bs 16 2) v } })

end Sys2Proof.Claims

/-- R103, R104, R106, R107, R111 to R117, R120, R425 to R428: the receiver answers each numbered packet once; it decides an
INV by the table of R112 and writes or refuses a PUT; a reply ends its packet at its source; slots take the ring, and ready
batches become teams; packets are forwarded, sent again, and follow the links as they come and go; and a context error event
takes its place in the ring. -/
def Obligations.RemoteEvents : Prop :=
  let ringFull := fun (f : Func) => f.evHead - f.evTail = BitVec.ofNat 32 (ringSize f.evSize 4096)
  (∀ (s : State) pkt ty bs i, Arrived s pkt ty bs →
    (ty = 1 ∧ i = .invReceived pkt ∨ ty = 2 ∧ i = .putReceived pkt) →
    (256 < behindBy s bs → ∃ t : State, exec i s = .next t ∧ Dropped s t pkt)
    ∧ (1 ≤ behindBy s bs → behindBy s bs ≤ 256 → s.stillLanding bs = false →
      let at_ := seqBaseOf s bs + 256 + 2 * (numberOf bs % 256)
      ∃ u t : State, exec i s = .next t ∧ Dropped s u pkt
        ∧ Replied u t bs (leNat (s.physRead (toPart bs) at_ 1)) (leNat (s.physRead (toPart bs) (at_ + 1) 1))))
  ∧ (∀ (s : State) pkt bs code reason, Arrived s pkt 1 bs → behindBy s bs = 0 →
    (refusalOf s bs true = some (code, reason) ∧ reason < 6
      ∨ verdictOf s bs = none ∧ refusalOf s bs false = some (code, reason)) →
    ∃ u v t : State, exec (.invReceived pkt) s = .next t ∧ Dropped s u pkt ∧ Stored u v bs code reason ∧ Replied v t bs code reason)
  ∧ (∀ (s : State) pkt bs ver code reason, Arrived s pkt 1 bs → behindBy s bs = 0 → verdictOf s bs = some ver →
    5 < reason → refusalOf s bs ver.isSome = some (code, reason) →
    ∃ u v t : State, exec (.invReceived pkt) s = .next t ∧ Dropped (remembered s bs ver) u pkt ∧ Stored u v bs code reason
      ∧ Replied v t bs code reason)
  ∧ (∀ (s : State) pkt bs ver, Arrived s pkt 1 bs → behindBy s bs = 0 → verdictOf s bs = some (some ver) →
    refusalOf s bs true = none →
    let q := field bs 12 4 % 65536
    let x := s.queue (toPart bs) q
    let m := remembered s bs (some ver)
    let e := receiverEng (toPart bs) x.ctx x.die
    let ring := x.inb.ring + 128 * ((x.inb.head + x.inb.waiting.length) % x.inb.rsize)
    let rung := x.inb.waiting ≠ [] ∨ x.inb.freeSlot = none ∨ s.asSaved (toPart bs) x.ctx = true
    let done := fun (m : State) (code reason : Nat) => ∃ u v t : State, exec (.invReceived pkt) s = .next t ∧ Dropped m u pkt
      ∧ Stored u v bs code reason ∧ Replied v t bs code reason
    (∀ w, rung → m.engWrite e ring bs = .ok w →
      done { w.modQueue (toPart bs) q (fun x => { x with inb := { x.inb with waiting := x.inb.waiting ++ [m.fresh] } }) with
        fresh := w.fresh + 1 } 1 0)
    ∧ (∀ w k, ¬rung → x.inb.freeSlot = some k → m.engWrite e (x.inb.land + 128 * k) bs = .ok w →
      done { w.modQueue (toPart bs) q (fun x =>
          { x with inb := { x.inb with slots := Tab.put x.inb.slots k ⟨.held, m.fresh⟩, last := k } }) with
        fresh := w.fresh + 1 } 0 0)
    ∧ (∀ r va, rung → m.engWrite e ring bs = .bad r va → done m 4 13)
    ∧ (∀ k r va, ¬rung → x.inb.freeSlot = some k → m.engWrite e (x.inb.land + 128 * k) bs = .bad r va → done m 4 13))
  ∧ (∀ (s : State) pkt bs, Arrived s pkt 2 bs → behindBy s bs = 0 →
    let part := toPart bs
    let ctx := field bs 12 4 / 256 % 64
    let c := s.context part ctx
    let win := field bs 12 4 % 256
    let w := c.windows.getD win {}
    let off := field bs 16 4
    let len := field bs 20 1
    let e := receiverEng part ctx ((s.clusters part).headD 0 / 32)
    let data := (bs.drop 32).take len
    let refused := fun (r : Nat) => ∃ u v t : State, exec (.putReceived pkt) s = .next t ∧ Dropped s u pkt ∧ Stored u v bs 4 r
      ∧ Replied v t bs 4 r
    (c.live = false → refused 10)
    ∧ (c.live = true → c.windows.length ≤ win ∨ w.dst = false → refused 11)
    ∧ (c.live = true → win < c.windows.length → w.dst = true → off % 4 ≠ 0 ∨ w.size < off + len → refused 12)
    ∧ (c.live = true → win < c.windows.length → w.dst = true → off % 4 = 0 → off + len ≤ w.size →
      (∀ r va, s.engWrite e (w.base + off) data = .bad r va → refused 13)
      ∧ ∀ m, s.engWrite e (w.base + off) data = .ok m → ∃ v t : State, exec (.putReceived pkt) s = .next t ∧ Stored m v bs 0 0
        ∧ t = { v with packets := t.packets } ∧ (∀ j, j ≠ pkt → Tab.get? t.packets j = Tab.get? v.packets j)
        ∧ Tab.get? t.packets pkt = (Tab.get? v.packets pkt).map (fun p => { p with landing := true })))
  ∧ (∀ (s : State) pkt p, Tab.get? s.packets pkt = some p → p.landing = true →
    ∃ u t : State, exec (.putLanded pkt) s = .next t ∧ Dropped s u pkt
      ∧ Replied (u.bumpCount (toPart p.bytes) (field p.bytes 12 4 / 256 % 64) (field p.bytes 12 4 % 256) 1) t p.bytes 0 0)
  ∧ (∀ (s : State) part ctx win kind c, Tab.get? s.contexts (64 * part + ctx) = some c →
    ∃ u : State, s.bumpCount part ctx win kind = u ∧ u = { s with contexts := u.contexts }
      ∧ (∀ j, j ≠ 64 * part + ctx → Tab.get? u.contexts j = Tab.get? s.contexts j)
      ∧ u.context part ctx = { c with wcounts := (u.context part ctx).wcounts }
      ∧ ∀ j, Tab.getD (u.context part ctx).wcounts j 0
        = Tab.getD c.wcounts j 0 + if j = 4 * win + kind then 1 else 0)
  ∧ (∀ (s : State) pkt p x, Tab.get? s.packets pkt = some p → 3 ≤ field p.bytes 0 1 →
    field p.bytes 2 2 % 4096 = s.pt.chipid → (s.func (toPart p.bytes)).fabEn = true →
    let k := pairKey (toPart p.bytes) (fromChip p.bytes) (fromPart p.bytes)
    let seq := BitVec.ofNat 32 (numberOf p.bytes)
    (s.pair k).sent.find? (fun y => y.seq == seq) = some x →
    ∃ u t : State, exec (.replyReceived pkt) s = .next t ∧ u = { s with packets := u.packets, pairs := u.pairs }
      ∧ oneEntry s.packets u.packets pkt none ∧ (∀ j, j ≠ k → u.pair j = s.pair j)
      ∧ u.pair k = { s.pair k with sent := (s.pair k).sent.filter (fun y => y.seq != seq) }
      ∧ (∀ op lane o, x.main = some (op, lane) → Tab.get? u.ops op = some o →
        let code := field p.bytes 12 1 % 8
        ∃ v : State, v = { u with ops := v.ops }
          ∧ oneEntry u.ops v.ops op (some { o with
              res := o.res ++ [{ lane := lane, bytes := leBytes 4 (code + 256 * field p.bytes 13 1), tag := code }]
              body := match o.body with
                | .rinv trp n => .rinv trp (n - 1)
                | b => b })
          ∧ t = v.finishOp x.op)
      ∧ (x.main = none → field p.bytes 0 1 ≠ 4 → t = (u.bumpCount (toPart p.bytes) x.ctx x.win 0).finishOp x.op)
      ∧ (x.main = none → field p.bytes 0 1 = 4 →
        t = (u.refusePut (toPart p.bytes) x.ctx x.win (field p.bytes 13 1)).finishOp x.op))
  ∧ (∀ (s : State) part ctx win r, s.refusePut part ctx win r = (s.bumpCount part ctx win 2).ctxEvent part ctx 2 r 0)
  ∧ (∀ (s : State) part ctx code info addr data, let f := s.func part
    let b := hostKey (f.evBase + 32 * (f.evHead.toNat % ringSize f.evSize 4096))
    let e := leBytes 2 code ++ leBytes 1 ctx ++ leBytes 1 0 ++ leBytes 4 info ++ leBytes 8 addr ++ filled 16 data
    data.length ≤ 16 →
    (f.evBase ≠ 0 → ¬ringFull f → ∃ t : State, s.ctxEvent part ctx code info addr data = t
      ∧ t = { s with mem := t.mem, funcs := t.funcs } ∧ (∀ j, j ≠ part → t.func j = s.func j)
      ∧ t.func part = { f with evHead := f.evHead + 1, vectors := f.vectors ++ [0] }
      ∧ ∀ y, Memory.get t.mem y = if b ≤ y ∧ y < b + 32 then e.getD (y - b) 0 else Memory.get s.mem y)
    ∧ (f.evBase = 0 ∨ ringFull f → ∃ t : State, s.ctxEvent part ctx code info addr data = t ∧ t = { s with funcs := t.funcs }
      ∧ (∀ j, j ≠ part → t.func j = s.func j) ∧ t.func part = { f with evDrop := f.evDrop + 1 }))
  ∧ (∀ (s : State) pair x rest, (s.pair pair).sent = x :: rest → 128 * 2 ^ 20 ≤ 85 * (s.now - x.at_) →
    let part := pair / 32768
    let chip := pair / 8 % 4096
    ∃ u : State, exec (.retransmitTimeout pair) s = .next ((x :: rest).foldl (fun v y => v.transmit part chip y.bytes) u)
      ∧ u = { s with pairs := u.pairs } ∧ (∀ j, j ≠ pair → u.pair j = s.pair j)
      ∧ u.pair pair = { s.pair pair with
          link := s.routeLink part chip, sent := (x :: rest).map (fun y => { y with at_ := s.now }) })
  ∧ (∀ (s : State) part chip bs,
    (chip = s.pt.chipid → ∃ t : State, s.transmit part chip bs = t ∧ t = { s with packets := t.packets, fresh := s.fresh + 1 }
      ∧ oneEntry s.packets t.packets s.fresh (some { bytes := bs }))
    ∧ (∀ l, chip ≠ s.pt.chipid → s.routeLink part chip = some l → ∃ t : State, s.transmit part chip bs = t
      ∧ t = { s with links := t.links } ∧ (∀ j, j ≠ l → t.link j = s.link j)
      ∧ t.link l = { s.link l with out := (s.link l).out ++ [bs] }))
  ∧ (∀ (s : State) part chip, let w := (Tab.getD (s.func part).routes chip 0).toNat
    let usable := fun (l : Nat) => l < 12 ∧ Tab.getD s.pt.link l 0 = part ∧ (s.link l).up = true
    (w / 2 ^ 8 % 2 = 1 → usable (w % 16) → s.routeLink part chip = some (w % 16))
    ∧ (¬(w / 2 ^ 8 % 2 = 1 ∧ usable (w % 16)) → w / 2 ^ 9 % 2 = 1 → usable (w / 16 % 16) →
      s.routeLink part chip = some (w / 16 % 16))
    ∧ (¬(w / 2 ^ 8 % 2 = 1 ∧ usable (w % 16)) → ¬(w / 2 ^ 9 % 2 = 1 ∧ usable (w / 16 % 16)) →
      s.routeLink part chip = none))
  ∧ (∀ (s : State) pkt p l, Tab.get? s.packets pkt = some p → p.link = some l →
    let chip := field p.bytes 2 2 % 4096
    let owner := Tab.getD s.pt.link l 0
    chip ≠ s.pt.chipid → ∃ u : State, Dropped s u pkt
      ∧ (s.routeLink owner chip ≠ none → exec (.packetForward pkt) s = .next (u.transmit owner chip p.bytes))
      ∧ (s.routeLink owner chip = none → ∃ t : State, exec (.packetForward pkt) s = .next t ∧ t = { u with links := t.links }
        ∧ (∀ j, j ≠ l → t.link j = u.link j) ∧ t.link l = { u.link l with errors := (u.link l).errors + 1 }))
  ∧ (∀ (s : State) part q k order rest bs s1, let x := s.queue part q
    let e := receiverEng part x.ctx x.die
    x.live = true → s.asSaved part x.ctx = false → x.inb.freeSlot = some k → x.inb.waiting = order :: rest →
    s.engRead e (x.inb.ring + 128 * (x.inb.head % x.inb.rsize)) 128 = .ok bs →
    s.engWrite e (x.inb.land + 128 * k) bs = .ok s1 → s1.queue part q = x →
    ∃ t : State, exec (.landSlotFill part q) s = .next t ∧ t = { s1 with queues := t.queues }
      ∧ (∀ j, j ≠ 1024 * part + q → Tab.get? t.queues j = Tab.get? s1.queues j)
      ∧ t.queue part q = { x with inb := { x.inb with
          slots := Tab.put x.inb.slots k ⟨.held, order⟩, last := k, head := x.inb.head + 1, waiting := rest } })
  ∧ (∀ (s : State) part q l pri order t, s.batch? part q = some (l, pri, order) → s.placeBatch part q l = some t →
    (∀ j m p o, j ≠ 1024 * part + q → s.batch? (j / 1024) (j % 1024) = some (m, p, o) → m.die = l.die →
      pri < p ∨ (p = pri ∧ o < order) → s.placeBatch (j / 1024) (j % 1024) m = none) →
    exec (.handlerBatchLaunch part q) s = .next t)
  ∧ (∀ (s : State) part chip v, chip < 4096 → ∃ u : State, exec (.routeWrite part chip v) s = .next u.reroute
      ∧ u = { s with funcs := u.funcs } ∧ (∀ j, j ≠ part → u.func j = s.func j)
      ∧ u.func part = { s.func part with routes := (u.func part).routes }
      ∧ ∀ c, Tab.getD (u.func part).routes c 0 = if c = chip then v &&& 0x3FF else Tab.getD (s.func part).routes c 0)
  ∧ (∀ (s : State) part v, ∃ t : State, exec (.fabricEnable part v) s = .next t ∧ t = { s with funcs := t.funcs, pairs := t.pairs }
      ∧ (∀ j, j ≠ part → t.func j = s.func j)
      ∧ t.func part = { s.func part with fabEn := v.getLsbD 0 }
      ∧ ∀ k, t.pair k = if v.getLsbD 0 = true ∧ (s.func part).fabEn = false ∧ k / 32768 = part
          then { s.pair k with next := 0 } else s.pair k)
  ∧ (∀ (s : State) link, link < 12 → (s.link link).up = true →
    (∀ bs n, packetSize bs = some n → bs.length = n → ∃ t : State, exec (.flitReceived link true [bs]) s = .next t
      ∧ t = { s with links := t.links, packets := t.packets, fresh := s.fresh + 1 }
      ∧ oneEntry s.packets t.packets s.fresh (some { bytes := bs, link := some link })
      ∧ (∀ j, j ≠ link → t.link j = s.link j) ∧ t.link link = { s.link link with fails := 0, lastGood := s.now })
    ∧ (∀ bs, packetSize bs = none → ∃ t : State, exec (.flitReceived link true [bs]) s = .next t ∧ t = { s with links := t.links }
      ∧ (∀ j, j ≠ link → t.link j = s.link j)
      ∧ t.link link = { s.link link with fails := 0, lastGood := s.now, errors := (s.link link).errors + 1 })
    ∧ (∀ ps, ∃ t : State, exec (.flitReceived link false ps) s = .next t ∧ t = { s with links := t.links }
      ∧ (∀ j, j ≠ link → t.link j = s.link j)
      ∧ t.link link = { s.link link with
          fails := (s.link link).fails + 1, errors := (s.link link).errors + 1, replays := (s.link link).replays + 1 })
    ∧ (64 ≤ (s.link link).fails ∨ 128 * 2 ^ 16 ≤ 85 * (s.now - (s.link link).lastGood) →
      ∃ u : State, exec (.linkDown link) s = .next u.reroute ∧ u = { s with links := u.links }
        ∧ (∀ j, j ≠ link → u.link j = s.link j) ∧ u.link link = { s.link link with up := false }))
  ∧ (∀ (s : State) link, link < 12 → (s.link link).up = false → ∃ u : State, exec (.linkUp link) s = .next u.reroute
      ∧ u = { s with links := u.links } ∧ (∀ j, j ≠ link → u.link j = s.link j)
      ∧ u.link link = { s.link link with up := true, fails := 0, lastGood := s.now })

/-! ## Issue and retirement -/

namespace Sys2Proof.Claims

/-- A header that is well formed (R43, R44): its marker, LEN, its reserved bits and its flags. -/
structure HeaderFine (w : Nat) : Prop where
  marker : w % 2 ^ 10 = 0x3FF
  length : 1 ≤ w / 2 ^ 15 % 16
  reserved : w / 2 ^ 10 % 32 = 0 ∧ w / 2 ^ 41 % 8 = 0 ∧ w / 2 ^ 52 % 2 ^ 44 = 0
  fa : if w / 2 ^ 35 % 2 = 1 then w / 2 ^ 31 % 16 ≤ 11 else w / 2 ^ 31 % 16 = 0
  fb : if w / 2 ^ 40 % 2 = 1 then w / 2 ^ 36 % 16 ≤ 11 else w / 2 ^ 36 % 16 = 0
  apart : w / 2 ^ 35 % 2 = 1 → w / 2 ^ 40 % 2 = 1 → w / 2 ^ 31 % 16 ≠ w / 2 ^ 36 % 16

/-- A group that may issue stands before a clause: its next entry is `e`. -/
structure Before (s : State) (id : Nat) (g : Group) (e : Entry) : Prop where
  may : s.mayIssue id = true
  here : Tab.get? s.groups id = some g
  real : Tab.get? s.spec id = none
  outside : g.clause = none
  next : g.next? = some e

/-- The condition of a wait has ended (R138). -/
def endedWait (s : State) (id : Nat) (g : Group) (w : Wait) : Prop :=
  match w.why with
  | .flags fs => ∀ f ∈ fs, g.flagOps f = []
  | .counter k n => g.counter k ≤ n
  | .sleep _ mask => (s.queue g.part g.queue).wake &&& mask ≠ 0
  | .granule key full => (key ∈ s.full ↔ full = true)
  | .nbar nb p => ((s.team g.team).nbar nb).complete p = true
  | .obj h p => (s.barObj (handleEntry h)).bar.complete p = true
  | .matrix kind tile n => s.matrixHolds g.team kind tile n = true
  | .ops ids => ∀ i ∈ ids, Tab.get? s.ops i = none
  | .clock => s.clockLeast id = true
  | .region | .room => True
  | .page _ => False

/-- What follows the end of a wait: the instruction issues again, or, where it has acted, its slot is over. -/
def Resumes (s t : State) (id : Nat) (g : Group) (w : Wait) : Prop :=
  (w.acted = false → OnlyGroup s t id ∧ t.group id = { g with wait := none })
    ∧ (w.acted = true → ∀ c, g.clause = some c → ∃ u, OnlyGroup s u id ∧ u.group id = { g with wait := none }
        ∧ SlotOver { u with cur := .group id } t id c)

/-- A disagreement of two executions on a core (R412, R413): it is counted and logged, and the third within 2^30 of the
core's cycles quarantines it. -/
structure Disagreed (s u : State) (g : Group) (pc : Nat) (lanes : Mask) : Prop where
  rest : u = { s with funcs := u.funcs, mgmt := u.mgmt, cores := u.cores }
  count : u.func g.part = { s.func g.part with sechkDis := (s.func g.part).sechkDis + 1 }
  funcs : ∀ j, j ≠ g.part → u.func j = s.func j
  cores : ∀ j, j ≠ g.core → u.core j = s.core j
  recent : ∀ x, x ∈ (u.core g.core).disagreements ↔ x = (s.core g.core).cycles
    ∨ x ∈ (s.core g.core).disagreements ∧ (s.core g.core).cycles < x + 2 ^ 30
  core : u.core g.core = { s.core g.core with
    disagreements := (u.core g.core).disagreements
    quarantined := (s.core g.core).quarantined || decide (3 ≤ (u.core g.core).disagreements.length) }
  log : ∃ more, u.mgmt.log = s.mgmt.log ++ ⟨s.mgmt.logSeq, s.mgmtTime, .disagreement g.core g.ctx pc lanes⟩ :: more
    ∧ more = (if (s.core g.core).quarantined = false ∧ (u.core g.core).quarantined = true then
        [⟨s.mgmt.logSeq + 1, s.mgmtTime, .quarantine g.core⟩] else [])

end Sys2Proof.Claims

/-- R43 to R47, R53, R54, R133, R138, R139, R143, R165, R277, R412: a clause starts once its flags are clear, or faults where
its header stands or is wrong; a wait ends with its condition, a sleep with its count, and a place in the active set after
512 cycles; a word that is no instruction faults by its kind; and a checked instruction is compared. -/
def Obligations.IssueEvents : Prop :=
  (∀ (s : State) id g e w, Before s id g e → e.pc % 12 = 0 → s.codeWord? g e.handler e.pc = some w → HeaderFine w →
    e.pc + 12 * (w / 2 ^ 15 % 16 + 1) ≤ s.codeSize g e.handler →
    let named := fun (f : Nat) => f < 12 ∧ w / 2 ^ (19 + f) % 2 = 1
    ((∀ f, named f → g.flagOps f = []) → ∃ t, exec (.clauseStart id) s = .next t
      ∧ t = { s with cur := .group id, groups := t.groups } ∧ (∀ j, j ≠ id → Tab.get? t.groups j = Tab.get? s.groups j)
      ∧ t.group id = { g with
          clause := some { pc := e.pc, len := w / 2 ^ 15 % 16, slot := 0, handler := e.handler
                           fa := if w / 2 ^ 35 % 2 = 1 then some (w / 2 ^ 31 % 16) else none
                           fb := if w / 2 ^ 40 % 2 = 1 then some (w / 2 ^ 36 % 16) else none }
          frontier := g.frontier.map (fun x =>
            if x.pc = e.pc ∧ x.handler = e.handler then { x with prio := w / 2 ^ 44 % 256 } else x) })
    ∧ ((∃ f, named f ∧ g.flagOps f ≠ []) → ∃ t, exec (.clauseStart id) s = .next t
      ∧ OnlyGroup { s with cur := .group id } t id
      ∧ t.group id = { g with
          wait := some { why := .flags ((List.range 12).filter (fun f => decide (w / 2 ^ (19 + f) % 2 = 1))) } }))
  ∧ (∀ (s : State) id g e, Before s id g e →
    let fault := fun (c : Cause) =>
      exec (.clauseStart id) s = .next ({ s with cur := .group id }.raiseFault id e.pc c 0 0 0)
    (s.codeSize g e.handler ≤ e.pc → fault .codeRange)
    ∧ (e.pc < s.codeSize g e.handler → e.pc % 12 ≠ 0 → fault .illclause)
    ∧ (∀ w, e.pc < s.codeSize g e.handler → e.pc % 12 = 0 → s.codeWord? g e.handler e.pc = some w →
      (w % 2 ^ 10 ≠ 0x3FF → fault .illclause)
      ∧ (w % 2 ^ 10 = 0x3FF → s.codeSize g e.handler < e.pc + 12 * (w / 2 ^ 15 % 16 + 1) → fault .codeRange)
      ∧ (w % 2 ^ 10 = 0x3FF → e.pc + 12 * (w / 2 ^ 15 % 16 + 1) ≤ s.codeSize g e.handler → ¬HeaderFine w →
        fault .illclause)))
  ∧ (∀ (s : State) id g w, Tab.get? s.groups id = some g → g.wait = some w → s.attends id = true → g.trapping = none →
    w.ended = true ∨ endedWait s id g w → (∀ k, w.why ≠ .page k) →
    ∃ t, exec (.issueWaitEnd id) s = .next t ∧ Resumes s t id g w)
  ∧ (∀ (s : State) id g n mask acted ended, Tab.get? s.groups id = some g →
    g.wait = some ⟨.sleep n mask, acted, ended⟩ → s.attends id = true → g.trapping = none → n ≤ (s.core g.core).cycles →
    ∃ t, exec (.sleepcExpiry id) s = .next t ∧ Resumes s t id g ⟨.sleep n mask, acted, ended⟩)
  ∧ (∀ (s : State) id g h rest, Tab.get? s.groups id = some g → g.waiting = false → id ∈ (s.core g.core).active →
    (s.core g.core).ready = h :: rest → h ≠ id →
    Tab.getD (s.core g.core).entered id 0 + 512 ≤ (s.core g.core).cycles →
    ∃ t, exec (.activeTimeExpiry id) s = .next t ∧ t = { s with cores := t.cores }
      ∧ (∀ j, j ≠ g.core → t.core j = s.core j)
      ∧ t.core g.core = { s.core g.core with
          active := (s.core g.core).active.map (fun x => if x = id then h else x)
          ready := rest ++ [id], entered := (t.core g.core).entered }
      ∧ Tab.get? (t.core g.core).entered h = some (s.core g.core).cycles
      ∧ Tab.get? (t.core g.core).entered id = none)
  ∧ (∀ (s : State) id g c (w : BitVec 96), s.cur = .group id → Tab.get? s.groups id = some g → g.clause = some c →
    let map := opcodeMap (s.context g.part g.ctx).table
    let op := map (w.toNat % 1024)
    let misplaced := ∃ k, op = some k ∧ (isTransferOp k = true ∧ c.last = false
      ∨ wordLong k w.toNat = true ∧ c.flag (w.getLsbD 20) = none)
    let otherPool := ∃ k, op = some k ∧ poolOk (opPool k w.toNat) g.core = false
    let fault := fun (cause : Cause) (info : Word) =>
      exec (.nonInstructionIssue w) s = .next (s.raiseFault id c.slotPc cause info 0 0)
    (∀ k, g.number = 0 → (s.team g.team).badBuf = some k → fault .bufstate (BitVec.ofNat 32 (1 + 65536 * k)))
    ∧ (g.number ≠ 0 ∨ (s.team g.team).badBuf = none →
      (decodeWord map w.toNat = .header ∨ misplaced → fault .illclause 0)
      ∧ (decodeWord map w.toNat = .illopnd → ¬misplaced → ¬otherPool → fault .illopnd 0)
      ∧ (decodeWord map w.toNat = .illopnd → ¬misplaced → otherPool → fault .undef 0)
      ∧ (decodeWord map w.toNat = .undef → ¬misplaced → fault .undef 0)))
  ∧ (∀ (s : State) t (w : BitVec 96), s.cur = .stream t →
    let map := opcodeMap (s.context (s.team t).part (s.team t).ctx).table
    let operand := decodeWord map w.toNat = .illopnd ∧ w.toNat / 2 ^ 10 % 2 ^ 11 = 0
      ∧ ∃ k, map (w.toNat % 1024) = some k ∧ opPool k w.toNat = .stream
    (operand → exec (.nonInstructionIssue w) s = .next (s.streamFault t .illopnd 0))
    ∧ (¬operand → exec (.nonInstructionIssue w) s = .next (s.streamFault t .undef 0)))
  ∧ (∀ (s : State) id g pc lanes rest, Tab.get? s.groups id = some g → g.checks = (pc, lanes) :: rest →
    ∃ m : State, m = { s with groups := m.groups } ∧ oneEntry s.groups m.groups id (some { g with checks := rest })
      ∧ exec (.silentCheckReplay id .agree) s = .next m
      ∧ (∃ u, exec (.silentCheckReplay id .twoOfThree) s = .next u ∧ Disagreed m u g pc lanes)
      ∧ (∃ u, exec (.silentCheckReplay id .allDiffer) s = .next (u.consumeUE id pc false) ∧ Disagreed m u g pc lanes))

namespace Sys2Proof.Claims

/-- Nothing of a group is in flight (R416). -/
def quiet (s : State) (id : Nat) (g : Group) : Prop :=
  (∀ x ∈ g.flags, x.2 = []) ∧ (∀ x ∈ g.counters, x.2 = []) ∧ g.request = none
    ∧ ∀ r ∈ s.preqs, ¬(r.2.kind = 1 ∧ r.2.who = id)

/-- A team may retire (R417): its groups have retired, no region is bound, its batches are complete and none of its tiles is
resolving. -/
structure MayRetire (s : State) (t : Nat) (x : Team) : Prop where
  here : Tab.get? s.teams t = some x
  staying : x.retired = false ∧ x.saved = false ∧ x.groups ≠ []
  groups : ∀ j ∈ x.groups, (s.group j).retired = true
  regions : x.regions = []
  batches : ∀ b ∈ s.batches, b.2.held = true → b.2.team = t → b.2.complete = true
  tiles : ∀ y ∈ s.tslots, y.2.team = t → y.2.state ≠ .closing

/-- A plain team of a gang of its own: no batch, no tile slot, no scratch (R128). -/
structure Alone (s : State) (t : Nat) (x : Team) : Prop where
  batches : ∀ b ∈ s.batches, b.2.team ≠ t
  tiles : ∀ y ∈ s.tslots, y.2.team ≠ t
  scratch : x.coreScr = 0 ∧ (s.gang x.gang).clusScr = 0
  gang : (s.gang x.gang).teams = [t]
  copies : ∀ g ∈ s.gangs, g.2.copyOf ≠ some t
  shadow : ∀ y ∈ s.teams, y.2.copyOf ≠ some t

end Sys2Proof.Claims

/-- R128, R129, R131, R395, R397, R407, R410, R411, R416 to R419: a draining group with nothing in flight retires; the last
one writes back the team's regions; a team that may retire frees what it holds, is counted in its launch and is forgotten, or
starts afresh where it was killed; a chosen team and its copy are compared; and a launch ends with its last team. -/
def Obligations.Retirement : Prop :=
  (∀ (s : State) id g, Tab.get? s.groups id = some g → g.retired = false → (s.team g.team).saved = false →
    g.draining = true → quiet s id g →
    ((s.team g.team).copyOf = none ∨ g.stopped = false ∨ (s.team g.team).killed = true) →
    ∃ u : State, exec (.groupRetire id) s = .next (u.lastRetired g.team) ∧ u = { s with groups := u.groups }
      ∧ oneEntry s.groups u.groups id (some { g with retired := true }))
  ∧ (∀ (s : State) t j, j ∈ s.teamGroups t → (s.group j).retired = false → s.lastRetired t = s)
  ∧ (∀ (s : State) t, (s.team t).regions = [] → (s.team t).killed = false → s.lastRetired t = s)
  ∧ (∀ (s : State) id g, Tab.get? s.groups id = some g → g.retired = false → (s.team g.team).saved = false →
    (s.team g.team).copyOf ≠ none → g.stopped = true → (s.team g.team).killed = false →
    exec (.groupRetire id) s = .next (s.killTeam g.team))
  ∧ (∀ (s : State) t x l, MayRetire s t x → x.copyOf = none → x.killed = false → Alone s t x →
    Tab.get? s.launches x.launch = some l → l.src = .node → l.done + 1 < l.teams ∨ l.copies ≠ 0 →
    ∃ u : State, exec (.teamRetire t) s = .next u
      ∧ u = { s with
          teams := Tab.erase s.teams t, groups := u.groups, gangs := Tab.erase s.gangs x.gang, launches := u.launches
          copies := u.copies, contexts := u.contexts, holds := u.holds, mem := u.mem, full := u.full, poison := u.poison
          tslots := u.tslots, batches := u.batches, scenes := u.scenes, allocs := u.allocs }
      ∧ (∀ j, Tab.get? u.groups j = if j ∈ x.groups then none else Tab.get? s.groups j)
      ∧ oneEntry s.launches u.launches x.launch (some { l with done := l.done + 1 })
      ∧ (∀ h, h ∈ u.holds ↔ h ∈ s.holds ∧ h.2 ≠ x.gang)
      ∧ ((s.copy x.copy).refs ≤ 1 → Tab.get? u.copies x.copy = none
          ∧ ∀ k, Memory.get u.mem k = if spaceKey x.copy 0 ≤ k ∧ k < spaceKey (x.copy + 1) 0 then 0 else Memory.get s.mem k)
      ∧ (∀ c, 1 < (s.copy x.copy).refs → Tab.get? s.copies x.copy = some c →
          oneEntry s.copies u.copies x.copy (some { c with refs := c.refs - 1 }) ∧ u.mem = s.mem)
      ∧ (∀ c, Tab.get? s.contexts (64 * x.part + x.ctx) = some c →
          let ts := Tab.getD c.times x.obj.addr [] ++ [s.now - x.since + x.resided]
          oneEntry s.contexts u.contexts (64 * x.part + x.ctx)
            (some { c with times := Tab.put c.times x.obj.addr (ts.drop (ts.length - 16)) })))
  ∧ (∀ (s : State) k l, Tab.get? s.launches k = some l → l.teams ≤ l.done → l.copies = 0 → l.dieScr = [] → l.src = .node →
    s.completeLaunch k = { s with launches := Tab.erase s.launches k })
  ∧ (∀ (s : State) k l, Tab.get? s.launches k = some l → l.done < l.teams ∨ l.copies ≠ 0 → s.completeLaunch k = s)
  ∧ (∀ (s : State) t x, MayRetire s t x → x.copyOf = none → x.killed = true → (s.launch x.launch).src = .node →
    ∃ u : State, exec (.teamRetire t) s = .next ((u.freeTeam t).eraseTeam t)
      ∧ u = { s with gangs := u.gangs, fresh := s.fresh + 1 }
      ∧ oneEntry s.gangs u.gangs s.fresh (some { launch := x.launch, index := (s.gang x.gang).index, lins := [x.lin]
                                                 since := s.now, kills := x.kills, again := some t }))
  ∧ (∀ (s : State) c x, MayRetire s c x → x.copyOf ≠ none → x.skipped = true →
    let u := s.freeTeam c
    exec (.teamRetire c) s
      = .next ((u.modFunc x.part (fun f => { f with chkSkip := f.chkSkip + 1 })).endCopy x.launch c))
  ∧ (∀ (s : State) c x t, MayRetire s c x → x.copyOf = some t → x.skipped = false → (s.team t).retired = true →
    exec (.teamRetire c) s = .next ((s.freeTeam c).compareCopy t c))
  ∧ (∀ (s : State) t c, let x := s.team t
    let u := s.modFunc x.part (fun f => { f with chkRuns := f.chkRuns + 1 })
    (s.digest t = s.digest c → s.raisedMore t c = false → s.compareCopy t c = (u.eraseTeam t).endCopy x.launch c)
    ∧ (s.digest t ≠ s.digest c ∨ s.raisedMore t c = true → ∃ v : State,
      s.compareCopy t c = ((v.ctxEvent x.part x.ctx 8 x.lin x.obj.addr
        (leBytes 8 (s.digest t).toNat ++ leBytes 8 (s.digest c).toNat)).eraseTeam t).endCopy x.launch c
      ∧ v = { u with funcs := v.funcs, mgmt := v.mgmt }
      ∧ v.func x.part = { u.func x.part with chkMismatch := (u.func x.part).chkMismatch + 1 }
      ∧ v.mgmt.log = u.mgmt.log
        ++ [⟨u.mgmt.logSeq, u.mgmtTime, .mismatch x.ctx x.obj.addr x.lin (s.digest t).toNat (s.digest c).toNat⟩]))
  ∧ crc64 ([0x31, 0x32, 0x33, 0x34, 0x35, 0x36, 0x37, 0x38, 0x39] : List Byte) = 0x995DC9BBDF1939FA
  ∧ (∀ (s : State) lid copy l, Tab.get? s.launches lid = some l → ∃ u : State,
    s.endCopy lid copy = u.completeLaunch lid ∧ u = { s.eraseTeam copy with launches := u.launches }
      ∧ oneEntry s.launches u.launches lid (some { l with copies := l.copies - 1 }))

/-! ## Contexts, queues and the host -/

namespace Sys2Proof.Claims

/-- Only the function block of a partition has changed, as `f` says. -/
def FuncOnly (s t : State) (part : Nat) (f : Func) : Prop :=
  t = { s with funcs := t.funcs } ∧ (∀ j, j ≠ part → t.func j = s.func j) ∧ t.func part = f

/-- Only one queue has changed, to `x`. -/
def QueueOnly (s t : State) (part q : Nat) (x : Queue) : Prop :=
  t = { s with queues := t.queues } ∧ oneEntry s.queues t.queues (1024 * part + q) (some x)

/-- The descriptor that ARG names is read: 64 aligned bytes, wholly in global or host memory, without an error (R69). -/
def Descriptor (s : State) (part arg : Nat) (d : List Byte) : Prop :=
  arg % 64 = 0 ∧ ∃ k, (s.rangeTarget part arg 64 = .mem k ∨ s.rangeTarget part arg 64 = .host k)
    ∧ s.readsPoison ((List.range 64).map (k + ·)) = false ∧ d = (List.range 64).map (fun i => Memory.get s.mem (k + i))

/-- A context descriptor in range (R68). -/
structure ContextFine (s : State) (part : Nat) (d : List Byte) : Prop where
  reserved : field d 49 15 = 0 ∧ field d 48 1 < 4
  root : field d 0 8 % 4096 = 0
  mapped : (∃ k, s.rangeTarget part (field d 0 8) 4096 = .mem k) ∨ ∃ k, s.rangeTarget part (field d 0 8) 4096 = .host k

/-- A queue descriptor in range (R71). -/
structure QueueFine (s : State) (part : Nat) (d : List Byte) : Prop where
  reserved : field d 32 32 = 0
  ring : field d 0 8 % 4096 = 0 ∧ ∃ k, 4 ≤ k ∧ k ≤ 16 ∧ field d 8 4 = 2 ^ k
  levels : field d 12 1 ≤ 4 ∧ field d 13 1 ≤ 3 ∧ field d 14 1 ≤ 1
  die : field d 15 1 ≤ 1 ∧ ∃ u ∈ s.clusters part, u / 32 = field d 15 1
  places : field d 16 8 % 8 = 0 ∧ field d 24 8 % 32 = 0

/-- What a queue is when it is created without inbound settings (R71). -/
def newQueue (d : List Byte) (gen ctx : Nat) : Queue :=
  { live := true, gen := gen, ctx := ctx, prio := field d 12 1 % 4, realtime := decide (field d 12 1 = 4)
    det := field d 13 1, trapen := decide (field d 14 1 = 1), die := field d 15 1, ring := field d 0 8
    size := field d 8 4, head := field d 16 8, err := field d 24 8 }

end Sys2Proof.Claims

/-- R56, R68 to R71, R98, R108, R274, R372, R456: a command waits for its engine; a context takes the lowest free number, and
the tables of its template or none; a queue takes a free index and the next generation; a destroyed object leaves, unless it
is at work; and each refusal has its RESULT. -/
def Obligations.ContextsAndQueues : Prop :=
  (∀ (s : State) part (cmd : Word) n i, (n, i) ∈ [(1, Instr.createContext part cmd), (2, .destroyContext part cmd),
      (3, .createQueue part cmd), (4, .destroyQueue part cmd)] →
    (cmd.toNat % 16 = n → (s.func part).qCmd = none →
      ∃ t : State, exec i s = .next t ∧ FuncOnly s t part { s.func part with qCmd := some (cmd, (s.func part).qArg) })
    ∧ ((s.func part).qCmd ≠ none → exec i s = .next s))
  ∧ (∀ (s : State) part cmd arg, (s.func part).qCmd = some (cmd, arg) → (s.func part).dropCmd = none →
    (∀ u n, s.runCommand part cmd arg = .ok (u, n) → ∃ t : State, exec (.queueCommandDone part) s = .next t
      ∧ FuncOnly u t part { u.func part with qCmd := none, qResult := 0, qNumber := n.getD (u.func part).qNumber })
    ∧ (∀ r, s.runCommand part cmd arg = .refused r → ∃ t : State, exec (.queueCommandDone part) s = .next t
      ∧ FuncOnly (s.clearRequests (2 ^ 43 + part) 0) t part { s.func part with qCmd := none, qResult := r }))
  ∧ (∀ (s : State) part arg, (arg % 64 ≠ 0 ∨ s.rangeTarget part arg 64 = .nothing) →
    s.createContext part arg = .refused 4 ∧ (∀ ctx, (s.context part ctx).live = true →
      (s.context part ctx).isTemplate = false → s.createQueue part arg ctx = .refused 4))
  ∧ (∀ (s : State) part arg d, Descriptor s part arg d →
    let free := fun (n : Nat) => n < 64 ∧ (s.context part n).live = false
    let base : Context :=
      { part := part, desc := arg, ptroot := field d 0 8, traph := field d 24 8, seed := BitVec.ofNat 64 (field d 32 8)
        isTemplate := decide (field d 48 1 % 2 = 1), sechk := decide (field d 48 1 / 2 % 2 = 1), live := true }
    (¬ContextFine s part d → s.createContext part arg = .refused 4)
    ∧ (ContextFine s part d → (∀ n, ¬free n) → s.createContext part arg = .refused 3)
    ∧ (∀ n, ContextFine s part d → free n → (∀ m, m < n → ¬free m) → field d 24 8 = 0 →
      (field d 40 8 = 0 → field d 8 8 = 0 → field d 16 8 = 0 →
        ∃ t : State, s.createContext part arg = .ok (t, n) ∧ t = { s with contexts := t.contexts, preqs := t.preqs }
          ∧ oneEntry s.contexts t.contexts (64 * part + n) (some base))
      ∧ (field d 40 8 = 0 → field d 8 8 % 4096 ≠ 0 → s.createContext part arg = .refused 1)
      ∧ (field d 40 8 = 0 → field d 8 8 = 0 → field d 16 8 % 64 ≠ 0 → s.createContext part arg = .refused 4)
      ∧ (field d 40 8 ≠ 0 → (∀ c ∈ s.contexts, ¬(c.2.live = true ∧ c.2.part = part ∧ c.2.isTemplate = true
          ∧ c.2.desc = field d 40 8)) → s.createContext part arg = .refused 2)
      ∧ (∀ c, field d 40 8 ≠ 0 → s.contexts.find? (fun x => x.2.live && x.2.part == part && x.2.isTemplate
          && x.2.desc == field d 40 8) = some c →
        ∃ t : State, s.createContext part arg = .ok (t, n) ∧ t = { s with contexts := t.contexts, preqs := t.preqs }
          ∧ oneEntry s.contexts t.contexts (64 * part + n) (some { base with
              table := c.2.table, handlers := c.2.handlers, inq := c.2.inq, windows := c.2.windows }))))
  ∧ (∀ (s : State) part arg ctx d, Descriptor s part arg d → (s.context part ctx).live = true →
    (s.context part ctx).isTemplate = false →
    let e := s.commandEng part ctx (field d 15 1)
    let ranges := [(field d 0 8, 16 * field d 8 4, false), (field d 0 8, 16 * field d 8 4, true), (field d 16 8, 8, true),
      (field d 24 8, 32, true)]
    (¬QueueFine s part d → s.createQueue part arg ctx = .refused 4)
    ∧ (QueueFine s part d → (∀ r ∈ ranges, s.mapped e r.1 r.2.1 r.2.2 = .ok ()) →
      ((∀ q, q < 1024 → (s.queue part q).live = true) → s.createQueue part arg ctx = .refused 3)
      ∧ ((∃ q, q < 1024 ∧ (s.queue part q).live = false) → (s.context part ctx).inq = 0 →
        ∃ q t gen, q < 1024 ∧ (s.queue part q).live = false ∧ s.createQueue part arg ctx = .ok (t, q)
          ∧ gen = (if (s.queue part q).gen = 0xFFFF then 1 else (s.queue part q).gen + 1)
          ∧ t = { s with queues := t.queues, preqs := t.preqs, fresh := s.fresh + 1 }
          ∧ oneEntry s.queues t.queues (1024 * part + q) (some (newQueue d gen ctx)))))
  ∧ (∀ (s : State) part arg ctx, ((s.context part ctx).live = false ∨ (s.context part ctx).isTemplate = true) →
    s.createQueue part arg ctx = .refused 4)
  ∧ (∀ (s : State) part q, let x := s.queue part q
    (1024 ≤ q ∨ x.live = false → s.destroyQueue part q = .refused 4)
    ∧ (q < 1024 → x.live = true → ¬(x.state = .idle ∨ x.state = .error) ∨ x.inb.busy = true →
      s.destroyQueue part q = .refused 5)
    ∧ (q < 1024 → x.live = true → x.state = .idle ∨ x.state = .error → x.inb.busy = false → x.held = [] →
      ∃ t : State, s.destroyQueue part q = .ok t ∧ QueueOnly s t part q { gen := x.gen }))
  ∧ (∀ (s : State) part q x graph seq op, s.queue part q = x → x.held = [(graph, seq, op)] →
    s.dropEntries part q
      = (s.ctxEvent part x.ctx 9 (65536 * x.gen + q) graph (leBytes 4 seq.toNat ++ [0])).finishOp op)
  ∧ (∀ (s : State) part ctx, let c := s.context part ctx
    (c.live = false → s.destroyContext part ctx = .refused 4)
    ∧ (c.live = true → (∃ q ∈ s.contextQueues part ctx, (s.queue part q).state ≠ .idle ∨ (s.queue part q).inb.busy = true) →
      s.destroyContext part ctx = .refused 5)
    ∧ (c.live = true → s.contextQueues part ctx = [] → ∃ t : State, s.destroyContext part ctx = .ok t
      ∧ t = { s with contexts := Tab.erase s.contexts (64 * part + ctx), barObjs := t.barObjs, grants := t.grants }
      ∧ (∀ h, s.barObj h = {} ∨ ¬((s.barObj h).held = true ∧ (s.barObj h).part = part ∧ (s.barObj h).ctx = ctx) →
          t.barObj h = s.barObj h)
      ∧ (∀ h, (s.barObj h).held = true → (s.barObj h).part = part → (s.barObj h).ctx = ctx → (t.barObj h).held = false)
      ∧ ∀ g, g ∈ t.grants ↔ g ∈ s.grants ∧ ¬(g.1 % 64 = ctx ∧ g.1 / 4096 = part)))

namespace Sys2Proof.Claims

/-- The engine of a queue's die serves that queue next, and no error of it waits (R82). -/
def Serves (s : State) (part q : Nat) (x : Queue) : Prop :=
  s.queueTurn part q = true ∧ s.queue part q = x ∧ x.fault = none

/-- The engine has served the queue: what its round robin remembers (R82). -/
def servedNow (s : State) (part q : Nat) (x : Queue) : State :=
  { s with qServed := Tab.put s.qServed (8 * x.die + if x.realtime then 4 else x.prio) (8 * q + part + 1) }

/-- The answered requests of a queue's engine are forgotten, and only the queue changes, to `y`. -/
def Steps (s t : State) (part q : Nat) (y : Queue) : Prop := QueueOnly (s.engDone (s.qEng part q)) t part q y

end Sys2Proof.Claims

/-- R72 to R84, R98, R228, R456: the kick page's writes; the walk of a queue through IDLE, FETCH, CHECK, NODE and WAITNODE
with each node's effect and successor; the error record with its entry into ERROR, and SKIP out of it; the order in which
queues are served; and the entries that programs append. -/
def Obligations.QueueWalk : Prop :=
  let kind := fun (x : Queue) => field x.cur 0 1
  let next := fun (x : Queue) => field x.cur 2 2
  (∀ (s : State) part q (n : Word), let x := s.queue part q
    let far := x.size < (n - x.h).toNat
    x.live = true →
    (¬far → ∃ t : State, exec (.tail part q n) s = .next t
      ∧ QueueOnly s t part q { x with t := if n = x.h then x.t else n, stop := false })
    ∧ (far → x.state = .error → exec (.tail part q n) s = .next s)
    ∧ (far → x.state = .idle ∨ x.state = .fetch → x.fault = none → ∃ u : State, exec (.tail part q n) s
        = .next (u.queueError part q 1 0 0xFFFF n.toNat 0) ∧ QueueOnly s u part q { x with badTail := none })
    ∧ (far → x.state = .check ∨ x.state = .node ∨ x.state = .waitNode → ∃ t : State, exec (.tail part q n) s = .next t
      ∧ QueueOnly s t part q { x with badTail := some (x.badTail.getD n) }))
  ∧ (∀ (s : State) part q, let x := s.queue part q
    x.live = true → (x.state ≠ .idle → ∃ t : State, exec (.stop part q) s = .next t ∧ QueueOnly s t part q { x with stop := true })
      ∧ (x.state = .idle → exec (.stop part q) s = .next s))
  ∧ (∀ (s : State) part q, let x := s.queue part q
    x.live = true → x.state = .error → x.succ = none → ∃ u,
      exec (.skip part q) s = .next (u.writeHead part q (!x.tailError))
        ∧ QueueOnly s u part q { x with succ := some (if x.tailError then 0x10001 else 0x10000) })
  ∧ (∀ (s : State) part q drop m, let x := s.queue part q
    let h := x.h + if drop then 1 else 0
    x.live = true → x.badTail = none → s.engWrite (s.qEng part q) x.head (leBytes 8 h.toNat) = .ok m → m.queue part q = x →
      ∃ t : State, s.writeHead part q drop = t ∧ Steps m t part q { x with
        h := h, state := if x.t = h ∨ x.stop = true then .idle else .fetch, succ := none, launch := none, loops := [], cur := []
        tailError := false })
  ∧ (∀ (s : State) part q drop r va, let x := s.queue part q
    let h := x.h + if drop then 1 else 0
    x.live = true → x.badTail = none → s.engWrite (s.qEng part q) x.head (leBytes 8 h.toNat) = .bad r va →
      ∃ t : State, s.writeHead part q drop = t ∧ Steps s t part q { x with
        h := h, state := if x.t = h ∨ x.stop = true then .idle else .fetch, succ := none, launch := none, loops := [], cur := []
        tailError := false })
  ∧ (∀ (s : State) part q code sub node addr seq m, let x := s.queue part q
    let u := (s.engDone (s.qEng part q)).modQueue part q (fun x => { x with fault := some (code, sub, node, addr, seq) })
    x.live = true → u.engWrite (u.qEng part q) x.err (leBytes 2 code ++ leBytes 2 sub ++ leBytes 4 seq.toNat
      ++ leBytes 4 x.h.toNat ++ leBytes 2 node ++ leBytes 2 0 ++ leBytes 8 addr ++ leBytes 8 0) = .ok m →
    m.queue part q = u.queue part q →
    ∃ v, s.queueError part q code sub node addr seq = v.signal part 1
      ∧ Steps m v part q { x with state := .error, fault := none, tailError := code == 1, succ := none, loops := []
                                  launch := none, cur := [] })
  ∧ (∀ (s : State) part q k, let x := s.queue part q
    let y := s.queue (k / 1024) (k % 1024)
    let rank := fun (x : Queue) => if x.realtime then 4 else x.prio
    k ∈ Tab.keys s.queues → y.die = x.die → s.queueReady (k / 1024) (k % 1024) = true → rank x < rank y →
      s.queueTurn part q = false)
  ∧ (∀ (s : State) part q x, Serves s part q x → x.badTail = none →
    (x.state = .idle → x.t ≠ x.h → x.stop = false → ∃ t : State, exec (.queueFetch part q) s = .next t
      ∧ QueueOnly (servedNow s part q x) t part q { x with state := .fetch })
    ∧ (x.state = .fetch → x.t = x.h ∨ x.stop = true → ∃ t : State, exec (.queueFetch part q) s = .next t
      ∧ QueueOnly (servedNow s part q x) t part q { x with state := .idle })
    ∧ (∀ bs, x.state = .fetch → x.t ≠ x.h → x.stop = false →
      s.engRead (s.qEng part q) (x.ring + 16 * (x.h.toNat % x.size)) 16 = .ok bs →
      s.pendingGraph part x.ctx (field bs 0 8) = false → ∃ t : State, exec (.queueFetch part q) s = .next t
        ∧ Steps (servedNow s part q x) t part q { x with
            graph := field bs 0 8, seq := BitVec.ofNat 32 (field bs 8 4), state := .check }))
  ∧ (∀ (s : State) part q x, Serves s part q x → x.state = .check →
    let u := servedNow s part q x
    (∀ first n da dv, u.checkGraph (u.qEng part q) x.graph = .ok (first, n, da, dv) →
      ∃ t : State, exec (.graphCheck part q) s = .next t ∧ Steps u t part q { x with
        state := .node, node := first, nodes := n, doneAddr := da, doneVal := dv, loops := [], succ := none })
    ∧ (∀ r va, u.checkGraph (u.qEng part q) x.graph = .bad r va →
      exec (.graphCheck part q) s = .next (u.queueError part q 2 0 0xFFFF va x.seq)))
  ∧ graphShapeOk [6, 1, 1] [[2, 1], [0], [0xFFFF]] = true ∧ graphShapeOk [6, 1, 1] [[2, 1], [2], [0xFFFF]] = false
  ∧ graphShapeOk [1, 1] [[1], [0]] = false ∧ graphShapeOk [5, 3, 3] [[1, 2], [0xFFFF], [1]] = true
  ∧ (∀ (s : State) part q x bs, Serves s part q x → x.state = .node →
    let u := servedNow s part q x
    let e := u.qEng part q
    let addr := x.graph + 64 + 64 * x.node
    u.engRead e addr 64 = .ok bs →
    (∀ r va, u.checkNode e bs x.nodes addr = .bad r va →
      exec (.nodeStart part q) s = .next (u.queueError part q 2 0 x.node va x.seq))
    ∧ (u.checkNode e bs x.nodes addr = .ok () →
      (field bs 0 1 ≠ 1 → ∃ t : State, exec (.nodeStart part q) s = .next t ∧ Steps u t part q { x with
        state := .waitNode, cur := bs, succ := none, launch := none
        loops := if field bs 0 1 = 6 then
            Tab.put x.loops x.node (match Tab.get? x.loops x.node with
              | none => 0
              | some k => k + 1)
          else x.loops })
      ∧ (∀ n, field bs 0 1 = 1 → u.checkObjs e (field bs 8 8) x.det (field bs 28 1 == 1) = .ok (.refused n) →
        exec (.nodeStart part q) s = .next (u.queueError part q 3 n x.node (field bs 8 8) x.seq))
      ∧ (∀ r va, field bs 0 1 = 1 → u.checkObjs e (field bs 8 8) x.det (field bs 28 1 == 1) = .bad r va →
        exec (.nodeStart part q) s = .next (u.queueError part q 6 r x.node va x.seq))
      ∧ (∀ o h map args, let l := u.kernelLaunch part q bs o h map args
        let y : Queue := { x with state := .waitNode, cur := bs, succ := none, launch := none
                                  count := if l.sel.isSome then x.count + 1 else x.count }
        field bs 0 1 = 1 → u.checkObjs e (field bs 8 8) x.det (field bs 28 1 == 1) = .ok (.ok (o, h)) →
        field bs 16 4 * field bs 20 4 * field bs 24 4 ≤ 2 ^ 40 →
        u.checkMap e (field bs 32 8) x.det (field bs 28 1 == 1) x.realtime o = .ok (.ok map) →
        u.engRead e (field bs 40 8) o.argBytes = .ok args →
        (l.teams = 0 → ∃ t : State, exec (.nodeStart part q) s = .next t ∧ Steps u t part q y)
        ∧ (l.teams ≠ 0 → ∃ t : State, exec (.nodeStart part q) s = .next (t.addLaunch l)
          ∧ Steps u t part q { y with launch := some u.fresh }))))
  ∧ (∀ (s : State) part q x, Serves s part q x → x.state = .waitNode →
    let u := servedNow s part q x
    let e := u.qEng part q
    let moves := fun (m : State) (k : Nat) => k < 0xFFFF → ∃ t : State, exec (.nodeComplete part q) s = .next t
      ∧ Steps m t part q { x with node := k, state := .node, succ := none, launch := none }
    (∀ k, x.succ = some k → k < 0xFFFF → ∃ t : State, exec (.nodeComplete part q) s = .next t
      ∧ QueueOnly u t part q { x with node := k, state := .node, succ := none, launch := none })
    ∧ (x.succ = none → kind x = 1 → (∀ l, x.launch = some l → Tab.get? s.launches l = none) → moves u (next x))
    ∧ (∀ d m, x.succ = none → kind x = 2 → u.engRead e (field x.cur 8 8) (field x.cur 24 8) = .ok d →
      u.engWrite e (field x.cur 16 8) d = .ok m → m.queue part q = x → moves m (next x))
    ∧ (∀ m, x.succ = none → kind x = 3 → field x.cur 25 1 = 0 →
      u.engWrite e (field x.cur 8 8) (leBytes 8 (field x.cur 16 8)) = .ok m → m.queue part q = x → moves m (next x))
    ∧ (∀ v m, x.succ = none → kind x = 3 → field x.cur 25 1 ≠ 0 → u.engNat e (field x.cur 8 8) 8 = .ok v →
      u.engWrite e (field x.cur 8 8) (leBytes 8 (v + field x.cur 16 8)) = .ok m → m.queue part q = x → moves m (next x))
    ∧ (∀ v, x.succ = none → kind x = 5 → u.engNat e (field x.cur 8 8) 4 = .ok v →
      moves u (if v = 0 then next x else field x.cur 16 2))
    ∧ (∀ v, x.succ = none → kind x = 6 → Tab.getD x.loops x.node 0 < field x.cur 20 4 →
      u.engNat e (field x.cur 8 8) 4 = .ok v → v ≠ 0 → moves u (field x.cur 16 2))
    ∧ (x.succ = some 0xFFFF → x.doneAddr = 0 → ∃ v : State, exec (.nodeComplete part q) s = .next (v.writeHead part q true)
      ∧ QueueOnly u v part q { x with succ := some 0x10000 })
    ∧ (∀ m, x.succ = some 0xFFFF → x.doneAddr ≠ 0 → u.engWrite e x.doneAddr (leBytes 8 x.doneVal) = .ok m →
      m.queue part q = x → ∃ v : State, exec (.nodeComplete part q) s = .next (v.writeHead part q true)
        ∧ Steps m v part q { x with succ := some 0x10000 }))
  ∧ (∀ (s : State) part q x v, s.queue part q = x → s.queueRuns part q = true → x.state = .waitNode → kind x = 4 →
    x.succ = none → x.fault = none → s.engNat (s.qEng part q) (field x.cur 8 8) 8 = .ok v →
    let w := field x.cur 16 8
    let met := match field x.cur 24 1 with
      | 0 => w ≤ v
      | 1 => v = w
      | _ => v ≠ w
    (met → ∃ t : State, exec (.waitNodePoll part q) s = .next t ∧ Steps s t part q { x with succ := some (next x) })
    ∧ (¬met → exec (.waitNodePoll part q) s = .next (s.engDone (s.qEng part q))))
  ∧ (∀ (s : State) part q x graph seq op rest, s.queue part q = x → x.held = (graph, seq, op) :: rest →
    s.queueRuns part q = true → (x.t - x.h).toNat < x.size → s.pendingOps ((Tab.getD s.ops op {}).after) = [] →
    let e : Eng := { s.qEng part q with who := 2 ^ 44 + 1024 * part + q }
    let slot := x.ring + 16 * (x.t.toNat % x.size)
    let entry := leBytes 8 graph ++ leBytes 4 seq.toNat ++ leBytes 4 0
    (∀ m, s.engWrite e slot entry = .ok m → m.queue part q = x → ∃ u : State, exec (.launchQAppend part q) s = .next (u.finishOp op)
      ∧ QueueOnly (m.engDone e) u part q { x with held := rest, t := x.t + 1 })
    ∧ (∀ r va, s.engWrite e slot entry = .bad r va →
      let m := s.ctxEvent part x.ctx 9 (65536 * x.gen + q) graph (leBytes 4 seq.toNat ++ leBytes 1 r)
      ∃ u : State, exec (.launchQAppend part q) s = .next (u.finishOp op)
        ∧ QueueOnly (m.engDone e) u part q { x with held := rest }))

/-- R69, R164, R165, R215, R222, R253, R274, R317, R321, R363, R396, R414, R421 to R425, R427, R430: a word written through a
function's registers changes the register that lies there or starts what it commands, and a word that no register takes
changes nothing; WAKE is replaced and ends the sleeps that it meets; and a host write reaches memory below CAPACITY. -/
def Obligations.HostAccesses : Prop :=
  let low := fun (x : Nat) (v : Word) => x / 2 ^ 32 % 2 ^ 32 * 2 ^ 32 + v.toNat
  let high := fun (x : Nat) (v : Word) => x % 2 ^ 32 + v.toNat * 2 ^ 32
  (∀ (s : State) part (v : Word), part < 8 → s.serves part = true →
    let f := s.func part
    let plain := fun (off : Nat) (g : Func) => ∃ t : State, exec (.registerWrite part off v) s = .next t ∧ FuncOnly s t part g
    let starts := fun (off : Nat) (i : Instr) => exec (.registerWrite part off v) s = exec i s
    plain 0x1000 { f with qArg := low f.qArg v } ∧ plain 0x1004 { f with qArg := high f.qArg v }
    ∧ plain 0x2000 { f with invVa := low f.invVa v } ∧ plain 0x2004 { f with invVa := high f.invVa v }
    ∧ plain 0x2008 { f with invPages := v } ∧ plain 0x2020 { f with prqBase := low f.prqBase v }
    ∧ plain 0x2024 { f with prqBase := high f.prqBase v } ∧ plain 0x2028 { f with prqSize := v }
    ∧ plain 0x3000 { f with cswArea := low f.cswArea v } ∧ plain 0x3004 { f with cswArea := high f.cswArea v }
    ∧ plain 0x3008 { f with cswSize := low f.cswSize v } ∧ plain 0x300C { f with cswSize := high f.cswSize v }
    ∧ plain 0x3010 { f with cswDrain := v.toNat } ∧ plain 0x4000 { f with stopBase := low f.stopBase v }
    ∧ plain 0x4004 { f with stopBase := high f.stopBase v } ∧ plain 0x9000 { f with evBase := low f.evBase v }
    ∧ plain 0x9004 { f with evBase := high f.evBase v } ∧ plain 0x9008 { f with evSize := v }
    ∧ plain 0x9010 { f with evTail := v } ∧ (f.fabEn = false → plain 0xA008 { f with seqBase := low f.seqBase v })
    ∧ (f.fabEn = true → exec (.registerWrite part 0xA008 v) s = .next s)
    ∧ (v.toNat % 16 = 1 → starts 0x1008 (.createContext part v)) ∧ (v.toNat % 16 = 2 → starts 0x1008 (.destroyContext part v))
    ∧ (v.toNat % 16 = 3 → starts 0x1008 (.createQueue part v)) ∧ (v.toNat % 16 = 4 → starts 0x1008 (.destroyQueue part v))
    ∧ starts 0x200C (.invalidateGo part v) ∧ starts 0x2030 (.prqtailWrite part v)
    ∧ starts 0x2038 (.prqrespRetry part v.toNat) ∧ (v.toNat / 256 % 4 = 1 → starts 0x3014 (.contextSave part v))
    ∧ (v.toNat / 256 % 4 ≠ 1 → starts 0x3014 (.contextRestore part v)) ∧ starts 0x400C (.haltcmdClear part v)
    ∧ starts 0x6040 (.dropgo part v) ∧ starts 0xA000 (.fabricEnable part v)
    ∧ (∀ q, q < 1024 → starts (0x30000 + 4 * q) (.wakeWrite part q v))
    ∧ (∀ c ctx, c < 64 → ctx < 64 → starts (0x20000 + 256 * c + 4 * ctx) (.columnStoreGrant part c ctx v))
    ∧ (part = s.physFunction → starts 0x1000B4 (.commit v) ∧ starts 0x101010 (.apply v))
    ∧ (∀ off ∈ [0, 0x20, 0x100C, 0x202C, 0x3018, 0x4008, 0x5000, 0x6000, 0x6044, 0x7010, 0x900C, 0x9014, 0xA100],
      exec (.registerWrite part off v) s = .next s)
    ∧ (∀ view, view < 16 → s.viewPart view = part →
      starts (0x10004 + 32 * view) (.brgsy view v)
        ∧ (v.getLsbD 0 = true → starts (0x10208 + 64 * view) (.scanEnable view v))
        ∧ (v.getLsbD 0 = false → starts (0x10208 + 64 * view) (.scanDisable view v))
        ∧ ∃ t : State, exec (.registerWrite part (0x10000 + 32 * view) v) s = .next t ∧ t = { s with views := t.views }
          ∧ (∀ j, j ≠ view → t.view? j = s.view? j) ∧ t.view? view = { s.view? view with brgsx := v }))
  ∧ (∀ (s : State) part off v, off % 4 ≠ 0 ∨ 2 ^ 26 ≤ off ∨ (s.serves part = false ∧ part ≠ s.physFunction) →
    exec (.registerWrite part off v) s = .next s)
  ∧ (∀ (s : State) part, s.serves part = true ↔ (s.mgmt.vfs = 0 ∧ part = 0) ∨ (s.mgmt.vfs ≠ 0 ∧ part < s.mgmt.vfs))
  ∧ (∀ (s : State) part q v, (s.queue part q).live = true → ∃ t : State, exec (.wakeWrite part q v) s = .next t
    ∧ t = { s with queues := t.queues, groups := t.groups }
    ∧ oneEntry s.queues t.queues (1024 * part + q) (some { s.queue part q with wake := v })
    ∧ ∀ id, Tab.get? t.groups id = (Tab.get? s.groups id).map (fun g =>
        match g.wait with
        | some ⟨.sleep n mask, a, _⟩ =>
          if g.part = part ∧ g.queue = q ∧ v &&& mask ≠ 0 then { g with wait := some ⟨.sleep n mask, a, true⟩ } else g
        | _ => g))
  ∧ (∀ (s : State) part addr data, s.serves part = true → (s.func part).dropCmd = none → part < 8 → addr + data.length ≤ 2 ^ 52 →
    let k0 := globalKey part addr
    let n := min data.length (s.capacity part - addr)
    ∃ t : State, exec (.hostMemoryRequest part addr true data) s = .next t
      ∧ t = { s with mem := t.mem, tags := t.tags, poison := t.poison }
      ∧ (∀ k, Memory.get t.mem k = if k0 ≤ k ∧ k < k0 + n then data.getD (k - k0) 0 else Memory.get s.mem k)
      ∧ (∀ line, Tab.getD t.tags line 0 = Tab.getD s.tags line 0
          + if line % 128 = 0 ∧ k0 < line + 128 ∧ line < k0 + n ∧ 0 < n then 1 else 0)
      ∧ ∀ w ∈ t.poison, w ∈ s.poison)
  ∧ (∀ (s : State) part addr data, exec (.hostMemoryRequest part addr false data) s = .next s)
  ∧ (∀ (s : State) part, s.capacity part = 3 * 2 ^ 28 * (4 * s.memUnits part - (s.func part).dropped.length))

/-! ## Placement and work graphs -/

namespace Sys2Proof.Claims

/-- A gang of new teams of a kernel node, with no matrix stream and no copy chosen, whose code lies on the unit (R77, R128,
R131). -/
structure PlainGang (s : State) (gid unit c : Nat) : Prop where
  src : (s.launch (s.gang gid).launch).src = .node
  fresh : (s.gang gid).restores = false ∧ (s.gang gid).copyOf = none ∧ (s.gang gid).again = none ∧ (s.gang gid).teams = []
  chosen : (s.launch (s.gang gid).launch).sel = none
  stream : (s.launch (s.gang gid).launch).obj.mstream = false
  die : (s.launch (s.gang gid).launch).obj.dieScr = 0
  listed : Tab.get? s.gangs gid ≠ none ∧ Tab.get? s.launches (s.gang gid).launch ≠ none ∧ gid < s.fresh
  copy : let l := s.launch (s.gang gid).launch
    s.copyAt l.part l.ctx l.code l.helm unit = some c

/-- A team as R30, R77 and R128 place it on a core. -/
structure Placed (s t : State) (gid c lin core : Nat) (x : Team) : Prop where
  launch : x.launch = (s.gang gid).launch ∧ x.gang = gid ∧ x.lin = lin ∧ x.core = core ∧ x.copy = c
  owner : let l := s.launch (s.gang gid).launch
    x.part = l.part ∧ x.ctx = l.ctx ∧ x.queue = l.queue ∧ x.obj = l.obj ∧ x.helm = l.helm
  levels : let l := s.launch (s.gang gid).launch
    x.detlevel = l.det ∧ x.trapen = l.trapen ∧ x.receiver = false ∧ x.copyOf = none
  coords : let l := s.launch (s.gang gid).launch
    x.x = lin % l.x ∧ x.y = lin / l.x % l.y ∧ x.z = lin / l.x / l.y ∧ (x.gx, x.gy, x.gz) = (l.x, l.y, l.z)
  scratch : let l := s.launch (s.gang gid).launch
    0 < l.obj.coreScr → Tab.get? t.allocs x.coreScr = some ⟨.core, core, l.obj.coreScr, l.part⟩
  cluster : let l := s.launch (s.gang gid).launch
    0 < (s.gang gid).lins.length * l.obj.clusScr → ∃ unit, Tab.get? t.allocs x.clusScr
      = some ⟨.clus, unit, (s.gang gid).lins.length * l.obj.clusScr, l.part⟩
  idle : x.groups = [] ∧ x.retired = false ∧ x.saved = false ∧ x.killed = false

end Sys2Proof.Claims

/-- R30, R31, R77, R85 to R88, R91, R92, R95, R125 to R131: a served gang takes every resource of its unit and its teams their
cores; the unit with the most free vector registers is preferred, and on it the lowest core that fits; once the code is
loaded each group starts in the state of R30; a gang that has waited long holds its unit; the order of service; a launch of an
instance is accepted, held or refused; and a block is sealed by its timeout. -/
def Obligations.Placement : Prop :=
  (∀ (s : State) gid unit cores t, s.gangWaits gid = true → s.target? gid = some (unit, cores) →
    s.wgAllows (s.launch (s.gang gid).launch) (s.gang gid).lins.length = true → s.reserve gid unit cores = .ok t →
    t.keepsFootprints (s.launch (s.gang gid).launch) unit = true →
    (∀ b ∈ Tab.keys s.gangs, (s.launch (s.gang b).launch).part = (s.launch (s.gang gid).launch).part →
      (s.launch (s.gang b).launch).die = (s.launch (s.gang gid).launch).die → s.servedBefore b gid = true →
      s.servable b = false) →
    exec (.gangServed gid unit) s = .next t)
  ∧ (∀ (s : State) gid unit c cores, PlainGang s gid unit c → cores.length = (s.gang gid).lins.length →
    ∃ t : State, s.reserve gid unit cores = .ok t ∧ (t.gang gid).state = .loading ∧ (t.gang gid).unit = unit
      ∧ (t.gang gid).teams.length = cores.length ∧ (∀ h ∈ t.holds, h.2 ≠ gid)
      ∧ (∀ x, Tab.get? s.copies c = some x → Tab.get? t.copies c = some { x with refs := x.refs + 1 })
      ∧ ∀ j, j < cores.length → ∃ x, Tab.get? t.teams ((t.gang gid).teams.getD j 0) = some x
          ∧ Placed s t gid c ((s.gang gid).lins.getD j 0) (cores.getD j 0) x)
  ∧ (∀ (s : State) l us u, s.bestUnit l us = some u → u ∈ us ∧ ∀ v ∈ us,
    s.unitFree l.helm v < s.unitFree l.helm u ∨ (s.unitFree l.helm v = s.unitFree l.helm u
      ∧ ((u / 32 = l.die ∧ v / 32 ≠ l.die) ∨ ((u / 32 = l.die ↔ v / 32 = l.die) ∧ u ≤ v))))
  ∧ (∀ (s : State) o cands c, s.assignCores o [cands] [] = some [c] ↔
    ∃ a b, cands = a ++ c :: b ∧ s.coreFits o c 1 = true ∧ ∀ d ∈ a, s.coreFits o d 1 = false)
  ∧ (∀ (s : State) o core k, let ts := (s.coreTeams core).map Team.obj
    let helm := 256 ≤ core
    s.coreFits o core k = true ↔ (s.core core).quarantined = false
      ∧ (ts.map CodeObj.groupCount).sum + k * o.groupCount ≤ (if helm then 16 else 64)
      ∧ (ts.map CodeObj.vregSum).sum + k * o.vregSum ≤ 2048
      ∧ (ts.map CodeObj.sregSum).sum + k * o.sregSum ≤ (if helm then 8192 else 32768)
      ∧ (ts.map CodeObj.scratchSum).sum + k * o.scratchSum ≤ 256 * 1024)
  ∧ (∀ (s : State) a b, let la := s.launch (s.gang a).launch
    let lb := s.launch (s.gang b).launch
    let rank := fun (l : Launch) => if l.realtime then 4 else l.prio
    (rank lb < rank la → s.servedBefore a b = true)
    ∧ (rank la < rank lb → s.servedBefore a b = false)
    ∧ (rank la = rank lb → la.src = .node → lb.src = .node →
      (s.servedBefore a b = true ↔ (s.gang a).launch < (s.gang b).launch
        ∨ ((s.gang a).launch = (s.gang b).launch ∧ (s.gang a).index < (s.gang b).index))))
  ∧ (∀ (s : State) gid, let g := s.gang gid
    let l := s.launch g.launch
    g.state = .loading → (s.context l.part l.ctx).saved = false → (s.func l.part).halted = false → g.restores = false →
    ∃ u : State, exec (.codeLoadComplete gid) s = .next (g.teams.foldl State.startTeam u)
      ∧ u = { s with copies := u.copies, gangs := u.gangs }
      ∧ (u.gang gid).state = .resident ∧ (∀ t ∈ g.teams, ∀ c, Tab.get? u.copies (s.team t).copy = some c → c.loaded = true))
  ∧ (∀ (s : State) team number role r x, Tab.get? s.teams team = some x → (s.launch x.launch).src = .node →
    (s.launch x.launch).args.length ≤ 256 → 80 ≤ (s.launch x.launch).obj.sregs →
    let l := s.launch x.launch
    let n := if x.helm then 16 else 128
    x.helm = l.helm →
    ∃ (u : State) (h : Group), s.startGroup team number role r = u ∧ Tab.get? u.groups s.fresh = some h
      ∧ Tab.get? u.teams team = some { x with groups := x.groups ++ [s.fresh] }
      ∧ (∀ j, j ≠ s.fresh → Tab.get? u.groups j = Tab.get? s.groups j)
      ∧ h.team = team ∧ h.part = x.part ∧ h.ctx = x.ctx ∧ h.queue = x.queue ∧ h.number = number ∧ h.role = role
      ∧ h.core = x.core ∧ h.lanes = n ∧ h.vregs = r.vregs ∧ h.sregs = x.obj.sregs ∧ h.detlevel = x.detlevel
      ∧ h.seed = (s.context x.part x.ctx).seed
      ∧ (∃ prio m, h.frontier = [⟨r.entry, prio, m, false⟩] ∧ ∀ i, i < 128 → m.getLsbD i = decide (i < n))
      ∧ (∀ p i, p ≠ 0 → h.pred p i = false) ∧ (∀ k, h.flagOps k = [] ∧ h.counterOps k = [])
      ∧ h.clock = 0 ∧ h.fpflags = 0 ∧ (∀ k i, i < 128 → h.readV k i = 0)
      ∧ (∀ k, k < 80 → h.readS k = if k < 16 then 0
          else BitVec.ofNat 32 (leNat ((l.args.drop (4 * (k - 16))).take 4)))
      ∧ h.clause = none ∧ h.wait = none ∧ h.draining = false ∧ h.stopped = false)
  ∧ (∀ (s : State) gid unit, let l := s.launch (s.gang gid).launch
    s.gangWaits gid = true → 65536 ≤ s.now - (s.gang gid).since → s.holdTarget gid = some unit →
    (∀ h ∈ s.holds, h.2 ≠ gid ∧ h.1 ≠ if l.helm then 64 + unit else unit) →
    (∀ b, b ≠ gid → s.gangWaits b = true → (s.gang gid).since < (s.gang b).since
      ∨ ((s.gang gid).since = (s.gang b).since ∧ gid < b)) →
    ∃ t : State, exec (.placementHold gid) s = .next t ∧ t = { s with holds := t.holds }
      ∧ oneEntry s.holds t.holds (if l.helm then 64 + unit else unit) (some gid))
  ∧ (∀ (s : State) gid unit k, Tab.get? s.holds (if (s.launch (s.gang gid).launch).helm then 64 + unit else unit) = some k →
    k ≠ gid → s.fitOn gid unit = none)
  ∧ (∀ (s : State) op x pkt, Tab.get? s.ops op = some x → x.body = .launchWg pkt → x.flag = none →
    let g := s.group x.group
    let die := coreDie g.core
    let e : Eng := { unit := queueTransUnit die, part := x.part, ctx := x.ctx, who := op, die := die }
    let check := s.checkWg e (s.queue x.part g.queue) g.queue g.detlevel pkt
    (s.func x.part).halted = false → (s.context x.part x.ctx).saved = false →
    (∀ c sub, check = .no (c, sub) → ∃ u : State, exec (.wgLaunchAccept op) s = .next u
      ∧ Ended ((s.engDone e).ctxEvent x.part x.ctx 1 (c + 65536 * sub) 0) u op x)
    ∧ (∀ w, check = .ok w → ∃ u v : State, Ended (s.engDone e) u op x
      ∧ v = { u with insts := v.insts, fresh := u.fresh + 1 } ∧ oneEntry u.insts v.insts u.fresh (some w)
      ∧ ((∃ y ∈ s.insts, y.2.part = w.part ∧ y.2.ctx = w.ctx ∧ y.2.addr = w.addr) →
        exec (.wgLaunchAccept op) s = .next v)
      ∧ ((∀ y ∈ s.insts, ¬(y.2.part = w.part ∧ y.2.ctx = w.ctx ∧ y.2.addr = w.addr)) →
        exec (.wgLaunchAccept op) s = .next ((v.startInst u.fresh).settleInst u.fresh))))
  ∧ (∀ (s : State) i w, Tab.get? s.insts i = some w → w.x * w.y * w.z ≠ 0 → ∃ u : State, s.startInst i = u.addLaunch (w.entryLaunch i)
      ∧ u = { s with insts := u.insts } ∧ oneEntry s.insts u.insts i (some { w with running := true }))
  ∧ (∀ (s : State) i w b x m, Tab.get? s.insts i = some w → w.block b = x → x.state = .opened → x.first = some m →
    w.det = 0 → 0 < (w.node x.node).timeout → (w.node x.node).timeout ≤ s.now - m →
    (s.context w.part w.ctx).saved = false → (s.func w.part).halted = false →
    exec (.blockTimeoutSeal i x.node b) s = .next ((s.sealBlock i b).settleInst i)
      ∧ (x.commits.length < x.count → ∃ u : State, s.sealBlock i b = u ∧ u = { s with insts := u.insts, fresh := s.fresh + 1 }
        ∧ (u.inst i).block b = { x with state := .sealed, order := s.fresh, seq := (w.node x.node).seq }
        ∧ (∀ c, c ≠ b → (u.inst i).block c = w.block c)
        ∧ u.inst i = { w with
            blocks := (u.inst i).blocks, nodes := w.nodes.modify x.node (fun y => { y with seq := y.seq + 1 }) }))

/-! ## Halts, pre-emption and repair -/

/-- R390 to R402: an engine of a halted partition writes its stop record and the last one sets STOPPED; CLEAR ends a halt once
every context is saved and all is quiet; a save is refused, or stops its context, whose teams each leave in their way, and ends
with the records written; and a restore is refused, or returns the queues to their states. -/
def Obligations.HaltAndPreemption : Prop :=
  let onlyFunc := fun (s t : State) (part : Nat) (f : Func) => FuncOnly s t part f
  let ctxOf := fun (cmd : Word) => cmd.toNat % 64
  let opOf_ := fun (cmd : Word) => cmd.toNat / 256 % 4
  (∀ (s : State) part i u (skid : Word), let f := s.func part
    let key := 64 * u + i
    let last := (s.engineKeys part).length ≤ f.stoppedEngines.length + 1
    i < 34 → f.halted = true → key ∉ f.stoppedEngines → key ∈ s.engineKeys part →
    skid.toNat ≤ (if i < 16 then 16 else if i < 20 then 32 else if i < 24 then 64 else if i < 28 then 128 else 256) →
    (f.stopBase = 0 → ∃ t : State, exec (.engineStop part key skid) s = .next t
      ∧ onlyFunc { s with fresh := t.fresh } t part
        { f with stoppedEngines := f.stoppedEngines ++ [key], stopped := decide last })
    ∧ (f.stopBase ≠ 0 → ¬last → ∃ t : State, exec (.engineStop part key skid) s = .next t
      ∧ onlyFunc { s.physWrite part (f.stopBase + 4096 + 8192 * u + 128 * i) (s.stopRecord part key skid) with
          fresh := t.fresh } t part { f with stoppedEngines := f.stoppedEngines ++ [key], stopped := false })
    ∧ (f.stopBase ≠ 0 → last → ∃ t : State, exec (.engineStop part key skid) s = .next t
      ∧ t.func part = { f with stoppedEngines := f.stoppedEngines ++ [key], stopped := true }
      ∧ t = { s with mem := t.mem, funcs := t.funcs, fresh := t.fresh }))
  ∧ (∀ (s : State) part u i core skid, i < 20 → (s.partCores part).find? (fun c => s.coreStopKey c == 64 * u + i) = some core →
    let b := s.stopRecord part (64 * u + i) skid
    let stopped := (s.coreGroups core).find? (fun g => g.2.stopped)
    field b 0 1 = (if i < 16 then 1 else 2) ∧ field b 4 4 = skid.toNat ∧ field b 8 8 = (s.core core).cycles % 2 ^ 64
      ∧ field b 16 4 = (s.core core).after % 2 ^ 32
      ∧ field b 20 4 = (s.ops.filter (fun o => (s.group o.2.group).core == core)).length % 2 ^ 32
      ∧ field b 1 1 = 1 + (if stopped.isSome then 2 else 0) + (if 64 * u + i ∈ (s.func part).haltIdle then 4 else 0)
      ∧ (stopped = none → field b 24 8 = 0)
      ∧ (∀ id g, stopped = some (id, g) → field b 24 4 = g.trapCause.toNat % 256 ∧ field b 28 4 = g.trapInfo.toNat)
      ∧ field b 32 1 = (s.coreGroups core).length % 256
      ∧ field b 33 1 = ((s.coreGroups core).filter (fun g => g.2.handler.isSome)).length % 256
      ∧ field b 34 94 = 0 ∧ b.length = 128)
  ∧ (∀ (s : State) part (v : Word), let f := s.func part
    let ended := ∀ c ∈ f.haltCtxs, (s.context part c).live = false ∨ ((s.context part c).saved = true ∧ f.cswCmd = none)
    let calm := ∀ o ∈ s.ops, o.2.part = part → (s.team (s.group o.2.group).team).saved = true
    (v.getLsbD 0 = true → f.halted = true → calm → ended → ∃ t : State, exec (.haltcmdClear part v) s = .next t ∧ onlyFunc s t part
      { f with halted := false, stopped := false, stoppedEngines := [], haltCtxs := [], haltIdle := [], engFaults := [] })
    ∧ (v.getLsbD 0 = false ∨ ¬calm ∨ ¬ended → exec (.haltcmdClear part v) s = .next s))
  ∧ (∀ (s : State) part cmd, let f := s.func part
    let c := s.context part (ctxOf cmd)
    let need := s.saveNeed part (ctxOf cmd)
    (f.cswCmd ≠ none → exec (.contextSave part cmd) s = .next s ∧ exec (.contextRestore part cmd) s = .next s)
    ∧ (f.cswCmd = none → opOf_ cmd = 1 → c.live = false ∨ c.saved = true → ∃ t : State, exec (.contextSave part cmd) s = .next t
      ∧ onlyFunc s t part { f with cswCtx := ctxOf cmd, cswResult := 2 })
    ∧ (f.cswCmd = none → opOf_ cmd = 1 → c.live = true → c.saved = false → f.cswSize < need →
      ∃ t : State, exec (.contextSave part cmd) s = .next t
        ∧ onlyFunc s t part { f with cswCtx := ctxOf cmd, cswNeed := need, cswResult := 1 })
    ∧ (f.cswCmd = none → opOf_ cmd = 1 → c.live = true → c.saved = false → need ≤ f.cswSize →
      ∃ u : State, exec (.contextSave part cmd) s = .next (u.startSave part (ctxOf cmd) cmd)
        ∧ onlyFunc s u part { f with cswCtx := ctxOf cmd, cswNeed := need })
    ∧ (f.cswCmd = none → opOf_ cmd = 2 → c.live = false ∨ c.saved = false → ∃ t : State, exec (.contextRestore part cmd) s = .next t
      ∧ onlyFunc s t part { f with cswCtx := ctxOf cmd, cswResult := 2 })
    ∧ (f.cswCmd = none → opOf_ cmd = 2 → c.live = true → c.saved = true → s.areaOk part (ctxOf cmd) = false →
      ∃ t : State, exec (.contextRestore part cmd) s = .next t ∧ onlyFunc s t part { f with cswCtx := ctxOf cmd, cswResult := 3 })
    ∧ (f.cswCmd = none → opOf_ cmd = 2 → c.live = true → c.saved = true → s.areaOk part (ctxOf cmd) = true →
      s.savedTeams part (ctxOf cmd) = [] → (∀ i ∈ s.insts, ¬(i.2.part = part ∧ i.2.ctx = ctxOf cmd)) →
      ∃ t : State, exec (.contextRestore part cmd) s = .next t
        ∧ t = { s with funcs := t.funcs, contexts := t.contexts, queues := t.queues }
        ∧ t.func part = { f with cswCtx := ctxOf cmd, cswInuse := [], cswResult := 0 }
        ∧ oneEntry s.contexts t.contexts (64 * part + ctxOf cmd) (some { c with saved := false })
        ∧ ∀ k, Tab.get? t.queues k = (Tab.get? s.queues k).map (fun q =>
            if k / 1024 = part ∧ q.live = true ∧ q.ctx = ctxOf cmd ∧ q.state = .saved then { q with state := q.savedState }
            else q)))
  ∧ (∀ (s : State) part ctx cmd c, Tab.get? s.contexts (64 * part + ctx) = some c →
    (∀ x ∈ s.teams, ¬(x.2.part = part ∧ x.2.ctx = ctx)) → (∀ g ∈ Tab.keys s.spec, (s.group g).part ≠ part) →
    (∀ g ∈ s.gangs, g.2.state ≠ .loading) →
    ∃ t : State, s.startSave part ctx cmd = t ∧ t = { s with funcs := t.funcs, contexts := t.contexts, queues := t.queues }
      ∧ t.func part = { s.func part with cswCmd := some cmd, cswAt := s.now, cswResult := 0 }
      ∧ oneEntry s.contexts t.contexts (64 * part + ctx) (some { c with saved := true })
      ∧ ∀ k, Tab.get? t.queues k = (Tab.get? s.queues k).map (fun q =>
          if k / 1024 = part ∧ q.live = true ∧ q.ctx = ctx ∧ q.state ≠ .idle ∧ q.state ≠ .error ∧ q.state ≠ .saved then
            { q with savedState := q.state, state := .saved }
          else q))
  ∧ (∀ (s : State) flush t, let x := s.team t
    let ts := Tab.getD (s.context x.part x.ctx).times x.obj.addr []
    let gone := x.groups ≠ [] ∧ ∀ g ∈ x.groups, (s.group g).draining = true
    let near := 16 ≤ ts.length ∧ (s.func x.part).halted = false
      ∧ ts.sum ≤ 16 * ((s.func x.part).cswDrain + (s.now - x.since + x.resided))
    let clear_ := flush = true ∧ x.obj.idem = true ∧ x.wrote = false
    (gone → s.wayOf flush t = .drain) ∧ (¬gone → clear_ → s.wayOf flush t = .flush)
      ∧ (¬gone → ¬clear_ → near → s.wayOf flush t = .drain) ∧ (¬gone → ¬clear_ → ¬near → s.wayOf flush t = .save))
  ∧ (∀ (s : State) part ctx t w, (t, w) ∈ s.ways part ctx → ∀ u, (u, Way.save) ∈ s.ways part ctx →
    (s.team u).gang = (s.team t).gang → w = .save)
  ∧ (∀ (s : State) t, let x := s.team t
    let f := s.func x.part
    x.way = 1 → x.retired = false → f.cswCmd ≠ none → f.cswDrain ≤ s.now - f.cswAt ∨ f.halted = true →
    ∃ u : State, exec (.drainTimeout t) s = .next u ∧ u = { s with teams := u.teams }
      ∧ ∀ k, Tab.get? u.teams k = (Tab.get? s.teams k).map (fun y =>
          if y.gang = x.gang ∧ y.way = 1 ∧ y.retired = false then { y with way := 2 } else y))
  ∧ (∀ (s : State) part cmd c, let f := s.func part
    let ctx := ctxOf cmd
    f.cswCmd = some cmd → Tab.get? s.contexts (64 * part + ctx) = some c → s.ctxTeams part ctx = [] → s.passes = [] →
    (∀ x ∈ s.teams, ¬(x.2.part = part ∧ x.2.ctx = ctx ∧ x.2.killed = true ∧ x.2.retired = false)) →
    ∃ u t : State, exec (.contextSaveDone part) s = .next t ∧ u = s.physWrite part f.cswArea (s.contextSection 0)
      ∧ t = { u with funcs := t.funcs, contexts := t.contexts, fresh := s.fresh + f.cswSize }
      ∧ t.func part = { f with cswCmd := none, cswResult := 0, vectors := f.vectors ++ [4] }
      ∧ oneEntry s.contexts t.contexts (64 * part + ctx) (some { c with savedAt := s.now }))
  ∧ (∀ (s : State) part cmd c t x, let f := s.func part
    let ctx := ctxOf cmd
    f.cswCmd = some cmd → Tab.get? s.contexts (64 * part + ctx) = some c → s.ctxTeams part ctx = [t] →
    Tab.get? s.teams t = some x → s.saveable t = true → s.passes = [] →
    (∀ y ∈ s.teams, ¬(y.2.part = part ∧ y.2.ctx = ctx ∧ y.2.killed = true ∧ y.2.retired = false)) →
    let m := (s.physWrite part f.cswArea (s.contextSection 1)).physWrite part (f.cswArea + roundPage contextBytes)
      ((s.physWrite part f.cswArea (s.contextSection 1)).teamRecord t)
    ∃ u : State, exec (.contextSaveDone part) s = .next u
      ∧ u.mem = ((m.parkTeam t).parkGang x.gang).mem ∧ u.teams = ((m.parkTeam t).parkGang x.gang).teams
      ∧ u.func part = { f with cswCmd := none, cswResult := 0, vectors := f.vectors ++ [4] })
  ∧ (∀ (s : State) n, let b := s.contextSection n
    field b 0 4 = 0x58435343 ∧ field b 4 4 = n % 2 ^ 32 ∧ field b 8 8 = b.length % 2 ^ 64
      ∧ field b (b.length - 8) 8 = (crc64 (b.take (b.length - 8))).toNat)
  ∧ (∀ (s : State) t, let b := s.teamRecord t
    let x := s.team t
    field b 0 4 = 0x4D414554 ∧ field b 4 4 = s.recordBytes t % 2 ^ 32 ∧ field b 8 8 = x.obj.addr % 2 ^ 64
      ∧ field b 16 8 = x.lin % 2 ^ 64 ∧ field b 24 1 = x.groups.length % 256 ∧ field b 26 1 = x.gangPos % 256
      ∧ field b (b.length - 8) 8 = (crc64 (b.take (b.length - 8))).toNat)
  ∧ (∀ g : Group, g.lanes = 128 → g.sregs = 64 → g.vregs = 64 → g.sectionBytes 0 = 36032)
  ∧ (∀ (s : State) t x id g, Tab.get? s.teams t = some x → x.groups = [id] → s.group id = g → g.lanes = 128 →
    g.sregs = 64 → g.vregs = 64 → s.pendingEntries id = 0 → x.obj.coreScr = 4096 → x.obj.clusScr = 0 →
    x.obj.mstream = false → x.helm = false → x.snaps = [] → s.recordBytes t = 43456)

/-- R12, R143, R251, R252, R407, R412 to R415: DROPGO is refused while a context is live and not saved, for the last
pseudo-channel of a slice and for a channel that the partition does not hold; an accepted drop takes the top 0.75 GiB; and an
uncorrectable error is counted, the fourth of a channel within 2^40 cycles asking for its drop. -/
def Obligations.ChannelRepair : Prop :=
  (∀ (s : State) part (v : Word), let f := s.func part
    let ch := v.toNat % 512
    let live := ∃ c, c < 64 ∧ (s.context part c).live = true
      ∧ ((s.context part c).saved = false ∨ (f.cswCmd ≠ none ∧ f.cswCtx = c))
    let alone := ∀ k, k < 4 → 4 * (ch / 4) + k = ch ∨ 4 * (ch / 4) + k ∈ f.dropped
    let foreign := 4 * s.memUnits part ≤ ch ∨ ch ∈ f.dropped
    let refused := fun (r : Nat) => ∃ t : State, exec (.dropgo part v) s = .next t ∧ FuncOnly s t part { f with dropResult := r }
    (f.dropCmd ≠ none → exec (.dropgo part v) s = .next s)
    ∧ (f.dropCmd = none → live → refused 1)
    ∧ (f.dropCmd = none → ¬live → alone → refused 2)
    ∧ (f.dropCmd = none → ¬live → ¬alone → foreign → refused 3)
    ∧ (f.dropCmd = none → ¬live → ¬alone → ¬foreign →
      ∃ t : State, exec (.dropgo part v) s = .next t ∧ FuncOnly s t part { f with dropCmd := some ch }))
  ∧ (∀ (s : State) part ch, let f := s.func part
    let top := globalKey part (s.capacity part - 3 * 2 ^ 28)
    let gone := fun (k : Nat) => top ≤ k ∧ k < top + 3 * 2 ^ 28
    f.dropCmd = some ch → ∃ t : State, exec (.dropComplete part) s = .next t
      ∧ t = { s with mem := t.mem, tags := t.tags, poison := t.poison, funcs := t.funcs, mgmt := t.mgmt }
      ∧ (∀ j, j ≠ part → t.func j = s.func j)
      ∧ t.func part = { f with dropped := (t.func part).dropped, dropReq := f.dropReq.filter (· != ch), dropCmd := none
                               dropResult := 0 }
      ∧ (∀ k, k ∈ (t.func part).dropped ↔ k = ch ∨ k ∈ f.dropped)
      ∧ (∀ k, ¬gone k → Memory.get t.mem k = Memory.get s.mem k ∧ Tab.getD t.tags k 0 = Tab.getD s.tags k 0
          ∧ (k ∈ t.poison ↔ k ∈ s.poison))
      ∧ (∀ k, gone k → Memory.get t.mem k = 0 ∧ Tab.getD t.tags k 0 = 0 ∧ k ∉ t.poison)
      ∧ t.mgmt = { s.mgmt with log := s.mgmt.log ++ [⟨s.mgmt.logSeq, s.mgmtTime, .channelDrop part ch⟩]
                               logSeq := s.mgmt.logSeq + 1 })
  ∧ (∀ (s : State) unit, unit < 2 ^ 55 → let part := unit / 2 ^ 52
    let f := s.func part
    let ch := Config.channelOf part f.dropped.length (unit % 2 ^ 52)
    let ts := (Tab.getD f.ueAt ch []).filter (fun m => decide (s.now < m + 2 ^ 40)) ++ [s.now]
    ∃ t : State, s.uncorrectable unit = t ∧ t = { s with poison := t.poison, mgmt := t.mgmt, funcs := t.funcs }
      ∧ (∀ k, k ∈ t.poison ↔ k = unit / 32 * 32 ∨ k ∈ s.poison) ∧ t.mgmt = { s.mgmt with uncorr := s.mgmt.uncorr + 1 }
      ∧ Tab.getD (t.func part).ueAt ch [] = ts
      ∧ (ts.length < 4 → t.func part = { f with ueAt := (t.func part).ueAt })
      ∧ (4 ≤ ts.length → t.func part = { f with ueAt := (t.func part).ueAt, dropReq := (t.func part).dropReq
                                                vectors := f.vectors ++ [5] } ∧ ch ∈ (t.func part).dropReq))

/-! ## Binnacle -/

namespace Sys2Proof.Claims

/-- An entry added to the event log (R440). -/
def logged (m : Mgmt) (time : Nat) (k : LogKind) : Mgmt :=
  { m with log := m.log ++ [⟨m.logSeq, time, k⟩], logSeq := m.logSeq + 1 }

/-- A start that has failed at a stage: FSC has risen to at most 3, an update that it was the first to run is left, a reset is
due, and two entries tell of it (R431 to R433, R436). -/
def failed (m : Mgmt) (time stage : Nat) : Mgmt :=
  let x : Mgmt := { m with fsc := min 3 (m.fsc + 1), lastStage := stage, due := some 5, mode := .starting 1
                           rollback := m.rollback || m.before.isSome, active := m.before.getD m.active, before := none }
  logged (logged x time (.failedStart stage)) time (.start (BitVec.ofNat 32 x.bootReason))

/-- What a start begins with: its reason, and what flash holds (R431 to R433, R440). -/
def beginning (m : Mgmt) (reason : Nat) (anchor : Bool) : Mgmt :=
  { reason := reason, running := m.running, fsc := m.fsc, anchor := anchor, lastStage := m.lastStage, slotA := m.slotA
    slotB := m.slotB, active := m.active, svn := m.svn, before := m.before, rollback := m.rollback, log := m.log
    logSeq := m.logSeq, mode := .starting 1 }

/-- The module at its reset values, but for its turns, the host's own memory and Binnacle (R5, R431). -/
def Restarted (s t : State) : Prop :=
  t = { State.reset with agenda := s.agenda, fresh := t.fresh, mgmt := t.mgmt
                         mem := s.mem.filter (fun c => decide (2 ^ 55 ≤ c.1 ∧ c.1 < 2 ^ 56)) }

/-- The image of a slot passes the test of stage 1 (R433). -/
def Boots (m : Mgmt) (b : Bool) : Prop :=
  let x := if b then m.slotB else m.slotA
  x.ok = true ∧ m.svn ≤ x.svn

/-- Why the staged table is refused (R19, R424). -/
def TableRefused (s : State) : Prop :=
  let new := s.ptStaged
  (∃ p, (∃ x ∈ unitKinds, ∃ i, i < x.2 ∧ Tab.getD (x.1 new) i 0 = p)
    ∧ (8 ≤ p ∨ (∀ i, i < 16 → Tab.getD new.unit i 0 ≠ p) ∨ ∀ i, i < 128 → Tab.getD new.mem i 0 ≠ p))
  ∨ (∃ p ctx, p < 8 ∧ ctx < 64 ∧ (s.context p ctx).live = true
    ∧ ∃ x ∈ unitKinds, ∃ i, i < x.2 ∧ ¬(Tab.getD (x.1 new) i 0 = p ↔ Tab.getD (x.1 s.pt) i 0 = p))
  ∨ (∃ v, v < 16 ∧ (Tab.getD s.views v {}).port ≠ 7
    ∧ Tab.getD new.view v 0 ≠ Tab.getD new.port (Tab.getD s.views v {}).port 0)
  ∨ (new.chipid ≠ s.pt.chipid ∧ ∃ p, p < 8 ∧ (s.func p).fabEn = true)

end Sys2Proof.Claims

/-- R431 to R433, R436, R440: a reset runs the stages on the active slot or, where that fails its test, on the other; a failed
start counts and leaves an update; a start that succeeds raises the boot record's SVN; the fourth start after three that failed
ends in anchorage mode; an accepted image becomes the active slot and ends it; and the worked example's update fails three times
and ends with its BOOTREASON. -/
def Obligations.StartsAndFlash : Prop :=
  (∀ (s : State) reason code upTo, (reason, code) ∈ [(ResetReason.powerOn, 0), (.pcie, 1), (.command, 2), (.watchdog, 3),
      (.thermal, 4)] →
    let m := beginning s.mgmt (if reason = .powerOn then 0 else s.mgmt.due.getD code) (s.mgmt.anchor || decide (s.mgmt.fsc = 3))
    let run := fun (b : Bool) => { m with running := b, fallback := decide (b ≠ m.active) }
    let starts := fun (b : Bool) => Boots m b ∧ (b = m.active ∨ ¬Boots m m.active)
    let ends := fun (x : Mgmt) => ∃ t : State, exec (.moduleReset reason upTo) s = .next t ∧ Restarted s t ∧ t.mgmt = x
      ∧ t.fresh = s.fresh
    let starting := fun (x : Mgmt) => logged x 0 (.start (BitVec.ofNat 32 x.bootReason))
    (upTo = 0 → ends m)
    ∧ (0 < upTo → (∀ b, ¬Boots m b) → ends (failed m 0 1))
    ∧ (∀ b, starts b →
      (0 < upTo → upTo < 3 → ends { run b with mode := .starting (upTo + 1) })
      ∧ (3 ≤ upTo → if Config.configOk then
          (m.anchor = true → ends (starting { run b with mode := .anchorage }))
          ∧ (upTo < 7 → m.anchor = false → ends { run b with mode := .starting (upTo + 1) })
          ∧ (7 ≤ upTo → m.anchor = false → ends (starting
            { run b with mode := .up, fsc := 0, before := none, svn := max m.svn (if b then m.slotB else m.slotA).svn }))
        else ends (failed (run b) 0 3))))
  ∧ (∀ (s : State) stage, let time := s.now * 16 / 25
    (s.mgmt.mode = .starting stage → s.mgmt.due = none →
      exec (.bootStageTimeout stage) s = .next { s with mgmt := failed s.mgmt time stage })
    ∧ (s.mgmt.mode ≠ .starting stage ∨ s.mgmt.due ≠ none → exec (.bootStageTimeout stage) s = .next s))
  ∧ (∀ m : Mgmt, m.reason < 16 → m.fsc < 4 → m.lastStage < 256 → let x := m.bootReason
    natField x 3 0 = m.reason ∧ natField x 5 4 = m.fsc ∧ natBit x 6 = m.anchor ∧ natBit x 7 = m.fallback
      ∧ natBit x 8 = m.rollback ∧ natBit x 9 = m.running ∧ natField x 15 10 = 0 ∧ natField x 23 16 = m.lastStage
      ∧ natField x 31 24 = 0)
  ∧ (∀ (s : State) image svn version, let m := s.mgmt
    let x : FlashSlot := { image := image, svn := svn, version := version, ok := Config.verifies image svn version }
    let put := fun (y : Mgmt) => if m.active then { y with slotA := x } else { y with slotB := x }
    let taken := put { m with active := !m.active, before := some m.active, fsc := 0, anchor := false, rollback := false }
    exec (.flashImageWrite image svn version) s
      = .next { s with mgmt := (if x.ok = true ∧ m.svn ≤ svn then taken else put m) })
  ∧ (∀ s : State, exec .fscClear s = .next { s with mgmt := { s.mgmt with fsc := 0, anchor := false } })
  ∧ (∀ (s : State) stack pass,
    (s.mgmt.mode = .anchorage → stack < 8 → exec (.hbmTestPath stack pass) s = .next
      { s with mgmt := logged s.mgmt (s.now * 16 / 25) (.hbmTest stack pass) })
    ∧ (s.mgmt.mode ≠ .anchorage ∨ 8 ≤ stack → exec (.hbmTestPath stack pass) s = .next s))
  ∧ (∀ s : State, let m := s.mgmt
    let kept := fun (e : LogEntry) => match e.kind with
      | .failedStart _ | .quarantine _ | .channelDrop _ _ | .mismatch _ _ _ _ _ => true
      | .start _ | .disagreement _ _ _ _ | .softDropped _ | .hbmTest _ _ => false
    let x := beginning { m with log := m.log.filter kept } 0 m.anchor
    let bad : FlashSlot := { ok := false }
    ∃ t : State, exec .powerFail s = .next t ∧ Restarted s t ∧ t.fresh = s.fresh + 1
      ∧ (t.mgmt = { x with fallback := m.fallback }
        ∨ t.mgmt = (if m.active then { x with slotA := bad, fallback := m.fallback }
            else { x with slotB := bad, fallback := m.fallback })))
  ∧ (∀ (s : State) image version, s.mgmt.active = false → s.mgmt.slotA.ok = true → s.mgmt.slotA.svn = 4 → s.mgmt.svn = 4 →
    s.mgmt.anchor = false → s.mgmt.due = none →
    let start := Instr.moduleReset .command 3
    let overrun := Instr.bootStageTimeout 4
    Config.verifies image 5 version = false ∨ Config.configOk = false ∨
    ∃ a b c d e f g h : State, exec (.flashImageWrite image 5 version) s = .next a ∧ exec start a = .next b
      ∧ exec overrun b = .next c ∧ exec start c = .next d ∧ exec overrun d = .next e ∧ exec start e = .next f
      ∧ exec overrun f = .next g ∧ exec start g = .next h
      ∧ b.mgmt.running = true ∧ c.mgmt.fsc = 1 ∧ d.mgmt.running = false ∧ d.mgmt.rollback = true ∧ e.mgmt.fsc = 2
      ∧ g.mgmt.fsc = 3 ∧ h.mgmt.mode = .anchorage ∧ h.mgmt.bootReason = 0x00040175
      ∧ ∀ k, ∃ z : State, exec (.flashImageWrite image 3 k) h = .next z ∧ z.mgmt.active = h.mgmt.active)

/-- R16 to R19, R421, R424, R437, R438, R440, R441: the budgets come into force as one set or are refused; a cluster's clock
stays within its bounds, and hot sites lower it; the staged partition table comes into force whole or not at all; and the
management interfaces answer with what is signed. What a commit does to memory whose partition changes its memory units is the
model's own choice (notes/assumptions/51.md). -/
def Obligations.ManagementCommands : Prop :=
  (∀ (s : State) (v : Word), let m := s.mgmt
    let units := fun (p : Nat) => ((List.range 16).filter (fun u => Tab.getD s.pt.unit u 0 == p)).length
    let budget := fun (p : Nat) => Tab.getD m.budgets p 0
    let total := ((List.range 8).map (fun p => if units p = 0 then 0 else budget p)).sum
    let fine := total ≤ 2000 ∧ ∀ p, p < 8 → units p ≠ 0 → 40 * units p ≤ budget p
    (v.getLsbD 0 = false → exec (.apply v) s = .next s)
    ∧ (v.getLsbD 0 = true → fine →
      exec (.apply v) s = .next { s with mgmt := { m with budgetErr := false, budgetsNow := m.budgets } })
    ∧ (v.getLsbD 0 = true → ¬fine → exec (.apply v) s = .next { s with mgmt := { m with budgetErr := true } }))
  ∧ (∀ (s : State) cluster step, ∃ t : State, exec (.governorThrottle cluster step) s = .next t
    ∧ t = { s with clkStep := t.clkStep }
    ∧ ∀ c, t.clock c = if c = cluster ∧ cluster < 64 ∧ 4 ≤ step ∧ step ≤ 16 then step else s.clock c)
  ∧ (∀ (s : State) temps volts current, let hot := fun (k : Nat) => k < 72 ∧ (if k < 64 then 105 else 95) ≤ temps.getD k 0
    let trip := ∃ k, k < 64 ∧ 115 ≤ temps.getD k 0
    let near := fun (c : Nat) => c < 64 ∧ ∃ k, hot k ∧ c ∈ Config.nearest k
    ∃ t : State, exec (.sensorSample temps volts current) s = .next t
      ∧ t = { s with clkStep := t.clkStep, mgmt := t.mgmt, fresh := s.fresh + 1 }
      ∧ t.mgmt = { s.mgmt with temps := temps, volts := volts, current := current, thermal := t.mgmt.thermal
                               power := t.mgmt.power, due := t.mgmt.due }
      ∧ (t.mgmt.thermal = true ↔ ∃ k, hot k) ∧ t.mgmt.power < 2 ^ 16
      ∧ (trip → t.mgmt.due = some 4) ∧ (¬trip → t.mgmt.due = s.mgmt.due)
      ∧ ∀ c, near c ∧ 4 < s.clock c ∧ t.clock c = s.clock c - 1 ∨ (¬near c ∨ s.clock c ≤ 4) ∧ t.clock c = s.clock c)
  ∧ (∀ (s : State) (v : Word), (v.getLsbD 0 = false → exec (.commit v) s = .next s)
    ∧ (v.getLsbD 0 = true → TableRefused s →
      exec (.commit v) s = .next { s with mgmt := { s.mgmt with ptRefused := true } })
    ∧ (v.getLsbD 0 = true → ¬TableRefused s →
      let gone := fun (k : Nat) => ∃ p, p < 8 ∧ globalKey p 0 ≤ k ∧ k < globalKey p 0 + 2 ^ 52
        ∧ ∃ i, i < 128 ∧ ¬(Tab.getD s.ptStaged.mem i 0 = p ↔ Tab.getD s.pt.mem i 0 = p)
      ∃ t : State, exec (.commit v) s = .next t
        ∧ t = { s with pt := s.ptStaged, mgmt := { s.mgmt with ptRefused := false }, mem := t.mem, tags := t.tags
                       poison := t.poison }
        ∧ (∀ k, ¬gone k → Memory.get t.mem k = Memory.get s.mem k ∧ Tab.getD t.tags k 0 = Tab.getD s.tags k 0
            ∧ (k ∈ t.poison ↔ k ∈ s.poison))
        ∧ ∀ k, gone k → Memory.get t.mem k = 0 ∧ Tab.getD t.tags k 0 = 0 ∧ k ∉ t.poison))
  ∧ (∀ (s : State) vfs, (vfs ≤ 8 → exec (.vfEnable vfs) s = .next { s with mgmt := { s.mgmt with vfs := vfs } })
    ∧ (8 < vfs → exec (.vfEnable vfs) s = .next s))
  ∧ (∀ (s : State) (nonce : List Byte) algs off len, let m := s.mgmt
    let digest := fun (bs : List Byte) => leBytes 64 (Config.sha512 bs).toNat
    let signed := fun (bs : List Byte) => leBytes 512 (Config.sign (Config.sha512 bs)).toNat
    let answers := fun (i : Instr) (r : Response) => exec i s = .next { s with mgmt := { m with response := r } }
    answers (.eventLogRead nonce) (.log m.log (signed ((m.log.map Config.logBytes).flatten ++ nonce)))
      ∧ answers .getVersion .version ∧ answers .getCapabilities .capabilities
      ∧ answers (.negotiateAlgorithms algs) (.algorithms (decide (algs / 2 ^ 5 % 2 = 1)) (decide (algs / 2 ^ 34 % 2 = 1)))
      ∧ answers .getDigests (.digests (digest Config.certificate))
      ∧ answers (.getCertificate off len) (.certificate ((Config.certificate.drop off).take len))
      ∧ answers (.challenge nonce) (.challengeAuth (signed (Config.transcript 0x83 nonce)))
      ∧ answers (.getMeasurements nonce) (.measurements (digest (if m.running then m.slotB else m.slotA).image)
          (digest Config.configRecords) (Config.bootRecord m.active m.svn) (signed (Config.transcript 0xE0 nonce))))
end

