-- ==== Sys2Proof/Laws/Dispatch.lean ====
section
/-!
SUPPORT. Each instruction runs its own meaning.
-/

namespace Sys2Proof.Machine

variable (s : State)

@[simp] theorem exec_nop o : exec (.nop o) s = execNop o s := rfl
@[simp] theorem exec_bra o t : exec (.bra o t) s = execBra o t s := rfl
@[simp] theorem exec_bri o : exec (.bri o) s = execBri o s := rfl
@[simp] theorem exec_call o t : exec (.call o t) s = execCall o t s := rfl
@[simp] theorem exec_calli o : exec (.calli o) s = execCalli o s := rfl
@[simp] theorem exec_ret o : exec (.ret o) s = execRet o s := rfl
@[simp] theorem exec_exit o : exec (.exit o) s = execExit o s := rfl
@[simp] theorem exec_yield o : exec (.yield o) s = execYield o s := rfl
@[simp] theorem exec_trap o code : exec (.trap o code) s = execTrap o code s := rfl
@[simp] theorem exec_swiWake o : exec (.swiWake o) s = execSwiWake o s := rfl
@[simp] theorem exec_swiClear o : exec (.swiClear o) s = execSwiClear o s := rfl
@[simp] theorem exec_swiMgmt o : exec (.swiMgmt o) s = execSwiMgmt o s := rfl
@[simp] theorem exec_bkpt o code : exec (.bkpt o code) s = execBkpt o code s := rfl
@[simp] theorem exec_getsr o : exec (.getsr o) s = execGetsr o s := rfl
@[simp] theorem exec_setsr o : exec (.setsr o) s = execSetsr o s := rfl
@[simp] theorem exec_sleepc o : exec (.sleepc o) s = execSleepc o s := rfl
@[simp] theorem exec_waitc o k : exec (.waitc o k) s = execWaitc o k s := rfl
@[simp] theorem exec_plop o lut : exec (.plop o lut) s = execPlop o lut s := rfl
@[simp] theorem exec_pmovGet o : exec (.pmovGet o) s = execPmovGet o s := rfl
@[simp] theorem exec_pmovSet o mask : exec (.pmovSet o mask) s = execPmovSet o mask s := rfl
@[simp] theorem exec_iadd o u sat cc : exec (.iadd o u sat cc) s = execIadd o u sat cc s := rfl
@[simp] theorem exec_isub o u sat cc : exec (.isub o u sat cc) s = execIsub o u sat cc s := rfl
@[simp] theorem exec_iadd3 o u sat : exec (.iadd3 o u sat) s = execIadd3 o u sat s := rfl
@[simp] theorem exec_iaddc o cc : exec (.iaddc o cc) s = execIaddc o cc s := rfl
@[simp] theorem exec_imul o u sat : exec (.imul o u sat) s = execImul o u sat s := rfl
@[simp] theorem exec_imulh o u : exec (.imulh o u) s = execImulh o u s := rfl
@[simp] theorem exec_imad o u sat : exec (.imad o u sat) s = execImad o u sat s := rfl
@[simp] theorem exec_isad o u : exec (.isad o u) s = execIsad o u s := rfl
@[simp] theorem exec_imin o u : exec (.imin o u) s = execImin o u s := rfl
@[simp] theorem exec_imax o u : exec (.imax o u) s = execImax o u s := rfl
@[simp] theorem exec_iabs o sat : exec (.iabs o sat) s = execIabs o sat s := rfl
@[simp] theorem exec_ineg o sat : exec (.ineg o sat) s = execIneg o sat s := rfl
@[simp] theorem exec_icmp o cond u comb : exec (.icmp o cond u comb) s = execIcmp o cond u comb s := rfl
@[simp] theorem exec_isel o : exec (.isel o) s = execIsel o s := rfl
@[simp] theorem exec_mov o : exec (.mov o) s = execMov o s := rfl
@[simp] theorem exec_movi o v : exec (.movi o v) s = execMovi o v s := rfl
@[simp] theorem exec_band o : exec (.band o) s = execAnd o s := rfl
@[simp] theorem exec_bor o : exec (.bor o) s = execOr o s := rfl
@[simp] theorem exec_bxor o : exec (.bxor o) s = execXor o s := rfl
@[simp] theorem exec_bnot o : exec (.bnot o) s = execNot o s := rfl
@[simp] theorem exec_lop3 o lut : exec (.lop3 o lut) s = execLop3 o lut s := rfl
@[simp] theorem exec_shl o wrap : exec (.shl o wrap) s = execShl o wrap s := rfl
@[simp] theorem exec_shr o wrap : exec (.shr o wrap) s = execShr o wrap s := rfl
@[simp] theorem exec_sar o wrap : exec (.sar o wrap) s = execSar o wrap s := rfl
@[simp] theorem exec_shf o right wrap : exec (.shf o right wrap) s = execShf o right wrap s := rfl
@[simp] theorem exec_bfe o u : exec (.bfe o u) s = execBfe o u s := rfl
@[simp] theorem exec_bfi o : exec (.bfi o) s = execBfi o s := rfl
@[simp] theorem exec_brev o : exec (.brev o) s = execBrev o s := rfl
@[simp] theorem exec_popc o : exec (.popc o) s = execPopc o s := rfl
@[simp] theorem exec_clz o : exec (.clz o) s = execClz o s := rfl
@[simp] theorem exec_ctz o : exec (.ctz o) s = execCtz o s := rfl
@[simp] theorem exec_prmt o : exec (.prmt o) s = execPrmt o s := rfl
@[simp] theorem exec_lea o n u chk : exec (.lea o n u chk) s = execLea o n u chk s := rfl
@[simp] theorem exec_cvti o td ts sat : exec (.cvti o td ts sat) s = execCvti o td ts sat s := rfl
@[simp] theorem exec_iaddw o u sat cc : exec (.iaddw o u sat cc) s = execIaddw o u sat cc s := rfl
@[simp] theorem exec_isubw o u sat cc : exec (.isubw o u sat cc) s = execIsubw o u sat cc s := rfl
@[simp] theorem exec_imulw o : exec (.imulw o) s = execImulw o s := rfl
@[simp] theorem exec_imadx o u : exec (.imadx o u) s = execImadx o u s := rfl
@[simp] theorem exec_icmpw o cond u comb : exec (.icmpw o cond u comb) s = execIcmpw o cond u comb s := rfl
@[simp] theorem exec_shlw o wrap : exec (.shlw o wrap) s = execShlw o wrap s := rfl
@[simp] theorem exec_shrw o wrap : exec (.shrw o wrap) s = execShrw o wrap s := rfl
@[simp] theorem exec_sarw o wrap : exec (.sarw o wrap) s = execSarw o wrap s := rfl
@[simp] theorem exec_movw o : exec (.movw o) s = execMovw o s := rfl
@[simp] theorem exec_fadd o rm ftz na nb : exec (.fadd o rm ftz na nb) s = execFadd o rm ftz na nb s := rfl
@[simp] theorem exec_fmul o rm ftz na nb : exec (.fmul o rm ftz na nb) s = execFmul o rm ftz na nb s := rfl
@[simp] theorem exec_ffma o rm ftz na nc : exec (.ffma o rm ftz na nc) s = execFfma o rm ftz na nc s := rfl
@[simp] theorem exec_fmin o nanp ftz : exec (.fmin o nanp ftz) s = execFmin o nanp ftz s := rfl
@[simp] theorem exec_fmax o nanp ftz : exec (.fmax o nanp ftz) s = execFmax o nanp ftz s := rfl
@[simp] theorem exec_fcmp o cond ftz comb : exec (.fcmp o cond ftz comb) s = execFcmp o cond ftz comb s := rfl
@[simp] theorem exec_frnd o rm ftz : exec (.frnd o rm ftz) s = execFrnd o rm ftz s := rfl
@[simp] theorem exec_fclass o f64 : exec (.fclass o f64) s = execFclass o f64 s := rfl
@[simp] theorem exec_fdiv o rm ftz : exec (.fdiv o rm ftz) s = execFdiv o rm ftz s := rfl
@[simp] theorem exec_frcp o rm ftz : exec (.frcp o rm ftz) s = execFrcp o rm ftz s := rfl
@[simp] theorem exec_frsq o rm ftz : exec (.frsq o rm ftz) s = execFrsq o rm ftz s := rfl
@[simp] theorem exec_fsqrt o rm ftz : exec (.fsqrt o rm ftz) s = execFsqrt o rm ftz s := rfl
@[simp] theorem exec_fexp2 o ftz : exec (.fexp2 o ftz) s = execFexp2 o ftz s := rfl
@[simp] theorem exec_flog2 o ftz : exec (.flog2 o ftz) s = execFlog2 o ftz s := rfl
@[simp] theorem exec_fsin o ftz : exec (.fsin o ftz) s = execFsin o ftz s := rfl
@[simp] theorem exec_fcos o ftz : exec (.fcos o ftz) s = execFcos o ftz s := rfl
@[simp] theorem exec_dadd o rm na nb : exec (.dadd o rm na nb) s = execDadd o rm na nb s := rfl
@[simp] theorem exec_dmul o rm na nb : exec (.dmul o rm na nb) s = execDmul o rm na nb s := rfl
@[simp] theorem exec_dfma o rm na nc : exec (.dfma o rm na nc) s = execDfma o rm na nc s := rfl
@[simp] theorem exec_dcmp o cond comb : exec (.dcmp o cond comb) s = execDcmp o cond comb s := rfl
@[simp] theorem exec_hadd2 o rm ftz bf na nb : exec (.hadd2 o rm ftz bf na nb) s = execHadd2 o rm ftz bf na nb s := rfl
@[simp] theorem exec_hmul2 o rm ftz bf na nb : exec (.hmul2 o rm ftz bf na nb) s = execHmul2 o rm ftz bf na nb s := rfl
@[simp] theorem exec_hfma2 o rm ftz bf na nc : exec (.hfma2 o rm ftz bf na nc) s = execHfma2 o rm ftz bf na nc s := rfl
@[simp] theorem exec_hmnx2 o max nanp ftz bf : exec (.hmnx2 o max nanp ftz bf) s = execHmnx2 o max nanp ftz bf s := rfl
@[simp] theorem exec_fdp4 o rm ftz ta tb : exec (.fdp4 o rm ftz ta tb) s = execFdp4 o rm ftz ta tb s := rfl
@[simp] theorem exec_cvt o rm ftz satf td ts : exec (.cvt o rm ftz satf td ts) s = execCvt o rm ftz satf td ts s := rfl
@[simp] theorem exec_cvtfi o rm ftz ti tf : exec (.cvtfi o rm ftz ti tf) s = execCvtfi o rm ftz ti tf s := rfl
@[simp] theorem exec_cvtif o rm satf tf ti : exec (.cvtif o rm satf tf ti) s = execCvtif o rm satf tf ti s := rfl
@[simp] theorem exec_pack o rm ftz satf td pos : exec (.pack o rm ftz satf td pos) s = execPack o rm ftz satf td pos s := rfl
@[simp] theorem exec_xadd o ta ftz : exec (.xadd o ta ftz) s = execXadd o ta ftz s := rfl
@[simp] theorem exec_xrnd o rm ftz satf td : exec (.xrnd o rm ftz satf td) s = execXrnd o rm ftz satf td s := rfl
@[simp] theorem exec_xcmb o sub : exec (.xcmb o sub) s = execXcmb o sub s := rfl
@[simp] theorem exec_xchk o test : exec (.xchk o test) s = execXchk o test s := rfl
@[simp] theorem exec_shfl o mode wc rot q : exec (.shfl o mode wc rot q) s = execShfl o mode wc rot q s := rfl
@[simp] theorem exec_rdlane o : exec (.rdlane o) s = execRdlane o s := rfl
@[simp] theorem exec_wrlane o : exec (.wrlane o) s = execWrlane o s := rfl
@[simp] theorem exec_ballot o k : exec (.ballot o k) s = execBallot o k s := rfl
@[simp] theorem exec_vote o mode : exec (.vote o mode) s = execVote o mode s := rfl
@[simp] theorem exec_vmatch o w64 cnt q : exec (.vmatch o w64 cnt q) s = execMatch o w64 cnt q s := rfl
@[simp] theorem exec_pscan o op t incl ftz : exec (.pscan o op t incl ftz) s = execPscan o op t incl ftz s := rfl
@[simp] theorem exec_redux o op t ex ftz : exec (.redux o op t ex ftz) s = execRedux o op t ex ftz s := rfl
@[simp] theorem exec_compact o q : exec (.compact o q) s = execCompact o q s := rfl
@[simp] theorem exec_ld o size acq tag : exec (.ld o size acq tag) s = execLd o size acq tag s := rfl
@[simp] theorem exec_st o size rel : exec (.st o size rel) s = execSt o size rel s := rfl
@[simp] theorem exec_atom o op u w64 rtn ord scope tag : exec (.atom o op u w64 rtn ord scope tag) s = execAtom o op u w64 rtn ord scope tag s := rfl
@[simp] theorem exec_atomc o width ord scope tag q : exec (.atomc o width ord scope tag q) s = execAtomc o width ord scope tag q s := rfl
@[simp] theorem exec_atomx o ta ord scope : exec (.atomx o ta ord scope) s = execAtomx o ta ord scope s := rfl
@[simp] theorem exec_atomv o op u rtn ord scope : exec (.atomv o op u rtn ord scope) s = execAtomv o op u rtn ord scope s := rfl
@[simp] theorem exec_ldfut o w64 scope : exec (.ldfut o w64 scope) s = execLdfut o w64 scope s := rfl
@[simp] theorem exec_stfut o w64 scope : exec (.stfut o w64 scope) s = execStfut o w64 scope s := rfl
@[simp] theorem exec_futrst o : exec (.futrst o) s = execFutrst o s := rfl
@[simp] theorem exec_lds o size fe lvl off : exec (.lds o size fe lvl off) s = execLds o size fe lvl off s := rfl
@[simp] theorem exec_sts o size fe lvl off : exec (.sts o size fe lvl off) s = execSts o size fe lvl off s := rfl
@[simp] theorem exec_atoms o op u w64 rtn lvl : exec (.atoms o op u w64 rtn lvl) s = execAtoms o op u w64 rtn lvl s := rfl
@[simp] theorem exec_tmov o sk dk bdone nb : exec (.tmov o sk dk bdone nb) s = execTmov o sk dk bdone nb s := rfl
@[simp] theorem exec_bufdec o : exec (.bufdec o) s = execBufdec o s := rfl
@[simp] theorem exec_bufdecDrop o : exec (.bufdecDrop o) s = execBufdecDrop o s := rfl
@[simp] theorem exec_bufsetFill o : exec (.bufsetFill o) s = execBufsetFill o s := rfl
@[simp] theorem exec_bufsetDrain o : exec (.bufsetDrain o) s = execBufsetDrain o s := rfl
@[simp] theorem exec_bufsetReset o : exec (.bufsetReset o) s = execBufsetReset o s := rfl
@[simp] theorem exec_bufqry o state nb : exec (.bufqry o state nb) s = execBufqry o state nb s := rfl
@[simp] theorem exec_mapr o lvl k : exec (.mapr o lvl k) s = execMapr o lvl k s := rfl
@[simp] theorem exec_unmapr o k : exec (.unmapr o k) s = execUnmapr o k s := rfl
@[simp] theorem exec_flushr o k : exec (.flushr o k) s = execFlushr o k s := rfl
@[simp] theorem exec_feset o full lvl : exec (.feset o full lvl) s = execFeset o full lvl s := rfl
@[simp] theorem exec_feqry o lvl : exec (.feqry o lvl) s = execFeqry o lvl s := rfl
@[simp] theorem exec_msub o t pri : exec (.msub o t pri) s = execMsub o t pri s := rfl
@[simp] theorem exec_mrd o n : exec (.mrd o n) s = execMrd o n s := rfl
@[simp] theorem exec_mwm o : exec (.mwm o) s = execMwm o s := rfl
@[simp] theorem exec_mlda o clus off : exec (.mlda o clus off) s = execMlda o clus off s := rfl
@[simp] theorem exec_mldb o off : exec (.mldb o off) s = execMldb o off s := rfl
@[simp] theorem exec_mma o ta tb last : exec (.mma o ta tb last) s = execMma o ta tb last s := rfl
@[simp] theorem exec_msclOff o : exec (.msclOff o) s = execMsclOff o s := rfl
@[simp] theorem exec_mscl o clus : exec (.mscl o clus) s = execMscl o clus s := rfl
@[simp] theorem exec_msto o lvl td satf : exec (.msto o lvl td satf) s = execMsto o lvl td satf s := rfl
@[simp] theorem exec_mzero o : exec (.mzero o) s = execMzero o s := rfl
@[simp] theorem exec_mloopDec o t : exec (.mloopDec o t) s = execMloopDec o t s := rfl
@[simp] theorem exec_mloopAdd o v : exec (.mloopAdd o v) s = execMloopAdd o v s := rfl
@[simp] theorem exec_mbarw o nb : exec (.mbarw o nb) s = execMbarw o nb s := rfl
@[simp] theorem exec_mbara o nb : exec (.mbara o nb) s = execMbara o nb s := rfl
@[simp] theorem exec_mend o : exec (.mend o) s = execMend o s := rfl
@[simp] theorem exec_emitPrim o cullb : exec (.emitPrim o cullb) s = execEmitPrim o cullb s := rfl
@[simp] theorem exec_emitOpen o : exec (.emitOpen o) s = execEmitOpen o s := rfl
@[simp] theorem exec_emitClose o : exec (.emitClose o) s = execEmitClose o s := rfl
@[simp] theorem exec_vbldLat o : exec (.vbldLat o) s = execVbldLat o s := rfl
@[simp] theorem exec_vbldSet o : exec (.vbldSet o) s = execVbldSet o s := rfl
@[simp] theorem exec_classify o clus : exec (.classify o clus) s = execClassify o clus s := rfl
@[simp] theorem exec_sample o lvl lin : exec (.sample o lvl lin) s = execSample o lvl lin s := rfl
@[simp] theorem exec_chartxf o inv y : exec (.chartxf o inv y) s = execChartxf o inv y s := rfl
@[simp] theorem exec_tileout o clus : exec (.tileout o clus) s = execTileout o clus s := rfl
@[simp] theorem exec_raybatOpen o : exec (.raybatOpen o) s = execRaybatOpen o s := rfl
@[simp] theorem exec_raybatClose o : exec (.raybatClose o) s = execRaybatClose o s := rfl
@[simp] theorem exec_raygen o : exec (.raygen o) s = execRaygen o s := rfl
@[simp] theorem exec_rayput o : exec (.rayput o) s = execRayput o s := rfl
@[simp] theorem exec_rayqryCnt o : exec (.rayqryCnt o) s = execRayqryCnt o s := rfl
@[simp] theorem exec_rayqryWait o : exec (.rayqryWait o) s = execRayqryWait o s := rfl
@[simp] theorem exec_spawn o n : exec (.spawn o n) s = execSpawn o n s := rfl
@[simp] theorem exec_launchQ o seq : exec (.launchQ o seq) s = execLaunchQ o seq s := rfl
@[simp] theorem exec_launchWg o : exec (.launchWg o) s = execLaunchWg o s := rfl
@[simp] theorem exec_recalloc o : exec (.recalloc o) s = execRecalloc o s := rfl
@[simp] theorem exec_reccommit o : exec (.reccommit o) s = execReccommit o s := rfl
@[simp] theorem exec_rinv o n pri trp sc k8 : exec (.rinv o n pri trp sc k8) s = execRinv o n pri trp sc k8 s := rfl
@[simp] theorem exec_put o n w : exec (.put o n w) s = execPut o n w s := rfl
@[simp] theorem exec_wcnt o kind : exec (.wcnt o kind) s = execWcnt o kind s := rfl
@[simp] theorem exec_fence o ord scope : exec (.fence o ord scope) s = execFence o ord scope s := rfl
@[simp] theorem exec_barinit o scope clus : exec (.barinit o scope clus) s = execBarinit o scope clus s := rfl
@[simp] theorem exec_bararr o obj drop wait : exec (.bararr o obj drop wait) s = execBararr o obj drop wait s := rfl
@[simp] theorem exec_barwait o obj cur : exec (.barwait o obj cur) s = execBarwait o obj cur s := rfl
@[simp] theorem exec_barrel o : exec (.barrel o) s = execBarrel o s := rfl
@[simp] theorem exec_nbarSet o : exec (.nbarSet o) s = execNbarSet o s := rfl
@[simp] theorem exec_waitm o kind : exec (.waitm o kind) s = execWaitm o kind s := rfl
@[simp] theorem exec_clauseStart g : exec (.clauseStart g) s = execClauseStart g s := rfl
@[simp] theorem exec_issueWaitEnd g : exec (.issueWaitEnd g) s = execIssueWaitEnd g s := rfl
@[simp] theorem exec_activeTimeExpiry g : exec (.activeTimeExpiry g) s = execActiveTimeExpiry g s := rfl
@[simp] theorem exec_sleepcExpiry g : exec (.sleepcExpiry g) s = execSleepcExpiry g s := rfl
@[simp] theorem exec_flagCompletion op : exec (.flagCompletion op) s = execFlagCompletion op s := rfl
@[simp] theorem exec_writeAcknowledged op : exec (.writeAcknowledged op) s = execWriteAcknowledged op s := rfl
@[simp] theorem exec_silentCheckReplay g ag : exec (.silentCheckReplay g ag) s = execSilentCheckReplay g ag s := rfl
@[simp] theorem exec_homeSliceLineAction op line : exec (.homeSliceLineAction op line) s = execHomeSliceLineAction op line s := rfl
@[simp] theorem exec_futureWalk op : exec (.futureWalk op) s = execFutureWalk op s := rfl
@[simp] theorem exec_deferredRecordGrant op : exec (.deferredRecordGrant op) s = execDeferredRecordGrant op s := rfl
@[simp] theorem exec_prqrespRetry part req : exec (.prqrespRetry part req) s = execPrqrespRetry part req s := rfl
@[simp] theorem exec_prqrespFail part req : exec (.prqrespFail part req) s = execPrqrespFail part req s := rfl
@[simp] theorem exec_prqtailWrite part v : exec (.prqtailWrite part v) s = execPrqtailWrite part v s := rfl
@[simp] theorem exec_invalidateGo part cmd : exec (.invalidateGo part cmd) s = execInvalidateGo part cmd s := rfl
@[simp] theorem exec_invalidateDone part : exec (.invalidateDone part) s = execInvalidateDone part s := rfl
@[simp] theorem exec_createContext part cmd : exec (.createContext part cmd) s = execCreateContext part cmd s := rfl
@[simp] theorem exec_destroyContext part cmd : exec (.destroyContext part cmd) s = execDestroyContext part cmd s := rfl
@[simp] theorem exec_createQueue part cmd : exec (.createQueue part cmd) s = execCreateQueue part cmd s := rfl
@[simp] theorem exec_destroyQueue part cmd : exec (.destroyQueue part cmd) s = execDestroyQueue part cmd s := rfl
@[simp] theorem exec_queueCommandDone part : exec (.queueCommandDone part) s = execQueueCommandDone part s := rfl
@[simp] theorem exec_tail part q t : exec (.tail part q t) s = execTail part q t s := rfl
@[simp] theorem exec_skip part q : exec (.skip part q) s = execSkip part q s := rfl
@[simp] theorem exec_stop part q : exec (.stop part q) s = execStop part q s := rfl
@[simp] theorem exec_queueFetch part q : exec (.queueFetch part q) s = execQueueFetch part q s := rfl
@[simp] theorem exec_graphCheck part q : exec (.graphCheck part q) s = execGraphCheck part q s := rfl
@[simp] theorem exec_nodeStart part q : exec (.nodeStart part q) s = execNodeStart part q s := rfl
@[simp] theorem exec_nodeComplete part q : exec (.nodeComplete part q) s = execNodeComplete part q s := rfl
@[simp] theorem exec_waitNodePoll part q : exec (.waitNodePoll part q) s = execWaitNodePoll part q s := rfl
@[simp] theorem exec_launchQAppend part q : exec (.launchQAppend part q) s = execLaunchQAppend part q s := rfl
@[simp] theorem exec_gangServed gang unit : exec (.gangServed gang unit) s = execGangServed gang unit s := rfl
@[simp] theorem exec_codeLoadComplete gang : exec (.codeLoadComplete gang) s = execCodeLoadComplete gang s := rfl
@[simp] theorem exec_placementHold gang : exec (.placementHold gang) s = execPlacementHold gang s := rfl
@[simp] theorem exec_wgLaunchAccept op : exec (.wgLaunchAccept op) s = execWgLaunchAccept op s := rfl
@[simp] theorem exec_blockTimeoutSeal inst node block : exec (.blockTimeoutSeal inst node block) s = execBlockTimeoutSeal inst node block s := rfl
@[simp] theorem exec_invReceived pkt : exec (.invReceived pkt) s = execInvReceived pkt s := rfl
@[simp] theorem exec_putReceived pkt : exec (.putReceived pkt) s = execPutReceived pkt s := rfl
@[simp] theorem exec_putLanded pkt : exec (.putLanded pkt) s = execPutLanded pkt s := rfl
@[simp] theorem exec_replyReceived pkt : exec (.replyReceived pkt) s = execReplyReceived pkt s := rfl
@[simp] theorem exec_retransmitTimeout pair : exec (.retransmitTimeout pair) s = execRetransmitTimeout pair s := rfl
@[simp] theorem exec_packetForward pkt : exec (.packetForward pkt) s = execPacketForward pkt s := rfl
@[simp] theorem exec_landSlotFill part q : exec (.landSlotFill part q) s = execLandSlotFill part q s := rfl
@[simp] theorem exec_handlerBatchLaunch part q : exec (.handlerBatchLaunch part q) s = execHandlerBatchLaunch part q s := rfl
@[simp] theorem exec_tileMoveComplete op : exec (.tileMoveComplete op) s = execTileMoveComplete op s := rfl
@[simp] theorem exec_regionFill team k line : exec (.regionFill team k line) s = execRegionFill team k line s := rfl
@[simp] theorem exec_writeBackComplete team k line : exec (.writeBackComplete team k line) s = execWriteBackComplete team k line s := rfl
@[simp] theorem exec_arbiterGrant cluster : exec (.arbiterGrant cluster) s = execArbiterGrant cluster s := rfl
@[simp] theorem exec_passEnd cluster : exec (.passEnd cluster) s = execPassEnd cluster s := rfl
@[simp] theorem exec_tileCommit cluster : exec (.tileCommit cluster) s = execTileCommit cluster s := rfl
@[simp] theorem exec_submissionComplete team : exec (.submissionComplete team) s = execSubmissionComplete team s := rfl
@[simp] theorem exec_columnStoreGrant part cluster ctx v : exec (.columnStoreGrant part cluster ctx v) s = execColumnStoreGrant part cluster ctx v s := rfl
@[simp] theorem exec_grantZeroDone part : exec (.grantZeroDone part) s = execGrantZeroDone part s := rfl
@[simp] theorem exec_primitiveBinned op : exec (.primitiveBinned op) s = execPrimitiveBinned op s := rfl
@[simp] theorem exec_tileResolve team slot : exec (.tileResolve team slot) s = execTileResolve team slot s := rfl
@[simp] theorem exec_classifyComplete op : exec (.classifyComplete op) s = execClassifyComplete op s := rfl
@[simp] theorem exec_brgsy view v : exec (.brgsy view v) s = execBrgsy view v s := rfl
@[simp] theorem exec_bearingLatch view : exec (.bearingLatch view) s = execBearingLatch view s := rfl
@[simp] theorem exec_stripDeadline view : exec (.stripDeadline view) s = execStripDeadline view s := rfl
@[simp] theorem exec_stripScan view : exec (.stripScan view) s = execStripScan view s := rfl
@[simp] theorem exec_tileoutComplete op : exec (.tileoutComplete op) s = execTileoutComplete op s := rfl
@[simp] theorem exec_scanEnable view v : exec (.scanEnable view v) s = execScanEnable view v s := rfl
@[simp] theorem exec_scanDisable view v : exec (.scanDisable view v) s = execScanDisable view v s := rfl
@[simp] theorem exec_batchOpenDone op : exec (.batchOpenDone op) s = execBatchOpenDone op s := rfl
@[simp] theorem exec_rayAdmit g : exec (.rayAdmit g) s = execRayAdmit g s := rfl
@[simp] theorem exec_rayPassChoose cluster : exec (.rayPassChoose cluster) s = execRayPassChoose cluster s := rfl
@[simp] theorem exec_rayPass cluster : exec (.rayPass cluster) s = execRayPass cluster s := rfl
@[simp] theorem exec_rayBatchComplete die entry : exec (.rayBatchComplete die entry) s = execRayBatchComplete die entry s := rfl
@[simp] theorem exec_rayRecordCommit die entry : exec (.rayRecordCommit die entry) s = execRayRecordCommit die entry s := rfl
@[simp] theorem exec_groupRetire g : exec (.groupRetire g) s = execGroupRetire g s := rfl
@[simp] theorem exec_teamRetire team : exec (.teamRetire team) s = execTeamRetire team s := rfl
@[simp] theorem exec_trapEnter g : exec (.trapEnter g) s = execTrapEnter g s := rfl
@[simp] theorem exec_engineStop part record skid : exec (.engineStop part record skid) s = execEngineStop part record skid s := rfl
@[simp] theorem exec_haltcmdClear part v : exec (.haltcmdClear part v) s = execHaltcmdClear part v s := rfl
@[simp] theorem exec_contextSave part cmd : exec (.contextSave part cmd) s = execContextSave part cmd s := rfl
@[simp] theorem exec_drainTimeout team : exec (.drainTimeout team) s = execDrainTimeout team s := rfl
@[simp] theorem exec_contextSaveDone part : exec (.contextSaveDone part) s = execContextSaveDone part s := rfl
@[simp] theorem exec_contextRestore part cmd : exec (.contextRestore part cmd) s = execContextRestore part cmd s := rfl
@[simp] theorem exec_dropgo part v : exec (.dropgo part v) s = execDropgo part v s := rfl
@[simp] theorem exec_dropComplete part : exec (.dropComplete part) s = execDropComplete part s := rfl
@[simp] theorem exec_commit v : exec (.commit v) s = execCommit v s := rfl
@[simp] theorem exec_apply v : exec (.apply v) s = execApply v s := rfl
@[simp] theorem exec_governorThrottle cluster step : exec (.governorThrottle cluster step) s = execGovernorThrottle cluster step s := rfl
@[simp] theorem exec_sensorSample temps volts current : exec (.sensorSample temps volts current) s = execSensorSample temps volts current s := rfl
@[simp] theorem exec_moduleReset reason upTo : exec (.moduleReset reason upTo) s = execModuleReset reason upTo s := rfl
@[simp] theorem exec_bootStageTimeout stage : exec (.bootStageTimeout stage) s = execBootStageTimeout stage s := rfl
@[simp] theorem exec_flashImageWrite image svn version : exec (.flashImageWrite image svn version) s = execFlashImageWrite image svn version s := rfl
@[simp] theorem exec_fscClear : exec (.fscClear) s = execFscClear s := rfl
@[simp] theorem exec_eventLogRead nonce : exec (.eventLogRead nonce) s = execEventLogRead nonce s := rfl
@[simp] theorem exec_getVersion : exec (.getVersion) s = execGetVersion s := rfl
@[simp] theorem exec_getCapabilities : exec (.getCapabilities) s = execGetCapabilities s := rfl
@[simp] theorem exec_negotiateAlgorithms algs : exec (.negotiateAlgorithms algs) s = execNegotiateAlgorithms algs s := rfl
@[simp] theorem exec_getDigests : exec (.getDigests) s = execGetDigests s := rfl
@[simp] theorem exec_getCertificate off len : exec (.getCertificate off len) s = execGetCertificate off len s := rfl
@[simp] theorem exec_challenge nonce : exec (.challenge nonce) s = execChallenge nonce s := rfl
@[simp] theorem exec_getMeasurements nonce : exec (.getMeasurements nonce) s = execGetMeasurements nonce s := rfl
@[simp] theorem exec_hostMemoryRequest part addr write data : exec (.hostMemoryRequest part addr write data) s = execHostMemoryRequest part addr write data s := rfl
@[simp] theorem exec_wakeWrite part q v : exec (.wakeWrite part q v) s = execWakeWrite part q v s := rfl
@[simp] theorem exec_fabricEnable part v : exec (.fabricEnable part v) s = execFabricEnable part v s := rfl
@[simp] theorem exec_routeWrite part chip v : exec (.routeWrite part chip v) s = execRouteWrite part chip v s := rfl
@[simp] theorem exec_flitReceived link good packets : exec (.flitReceived link good packets) s = execFlitReceived link good packets s := rfl
@[simp] theorem exec_linkDown link : exec (.linkDown link) s = execLinkDown link s := rfl
@[simp] theorem exec_registerWrite part off v : exec (.registerWrite part off v) s = execRegisterWrite part off v s := rfl
@[simp] theorem exec_nonInstructionIssue w : exec (.nonInstructionIssue w) s = execNonInstructionIssue w s := rfl
@[simp] theorem exec_linkUp link : exec (.linkUp link) s = execLinkUp link s := rfl
@[simp] theorem exec_powerFail : exec (.powerFail) s = execPowerFail s := rfl
@[simp] theorem exec_hbmTestPath stack pass : exec (.hbmTestPath stack pass) s = execHbmTestPath stack pass s := rfl
@[simp] theorem exec_vfEnable vfs : exec (.vfEnable vfs) s = execVfEnable vfs s := rfl

end Sys2Proof.Machine
end

