-- ==== Sys2Proof/Laws/Memory.lean ====
section
/-!
SUPPORT. The laws of tables and of memory: a read after a write, and the canonical form that every memory operation
keeps.
-/

namespace Sys2Proof.Machine

/-! ### Tables -/

theorem Tab.get?_insert {α : Type} (t : Tab α) (k j : Nat) (v : α) (h : Tab.get? t k = none) :
    Tab.get? (Tab.insert t k v) j = if j = k then some v else Tab.get? t j := by
  induction t with
  | nil => simp [Tab.insert, Tab.get?, eq_comm]
  | cons x t ih =>
    obtain ⟨k', v'⟩ := x
    simp only [Tab.get?] at h
    split at h
    · cases h
    · rename_i hk
      simp only [Tab.insert]
      split
      · simp only [Tab.get?, eq_comm]
      · simp only [Tab.get?, ih h]
        split
        · rename_i h1
          subst h1
          simp [hk]
        · rfl

theorem Tab.get?_erase {α : Type} (t : Tab α) (k j : Nat) :
    Tab.get? (Tab.erase t k) j = if j = k then none else Tab.get? t j := by
  induction t with
  | nil => simp [Tab.erase, Tab.get?]
  | cons x t ih =>
    obtain ⟨k', v'⟩ := x
    by_cases h : k' = k
    · subst h
      simp only [Tab.erase, if_true, ih, Tab.get?]
      by_cases hj : j = k'
      · simp [hj]
      · simp [hj, Ne.symm hj]
    · simp only [Tab.erase, h, if_false, Tab.get?, ih]
      by_cases hj : j = k
      · subst hj; simp [h]
      · simp [hj]

/-- A read after `put`. -/
@[simp] theorem Tab.get?_put {α : Type} (t : Tab α) (k j : Nat) (v : α) :
    Tab.get? (Tab.put t k v) j = if j = k then some v else Tab.get? t j := by
  rw [Tab.put, Tab.get?_insert _ _ _ _ (by simp [Tab.get?_erase]), Tab.get?_erase]
  split <;> rfl

/-- A read after `set`. -/
@[simp] theorem Tab.getD_set {α : Type} [DecidableEq α] (d : α) (t : Tab α) (k j : Nat) (v : α) :
    Tab.getD (Tab.set d t k v) j d = if j = k then v else Tab.getD t j d := by
  unfold Tab.set
  split
  · rename_i h
    subst h
    simp only [Tab.getD, Tab.get?_erase]
    split <;> simp
  · simp only [Tab.getD, Tab.get?_put]
    split <;> simp

/-- A read after `modify`. -/
theorem Tab.get?_modify {α : Type} (t : Tab α) (k j : Nat) (f : α → α) :
    Tab.get? (Tab.modify t k f) j = if j = k then (Tab.get? t k).map f else Tab.get? t j := by
  unfold Tab.modify
  split
  · rename_i v h
    simp [h]
  · rename_i h
    split
    · rename_i hj
      simp [h, hj]
    · rfl

/-! ### Memory -/

/-- A read of a byte after a write of one. -/
@[simp] theorem Memory.get_set (m : List Host.Cell) (k j : Nat) (b : Byte) :
    Memory.get (Memory.set m k b) j = if j = k then b else Memory.get m j :=
  Tab.getD_set unlistedByte m k j b

/-- A read of a byte after a write of several: those written, and every other as before. -/
theorem Memory.get_setBytes (bs : List Byte) : ∀ (m : List Host.Cell) (k j : Nat),
    Memory.get (Memory.setBytes m k bs) j
      = if k ≤ j ∧ j < k + bs.length then bs.getD (j - k) 0 else Memory.get m j := by
  induction bs with
  | nil => intro m k j; simp [Memory.setBytes]
  | cons b bs ih =>
    intro m k j
    simp only [Memory.setBytes, ih, Memory.get_set, List.length_cons]
    by_cases h : j = k
    · subst h
      rw [if_neg (by omega), if_pos rfl, if_pos (by omega)]
      simp
    · by_cases h2 : k + 1 ≤ j ∧ j < k + 1 + bs.length
      · rw [if_pos h2, if_pos (by omega)]
        obtain ⟨n, hn⟩ : ∃ n, j - k = n + 1 := ⟨j - k - 1, by omega⟩
        rw [hn, show j - (k + 1) = n by omega]
        simp
      · rw [if_neg h2, if_neg h, if_neg (by omega)]

theorem Memory.wf_iff (m : List Host.Cell) :
    Memory.wf m = true ↔ (∀ c ∈ m, c.2 ≠ unlistedByte) ∧ (m.map Prod.fst).Pairwise (· < ·) := by
  simp [Memory.wf]

/-- Leaving cells out keeps the canonical form. -/
theorem Memory.wf_filter (m : List Host.Cell) (p : Host.Cell → Bool) (h : Memory.wf m = true) :
    Memory.wf (m.filter p) = true := by
  rw [Memory.wf_iff] at *
  refine ⟨fun c hc => h.1 c (List.mem_of_mem_filter hc), ?_⟩
  exact h.2.sublist (List.Sublist.map _ List.filter_sublist)

theorem Tab.erase_eq_filter {α : Type} (t : Tab α) (k : Nat) : Tab.erase t k = t.filter (fun c => c.1 != k) := by
  induction t with
  | nil => rfl
  | cons x t ih =>
    obtain ⟨k', v⟩ := x
    by_cases h : k' = k <;> simp [Tab.erase, h, ih]

theorem Tab.mem_insert {α : Type} (t : Tab α) (k : Nat) (v : α) (c : Nat × α) :
    c ∈ Tab.insert t k v ↔ c = (k, v) ∨ c ∈ t := by
  induction t with
  | nil => simp [Tab.insert]
  | cons x t ih =>
    obtain ⟨k', v'⟩ := x
    simp only [Tab.insert]
    split
    · simp
    · simp only [List.mem_cons, ih]
      tauto

theorem Tab.insert_sorted {α : Type} (t : Tab α) (k : Nat) (v : α) (h : (t.map Prod.fst).Pairwise (· < ·))
    (hk : ∀ c ∈ t, c.1 ≠ k) : ((Tab.insert t k v).map Prod.fst).Pairwise (· < ·) := by
  induction t with
  | nil => simp [Tab.insert]
  | cons x t ih =>
    obtain ⟨k', v'⟩ := x
    simp only [List.map_cons, List.pairwise_cons] at h
    simp only [Tab.insert]
    split
    · rename_i hlt
      simp only [List.map_cons, List.pairwise_cons, List.mem_cons]
      refine ⟨?_, h⟩
      rintro a (rfl | ha)
      · exact hlt
      · exact lt_trans hlt (h.1 a ha)
    · rename_i hge
      have hne : k' ≠ k := hk (k', v') (by simp)
      simp only [List.map_cons, List.pairwise_cons, List.mem_map]
      refine ⟨?_, ih h.2 (fun c hc => hk c (by simp [hc]))⟩
      rintro a ⟨c, hc, rfl⟩
      rcases (Tab.mem_insert t k v c).1 hc with rfl | hc
      · show k' < k
        omega
      · exact h.1 _ (List.mem_map.2 ⟨c, hc, rfl⟩)

/-- A write of one byte keeps the canonical form. -/
theorem Memory.wf_set (m : List Host.Cell) (k : Nat) (b : Byte) (h : Memory.wf m = true) :
    Memory.wf (Memory.set m k b) = true := by
  have he : Memory.wf (Tab.erase m k) = true := by
    rw [Tab.erase_eq_filter]
    exact Memory.wf_filter m _ h
  unfold Memory.set Tab.set
  split
  · exact he
  · rename_i hb
    rw [Memory.wf_iff] at *
    refine ⟨?_, ?_⟩
    · intro c hc
      rcases (Tab.mem_insert _ k b c).1 hc with rfl | hc
      · exact hb
      · exact he.1 c hc
    · refine Tab.insert_sorted _ k b he.2 ?_
      intro c hc
      rw [Tab.erase_eq_filter] at hc
      simpa using (List.mem_filter.1 hc).2

/-- A write of several bytes keeps the canonical form. -/
theorem Memory.wf_setBytes (bs : List Byte) : ∀ (m : List Host.Cell) (k : Nat), Memory.wf m = true →
    Memory.wf (Memory.setBytes m k bs) = true := by
  induction bs with
  | nil => intro m k h; exact h
  | cons b bs ih => intro m k h; exact ih _ _ (Memory.wf_set m k b h)

/-- Two memories in canonical form that read alike are equal. -/
theorem Memory.ext_wf (m n : List Host.Cell) (hm : Memory.wf m = true) (hn : Memory.wf n = true)
    (h : ∀ k, Memory.get m k = Memory.get n k) : m = n := by
  have notIn : ∀ (t : List Host.Cell) (k : Nat), (∀ c ∈ t, k < c.1) → Memory.get t k = unlistedByte := by
    intro t k ht
    have : Tab.get? t k = none := by
      induction t with
      | nil => rfl
      | cons x t ih =>
        obtain ⟨k', v⟩ := x
        have h1 : k < k' := ht (k', v) (by simp)
        simp only [Tab.get?, if_neg (by omega : ¬ k' = k)]
        exact ih (fun c hc => ht c (by simp [hc]))
    simp [Memory.get, Tab.getD, this]
  have head : ∀ (k : Nat) (v : Byte) (t : List Host.Cell), Memory.get ((k, v) :: t) k = v := by
    intro k v t; simp [Memory.get, Tab.getD, Tab.get?]
  have tail : ∀ (k j : Nat) (v : Byte) (t : List Host.Cell), k ≠ j → Memory.get ((k, v) :: t) j = Memory.get t j := by
    intro k j v t hkj; simp [Memory.get, Tab.getD, Tab.get?, hkj]
  rw [Memory.wf_iff] at hm hn
  induction m generalizing n with
  | nil =>
    cases n with
    | nil => rfl
    | cons y n =>
      obtain ⟨k, v⟩ := y
      have := h k
      rw [head] at this
      exact absurd this.symm (hn.1 (k, v) (by simp))
  | cons x m ih =>
    obtain ⟨k, v⟩ := x
    cases n with
    | nil =>
      have := h k
      rw [head] at this
      exact absurd this (hm.1 (k, v) (by simp))
    | cons y n =>
      obtain ⟨k', v'⟩ := y
      simp only [List.map_cons, List.pairwise_cons, List.mem_map] at hm hn
      have hmk : ∀ c ∈ m, k < c.1 := fun c hc => hm.2.1 _ ⟨c, hc, rfl⟩
      have hnk : ∀ c ∈ n, k' < c.1 := fun c hc => hn.2.1 _ ⟨c, hc, rfl⟩
      have hv := hm.1 (k, v) (by simp)
      have hv' := hn.1 (k', v') (by simp)
      have hkk : k = k' := by
        rcases lt_trichotomy k k' with hlt | he | hlt
        · have := h k
          rw [head, notIn _ k (by
            intro c hc
            rcases List.mem_cons.1 hc with rfl | hc
            · exact hlt
            · exact lt_trans hlt (hnk c hc))] at this
          exact absurd this hv
        · exact he
        · have := h k'
          rw [head, notIn _ k' (by
            intro c hc
            rcases List.mem_cons.1 hc with rfl | hc
            · exact hlt
            · exact lt_trans hlt (hmk c hc))] at this
          exact absurd this.symm hv'
      subst hkk
      have hvv : v = v' := by
        have := h k
        rwa [head, head] at this
      subst hvv
      congr 1
      refine ih n ⟨fun c hc => hm.1 c (by simp [hc]), hm.2.2⟩ ⟨fun c hc => hn.1 c (by simp [hc]), hn.2.2⟩ ?_
      intro j
      by_cases hj : k = j
      · subst hj
        rw [notIn m k hmk, notIn n k hnk]
      · have := h j
        rwa [tail k j v m hj, tail k j v n hj] at this

/-! ### The memory operations of a state -/

theorem State.setBytes_wf (s : State) (k : Nat) (bs : List Byte) (h : Memory.wf s.mem = true) :
    Memory.wf (s.setBytes k bs).mem = true := Memory.wf_setBytes bs s.mem k h

theorem State.setNat_wf (s : State) (k n v : Nat) (h : Memory.wf s.mem = true) :
    Memory.wf (s.setNat k n v).mem = true := State.setBytes_wf s k _ h

theorem State.setKeys_wf : ∀ (bs : List (Nat × Byte)) (s : State), Memory.wf s.mem = true →
    Memory.wf (s.setKeys bs).mem = true := by
  intro bs
  induction bs with
  | nil => intro s h; exact h
  | cons b bs ih =>
    obtain ⟨k, b⟩ := b
    intro s h
    exact ih _ (Memory.wf_set s.mem k b h)

theorem State.physWrite_wf (s : State) (part pa : Nat) (bs : List Byte) (h : Memory.wf s.mem = true) :
    Memory.wf (s.physWrite part pa bs).mem = true := by
  unfold State.physWrite
  split
  · exact State.setBytes_wf s _ bs h
  · exact h

/-- Memory after reset lists nothing and is in canonical form. -/
theorem State.reset_wf : Memory.wf State.reset.mem = true := (Memory.wf_iff _).2 ⟨fun _ h => absurd h List.not_mem_nil, List.Pairwise.nil⟩

/-- A byte read of memory after bytes written by an engine at a key. -/
theorem State.get_setBytes (s : State) (k j : Nat) (bs : List Byte) :
    Memory.get (s.setBytes k bs).mem j
      = if k ≤ j ∧ j < k + bs.length then bs.getD (j - k) 0 else Memory.get s.mem j :=
  Memory.get_setBytes bs s.mem k j

end Sys2Proof.Machine
end

