-- ==== Sys2Proof/Laws/State.lean ====
section
/-!
SUPPORT. What each update of the state leaves and what it changes, one lemma per field and update.
-/

namespace Sys2Proof.Machine

/-! ### `State.putGroup` -/

@[simp] theorem State.putGroup_agenda (s : State) (id : Nat) (g : Group) : (s.putGroup id g).agenda = s.agenda := rfl
@[simp] theorem State.putGroup_fresh (s : State) (id : Nat) (g : Group) : (s.putGroup id g).fresh = s.fresh := rfl
@[simp] theorem State.putGroup_now (s : State) (id : Nat) (g : Group) : (s.putGroup id g).now = s.now := rfl
@[simp] theorem State.putGroup_cur (s : State) (id : Nat) (g : Group) : (s.putGroup id g).cur = s.cur := rfl
@[simp] theorem State.putGroup_mem (s : State) (id : Nat) (g : Group) : (s.putGroup id g).mem = s.mem := rfl
@[simp] theorem State.putGroup_full (s : State) (id : Nat) (g : Group) : (s.putGroup id g).full = s.full := rfl
@[simp] theorem State.putGroup_poison (s : State) (id : Nat) (g : Group) : (s.putGroup id g).poison = s.poison := rfl
@[simp] theorem State.putGroup_tags (s : State) (id : Nat) (g : Group) : (s.putGroup id g).tags = s.tags := rfl
@[simp] theorem State.putGroup_groups (s : State) (id : Nat) (g : Group) : (s.putGroup id g).groups = Tab.put s.groups id g := rfl
@[simp] theorem State.putGroup_teams (s : State) (id : Nat) (g : Group) : (s.putGroup id g).teams = s.teams := rfl
@[simp] theorem State.putGroup_cores (s : State) (id : Nat) (g : Group) : (s.putGroup id g).cores = s.cores := rfl
@[simp] theorem State.putGroup_copies (s : State) (id : Nat) (g : Group) : (s.putGroup id g).copies = s.copies := rfl
@[simp] theorem State.putGroup_allocs (s : State) (id : Nat) (g : Group) : (s.putGroup id g).allocs = s.allocs := rfl
@[simp] theorem State.putGroup_spec (s : State) (id : Nat) (g : Group) : (s.putGroup id g).spec = s.spec := rfl
@[simp] theorem State.putGroup_barObjs (s : State) (id : Nat) (g : Group) : (s.putGroup id g).barObjs = s.barObjs := rfl
@[simp] theorem State.putGroup_engines (s : State) (id : Nat) (g : Group) : (s.putGroup id g).engines = s.engines := rfl
@[simp] theorem State.putGroup_grants (s : State) (id : Nat) (g : Group) : (s.putGroup id g).grants = s.grants := rfl
@[simp] theorem State.putGroup_ops (s : State) (id : Nat) (g : Group) : (s.putGroup id g).ops = s.ops := rfl
@[simp] theorem State.putGroup_futs (s : State) (id : Nat) (g : Group) : (s.putGroup id g).futs = s.futs := rfl
@[simp] theorem State.putGroup_futHeld (s : State) (id : Nat) (g : Group) : (s.putGroup id g).futHeld = s.futHeld := rfl
@[simp] theorem State.putGroup_walks (s : State) (id : Nat) (g : Group) : (s.putGroup id g).walks = s.walks := rfl
@[simp] theorem State.putGroup_tlb (s : State) (id : Nat) (g : Group) : (s.putGroup id g).tlb = s.tlb := rfl
@[simp] theorem State.putGroup_preqs (s : State) (id : Nat) (g : Group) : (s.putGroup id g).preqs = s.preqs := rfl
@[simp] theorem State.putGroup_contexts (s : State) (id : Nat) (g : Group) : (s.putGroup id g).contexts = s.contexts := rfl
@[simp] theorem State.putGroup_queues (s : State) (id : Nat) (g : Group) : (s.putGroup id g).queues = s.queues := rfl
@[simp] theorem State.putGroup_qServed (s : State) (id : Nat) (g : Group) : (s.putGroup id g).qServed = s.qServed := rfl
@[simp] theorem State.putGroup_funcs (s : State) (id : Nat) (g : Group) : (s.putGroup id g).funcs = s.funcs := rfl
@[simp] theorem State.putGroup_launches (s : State) (id : Nat) (g : Group) : (s.putGroup id g).launches = s.launches := rfl
@[simp] theorem State.putGroup_gangs (s : State) (id : Nat) (g : Group) : (s.putGroup id g).gangs = s.gangs := rfl
@[simp] theorem State.putGroup_holds (s : State) (id : Nat) (g : Group) : (s.putGroup id g).holds = s.holds := rfl
@[simp] theorem State.putGroup_insts (s : State) (id : Nat) (g : Group) : (s.putGroup id g).insts = s.insts := rfl
@[simp] theorem State.putGroup_batches (s : State) (id : Nat) (g : Group) : (s.putGroup id g).batches = s.batches := rfl
@[simp] theorem State.putGroup_scenes (s : State) (id : Nat) (g : Group) : (s.putGroup id g).scenes = s.scenes := rfl
@[simp] theorem State.putGroup_passes (s : State) (id : Nat) (g : Group) : (s.putGroup id g).passes = s.passes := rfl
@[simp] theorem State.putGroup_pairs (s : State) (id : Nat) (g : Group) : (s.putGroup id g).pairs = s.pairs := rfl
@[simp] theorem State.putGroup_packets (s : State) (id : Nat) (g : Group) : (s.putGroup id g).packets = s.packets := rfl
@[simp] theorem State.putGroup_links (s : State) (id : Nat) (g : Group) : (s.putGroup id g).links = s.links := rfl
@[simp] theorem State.putGroup_ptStaged (s : State) (id : Nat) (g : Group) : (s.putGroup id g).ptStaged = s.ptStaged := rfl
@[simp] theorem State.putGroup_pt (s : State) (id : Nat) (g : Group) : (s.putGroup id g).pt = s.pt := rfl
@[simp] theorem State.putGroup_clkStep (s : State) (id : Nat) (g : Group) : (s.putGroup id g).clkStep = s.clkStep := rfl
@[simp] theorem State.putGroup_views (s : State) (id : Nat) (g : Group) : (s.putGroup id g).views = s.views := rfl
@[simp] theorem State.putGroup_ports (s : State) (id : Nat) (g : Group) : (s.putGroup id g).ports = s.ports := rfl
@[simp] theorem State.putGroup_tslots (s : State) (id : Nat) (g : Group) : (s.putGroup id g).tslots = s.tslots := rfl
@[simp] theorem State.putGroup_mgmt (s : State) (id : Nat) (g : Group) : (s.putGroup id g).mgmt = s.mgmt := rfl

/-! ### `State.modGroup` -/

@[simp] theorem State.modGroup_agenda (s : State) (id : Nat) (f : Group → Group) : (s.modGroup id f).agenda = s.agenda := rfl
@[simp] theorem State.modGroup_fresh (s : State) (id : Nat) (f : Group → Group) : (s.modGroup id f).fresh = s.fresh := rfl
@[simp] theorem State.modGroup_now (s : State) (id : Nat) (f : Group → Group) : (s.modGroup id f).now = s.now := rfl
@[simp] theorem State.modGroup_cur (s : State) (id : Nat) (f : Group → Group) : (s.modGroup id f).cur = s.cur := rfl
@[simp] theorem State.modGroup_mem (s : State) (id : Nat) (f : Group → Group) : (s.modGroup id f).mem = s.mem := rfl
@[simp] theorem State.modGroup_full (s : State) (id : Nat) (f : Group → Group) : (s.modGroup id f).full = s.full := rfl
@[simp] theorem State.modGroup_poison (s : State) (id : Nat) (f : Group → Group) : (s.modGroup id f).poison = s.poison := rfl
@[simp] theorem State.modGroup_tags (s : State) (id : Nat) (f : Group → Group) : (s.modGroup id f).tags = s.tags := rfl
@[simp] theorem State.modGroup_groups (s : State) (id : Nat) (f : Group → Group) : (s.modGroup id f).groups = Tab.modify s.groups id f := rfl
@[simp] theorem State.modGroup_teams (s : State) (id : Nat) (f : Group → Group) : (s.modGroup id f).teams = s.teams := rfl
@[simp] theorem State.modGroup_cores (s : State) (id : Nat) (f : Group → Group) : (s.modGroup id f).cores = s.cores := rfl
@[simp] theorem State.modGroup_copies (s : State) (id : Nat) (f : Group → Group) : (s.modGroup id f).copies = s.copies := rfl
@[simp] theorem State.modGroup_allocs (s : State) (id : Nat) (f : Group → Group) : (s.modGroup id f).allocs = s.allocs := rfl
@[simp] theorem State.modGroup_spec (s : State) (id : Nat) (f : Group → Group) : (s.modGroup id f).spec = s.spec := rfl
@[simp] theorem State.modGroup_barObjs (s : State) (id : Nat) (f : Group → Group) : (s.modGroup id f).barObjs = s.barObjs := rfl
@[simp] theorem State.modGroup_engines (s : State) (id : Nat) (f : Group → Group) : (s.modGroup id f).engines = s.engines := rfl
@[simp] theorem State.modGroup_grants (s : State) (id : Nat) (f : Group → Group) : (s.modGroup id f).grants = s.grants := rfl
@[simp] theorem State.modGroup_ops (s : State) (id : Nat) (f : Group → Group) : (s.modGroup id f).ops = s.ops := rfl
@[simp] theorem State.modGroup_futs (s : State) (id : Nat) (f : Group → Group) : (s.modGroup id f).futs = s.futs := rfl
@[simp] theorem State.modGroup_futHeld (s : State) (id : Nat) (f : Group → Group) : (s.modGroup id f).futHeld = s.futHeld := rfl
@[simp] theorem State.modGroup_walks (s : State) (id : Nat) (f : Group → Group) : (s.modGroup id f).walks = s.walks := rfl
@[simp] theorem State.modGroup_tlb (s : State) (id : Nat) (f : Group → Group) : (s.modGroup id f).tlb = s.tlb := rfl
@[simp] theorem State.modGroup_preqs (s : State) (id : Nat) (f : Group → Group) : (s.modGroup id f).preqs = s.preqs := rfl
@[simp] theorem State.modGroup_contexts (s : State) (id : Nat) (f : Group → Group) : (s.modGroup id f).contexts = s.contexts := rfl
@[simp] theorem State.modGroup_queues (s : State) (id : Nat) (f : Group → Group) : (s.modGroup id f).queues = s.queues := rfl
@[simp] theorem State.modGroup_qServed (s : State) (id : Nat) (f : Group → Group) : (s.modGroup id f).qServed = s.qServed := rfl
@[simp] theorem State.modGroup_funcs (s : State) (id : Nat) (f : Group → Group) : (s.modGroup id f).funcs = s.funcs := rfl
@[simp] theorem State.modGroup_launches (s : State) (id : Nat) (f : Group → Group) : (s.modGroup id f).launches = s.launches := rfl
@[simp] theorem State.modGroup_gangs (s : State) (id : Nat) (f : Group → Group) : (s.modGroup id f).gangs = s.gangs := rfl
@[simp] theorem State.modGroup_holds (s : State) (id : Nat) (f : Group → Group) : (s.modGroup id f).holds = s.holds := rfl
@[simp] theorem State.modGroup_insts (s : State) (id : Nat) (f : Group → Group) : (s.modGroup id f).insts = s.insts := rfl
@[simp] theorem State.modGroup_batches (s : State) (id : Nat) (f : Group → Group) : (s.modGroup id f).batches = s.batches := rfl
@[simp] theorem State.modGroup_scenes (s : State) (id : Nat) (f : Group → Group) : (s.modGroup id f).scenes = s.scenes := rfl
@[simp] theorem State.modGroup_passes (s : State) (id : Nat) (f : Group → Group) : (s.modGroup id f).passes = s.passes := rfl
@[simp] theorem State.modGroup_pairs (s : State) (id : Nat) (f : Group → Group) : (s.modGroup id f).pairs = s.pairs := rfl
@[simp] theorem State.modGroup_packets (s : State) (id : Nat) (f : Group → Group) : (s.modGroup id f).packets = s.packets := rfl
@[simp] theorem State.modGroup_links (s : State) (id : Nat) (f : Group → Group) : (s.modGroup id f).links = s.links := rfl
@[simp] theorem State.modGroup_ptStaged (s : State) (id : Nat) (f : Group → Group) : (s.modGroup id f).ptStaged = s.ptStaged := rfl
@[simp] theorem State.modGroup_pt (s : State) (id : Nat) (f : Group → Group) : (s.modGroup id f).pt = s.pt := rfl
@[simp] theorem State.modGroup_clkStep (s : State) (id : Nat) (f : Group → Group) : (s.modGroup id f).clkStep = s.clkStep := rfl
@[simp] theorem State.modGroup_views (s : State) (id : Nat) (f : Group → Group) : (s.modGroup id f).views = s.views := rfl
@[simp] theorem State.modGroup_ports (s : State) (id : Nat) (f : Group → Group) : (s.modGroup id f).ports = s.ports := rfl
@[simp] theorem State.modGroup_tslots (s : State) (id : Nat) (f : Group → Group) : (s.modGroup id f).tslots = s.tslots := rfl
@[simp] theorem State.modGroup_mgmt (s : State) (id : Nat) (f : Group → Group) : (s.modGroup id f).mgmt = s.mgmt := rfl

/-! ### `State.putCore` -/

@[simp] theorem State.putCore_agenda (s : State) (c : Nat) (k : CoreSt) : (s.putCore c k).agenda = s.agenda := rfl
@[simp] theorem State.putCore_fresh (s : State) (c : Nat) (k : CoreSt) : (s.putCore c k).fresh = s.fresh := rfl
@[simp] theorem State.putCore_now (s : State) (c : Nat) (k : CoreSt) : (s.putCore c k).now = s.now := rfl
@[simp] theorem State.putCore_cur (s : State) (c : Nat) (k : CoreSt) : (s.putCore c k).cur = s.cur := rfl
@[simp] theorem State.putCore_mem (s : State) (c : Nat) (k : CoreSt) : (s.putCore c k).mem = s.mem := rfl
@[simp] theorem State.putCore_full (s : State) (c : Nat) (k : CoreSt) : (s.putCore c k).full = s.full := rfl
@[simp] theorem State.putCore_poison (s : State) (c : Nat) (k : CoreSt) : (s.putCore c k).poison = s.poison := rfl
@[simp] theorem State.putCore_tags (s : State) (c : Nat) (k : CoreSt) : (s.putCore c k).tags = s.tags := rfl
@[simp] theorem State.putCore_groups (s : State) (c : Nat) (k : CoreSt) : (s.putCore c k).groups = s.groups := rfl
@[simp] theorem State.putCore_teams (s : State) (c : Nat) (k : CoreSt) : (s.putCore c k).teams = s.teams := rfl
@[simp] theorem State.putCore_cores (s : State) (c : Nat) (k : CoreSt) : (s.putCore c k).cores = Tab.set {} s.cores c k := rfl
@[simp] theorem State.putCore_copies (s : State) (c : Nat) (k : CoreSt) : (s.putCore c k).copies = s.copies := rfl
@[simp] theorem State.putCore_allocs (s : State) (c : Nat) (k : CoreSt) : (s.putCore c k).allocs = s.allocs := rfl
@[simp] theorem State.putCore_spec (s : State) (c : Nat) (k : CoreSt) : (s.putCore c k).spec = s.spec := rfl
@[simp] theorem State.putCore_barObjs (s : State) (c : Nat) (k : CoreSt) : (s.putCore c k).barObjs = s.barObjs := rfl
@[simp] theorem State.putCore_engines (s : State) (c : Nat) (k : CoreSt) : (s.putCore c k).engines = s.engines := rfl
@[simp] theorem State.putCore_grants (s : State) (c : Nat) (k : CoreSt) : (s.putCore c k).grants = s.grants := rfl
@[simp] theorem State.putCore_ops (s : State) (c : Nat) (k : CoreSt) : (s.putCore c k).ops = s.ops := rfl
@[simp] theorem State.putCore_futs (s : State) (c : Nat) (k : CoreSt) : (s.putCore c k).futs = s.futs := rfl
@[simp] theorem State.putCore_futHeld (s : State) (c : Nat) (k : CoreSt) : (s.putCore c k).futHeld = s.futHeld := rfl
@[simp] theorem State.putCore_walks (s : State) (c : Nat) (k : CoreSt) : (s.putCore c k).walks = s.walks := rfl
@[simp] theorem State.putCore_tlb (s : State) (c : Nat) (k : CoreSt) : (s.putCore c k).tlb = s.tlb := rfl
@[simp] theorem State.putCore_preqs (s : State) (c : Nat) (k : CoreSt) : (s.putCore c k).preqs = s.preqs := rfl
@[simp] theorem State.putCore_contexts (s : State) (c : Nat) (k : CoreSt) : (s.putCore c k).contexts = s.contexts := rfl
@[simp] theorem State.putCore_queues (s : State) (c : Nat) (k : CoreSt) : (s.putCore c k).queues = s.queues := rfl
@[simp] theorem State.putCore_qServed (s : State) (c : Nat) (k : CoreSt) : (s.putCore c k).qServed = s.qServed := rfl
@[simp] theorem State.putCore_funcs (s : State) (c : Nat) (k : CoreSt) : (s.putCore c k).funcs = s.funcs := rfl
@[simp] theorem State.putCore_launches (s : State) (c : Nat) (k : CoreSt) : (s.putCore c k).launches = s.launches := rfl
@[simp] theorem State.putCore_gangs (s : State) (c : Nat) (k : CoreSt) : (s.putCore c k).gangs = s.gangs := rfl
@[simp] theorem State.putCore_holds (s : State) (c : Nat) (k : CoreSt) : (s.putCore c k).holds = s.holds := rfl
@[simp] theorem State.putCore_insts (s : State) (c : Nat) (k : CoreSt) : (s.putCore c k).insts = s.insts := rfl
@[simp] theorem State.putCore_batches (s : State) (c : Nat) (k : CoreSt) : (s.putCore c k).batches = s.batches := rfl
@[simp] theorem State.putCore_scenes (s : State) (c : Nat) (k : CoreSt) : (s.putCore c k).scenes = s.scenes := rfl
@[simp] theorem State.putCore_passes (s : State) (c : Nat) (k : CoreSt) : (s.putCore c k).passes = s.passes := rfl
@[simp] theorem State.putCore_pairs (s : State) (c : Nat) (k : CoreSt) : (s.putCore c k).pairs = s.pairs := rfl
@[simp] theorem State.putCore_packets (s : State) (c : Nat) (k : CoreSt) : (s.putCore c k).packets = s.packets := rfl
@[simp] theorem State.putCore_links (s : State) (c : Nat) (k : CoreSt) : (s.putCore c k).links = s.links := rfl
@[simp] theorem State.putCore_ptStaged (s : State) (c : Nat) (k : CoreSt) : (s.putCore c k).ptStaged = s.ptStaged := rfl
@[simp] theorem State.putCore_pt (s : State) (c : Nat) (k : CoreSt) : (s.putCore c k).pt = s.pt := rfl
@[simp] theorem State.putCore_clkStep (s : State) (c : Nat) (k : CoreSt) : (s.putCore c k).clkStep = s.clkStep := rfl
@[simp] theorem State.putCore_views (s : State) (c : Nat) (k : CoreSt) : (s.putCore c k).views = s.views := rfl
@[simp] theorem State.putCore_ports (s : State) (c : Nat) (k : CoreSt) : (s.putCore c k).ports = s.ports := rfl
@[simp] theorem State.putCore_tslots (s : State) (c : Nat) (k : CoreSt) : (s.putCore c k).tslots = s.tslots := rfl
@[simp] theorem State.putCore_mgmt (s : State) (c : Nat) (k : CoreSt) : (s.putCore c k).mgmt = s.mgmt := rfl

/-! ### `State.putFunc` -/

@[simp] theorem State.putFunc_agenda (s : State) (p : Nat) (f : Func) : (s.putFunc p f).agenda = s.agenda := rfl
@[simp] theorem State.putFunc_fresh (s : State) (p : Nat) (f : Func) : (s.putFunc p f).fresh = s.fresh := rfl
@[simp] theorem State.putFunc_now (s : State) (p : Nat) (f : Func) : (s.putFunc p f).now = s.now := rfl
@[simp] theorem State.putFunc_cur (s : State) (p : Nat) (f : Func) : (s.putFunc p f).cur = s.cur := rfl
@[simp] theorem State.putFunc_mem (s : State) (p : Nat) (f : Func) : (s.putFunc p f).mem = s.mem := rfl
@[simp] theorem State.putFunc_full (s : State) (p : Nat) (f : Func) : (s.putFunc p f).full = s.full := rfl
@[simp] theorem State.putFunc_poison (s : State) (p : Nat) (f : Func) : (s.putFunc p f).poison = s.poison := rfl
@[simp] theorem State.putFunc_tags (s : State) (p : Nat) (f : Func) : (s.putFunc p f).tags = s.tags := rfl
@[simp] theorem State.putFunc_groups (s : State) (p : Nat) (f : Func) : (s.putFunc p f).groups = s.groups := rfl
@[simp] theorem State.putFunc_teams (s : State) (p : Nat) (f : Func) : (s.putFunc p f).teams = s.teams := rfl
@[simp] theorem State.putFunc_cores (s : State) (p : Nat) (f : Func) : (s.putFunc p f).cores = s.cores := rfl
@[simp] theorem State.putFunc_copies (s : State) (p : Nat) (f : Func) : (s.putFunc p f).copies = s.copies := rfl
@[simp] theorem State.putFunc_allocs (s : State) (p : Nat) (f : Func) : (s.putFunc p f).allocs = s.allocs := rfl
@[simp] theorem State.putFunc_spec (s : State) (p : Nat) (f : Func) : (s.putFunc p f).spec = s.spec := rfl
@[simp] theorem State.putFunc_barObjs (s : State) (p : Nat) (f : Func) : (s.putFunc p f).barObjs = s.barObjs := rfl
@[simp] theorem State.putFunc_engines (s : State) (p : Nat) (f : Func) : (s.putFunc p f).engines = s.engines := rfl
@[simp] theorem State.putFunc_grants (s : State) (p : Nat) (f : Func) : (s.putFunc p f).grants = s.grants := rfl
@[simp] theorem State.putFunc_ops (s : State) (p : Nat) (f : Func) : (s.putFunc p f).ops = s.ops := rfl
@[simp] theorem State.putFunc_futs (s : State) (p : Nat) (f : Func) : (s.putFunc p f).futs = s.futs := rfl
@[simp] theorem State.putFunc_futHeld (s : State) (p : Nat) (f : Func) : (s.putFunc p f).futHeld = s.futHeld := rfl
@[simp] theorem State.putFunc_walks (s : State) (p : Nat) (f : Func) : (s.putFunc p f).walks = s.walks := rfl
@[simp] theorem State.putFunc_tlb (s : State) (p : Nat) (f : Func) : (s.putFunc p f).tlb = s.tlb := rfl
@[simp] theorem State.putFunc_preqs (s : State) (p : Nat) (f : Func) : (s.putFunc p f).preqs = s.preqs := rfl
@[simp] theorem State.putFunc_contexts (s : State) (p : Nat) (f : Func) : (s.putFunc p f).contexts = s.contexts := rfl
@[simp] theorem State.putFunc_queues (s : State) (p : Nat) (f : Func) : (s.putFunc p f).queues = s.queues := rfl
@[simp] theorem State.putFunc_qServed (s : State) (p : Nat) (f : Func) : (s.putFunc p f).qServed = s.qServed := rfl
@[simp] theorem State.putFunc_funcs (s : State) (p : Nat) (f : Func) : (s.putFunc p f).funcs = Tab.set {} s.funcs p f := rfl
@[simp] theorem State.putFunc_launches (s : State) (p : Nat) (f : Func) : (s.putFunc p f).launches = s.launches := rfl
@[simp] theorem State.putFunc_gangs (s : State) (p : Nat) (f : Func) : (s.putFunc p f).gangs = s.gangs := rfl
@[simp] theorem State.putFunc_holds (s : State) (p : Nat) (f : Func) : (s.putFunc p f).holds = s.holds := rfl
@[simp] theorem State.putFunc_insts (s : State) (p : Nat) (f : Func) : (s.putFunc p f).insts = s.insts := rfl
@[simp] theorem State.putFunc_batches (s : State) (p : Nat) (f : Func) : (s.putFunc p f).batches = s.batches := rfl
@[simp] theorem State.putFunc_scenes (s : State) (p : Nat) (f : Func) : (s.putFunc p f).scenes = s.scenes := rfl
@[simp] theorem State.putFunc_passes (s : State) (p : Nat) (f : Func) : (s.putFunc p f).passes = s.passes := rfl
@[simp] theorem State.putFunc_pairs (s : State) (p : Nat) (f : Func) : (s.putFunc p f).pairs = s.pairs := rfl
@[simp] theorem State.putFunc_packets (s : State) (p : Nat) (f : Func) : (s.putFunc p f).packets = s.packets := rfl
@[simp] theorem State.putFunc_links (s : State) (p : Nat) (f : Func) : (s.putFunc p f).links = s.links := rfl
@[simp] theorem State.putFunc_ptStaged (s : State) (p : Nat) (f : Func) : (s.putFunc p f).ptStaged = s.ptStaged := rfl
@[simp] theorem State.putFunc_pt (s : State) (p : Nat) (f : Func) : (s.putFunc p f).pt = s.pt := rfl
@[simp] theorem State.putFunc_clkStep (s : State) (p : Nat) (f : Func) : (s.putFunc p f).clkStep = s.clkStep := rfl
@[simp] theorem State.putFunc_views (s : State) (p : Nat) (f : Func) : (s.putFunc p f).views = s.views := rfl
@[simp] theorem State.putFunc_ports (s : State) (p : Nat) (f : Func) : (s.putFunc p f).ports = s.ports := rfl
@[simp] theorem State.putFunc_tslots (s : State) (p : Nat) (f : Func) : (s.putFunc p f).tslots = s.tslots := rfl
@[simp] theorem State.putFunc_mgmt (s : State) (p : Nat) (f : Func) : (s.putFunc p f).mgmt = s.mgmt := rfl

/-! ### `State.modFunc` -/

@[simp] theorem State.modFunc_agenda (s : State) (p : Nat) (f : Func → Func) : (s.modFunc p f).agenda = s.agenda := rfl
@[simp] theorem State.modFunc_fresh (s : State) (p : Nat) (f : Func → Func) : (s.modFunc p f).fresh = s.fresh := rfl
@[simp] theorem State.modFunc_now (s : State) (p : Nat) (f : Func → Func) : (s.modFunc p f).now = s.now := rfl
@[simp] theorem State.modFunc_cur (s : State) (p : Nat) (f : Func → Func) : (s.modFunc p f).cur = s.cur := rfl
@[simp] theorem State.modFunc_mem (s : State) (p : Nat) (f : Func → Func) : (s.modFunc p f).mem = s.mem := rfl
@[simp] theorem State.modFunc_full (s : State) (p : Nat) (f : Func → Func) : (s.modFunc p f).full = s.full := rfl
@[simp] theorem State.modFunc_poison (s : State) (p : Nat) (f : Func → Func) : (s.modFunc p f).poison = s.poison := rfl
@[simp] theorem State.modFunc_tags (s : State) (p : Nat) (f : Func → Func) : (s.modFunc p f).tags = s.tags := rfl
@[simp] theorem State.modFunc_groups (s : State) (p : Nat) (f : Func → Func) : (s.modFunc p f).groups = s.groups := rfl
@[simp] theorem State.modFunc_teams (s : State) (p : Nat) (f : Func → Func) : (s.modFunc p f).teams = s.teams := rfl
@[simp] theorem State.modFunc_cores (s : State) (p : Nat) (f : Func → Func) : (s.modFunc p f).cores = s.cores := rfl
@[simp] theorem State.modFunc_copies (s : State) (p : Nat) (f : Func → Func) : (s.modFunc p f).copies = s.copies := rfl
@[simp] theorem State.modFunc_allocs (s : State) (p : Nat) (f : Func → Func) : (s.modFunc p f).allocs = s.allocs := rfl
@[simp] theorem State.modFunc_spec (s : State) (p : Nat) (f : Func → Func) : (s.modFunc p f).spec = s.spec := rfl
@[simp] theorem State.modFunc_barObjs (s : State) (p : Nat) (f : Func → Func) : (s.modFunc p f).barObjs = s.barObjs := rfl
@[simp] theorem State.modFunc_engines (s : State) (p : Nat) (f : Func → Func) : (s.modFunc p f).engines = s.engines := rfl
@[simp] theorem State.modFunc_grants (s : State) (p : Nat) (f : Func → Func) : (s.modFunc p f).grants = s.grants := rfl
@[simp] theorem State.modFunc_ops (s : State) (p : Nat) (f : Func → Func) : (s.modFunc p f).ops = s.ops := rfl
@[simp] theorem State.modFunc_futs (s : State) (p : Nat) (f : Func → Func) : (s.modFunc p f).futs = s.futs := rfl
@[simp] theorem State.modFunc_futHeld (s : State) (p : Nat) (f : Func → Func) : (s.modFunc p f).futHeld = s.futHeld := rfl
@[simp] theorem State.modFunc_walks (s : State) (p : Nat) (f : Func → Func) : (s.modFunc p f).walks = s.walks := rfl
@[simp] theorem State.modFunc_tlb (s : State) (p : Nat) (f : Func → Func) : (s.modFunc p f).tlb = s.tlb := rfl
@[simp] theorem State.modFunc_preqs (s : State) (p : Nat) (f : Func → Func) : (s.modFunc p f).preqs = s.preqs := rfl
@[simp] theorem State.modFunc_contexts (s : State) (p : Nat) (f : Func → Func) : (s.modFunc p f).contexts = s.contexts := rfl
@[simp] theorem State.modFunc_queues (s : State) (p : Nat) (f : Func → Func) : (s.modFunc p f).queues = s.queues := rfl
@[simp] theorem State.modFunc_qServed (s : State) (p : Nat) (f : Func → Func) : (s.modFunc p f).qServed = s.qServed := rfl
@[simp] theorem State.modFunc_funcs (s : State) (p : Nat) (f : Func → Func) : (s.modFunc p f).funcs = Tab.set {} s.funcs p (f (s.func p)) := rfl
@[simp] theorem State.modFunc_launches (s : State) (p : Nat) (f : Func → Func) : (s.modFunc p f).launches = s.launches := rfl
@[simp] theorem State.modFunc_gangs (s : State) (p : Nat) (f : Func → Func) : (s.modFunc p f).gangs = s.gangs := rfl
@[simp] theorem State.modFunc_holds (s : State) (p : Nat) (f : Func → Func) : (s.modFunc p f).holds = s.holds := rfl
@[simp] theorem State.modFunc_insts (s : State) (p : Nat) (f : Func → Func) : (s.modFunc p f).insts = s.insts := rfl
@[simp] theorem State.modFunc_batches (s : State) (p : Nat) (f : Func → Func) : (s.modFunc p f).batches = s.batches := rfl
@[simp] theorem State.modFunc_scenes (s : State) (p : Nat) (f : Func → Func) : (s.modFunc p f).scenes = s.scenes := rfl
@[simp] theorem State.modFunc_passes (s : State) (p : Nat) (f : Func → Func) : (s.modFunc p f).passes = s.passes := rfl
@[simp] theorem State.modFunc_pairs (s : State) (p : Nat) (f : Func → Func) : (s.modFunc p f).pairs = s.pairs := rfl
@[simp] theorem State.modFunc_packets (s : State) (p : Nat) (f : Func → Func) : (s.modFunc p f).packets = s.packets := rfl
@[simp] theorem State.modFunc_links (s : State) (p : Nat) (f : Func → Func) : (s.modFunc p f).links = s.links := rfl
@[simp] theorem State.modFunc_ptStaged (s : State) (p : Nat) (f : Func → Func) : (s.modFunc p f).ptStaged = s.ptStaged := rfl
@[simp] theorem State.modFunc_pt (s : State) (p : Nat) (f : Func → Func) : (s.modFunc p f).pt = s.pt := rfl
@[simp] theorem State.modFunc_clkStep (s : State) (p : Nat) (f : Func → Func) : (s.modFunc p f).clkStep = s.clkStep := rfl
@[simp] theorem State.modFunc_views (s : State) (p : Nat) (f : Func → Func) : (s.modFunc p f).views = s.views := rfl
@[simp] theorem State.modFunc_ports (s : State) (p : Nat) (f : Func → Func) : (s.modFunc p f).ports = s.ports := rfl
@[simp] theorem State.modFunc_tslots (s : State) (p : Nat) (f : Func → Func) : (s.modFunc p f).tslots = s.tslots := rfl
@[simp] theorem State.modFunc_mgmt (s : State) (p : Nat) (f : Func → Func) : (s.modFunc p f).mgmt = s.mgmt := rfl

/-! ### `State.modTeam` -/

@[simp] theorem State.modTeam_agenda (s : State) (t : Nat) (f : Team → Team) : (s.modTeam t f).agenda = s.agenda := rfl
@[simp] theorem State.modTeam_fresh (s : State) (t : Nat) (f : Team → Team) : (s.modTeam t f).fresh = s.fresh := rfl
@[simp] theorem State.modTeam_now (s : State) (t : Nat) (f : Team → Team) : (s.modTeam t f).now = s.now := rfl
@[simp] theorem State.modTeam_cur (s : State) (t : Nat) (f : Team → Team) : (s.modTeam t f).cur = s.cur := rfl
@[simp] theorem State.modTeam_mem (s : State) (t : Nat) (f : Team → Team) : (s.modTeam t f).mem = s.mem := rfl
@[simp] theorem State.modTeam_full (s : State) (t : Nat) (f : Team → Team) : (s.modTeam t f).full = s.full := rfl
@[simp] theorem State.modTeam_poison (s : State) (t : Nat) (f : Team → Team) : (s.modTeam t f).poison = s.poison := rfl
@[simp] theorem State.modTeam_tags (s : State) (t : Nat) (f : Team → Team) : (s.modTeam t f).tags = s.tags := rfl
@[simp] theorem State.modTeam_groups (s : State) (t : Nat) (f : Team → Team) : (s.modTeam t f).groups = s.groups := rfl
@[simp] theorem State.modTeam_teams (s : State) (t : Nat) (f : Team → Team) : (s.modTeam t f).teams = Tab.modify s.teams t f := rfl
@[simp] theorem State.modTeam_cores (s : State) (t : Nat) (f : Team → Team) : (s.modTeam t f).cores = s.cores := rfl
@[simp] theorem State.modTeam_copies (s : State) (t : Nat) (f : Team → Team) : (s.modTeam t f).copies = s.copies := rfl
@[simp] theorem State.modTeam_allocs (s : State) (t : Nat) (f : Team → Team) : (s.modTeam t f).allocs = s.allocs := rfl
@[simp] theorem State.modTeam_spec (s : State) (t : Nat) (f : Team → Team) : (s.modTeam t f).spec = s.spec := rfl
@[simp] theorem State.modTeam_barObjs (s : State) (t : Nat) (f : Team → Team) : (s.modTeam t f).barObjs = s.barObjs := rfl
@[simp] theorem State.modTeam_engines (s : State) (t : Nat) (f : Team → Team) : (s.modTeam t f).engines = s.engines := rfl
@[simp] theorem State.modTeam_grants (s : State) (t : Nat) (f : Team → Team) : (s.modTeam t f).grants = s.grants := rfl
@[simp] theorem State.modTeam_ops (s : State) (t : Nat) (f : Team → Team) : (s.modTeam t f).ops = s.ops := rfl
@[simp] theorem State.modTeam_futs (s : State) (t : Nat) (f : Team → Team) : (s.modTeam t f).futs = s.futs := rfl
@[simp] theorem State.modTeam_futHeld (s : State) (t : Nat) (f : Team → Team) : (s.modTeam t f).futHeld = s.futHeld := rfl
@[simp] theorem State.modTeam_walks (s : State) (t : Nat) (f : Team → Team) : (s.modTeam t f).walks = s.walks := rfl
@[simp] theorem State.modTeam_tlb (s : State) (t : Nat) (f : Team → Team) : (s.modTeam t f).tlb = s.tlb := rfl
@[simp] theorem State.modTeam_preqs (s : State) (t : Nat) (f : Team → Team) : (s.modTeam t f).preqs = s.preqs := rfl
@[simp] theorem State.modTeam_contexts (s : State) (t : Nat) (f : Team → Team) : (s.modTeam t f).contexts = s.contexts := rfl
@[simp] theorem State.modTeam_queues (s : State) (t : Nat) (f : Team → Team) : (s.modTeam t f).queues = s.queues := rfl
@[simp] theorem State.modTeam_qServed (s : State) (t : Nat) (f : Team → Team) : (s.modTeam t f).qServed = s.qServed := rfl
@[simp] theorem State.modTeam_funcs (s : State) (t : Nat) (f : Team → Team) : (s.modTeam t f).funcs = s.funcs := rfl
@[simp] theorem State.modTeam_launches (s : State) (t : Nat) (f : Team → Team) : (s.modTeam t f).launches = s.launches := rfl
@[simp] theorem State.modTeam_gangs (s : State) (t : Nat) (f : Team → Team) : (s.modTeam t f).gangs = s.gangs := rfl
@[simp] theorem State.modTeam_holds (s : State) (t : Nat) (f : Team → Team) : (s.modTeam t f).holds = s.holds := rfl
@[simp] theorem State.modTeam_insts (s : State) (t : Nat) (f : Team → Team) : (s.modTeam t f).insts = s.insts := rfl
@[simp] theorem State.modTeam_batches (s : State) (t : Nat) (f : Team → Team) : (s.modTeam t f).batches = s.batches := rfl
@[simp] theorem State.modTeam_scenes (s : State) (t : Nat) (f : Team → Team) : (s.modTeam t f).scenes = s.scenes := rfl
@[simp] theorem State.modTeam_passes (s : State) (t : Nat) (f : Team → Team) : (s.modTeam t f).passes = s.passes := rfl
@[simp] theorem State.modTeam_pairs (s : State) (t : Nat) (f : Team → Team) : (s.modTeam t f).pairs = s.pairs := rfl
@[simp] theorem State.modTeam_packets (s : State) (t : Nat) (f : Team → Team) : (s.modTeam t f).packets = s.packets := rfl
@[simp] theorem State.modTeam_links (s : State) (t : Nat) (f : Team → Team) : (s.modTeam t f).links = s.links := rfl
@[simp] theorem State.modTeam_ptStaged (s : State) (t : Nat) (f : Team → Team) : (s.modTeam t f).ptStaged = s.ptStaged := rfl
@[simp] theorem State.modTeam_pt (s : State) (t : Nat) (f : Team → Team) : (s.modTeam t f).pt = s.pt := rfl
@[simp] theorem State.modTeam_clkStep (s : State) (t : Nat) (f : Team → Team) : (s.modTeam t f).clkStep = s.clkStep := rfl
@[simp] theorem State.modTeam_views (s : State) (t : Nat) (f : Team → Team) : (s.modTeam t f).views = s.views := rfl
@[simp] theorem State.modTeam_ports (s : State) (t : Nat) (f : Team → Team) : (s.modTeam t f).ports = s.ports := rfl
@[simp] theorem State.modTeam_tslots (s : State) (t : Nat) (f : Team → Team) : (s.modTeam t f).tslots = s.tslots := rfl
@[simp] theorem State.modTeam_mgmt (s : State) (t : Nat) (f : Team → Team) : (s.modTeam t f).mgmt = s.mgmt := rfl

/-! ### `State.setBytes` -/

@[simp] theorem State.setBytes_agenda (s : State) (k : Nat) (bs : List Byte) : (s.setBytes k bs).agenda = s.agenda := rfl
@[simp] theorem State.setBytes_fresh (s : State) (k : Nat) (bs : List Byte) : (s.setBytes k bs).fresh = s.fresh := rfl
@[simp] theorem State.setBytes_now (s : State) (k : Nat) (bs : List Byte) : (s.setBytes k bs).now = s.now := rfl
@[simp] theorem State.setBytes_cur (s : State) (k : Nat) (bs : List Byte) : (s.setBytes k bs).cur = s.cur := rfl
@[simp] theorem State.setBytes_mem (s : State) (k : Nat) (bs : List Byte) : (s.setBytes k bs).mem = Memory.setBytes s.mem k bs := rfl
@[simp] theorem State.setBytes_full (s : State) (k : Nat) (bs : List Byte) : (s.setBytes k bs).full = s.full := rfl
@[simp] theorem State.setBytes_poison (s : State) (k : Nat) (bs : List Byte) : (s.setBytes k bs).poison = s.poison := rfl
@[simp] theorem State.setBytes_tags (s : State) (k : Nat) (bs : List Byte) : (s.setBytes k bs).tags = s.tags := rfl
@[simp] theorem State.setBytes_groups (s : State) (k : Nat) (bs : List Byte) : (s.setBytes k bs).groups = s.groups := rfl
@[simp] theorem State.setBytes_teams (s : State) (k : Nat) (bs : List Byte) : (s.setBytes k bs).teams = s.teams := rfl
@[simp] theorem State.setBytes_cores (s : State) (k : Nat) (bs : List Byte) : (s.setBytes k bs).cores = s.cores := rfl
@[simp] theorem State.setBytes_copies (s : State) (k : Nat) (bs : List Byte) : (s.setBytes k bs).copies = s.copies := rfl
@[simp] theorem State.setBytes_allocs (s : State) (k : Nat) (bs : List Byte) : (s.setBytes k bs).allocs = s.allocs := rfl
@[simp] theorem State.setBytes_spec (s : State) (k : Nat) (bs : List Byte) : (s.setBytes k bs).spec = s.spec := rfl
@[simp] theorem State.setBytes_barObjs (s : State) (k : Nat) (bs : List Byte) : (s.setBytes k bs).barObjs = s.barObjs := rfl
@[simp] theorem State.setBytes_engines (s : State) (k : Nat) (bs : List Byte) : (s.setBytes k bs).engines = s.engines := rfl
@[simp] theorem State.setBytes_grants (s : State) (k : Nat) (bs : List Byte) : (s.setBytes k bs).grants = s.grants := rfl
@[simp] theorem State.setBytes_ops (s : State) (k : Nat) (bs : List Byte) : (s.setBytes k bs).ops = s.ops := rfl
@[simp] theorem State.setBytes_futs (s : State) (k : Nat) (bs : List Byte) : (s.setBytes k bs).futs = s.futs := rfl
@[simp] theorem State.setBytes_futHeld (s : State) (k : Nat) (bs : List Byte) : (s.setBytes k bs).futHeld = s.futHeld := rfl
@[simp] theorem State.setBytes_walks (s : State) (k : Nat) (bs : List Byte) : (s.setBytes k bs).walks = s.walks := rfl
@[simp] theorem State.setBytes_tlb (s : State) (k : Nat) (bs : List Byte) : (s.setBytes k bs).tlb = s.tlb := rfl
@[simp] theorem State.setBytes_preqs (s : State) (k : Nat) (bs : List Byte) : (s.setBytes k bs).preqs = s.preqs := rfl
@[simp] theorem State.setBytes_contexts (s : State) (k : Nat) (bs : List Byte) : (s.setBytes k bs).contexts = s.contexts := rfl
@[simp] theorem State.setBytes_queues (s : State) (k : Nat) (bs : List Byte) : (s.setBytes k bs).queues = s.queues := rfl
@[simp] theorem State.setBytes_qServed (s : State) (k : Nat) (bs : List Byte) : (s.setBytes k bs).qServed = s.qServed := rfl
@[simp] theorem State.setBytes_funcs (s : State) (k : Nat) (bs : List Byte) : (s.setBytes k bs).funcs = s.funcs := rfl
@[simp] theorem State.setBytes_launches (s : State) (k : Nat) (bs : List Byte) : (s.setBytes k bs).launches = s.launches := rfl
@[simp] theorem State.setBytes_gangs (s : State) (k : Nat) (bs : List Byte) : (s.setBytes k bs).gangs = s.gangs := rfl
@[simp] theorem State.setBytes_holds (s : State) (k : Nat) (bs : List Byte) : (s.setBytes k bs).holds = s.holds := rfl
@[simp] theorem State.setBytes_insts (s : State) (k : Nat) (bs : List Byte) : (s.setBytes k bs).insts = s.insts := rfl
@[simp] theorem State.setBytes_batches (s : State) (k : Nat) (bs : List Byte) : (s.setBytes k bs).batches = s.batches := rfl
@[simp] theorem State.setBytes_scenes (s : State) (k : Nat) (bs : List Byte) : (s.setBytes k bs).scenes = s.scenes := rfl
@[simp] theorem State.setBytes_passes (s : State) (k : Nat) (bs : List Byte) : (s.setBytes k bs).passes = s.passes := rfl
@[simp] theorem State.setBytes_pairs (s : State) (k : Nat) (bs : List Byte) : (s.setBytes k bs).pairs = s.pairs := rfl
@[simp] theorem State.setBytes_packets (s : State) (k : Nat) (bs : List Byte) : (s.setBytes k bs).packets = s.packets := rfl
@[simp] theorem State.setBytes_links (s : State) (k : Nat) (bs : List Byte) : (s.setBytes k bs).links = s.links := rfl
@[simp] theorem State.setBytes_ptStaged (s : State) (k : Nat) (bs : List Byte) : (s.setBytes k bs).ptStaged = s.ptStaged := rfl
@[simp] theorem State.setBytes_pt (s : State) (k : Nat) (bs : List Byte) : (s.setBytes k bs).pt = s.pt := rfl
@[simp] theorem State.setBytes_clkStep (s : State) (k : Nat) (bs : List Byte) : (s.setBytes k bs).clkStep = s.clkStep := rfl
@[simp] theorem State.setBytes_views (s : State) (k : Nat) (bs : List Byte) : (s.setBytes k bs).views = s.views := rfl
@[simp] theorem State.setBytes_ports (s : State) (k : Nat) (bs : List Byte) : (s.setBytes k bs).ports = s.ports := rfl
@[simp] theorem State.setBytes_tslots (s : State) (k : Nat) (bs : List Byte) : (s.setBytes k bs).tslots = s.tslots := rfl
@[simp] theorem State.setBytes_mgmt (s : State) (k : Nat) (bs : List Byte) : (s.setBytes k bs).mgmt = s.mgmt := rfl

/-! ### `State.setNat` -/

@[simp] theorem State.setNat_agenda (s : State) (k n v : Nat) : (s.setNat k n v).agenda = s.agenda := rfl
@[simp] theorem State.setNat_fresh (s : State) (k n v : Nat) : (s.setNat k n v).fresh = s.fresh := rfl
@[simp] theorem State.setNat_now (s : State) (k n v : Nat) : (s.setNat k n v).now = s.now := rfl
@[simp] theorem State.setNat_cur (s : State) (k n v : Nat) : (s.setNat k n v).cur = s.cur := rfl
@[simp] theorem State.setNat_mem (s : State) (k n v : Nat) : (s.setNat k n v).mem = Memory.setBytes s.mem k (leBytes n v) := rfl
@[simp] theorem State.setNat_full (s : State) (k n v : Nat) : (s.setNat k n v).full = s.full := rfl
@[simp] theorem State.setNat_poison (s : State) (k n v : Nat) : (s.setNat k n v).poison = s.poison := rfl
@[simp] theorem State.setNat_tags (s : State) (k n v : Nat) : (s.setNat k n v).tags = s.tags := rfl
@[simp] theorem State.setNat_groups (s : State) (k n v : Nat) : (s.setNat k n v).groups = s.groups := rfl
@[simp] theorem State.setNat_teams (s : State) (k n v : Nat) : (s.setNat k n v).teams = s.teams := rfl
@[simp] theorem State.setNat_cores (s : State) (k n v : Nat) : (s.setNat k n v).cores = s.cores := rfl
@[simp] theorem State.setNat_copies (s : State) (k n v : Nat) : (s.setNat k n v).copies = s.copies := rfl
@[simp] theorem State.setNat_allocs (s : State) (k n v : Nat) : (s.setNat k n v).allocs = s.allocs := rfl
@[simp] theorem State.setNat_spec (s : State) (k n v : Nat) : (s.setNat k n v).spec = s.spec := rfl
@[simp] theorem State.setNat_barObjs (s : State) (k n v : Nat) : (s.setNat k n v).barObjs = s.barObjs := rfl
@[simp] theorem State.setNat_engines (s : State) (k n v : Nat) : (s.setNat k n v).engines = s.engines := rfl
@[simp] theorem State.setNat_grants (s : State) (k n v : Nat) : (s.setNat k n v).grants = s.grants := rfl
@[simp] theorem State.setNat_ops (s : State) (k n v : Nat) : (s.setNat k n v).ops = s.ops := rfl
@[simp] theorem State.setNat_futs (s : State) (k n v : Nat) : (s.setNat k n v).futs = s.futs := rfl
@[simp] theorem State.setNat_futHeld (s : State) (k n v : Nat) : (s.setNat k n v).futHeld = s.futHeld := rfl
@[simp] theorem State.setNat_walks (s : State) (k n v : Nat) : (s.setNat k n v).walks = s.walks := rfl
@[simp] theorem State.setNat_tlb (s : State) (k n v : Nat) : (s.setNat k n v).tlb = s.tlb := rfl
@[simp] theorem State.setNat_preqs (s : State) (k n v : Nat) : (s.setNat k n v).preqs = s.preqs := rfl
@[simp] theorem State.setNat_contexts (s : State) (k n v : Nat) : (s.setNat k n v).contexts = s.contexts := rfl
@[simp] theorem State.setNat_queues (s : State) (k n v : Nat) : (s.setNat k n v).queues = s.queues := rfl
@[simp] theorem State.setNat_qServed (s : State) (k n v : Nat) : (s.setNat k n v).qServed = s.qServed := rfl
@[simp] theorem State.setNat_funcs (s : State) (k n v : Nat) : (s.setNat k n v).funcs = s.funcs := rfl
@[simp] theorem State.setNat_launches (s : State) (k n v : Nat) : (s.setNat k n v).launches = s.launches := rfl
@[simp] theorem State.setNat_gangs (s : State) (k n v : Nat) : (s.setNat k n v).gangs = s.gangs := rfl
@[simp] theorem State.setNat_holds (s : State) (k n v : Nat) : (s.setNat k n v).holds = s.holds := rfl
@[simp] theorem State.setNat_insts (s : State) (k n v : Nat) : (s.setNat k n v).insts = s.insts := rfl
@[simp] theorem State.setNat_batches (s : State) (k n v : Nat) : (s.setNat k n v).batches = s.batches := rfl
@[simp] theorem State.setNat_scenes (s : State) (k n v : Nat) : (s.setNat k n v).scenes = s.scenes := rfl
@[simp] theorem State.setNat_passes (s : State) (k n v : Nat) : (s.setNat k n v).passes = s.passes := rfl
@[simp] theorem State.setNat_pairs (s : State) (k n v : Nat) : (s.setNat k n v).pairs = s.pairs := rfl
@[simp] theorem State.setNat_packets (s : State) (k n v : Nat) : (s.setNat k n v).packets = s.packets := rfl
@[simp] theorem State.setNat_links (s : State) (k n v : Nat) : (s.setNat k n v).links = s.links := rfl
@[simp] theorem State.setNat_ptStaged (s : State) (k n v : Nat) : (s.setNat k n v).ptStaged = s.ptStaged := rfl
@[simp] theorem State.setNat_pt (s : State) (k n v : Nat) : (s.setNat k n v).pt = s.pt := rfl
@[simp] theorem State.setNat_clkStep (s : State) (k n v : Nat) : (s.setNat k n v).clkStep = s.clkStep := rfl
@[simp] theorem State.setNat_views (s : State) (k n v : Nat) : (s.setNat k n v).views = s.views := rfl
@[simp] theorem State.setNat_ports (s : State) (k n v : Nat) : (s.setNat k n v).ports = s.ports := rfl
@[simp] theorem State.setNat_tslots (s : State) (k n v : Nat) : (s.setNat k n v).tslots = s.tslots := rfl
@[simp] theorem State.setNat_mgmt (s : State) (k n v : Nat) : (s.setNat k n v).mgmt = s.mgmt := rfl

/-! ### `State.tick` -/

@[simp] theorem State.tick_agenda (s : State) : (s.tick).agenda = s.agenda := rfl
@[simp] theorem State.tick_fresh (s : State) : (s.tick).fresh = s.fresh + 1 := rfl
@[simp] theorem State.tick_now (s : State) : (s.tick).now = s.now := rfl
@[simp] theorem State.tick_cur (s : State) : (s.tick).cur = s.cur := rfl
@[simp] theorem State.tick_mem (s : State) : (s.tick).mem = s.mem := rfl
@[simp] theorem State.tick_full (s : State) : (s.tick).full = s.full := rfl
@[simp] theorem State.tick_poison (s : State) : (s.tick).poison = s.poison := rfl
@[simp] theorem State.tick_tags (s : State) : (s.tick).tags = s.tags := rfl
@[simp] theorem State.tick_groups (s : State) : (s.tick).groups = s.groups := rfl
@[simp] theorem State.tick_teams (s : State) : (s.tick).teams = s.teams := rfl
@[simp] theorem State.tick_cores (s : State) : (s.tick).cores = s.cores := rfl
@[simp] theorem State.tick_copies (s : State) : (s.tick).copies = s.copies := rfl
@[simp] theorem State.tick_allocs (s : State) : (s.tick).allocs = s.allocs := rfl
@[simp] theorem State.tick_spec (s : State) : (s.tick).spec = s.spec := rfl
@[simp] theorem State.tick_barObjs (s : State) : (s.tick).barObjs = s.barObjs := rfl
@[simp] theorem State.tick_engines (s : State) : (s.tick).engines = s.engines := rfl
@[simp] theorem State.tick_grants (s : State) : (s.tick).grants = s.grants := rfl
@[simp] theorem State.tick_ops (s : State) : (s.tick).ops = s.ops := rfl
@[simp] theorem State.tick_futs (s : State) : (s.tick).futs = s.futs := rfl
@[simp] theorem State.tick_futHeld (s : State) : (s.tick).futHeld = s.futHeld := rfl
@[simp] theorem State.tick_walks (s : State) : (s.tick).walks = s.walks := rfl
@[simp] theorem State.tick_tlb (s : State) : (s.tick).tlb = s.tlb := rfl
@[simp] theorem State.tick_preqs (s : State) : (s.tick).preqs = s.preqs := rfl
@[simp] theorem State.tick_contexts (s : State) : (s.tick).contexts = s.contexts := rfl
@[simp] theorem State.tick_queues (s : State) : (s.tick).queues = s.queues := rfl
@[simp] theorem State.tick_qServed (s : State) : (s.tick).qServed = s.qServed := rfl
@[simp] theorem State.tick_funcs (s : State) : (s.tick).funcs = s.funcs := rfl
@[simp] theorem State.tick_launches (s : State) : (s.tick).launches = s.launches := rfl
@[simp] theorem State.tick_gangs (s : State) : (s.tick).gangs = s.gangs := rfl
@[simp] theorem State.tick_holds (s : State) : (s.tick).holds = s.holds := rfl
@[simp] theorem State.tick_insts (s : State) : (s.tick).insts = s.insts := rfl
@[simp] theorem State.tick_batches (s : State) : (s.tick).batches = s.batches := rfl
@[simp] theorem State.tick_scenes (s : State) : (s.tick).scenes = s.scenes := rfl
@[simp] theorem State.tick_passes (s : State) : (s.tick).passes = s.passes := rfl
@[simp] theorem State.tick_pairs (s : State) : (s.tick).pairs = s.pairs := rfl
@[simp] theorem State.tick_packets (s : State) : (s.tick).packets = s.packets := rfl
@[simp] theorem State.tick_links (s : State) : (s.tick).links = s.links := rfl
@[simp] theorem State.tick_ptStaged (s : State) : (s.tick).ptStaged = s.ptStaged := rfl
@[simp] theorem State.tick_pt (s : State) : (s.tick).pt = s.pt := rfl
@[simp] theorem State.tick_clkStep (s : State) : (s.tick).clkStep = s.clkStep := rfl
@[simp] theorem State.tick_views (s : State) : (s.tick).views = s.views := rfl
@[simp] theorem State.tick_ports (s : State) : (s.tick).ports = s.ports := rfl
@[simp] theorem State.tick_tslots (s : State) : (s.tick).tslots = s.tslots := rfl
@[simp] theorem State.tick_mgmt (s : State) : (s.tick).mgmt = s.mgmt := rfl

/-! ### `State.modOp` -/

@[simp] theorem State.modOp_agenda (s : State) (id : Nat) (f : Op → Op) : (s.modOp id f).agenda = s.agenda := rfl
@[simp] theorem State.modOp_fresh (s : State) (id : Nat) (f : Op → Op) : (s.modOp id f).fresh = s.fresh := rfl
@[simp] theorem State.modOp_now (s : State) (id : Nat) (f : Op → Op) : (s.modOp id f).now = s.now := rfl
@[simp] theorem State.modOp_cur (s : State) (id : Nat) (f : Op → Op) : (s.modOp id f).cur = s.cur := rfl
@[simp] theorem State.modOp_mem (s : State) (id : Nat) (f : Op → Op) : (s.modOp id f).mem = s.mem := rfl
@[simp] theorem State.modOp_full (s : State) (id : Nat) (f : Op → Op) : (s.modOp id f).full = s.full := rfl
@[simp] theorem State.modOp_poison (s : State) (id : Nat) (f : Op → Op) : (s.modOp id f).poison = s.poison := rfl
@[simp] theorem State.modOp_tags (s : State) (id : Nat) (f : Op → Op) : (s.modOp id f).tags = s.tags := rfl
@[simp] theorem State.modOp_groups (s : State) (id : Nat) (f : Op → Op) : (s.modOp id f).groups = s.groups := rfl
@[simp] theorem State.modOp_teams (s : State) (id : Nat) (f : Op → Op) : (s.modOp id f).teams = s.teams := rfl
@[simp] theorem State.modOp_cores (s : State) (id : Nat) (f : Op → Op) : (s.modOp id f).cores = s.cores := rfl
@[simp] theorem State.modOp_copies (s : State) (id : Nat) (f : Op → Op) : (s.modOp id f).copies = s.copies := rfl
@[simp] theorem State.modOp_allocs (s : State) (id : Nat) (f : Op → Op) : (s.modOp id f).allocs = s.allocs := rfl
@[simp] theorem State.modOp_spec (s : State) (id : Nat) (f : Op → Op) : (s.modOp id f).spec = s.spec := rfl
@[simp] theorem State.modOp_barObjs (s : State) (id : Nat) (f : Op → Op) : (s.modOp id f).barObjs = s.barObjs := rfl
@[simp] theorem State.modOp_engines (s : State) (id : Nat) (f : Op → Op) : (s.modOp id f).engines = s.engines := rfl
@[simp] theorem State.modOp_grants (s : State) (id : Nat) (f : Op → Op) : (s.modOp id f).grants = s.grants := rfl
@[simp] theorem State.modOp_ops (s : State) (id : Nat) (f : Op → Op) : (s.modOp id f).ops = Tab.modify s.ops id f := rfl
@[simp] theorem State.modOp_futs (s : State) (id : Nat) (f : Op → Op) : (s.modOp id f).futs = s.futs := rfl
@[simp] theorem State.modOp_futHeld (s : State) (id : Nat) (f : Op → Op) : (s.modOp id f).futHeld = s.futHeld := rfl
@[simp] theorem State.modOp_walks (s : State) (id : Nat) (f : Op → Op) : (s.modOp id f).walks = s.walks := rfl
@[simp] theorem State.modOp_tlb (s : State) (id : Nat) (f : Op → Op) : (s.modOp id f).tlb = s.tlb := rfl
@[simp] theorem State.modOp_preqs (s : State) (id : Nat) (f : Op → Op) : (s.modOp id f).preqs = s.preqs := rfl
@[simp] theorem State.modOp_contexts (s : State) (id : Nat) (f : Op → Op) : (s.modOp id f).contexts = s.contexts := rfl
@[simp] theorem State.modOp_queues (s : State) (id : Nat) (f : Op → Op) : (s.modOp id f).queues = s.queues := rfl
@[simp] theorem State.modOp_qServed (s : State) (id : Nat) (f : Op → Op) : (s.modOp id f).qServed = s.qServed := rfl
@[simp] theorem State.modOp_funcs (s : State) (id : Nat) (f : Op → Op) : (s.modOp id f).funcs = s.funcs := rfl
@[simp] theorem State.modOp_launches (s : State) (id : Nat) (f : Op → Op) : (s.modOp id f).launches = s.launches := rfl
@[simp] theorem State.modOp_gangs (s : State) (id : Nat) (f : Op → Op) : (s.modOp id f).gangs = s.gangs := rfl
@[simp] theorem State.modOp_holds (s : State) (id : Nat) (f : Op → Op) : (s.modOp id f).holds = s.holds := rfl
@[simp] theorem State.modOp_insts (s : State) (id : Nat) (f : Op → Op) : (s.modOp id f).insts = s.insts := rfl
@[simp] theorem State.modOp_batches (s : State) (id : Nat) (f : Op → Op) : (s.modOp id f).batches = s.batches := rfl
@[simp] theorem State.modOp_scenes (s : State) (id : Nat) (f : Op → Op) : (s.modOp id f).scenes = s.scenes := rfl
@[simp] theorem State.modOp_passes (s : State) (id : Nat) (f : Op → Op) : (s.modOp id f).passes = s.passes := rfl
@[simp] theorem State.modOp_pairs (s : State) (id : Nat) (f : Op → Op) : (s.modOp id f).pairs = s.pairs := rfl
@[simp] theorem State.modOp_packets (s : State) (id : Nat) (f : Op → Op) : (s.modOp id f).packets = s.packets := rfl
@[simp] theorem State.modOp_links (s : State) (id : Nat) (f : Op → Op) : (s.modOp id f).links = s.links := rfl
@[simp] theorem State.modOp_ptStaged (s : State) (id : Nat) (f : Op → Op) : (s.modOp id f).ptStaged = s.ptStaged := rfl
@[simp] theorem State.modOp_pt (s : State) (id : Nat) (f : Op → Op) : (s.modOp id f).pt = s.pt := rfl
@[simp] theorem State.modOp_clkStep (s : State) (id : Nat) (f : Op → Op) : (s.modOp id f).clkStep = s.clkStep := rfl
@[simp] theorem State.modOp_views (s : State) (id : Nat) (f : Op → Op) : (s.modOp id f).views = s.views := rfl
@[simp] theorem State.modOp_ports (s : State) (id : Nat) (f : Op → Op) : (s.modOp id f).ports = s.ports := rfl
@[simp] theorem State.modOp_tslots (s : State) (id : Nat) (f : Op → Op) : (s.modOp id f).tslots = s.tslots := rfl
@[simp] theorem State.modOp_mgmt (s : State) (id : Nat) (f : Op → Op) : (s.modOp id f).mgmt = s.mgmt := rfl

/-! ### `State.modQueue` -/

@[simp] theorem State.modQueue_agenda (s : State) (part q : Nat) (f : Queue → Queue) : (s.modQueue part q f).agenda = s.agenda := rfl
@[simp] theorem State.modQueue_fresh (s : State) (part q : Nat) (f : Queue → Queue) : (s.modQueue part q f).fresh = s.fresh := rfl
@[simp] theorem State.modQueue_now (s : State) (part q : Nat) (f : Queue → Queue) : (s.modQueue part q f).now = s.now := rfl
@[simp] theorem State.modQueue_cur (s : State) (part q : Nat) (f : Queue → Queue) : (s.modQueue part q f).cur = s.cur := rfl
@[simp] theorem State.modQueue_mem (s : State) (part q : Nat) (f : Queue → Queue) : (s.modQueue part q f).mem = s.mem := rfl
@[simp] theorem State.modQueue_full (s : State) (part q : Nat) (f : Queue → Queue) : (s.modQueue part q f).full = s.full := rfl
@[simp] theorem State.modQueue_poison (s : State) (part q : Nat) (f : Queue → Queue) : (s.modQueue part q f).poison = s.poison := rfl
@[simp] theorem State.modQueue_tags (s : State) (part q : Nat) (f : Queue → Queue) : (s.modQueue part q f).tags = s.tags := rfl
@[simp] theorem State.modQueue_groups (s : State) (part q : Nat) (f : Queue → Queue) : (s.modQueue part q f).groups = s.groups := rfl
@[simp] theorem State.modQueue_teams (s : State) (part q : Nat) (f : Queue → Queue) : (s.modQueue part q f).teams = s.teams := rfl
@[simp] theorem State.modQueue_cores (s : State) (part q : Nat) (f : Queue → Queue) : (s.modQueue part q f).cores = s.cores := rfl
@[simp] theorem State.modQueue_copies (s : State) (part q : Nat) (f : Queue → Queue) : (s.modQueue part q f).copies = s.copies := rfl
@[simp] theorem State.modQueue_allocs (s : State) (part q : Nat) (f : Queue → Queue) : (s.modQueue part q f).allocs = s.allocs := rfl
@[simp] theorem State.modQueue_spec (s : State) (part q : Nat) (f : Queue → Queue) : (s.modQueue part q f).spec = s.spec := rfl
@[simp] theorem State.modQueue_barObjs (s : State) (part q : Nat) (f : Queue → Queue) : (s.modQueue part q f).barObjs = s.barObjs := rfl
@[simp] theorem State.modQueue_engines (s : State) (part q : Nat) (f : Queue → Queue) : (s.modQueue part q f).engines = s.engines := rfl
@[simp] theorem State.modQueue_grants (s : State) (part q : Nat) (f : Queue → Queue) : (s.modQueue part q f).grants = s.grants := rfl
@[simp] theorem State.modQueue_ops (s : State) (part q : Nat) (f : Queue → Queue) : (s.modQueue part q f).ops = s.ops := rfl
@[simp] theorem State.modQueue_futs (s : State) (part q : Nat) (f : Queue → Queue) : (s.modQueue part q f).futs = s.futs := rfl
@[simp] theorem State.modQueue_futHeld (s : State) (part q : Nat) (f : Queue → Queue) : (s.modQueue part q f).futHeld = s.futHeld := rfl
@[simp] theorem State.modQueue_walks (s : State) (part q : Nat) (f : Queue → Queue) : (s.modQueue part q f).walks = s.walks := rfl
@[simp] theorem State.modQueue_tlb (s : State) (part q : Nat) (f : Queue → Queue) : (s.modQueue part q f).tlb = s.tlb := rfl
@[simp] theorem State.modQueue_preqs (s : State) (part q : Nat) (f : Queue → Queue) : (s.modQueue part q f).preqs = s.preqs := rfl
@[simp] theorem State.modQueue_contexts (s : State) (part q : Nat) (f : Queue → Queue) : (s.modQueue part q f).contexts = s.contexts := rfl
@[simp] theorem State.modQueue_queues (s : State) (part q : Nat) (f : Queue → Queue) : (s.modQueue part q f).queues = Tab.modify s.queues (1024 * part + q) f := rfl
@[simp] theorem State.modQueue_qServed (s : State) (part q : Nat) (f : Queue → Queue) : (s.modQueue part q f).qServed = s.qServed := rfl
@[simp] theorem State.modQueue_funcs (s : State) (part q : Nat) (f : Queue → Queue) : (s.modQueue part q f).funcs = s.funcs := rfl
@[simp] theorem State.modQueue_launches (s : State) (part q : Nat) (f : Queue → Queue) : (s.modQueue part q f).launches = s.launches := rfl
@[simp] theorem State.modQueue_gangs (s : State) (part q : Nat) (f : Queue → Queue) : (s.modQueue part q f).gangs = s.gangs := rfl
@[simp] theorem State.modQueue_holds (s : State) (part q : Nat) (f : Queue → Queue) : (s.modQueue part q f).holds = s.holds := rfl
@[simp] theorem State.modQueue_insts (s : State) (part q : Nat) (f : Queue → Queue) : (s.modQueue part q f).insts = s.insts := rfl
@[simp] theorem State.modQueue_batches (s : State) (part q : Nat) (f : Queue → Queue) : (s.modQueue part q f).batches = s.batches := rfl
@[simp] theorem State.modQueue_scenes (s : State) (part q : Nat) (f : Queue → Queue) : (s.modQueue part q f).scenes = s.scenes := rfl
@[simp] theorem State.modQueue_passes (s : State) (part q : Nat) (f : Queue → Queue) : (s.modQueue part q f).passes = s.passes := rfl
@[simp] theorem State.modQueue_pairs (s : State) (part q : Nat) (f : Queue → Queue) : (s.modQueue part q f).pairs = s.pairs := rfl
@[simp] theorem State.modQueue_packets (s : State) (part q : Nat) (f : Queue → Queue) : (s.modQueue part q f).packets = s.packets := rfl
@[simp] theorem State.modQueue_links (s : State) (part q : Nat) (f : Queue → Queue) : (s.modQueue part q f).links = s.links := rfl
@[simp] theorem State.modQueue_ptStaged (s : State) (part q : Nat) (f : Queue → Queue) : (s.modQueue part q f).ptStaged = s.ptStaged := rfl
@[simp] theorem State.modQueue_pt (s : State) (part q : Nat) (f : Queue → Queue) : (s.modQueue part q f).pt = s.pt := rfl
@[simp] theorem State.modQueue_clkStep (s : State) (part q : Nat) (f : Queue → Queue) : (s.modQueue part q f).clkStep = s.clkStep := rfl
@[simp] theorem State.modQueue_views (s : State) (part q : Nat) (f : Queue → Queue) : (s.modQueue part q f).views = s.views := rfl
@[simp] theorem State.modQueue_ports (s : State) (part q : Nat) (f : Queue → Queue) : (s.modQueue part q f).ports = s.ports := rfl
@[simp] theorem State.modQueue_tslots (s : State) (part q : Nat) (f : Queue → Queue) : (s.modQueue part q f).tslots = s.tslots := rfl
@[simp] theorem State.modQueue_mgmt (s : State) (part q : Nat) (f : Queue → Queue) : (s.modQueue part q f).mgmt = s.mgmt := rfl

/-! ### `State.modMgmt` -/

@[simp] theorem State.modMgmt_agenda (s : State) (f : Mgmt → Mgmt) : (s.modMgmt f).agenda = s.agenda := rfl
@[simp] theorem State.modMgmt_fresh (s : State) (f : Mgmt → Mgmt) : (s.modMgmt f).fresh = s.fresh := rfl
@[simp] theorem State.modMgmt_now (s : State) (f : Mgmt → Mgmt) : (s.modMgmt f).now = s.now := rfl
@[simp] theorem State.modMgmt_cur (s : State) (f : Mgmt → Mgmt) : (s.modMgmt f).cur = s.cur := rfl
@[simp] theorem State.modMgmt_mem (s : State) (f : Mgmt → Mgmt) : (s.modMgmt f).mem = s.mem := rfl
@[simp] theorem State.modMgmt_full (s : State) (f : Mgmt → Mgmt) : (s.modMgmt f).full = s.full := rfl
@[simp] theorem State.modMgmt_poison (s : State) (f : Mgmt → Mgmt) : (s.modMgmt f).poison = s.poison := rfl
@[simp] theorem State.modMgmt_tags (s : State) (f : Mgmt → Mgmt) : (s.modMgmt f).tags = s.tags := rfl
@[simp] theorem State.modMgmt_groups (s : State) (f : Mgmt → Mgmt) : (s.modMgmt f).groups = s.groups := rfl
@[simp] theorem State.modMgmt_teams (s : State) (f : Mgmt → Mgmt) : (s.modMgmt f).teams = s.teams := rfl
@[simp] theorem State.modMgmt_cores (s : State) (f : Mgmt → Mgmt) : (s.modMgmt f).cores = s.cores := rfl
@[simp] theorem State.modMgmt_copies (s : State) (f : Mgmt → Mgmt) : (s.modMgmt f).copies = s.copies := rfl
@[simp] theorem State.modMgmt_allocs (s : State) (f : Mgmt → Mgmt) : (s.modMgmt f).allocs = s.allocs := rfl
@[simp] theorem State.modMgmt_spec (s : State) (f : Mgmt → Mgmt) : (s.modMgmt f).spec = s.spec := rfl
@[simp] theorem State.modMgmt_barObjs (s : State) (f : Mgmt → Mgmt) : (s.modMgmt f).barObjs = s.barObjs := rfl
@[simp] theorem State.modMgmt_engines (s : State) (f : Mgmt → Mgmt) : (s.modMgmt f).engines = s.engines := rfl
@[simp] theorem State.modMgmt_grants (s : State) (f : Mgmt → Mgmt) : (s.modMgmt f).grants = s.grants := rfl
@[simp] theorem State.modMgmt_ops (s : State) (f : Mgmt → Mgmt) : (s.modMgmt f).ops = s.ops := rfl
@[simp] theorem State.modMgmt_futs (s : State) (f : Mgmt → Mgmt) : (s.modMgmt f).futs = s.futs := rfl
@[simp] theorem State.modMgmt_futHeld (s : State) (f : Mgmt → Mgmt) : (s.modMgmt f).futHeld = s.futHeld := rfl
@[simp] theorem State.modMgmt_walks (s : State) (f : Mgmt → Mgmt) : (s.modMgmt f).walks = s.walks := rfl
@[simp] theorem State.modMgmt_tlb (s : State) (f : Mgmt → Mgmt) : (s.modMgmt f).tlb = s.tlb := rfl
@[simp] theorem State.modMgmt_preqs (s : State) (f : Mgmt → Mgmt) : (s.modMgmt f).preqs = s.preqs := rfl
@[simp] theorem State.modMgmt_contexts (s : State) (f : Mgmt → Mgmt) : (s.modMgmt f).contexts = s.contexts := rfl
@[simp] theorem State.modMgmt_queues (s : State) (f : Mgmt → Mgmt) : (s.modMgmt f).queues = s.queues := rfl
@[simp] theorem State.modMgmt_qServed (s : State) (f : Mgmt → Mgmt) : (s.modMgmt f).qServed = s.qServed := rfl
@[simp] theorem State.modMgmt_funcs (s : State) (f : Mgmt → Mgmt) : (s.modMgmt f).funcs = s.funcs := rfl
@[simp] theorem State.modMgmt_launches (s : State) (f : Mgmt → Mgmt) : (s.modMgmt f).launches = s.launches := rfl
@[simp] theorem State.modMgmt_gangs (s : State) (f : Mgmt → Mgmt) : (s.modMgmt f).gangs = s.gangs := rfl
@[simp] theorem State.modMgmt_holds (s : State) (f : Mgmt → Mgmt) : (s.modMgmt f).holds = s.holds := rfl
@[simp] theorem State.modMgmt_insts (s : State) (f : Mgmt → Mgmt) : (s.modMgmt f).insts = s.insts := rfl
@[simp] theorem State.modMgmt_batches (s : State) (f : Mgmt → Mgmt) : (s.modMgmt f).batches = s.batches := rfl
@[simp] theorem State.modMgmt_scenes (s : State) (f : Mgmt → Mgmt) : (s.modMgmt f).scenes = s.scenes := rfl
@[simp] theorem State.modMgmt_passes (s : State) (f : Mgmt → Mgmt) : (s.modMgmt f).passes = s.passes := rfl
@[simp] theorem State.modMgmt_pairs (s : State) (f : Mgmt → Mgmt) : (s.modMgmt f).pairs = s.pairs := rfl
@[simp] theorem State.modMgmt_packets (s : State) (f : Mgmt → Mgmt) : (s.modMgmt f).packets = s.packets := rfl
@[simp] theorem State.modMgmt_links (s : State) (f : Mgmt → Mgmt) : (s.modMgmt f).links = s.links := rfl
@[simp] theorem State.modMgmt_ptStaged (s : State) (f : Mgmt → Mgmt) : (s.modMgmt f).ptStaged = s.ptStaged := rfl
@[simp] theorem State.modMgmt_pt (s : State) (f : Mgmt → Mgmt) : (s.modMgmt f).pt = s.pt := rfl
@[simp] theorem State.modMgmt_clkStep (s : State) (f : Mgmt → Mgmt) : (s.modMgmt f).clkStep = s.clkStep := rfl
@[simp] theorem State.modMgmt_views (s : State) (f : Mgmt → Mgmt) : (s.modMgmt f).views = s.views := rfl
@[simp] theorem State.modMgmt_ports (s : State) (f : Mgmt → Mgmt) : (s.modMgmt f).ports = s.ports := rfl
@[simp] theorem State.modMgmt_tslots (s : State) (f : Mgmt → Mgmt) : (s.modMgmt f).tslots = s.tslots := rfl
@[simp] theorem State.modMgmt_mgmt (s : State) (f : Mgmt → Mgmt) : (s.modMgmt f).mgmt = f s.mgmt := rfl

/-! ### `State.modLaunch` -/

@[simp] theorem State.modLaunch_agenda (s : State) (l : Nat) (f : Launch → Launch) : (s.modLaunch l f).agenda = s.agenda := rfl
@[simp] theorem State.modLaunch_fresh (s : State) (l : Nat) (f : Launch → Launch) : (s.modLaunch l f).fresh = s.fresh := rfl
@[simp] theorem State.modLaunch_now (s : State) (l : Nat) (f : Launch → Launch) : (s.modLaunch l f).now = s.now := rfl
@[simp] theorem State.modLaunch_cur (s : State) (l : Nat) (f : Launch → Launch) : (s.modLaunch l f).cur = s.cur := rfl
@[simp] theorem State.modLaunch_mem (s : State) (l : Nat) (f : Launch → Launch) : (s.modLaunch l f).mem = s.mem := rfl
@[simp] theorem State.modLaunch_full (s : State) (l : Nat) (f : Launch → Launch) : (s.modLaunch l f).full = s.full := rfl
@[simp] theorem State.modLaunch_poison (s : State) (l : Nat) (f : Launch → Launch) : (s.modLaunch l f).poison = s.poison := rfl
@[simp] theorem State.modLaunch_tags (s : State) (l : Nat) (f : Launch → Launch) : (s.modLaunch l f).tags = s.tags := rfl
@[simp] theorem State.modLaunch_groups (s : State) (l : Nat) (f : Launch → Launch) : (s.modLaunch l f).groups = s.groups := rfl
@[simp] theorem State.modLaunch_teams (s : State) (l : Nat) (f : Launch → Launch) : (s.modLaunch l f).teams = s.teams := rfl
@[simp] theorem State.modLaunch_cores (s : State) (l : Nat) (f : Launch → Launch) : (s.modLaunch l f).cores = s.cores := rfl
@[simp] theorem State.modLaunch_copies (s : State) (l : Nat) (f : Launch → Launch) : (s.modLaunch l f).copies = s.copies := rfl
@[simp] theorem State.modLaunch_allocs (s : State) (l : Nat) (f : Launch → Launch) : (s.modLaunch l f).allocs = s.allocs := rfl
@[simp] theorem State.modLaunch_spec (s : State) (l : Nat) (f : Launch → Launch) : (s.modLaunch l f).spec = s.spec := rfl
@[simp] theorem State.modLaunch_barObjs (s : State) (l : Nat) (f : Launch → Launch) : (s.modLaunch l f).barObjs = s.barObjs := rfl
@[simp] theorem State.modLaunch_engines (s : State) (l : Nat) (f : Launch → Launch) : (s.modLaunch l f).engines = s.engines := rfl
@[simp] theorem State.modLaunch_grants (s : State) (l : Nat) (f : Launch → Launch) : (s.modLaunch l f).grants = s.grants := rfl
@[simp] theorem State.modLaunch_ops (s : State) (l : Nat) (f : Launch → Launch) : (s.modLaunch l f).ops = s.ops := rfl
@[simp] theorem State.modLaunch_futs (s : State) (l : Nat) (f : Launch → Launch) : (s.modLaunch l f).futs = s.futs := rfl
@[simp] theorem State.modLaunch_futHeld (s : State) (l : Nat) (f : Launch → Launch) : (s.modLaunch l f).futHeld = s.futHeld := rfl
@[simp] theorem State.modLaunch_walks (s : State) (l : Nat) (f : Launch → Launch) : (s.modLaunch l f).walks = s.walks := rfl
@[simp] theorem State.modLaunch_tlb (s : State) (l : Nat) (f : Launch → Launch) : (s.modLaunch l f).tlb = s.tlb := rfl
@[simp] theorem State.modLaunch_preqs (s : State) (l : Nat) (f : Launch → Launch) : (s.modLaunch l f).preqs = s.preqs := rfl
@[simp] theorem State.modLaunch_contexts (s : State) (l : Nat) (f : Launch → Launch) : (s.modLaunch l f).contexts = s.contexts := rfl
@[simp] theorem State.modLaunch_queues (s : State) (l : Nat) (f : Launch → Launch) : (s.modLaunch l f).queues = s.queues := rfl
@[simp] theorem State.modLaunch_qServed (s : State) (l : Nat) (f : Launch → Launch) : (s.modLaunch l f).qServed = s.qServed := rfl
@[simp] theorem State.modLaunch_funcs (s : State) (l : Nat) (f : Launch → Launch) : (s.modLaunch l f).funcs = s.funcs := rfl
@[simp] theorem State.modLaunch_launches (s : State) (l : Nat) (f : Launch → Launch) : (s.modLaunch l f).launches = Tab.modify s.launches l f := rfl
@[simp] theorem State.modLaunch_gangs (s : State) (l : Nat) (f : Launch → Launch) : (s.modLaunch l f).gangs = s.gangs := rfl
@[simp] theorem State.modLaunch_holds (s : State) (l : Nat) (f : Launch → Launch) : (s.modLaunch l f).holds = s.holds := rfl
@[simp] theorem State.modLaunch_insts (s : State) (l : Nat) (f : Launch → Launch) : (s.modLaunch l f).insts = s.insts := rfl
@[simp] theorem State.modLaunch_batches (s : State) (l : Nat) (f : Launch → Launch) : (s.modLaunch l f).batches = s.batches := rfl
@[simp] theorem State.modLaunch_scenes (s : State) (l : Nat) (f : Launch → Launch) : (s.modLaunch l f).scenes = s.scenes := rfl
@[simp] theorem State.modLaunch_passes (s : State) (l : Nat) (f : Launch → Launch) : (s.modLaunch l f).passes = s.passes := rfl
@[simp] theorem State.modLaunch_pairs (s : State) (l : Nat) (f : Launch → Launch) : (s.modLaunch l f).pairs = s.pairs := rfl
@[simp] theorem State.modLaunch_packets (s : State) (l : Nat) (f : Launch → Launch) : (s.modLaunch l f).packets = s.packets := rfl
@[simp] theorem State.modLaunch_links (s : State) (l : Nat) (f : Launch → Launch) : (s.modLaunch l f).links = s.links := rfl
@[simp] theorem State.modLaunch_ptStaged (s : State) (l : Nat) (f : Launch → Launch) : (s.modLaunch l f).ptStaged = s.ptStaged := rfl
@[simp] theorem State.modLaunch_pt (s : State) (l : Nat) (f : Launch → Launch) : (s.modLaunch l f).pt = s.pt := rfl
@[simp] theorem State.modLaunch_clkStep (s : State) (l : Nat) (f : Launch → Launch) : (s.modLaunch l f).clkStep = s.clkStep := rfl
@[simp] theorem State.modLaunch_views (s : State) (l : Nat) (f : Launch → Launch) : (s.modLaunch l f).views = s.views := rfl
@[simp] theorem State.modLaunch_ports (s : State) (l : Nat) (f : Launch → Launch) : (s.modLaunch l f).ports = s.ports := rfl
@[simp] theorem State.modLaunch_tslots (s : State) (l : Nat) (f : Launch → Launch) : (s.modLaunch l f).tslots = s.tslots := rfl
@[simp] theorem State.modLaunch_mgmt (s : State) (l : Nat) (f : Launch → Launch) : (s.modLaunch l f).mgmt = s.mgmt := rfl

/-! ### `State.modGang` -/

@[simp] theorem State.modGang_agenda (s : State) (g : Nat) (f : Gang → Gang) : (s.modGang g f).agenda = s.agenda := rfl
@[simp] theorem State.modGang_fresh (s : State) (g : Nat) (f : Gang → Gang) : (s.modGang g f).fresh = s.fresh := rfl
@[simp] theorem State.modGang_now (s : State) (g : Nat) (f : Gang → Gang) : (s.modGang g f).now = s.now := rfl
@[simp] theorem State.modGang_cur (s : State) (g : Nat) (f : Gang → Gang) : (s.modGang g f).cur = s.cur := rfl
@[simp] theorem State.modGang_mem (s : State) (g : Nat) (f : Gang → Gang) : (s.modGang g f).mem = s.mem := rfl
@[simp] theorem State.modGang_full (s : State) (g : Nat) (f : Gang → Gang) : (s.modGang g f).full = s.full := rfl
@[simp] theorem State.modGang_poison (s : State) (g : Nat) (f : Gang → Gang) : (s.modGang g f).poison = s.poison := rfl
@[simp] theorem State.modGang_tags (s : State) (g : Nat) (f : Gang → Gang) : (s.modGang g f).tags = s.tags := rfl
@[simp] theorem State.modGang_groups (s : State) (g : Nat) (f : Gang → Gang) : (s.modGang g f).groups = s.groups := rfl
@[simp] theorem State.modGang_teams (s : State) (g : Nat) (f : Gang → Gang) : (s.modGang g f).teams = s.teams := rfl
@[simp] theorem State.modGang_cores (s : State) (g : Nat) (f : Gang → Gang) : (s.modGang g f).cores = s.cores := rfl
@[simp] theorem State.modGang_copies (s : State) (g : Nat) (f : Gang → Gang) : (s.modGang g f).copies = s.copies := rfl
@[simp] theorem State.modGang_allocs (s : State) (g : Nat) (f : Gang → Gang) : (s.modGang g f).allocs = s.allocs := rfl
@[simp] theorem State.modGang_spec (s : State) (g : Nat) (f : Gang → Gang) : (s.modGang g f).spec = s.spec := rfl
@[simp] theorem State.modGang_barObjs (s : State) (g : Nat) (f : Gang → Gang) : (s.modGang g f).barObjs = s.barObjs := rfl
@[simp] theorem State.modGang_engines (s : State) (g : Nat) (f : Gang → Gang) : (s.modGang g f).engines = s.engines := rfl
@[simp] theorem State.modGang_grants (s : State) (g : Nat) (f : Gang → Gang) : (s.modGang g f).grants = s.grants := rfl
@[simp] theorem State.modGang_ops (s : State) (g : Nat) (f : Gang → Gang) : (s.modGang g f).ops = s.ops := rfl
@[simp] theorem State.modGang_futs (s : State) (g : Nat) (f : Gang → Gang) : (s.modGang g f).futs = s.futs := rfl
@[simp] theorem State.modGang_futHeld (s : State) (g : Nat) (f : Gang → Gang) : (s.modGang g f).futHeld = s.futHeld := rfl
@[simp] theorem State.modGang_walks (s : State) (g : Nat) (f : Gang → Gang) : (s.modGang g f).walks = s.walks := rfl
@[simp] theorem State.modGang_tlb (s : State) (g : Nat) (f : Gang → Gang) : (s.modGang g f).tlb = s.tlb := rfl
@[simp] theorem State.modGang_preqs (s : State) (g : Nat) (f : Gang → Gang) : (s.modGang g f).preqs = s.preqs := rfl
@[simp] theorem State.modGang_contexts (s : State) (g : Nat) (f : Gang → Gang) : (s.modGang g f).contexts = s.contexts := rfl
@[simp] theorem State.modGang_queues (s : State) (g : Nat) (f : Gang → Gang) : (s.modGang g f).queues = s.queues := rfl
@[simp] theorem State.modGang_qServed (s : State) (g : Nat) (f : Gang → Gang) : (s.modGang g f).qServed = s.qServed := rfl
@[simp] theorem State.modGang_funcs (s : State) (g : Nat) (f : Gang → Gang) : (s.modGang g f).funcs = s.funcs := rfl
@[simp] theorem State.modGang_launches (s : State) (g : Nat) (f : Gang → Gang) : (s.modGang g f).launches = s.launches := rfl
@[simp] theorem State.modGang_gangs (s : State) (g : Nat) (f : Gang → Gang) : (s.modGang g f).gangs = Tab.modify s.gangs g f := rfl
@[simp] theorem State.modGang_holds (s : State) (g : Nat) (f : Gang → Gang) : (s.modGang g f).holds = s.holds := rfl
@[simp] theorem State.modGang_insts (s : State) (g : Nat) (f : Gang → Gang) : (s.modGang g f).insts = s.insts := rfl
@[simp] theorem State.modGang_batches (s : State) (g : Nat) (f : Gang → Gang) : (s.modGang g f).batches = s.batches := rfl
@[simp] theorem State.modGang_scenes (s : State) (g : Nat) (f : Gang → Gang) : (s.modGang g f).scenes = s.scenes := rfl
@[simp] theorem State.modGang_passes (s : State) (g : Nat) (f : Gang → Gang) : (s.modGang g f).passes = s.passes := rfl
@[simp] theorem State.modGang_pairs (s : State) (g : Nat) (f : Gang → Gang) : (s.modGang g f).pairs = s.pairs := rfl
@[simp] theorem State.modGang_packets (s : State) (g : Nat) (f : Gang → Gang) : (s.modGang g f).packets = s.packets := rfl
@[simp] theorem State.modGang_links (s : State) (g : Nat) (f : Gang → Gang) : (s.modGang g f).links = s.links := rfl
@[simp] theorem State.modGang_ptStaged (s : State) (g : Nat) (f : Gang → Gang) : (s.modGang g f).ptStaged = s.ptStaged := rfl
@[simp] theorem State.modGang_pt (s : State) (g : Nat) (f : Gang → Gang) : (s.modGang g f).pt = s.pt := rfl
@[simp] theorem State.modGang_clkStep (s : State) (g : Nat) (f : Gang → Gang) : (s.modGang g f).clkStep = s.clkStep := rfl
@[simp] theorem State.modGang_views (s : State) (g : Nat) (f : Gang → Gang) : (s.modGang g f).views = s.views := rfl
@[simp] theorem State.modGang_ports (s : State) (g : Nat) (f : Gang → Gang) : (s.modGang g f).ports = s.ports := rfl
@[simp] theorem State.modGang_tslots (s : State) (g : Nat) (f : Gang → Gang) : (s.modGang g f).tslots = s.tslots := rfl
@[simp] theorem State.modGang_mgmt (s : State) (g : Nat) (f : Gang → Gang) : (s.modGang g f).mgmt = s.mgmt := rfl

/-! ### `State.modInst` -/

@[simp] theorem State.modInst_agenda (s : State) (i : Nat) (f : WInst → WInst) : (s.modInst i f).agenda = s.agenda := rfl
@[simp] theorem State.modInst_fresh (s : State) (i : Nat) (f : WInst → WInst) : (s.modInst i f).fresh = s.fresh := rfl
@[simp] theorem State.modInst_now (s : State) (i : Nat) (f : WInst → WInst) : (s.modInst i f).now = s.now := rfl
@[simp] theorem State.modInst_cur (s : State) (i : Nat) (f : WInst → WInst) : (s.modInst i f).cur = s.cur := rfl
@[simp] theorem State.modInst_mem (s : State) (i : Nat) (f : WInst → WInst) : (s.modInst i f).mem = s.mem := rfl
@[simp] theorem State.modInst_full (s : State) (i : Nat) (f : WInst → WInst) : (s.modInst i f).full = s.full := rfl
@[simp] theorem State.modInst_poison (s : State) (i : Nat) (f : WInst → WInst) : (s.modInst i f).poison = s.poison := rfl
@[simp] theorem State.modInst_tags (s : State) (i : Nat) (f : WInst → WInst) : (s.modInst i f).tags = s.tags := rfl
@[simp] theorem State.modInst_groups (s : State) (i : Nat) (f : WInst → WInst) : (s.modInst i f).groups = s.groups := rfl
@[simp] theorem State.modInst_teams (s : State) (i : Nat) (f : WInst → WInst) : (s.modInst i f).teams = s.teams := rfl
@[simp] theorem State.modInst_cores (s : State) (i : Nat) (f : WInst → WInst) : (s.modInst i f).cores = s.cores := rfl
@[simp] theorem State.modInst_copies (s : State) (i : Nat) (f : WInst → WInst) : (s.modInst i f).copies = s.copies := rfl
@[simp] theorem State.modInst_allocs (s : State) (i : Nat) (f : WInst → WInst) : (s.modInst i f).allocs = s.allocs := rfl
@[simp] theorem State.modInst_spec (s : State) (i : Nat) (f : WInst → WInst) : (s.modInst i f).spec = s.spec := rfl
@[simp] theorem State.modInst_barObjs (s : State) (i : Nat) (f : WInst → WInst) : (s.modInst i f).barObjs = s.barObjs := rfl
@[simp] theorem State.modInst_engines (s : State) (i : Nat) (f : WInst → WInst) : (s.modInst i f).engines = s.engines := rfl
@[simp] theorem State.modInst_grants (s : State) (i : Nat) (f : WInst → WInst) : (s.modInst i f).grants = s.grants := rfl
@[simp] theorem State.modInst_ops (s : State) (i : Nat) (f : WInst → WInst) : (s.modInst i f).ops = s.ops := rfl
@[simp] theorem State.modInst_futs (s : State) (i : Nat) (f : WInst → WInst) : (s.modInst i f).futs = s.futs := rfl
@[simp] theorem State.modInst_futHeld (s : State) (i : Nat) (f : WInst → WInst) : (s.modInst i f).futHeld = s.futHeld := rfl
@[simp] theorem State.modInst_walks (s : State) (i : Nat) (f : WInst → WInst) : (s.modInst i f).walks = s.walks := rfl
@[simp] theorem State.modInst_tlb (s : State) (i : Nat) (f : WInst → WInst) : (s.modInst i f).tlb = s.tlb := rfl
@[simp] theorem State.modInst_preqs (s : State) (i : Nat) (f : WInst → WInst) : (s.modInst i f).preqs = s.preqs := rfl
@[simp] theorem State.modInst_contexts (s : State) (i : Nat) (f : WInst → WInst) : (s.modInst i f).contexts = s.contexts := rfl
@[simp] theorem State.modInst_queues (s : State) (i : Nat) (f : WInst → WInst) : (s.modInst i f).queues = s.queues := rfl
@[simp] theorem State.modInst_qServed (s : State) (i : Nat) (f : WInst → WInst) : (s.modInst i f).qServed = s.qServed := rfl
@[simp] theorem State.modInst_funcs (s : State) (i : Nat) (f : WInst → WInst) : (s.modInst i f).funcs = s.funcs := rfl
@[simp] theorem State.modInst_launches (s : State) (i : Nat) (f : WInst → WInst) : (s.modInst i f).launches = s.launches := rfl
@[simp] theorem State.modInst_gangs (s : State) (i : Nat) (f : WInst → WInst) : (s.modInst i f).gangs = s.gangs := rfl
@[simp] theorem State.modInst_holds (s : State) (i : Nat) (f : WInst → WInst) : (s.modInst i f).holds = s.holds := rfl
@[simp] theorem State.modInst_insts (s : State) (i : Nat) (f : WInst → WInst) : (s.modInst i f).insts = Tab.modify s.insts i f := rfl
@[simp] theorem State.modInst_batches (s : State) (i : Nat) (f : WInst → WInst) : (s.modInst i f).batches = s.batches := rfl
@[simp] theorem State.modInst_scenes (s : State) (i : Nat) (f : WInst → WInst) : (s.modInst i f).scenes = s.scenes := rfl
@[simp] theorem State.modInst_passes (s : State) (i : Nat) (f : WInst → WInst) : (s.modInst i f).passes = s.passes := rfl
@[simp] theorem State.modInst_pairs (s : State) (i : Nat) (f : WInst → WInst) : (s.modInst i f).pairs = s.pairs := rfl
@[simp] theorem State.modInst_packets (s : State) (i : Nat) (f : WInst → WInst) : (s.modInst i f).packets = s.packets := rfl
@[simp] theorem State.modInst_links (s : State) (i : Nat) (f : WInst → WInst) : (s.modInst i f).links = s.links := rfl
@[simp] theorem State.modInst_ptStaged (s : State) (i : Nat) (f : WInst → WInst) : (s.modInst i f).ptStaged = s.ptStaged := rfl
@[simp] theorem State.modInst_pt (s : State) (i : Nat) (f : WInst → WInst) : (s.modInst i f).pt = s.pt := rfl
@[simp] theorem State.modInst_clkStep (s : State) (i : Nat) (f : WInst → WInst) : (s.modInst i f).clkStep = s.clkStep := rfl
@[simp] theorem State.modInst_views (s : State) (i : Nat) (f : WInst → WInst) : (s.modInst i f).views = s.views := rfl
@[simp] theorem State.modInst_ports (s : State) (i : Nat) (f : WInst → WInst) : (s.modInst i f).ports = s.ports := rfl
@[simp] theorem State.modInst_tslots (s : State) (i : Nat) (f : WInst → WInst) : (s.modInst i f).tslots = s.tslots := rfl
@[simp] theorem State.modInst_mgmt (s : State) (i : Nat) (f : WInst → WInst) : (s.modInst i f).mgmt = s.mgmt := rfl

/-! ### `State.modBatch` -/

@[simp] theorem State.modBatch_agenda (s : State) (k : Nat) (f : Batch → Batch) : (s.modBatch k f).agenda = s.agenda := rfl
@[simp] theorem State.modBatch_fresh (s : State) (k : Nat) (f : Batch → Batch) : (s.modBatch k f).fresh = s.fresh := rfl
@[simp] theorem State.modBatch_now (s : State) (k : Nat) (f : Batch → Batch) : (s.modBatch k f).now = s.now := rfl
@[simp] theorem State.modBatch_cur (s : State) (k : Nat) (f : Batch → Batch) : (s.modBatch k f).cur = s.cur := rfl
@[simp] theorem State.modBatch_mem (s : State) (k : Nat) (f : Batch → Batch) : (s.modBatch k f).mem = s.mem := rfl
@[simp] theorem State.modBatch_full (s : State) (k : Nat) (f : Batch → Batch) : (s.modBatch k f).full = s.full := rfl
@[simp] theorem State.modBatch_poison (s : State) (k : Nat) (f : Batch → Batch) : (s.modBatch k f).poison = s.poison := rfl
@[simp] theorem State.modBatch_tags (s : State) (k : Nat) (f : Batch → Batch) : (s.modBatch k f).tags = s.tags := rfl
@[simp] theorem State.modBatch_groups (s : State) (k : Nat) (f : Batch → Batch) : (s.modBatch k f).groups = s.groups := rfl
@[simp] theorem State.modBatch_teams (s : State) (k : Nat) (f : Batch → Batch) : (s.modBatch k f).teams = s.teams := rfl
@[simp] theorem State.modBatch_cores (s : State) (k : Nat) (f : Batch → Batch) : (s.modBatch k f).cores = s.cores := rfl
@[simp] theorem State.modBatch_copies (s : State) (k : Nat) (f : Batch → Batch) : (s.modBatch k f).copies = s.copies := rfl
@[simp] theorem State.modBatch_allocs (s : State) (k : Nat) (f : Batch → Batch) : (s.modBatch k f).allocs = s.allocs := rfl
@[simp] theorem State.modBatch_spec (s : State) (k : Nat) (f : Batch → Batch) : (s.modBatch k f).spec = s.spec := rfl
@[simp] theorem State.modBatch_barObjs (s : State) (k : Nat) (f : Batch → Batch) : (s.modBatch k f).barObjs = s.barObjs := rfl
@[simp] theorem State.modBatch_engines (s : State) (k : Nat) (f : Batch → Batch) : (s.modBatch k f).engines = s.engines := rfl
@[simp] theorem State.modBatch_grants (s : State) (k : Nat) (f : Batch → Batch) : (s.modBatch k f).grants = s.grants := rfl
@[simp] theorem State.modBatch_ops (s : State) (k : Nat) (f : Batch → Batch) : (s.modBatch k f).ops = s.ops := rfl
@[simp] theorem State.modBatch_futs (s : State) (k : Nat) (f : Batch → Batch) : (s.modBatch k f).futs = s.futs := rfl
@[simp] theorem State.modBatch_futHeld (s : State) (k : Nat) (f : Batch → Batch) : (s.modBatch k f).futHeld = s.futHeld := rfl
@[simp] theorem State.modBatch_walks (s : State) (k : Nat) (f : Batch → Batch) : (s.modBatch k f).walks = s.walks := rfl
@[simp] theorem State.modBatch_tlb (s : State) (k : Nat) (f : Batch → Batch) : (s.modBatch k f).tlb = s.tlb := rfl
@[simp] theorem State.modBatch_preqs (s : State) (k : Nat) (f : Batch → Batch) : (s.modBatch k f).preqs = s.preqs := rfl
@[simp] theorem State.modBatch_contexts (s : State) (k : Nat) (f : Batch → Batch) : (s.modBatch k f).contexts = s.contexts := rfl
@[simp] theorem State.modBatch_queues (s : State) (k : Nat) (f : Batch → Batch) : (s.modBatch k f).queues = s.queues := rfl
@[simp] theorem State.modBatch_qServed (s : State) (k : Nat) (f : Batch → Batch) : (s.modBatch k f).qServed = s.qServed := rfl
@[simp] theorem State.modBatch_funcs (s : State) (k : Nat) (f : Batch → Batch) : (s.modBatch k f).funcs = s.funcs := rfl
@[simp] theorem State.modBatch_launches (s : State) (k : Nat) (f : Batch → Batch) : (s.modBatch k f).launches = s.launches := rfl
@[simp] theorem State.modBatch_gangs (s : State) (k : Nat) (f : Batch → Batch) : (s.modBatch k f).gangs = s.gangs := rfl
@[simp] theorem State.modBatch_holds (s : State) (k : Nat) (f : Batch → Batch) : (s.modBatch k f).holds = s.holds := rfl
@[simp] theorem State.modBatch_insts (s : State) (k : Nat) (f : Batch → Batch) : (s.modBatch k f).insts = s.insts := rfl
@[simp] theorem State.modBatch_batches (s : State) (k : Nat) (f : Batch → Batch) : (s.modBatch k f).batches = Tab.modify s.batches k f := rfl
@[simp] theorem State.modBatch_scenes (s : State) (k : Nat) (f : Batch → Batch) : (s.modBatch k f).scenes = s.scenes := rfl
@[simp] theorem State.modBatch_passes (s : State) (k : Nat) (f : Batch → Batch) : (s.modBatch k f).passes = s.passes := rfl
@[simp] theorem State.modBatch_pairs (s : State) (k : Nat) (f : Batch → Batch) : (s.modBatch k f).pairs = s.pairs := rfl
@[simp] theorem State.modBatch_packets (s : State) (k : Nat) (f : Batch → Batch) : (s.modBatch k f).packets = s.packets := rfl
@[simp] theorem State.modBatch_links (s : State) (k : Nat) (f : Batch → Batch) : (s.modBatch k f).links = s.links := rfl
@[simp] theorem State.modBatch_ptStaged (s : State) (k : Nat) (f : Batch → Batch) : (s.modBatch k f).ptStaged = s.ptStaged := rfl
@[simp] theorem State.modBatch_pt (s : State) (k : Nat) (f : Batch → Batch) : (s.modBatch k f).pt = s.pt := rfl
@[simp] theorem State.modBatch_clkStep (s : State) (k : Nat) (f : Batch → Batch) : (s.modBatch k f).clkStep = s.clkStep := rfl
@[simp] theorem State.modBatch_views (s : State) (k : Nat) (f : Batch → Batch) : (s.modBatch k f).views = s.views := rfl
@[simp] theorem State.modBatch_ports (s : State) (k : Nat) (f : Batch → Batch) : (s.modBatch k f).ports = s.ports := rfl
@[simp] theorem State.modBatch_tslots (s : State) (k : Nat) (f : Batch → Batch) : (s.modBatch k f).tslots = s.tslots := rfl
@[simp] theorem State.modBatch_mgmt (s : State) (k : Nat) (f : Batch → Batch) : (s.modBatch k f).mgmt = s.mgmt := rfl

/-! ### `State.modScene` -/

@[simp] theorem State.modScene_agenda (s : State) (k : Nat) (f : Scene → Scene) : (s.modScene k f).agenda = s.agenda := rfl
@[simp] theorem State.modScene_fresh (s : State) (k : Nat) (f : Scene → Scene) : (s.modScene k f).fresh = s.fresh := rfl
@[simp] theorem State.modScene_now (s : State) (k : Nat) (f : Scene → Scene) : (s.modScene k f).now = s.now := rfl
@[simp] theorem State.modScene_cur (s : State) (k : Nat) (f : Scene → Scene) : (s.modScene k f).cur = s.cur := rfl
@[simp] theorem State.modScene_mem (s : State) (k : Nat) (f : Scene → Scene) : (s.modScene k f).mem = s.mem := rfl
@[simp] theorem State.modScene_full (s : State) (k : Nat) (f : Scene → Scene) : (s.modScene k f).full = s.full := rfl
@[simp] theorem State.modScene_poison (s : State) (k : Nat) (f : Scene → Scene) : (s.modScene k f).poison = s.poison := rfl
@[simp] theorem State.modScene_tags (s : State) (k : Nat) (f : Scene → Scene) : (s.modScene k f).tags = s.tags := rfl
@[simp] theorem State.modScene_groups (s : State) (k : Nat) (f : Scene → Scene) : (s.modScene k f).groups = s.groups := rfl
@[simp] theorem State.modScene_teams (s : State) (k : Nat) (f : Scene → Scene) : (s.modScene k f).teams = s.teams := rfl
@[simp] theorem State.modScene_cores (s : State) (k : Nat) (f : Scene → Scene) : (s.modScene k f).cores = s.cores := rfl
@[simp] theorem State.modScene_copies (s : State) (k : Nat) (f : Scene → Scene) : (s.modScene k f).copies = s.copies := rfl
@[simp] theorem State.modScene_allocs (s : State) (k : Nat) (f : Scene → Scene) : (s.modScene k f).allocs = s.allocs := rfl
@[simp] theorem State.modScene_spec (s : State) (k : Nat) (f : Scene → Scene) : (s.modScene k f).spec = s.spec := rfl
@[simp] theorem State.modScene_barObjs (s : State) (k : Nat) (f : Scene → Scene) : (s.modScene k f).barObjs = s.barObjs := rfl
@[simp] theorem State.modScene_engines (s : State) (k : Nat) (f : Scene → Scene) : (s.modScene k f).engines = s.engines := rfl
@[simp] theorem State.modScene_grants (s : State) (k : Nat) (f : Scene → Scene) : (s.modScene k f).grants = s.grants := rfl
@[simp] theorem State.modScene_ops (s : State) (k : Nat) (f : Scene → Scene) : (s.modScene k f).ops = s.ops := rfl
@[simp] theorem State.modScene_futs (s : State) (k : Nat) (f : Scene → Scene) : (s.modScene k f).futs = s.futs := rfl
@[simp] theorem State.modScene_futHeld (s : State) (k : Nat) (f : Scene → Scene) : (s.modScene k f).futHeld = s.futHeld := rfl
@[simp] theorem State.modScene_walks (s : State) (k : Nat) (f : Scene → Scene) : (s.modScene k f).walks = s.walks := rfl
@[simp] theorem State.modScene_tlb (s : State) (k : Nat) (f : Scene → Scene) : (s.modScene k f).tlb = s.tlb := rfl
@[simp] theorem State.modScene_preqs (s : State) (k : Nat) (f : Scene → Scene) : (s.modScene k f).preqs = s.preqs := rfl
@[simp] theorem State.modScene_contexts (s : State) (k : Nat) (f : Scene → Scene) : (s.modScene k f).contexts = s.contexts := rfl
@[simp] theorem State.modScene_queues (s : State) (k : Nat) (f : Scene → Scene) : (s.modScene k f).queues = s.queues := rfl
@[simp] theorem State.modScene_qServed (s : State) (k : Nat) (f : Scene → Scene) : (s.modScene k f).qServed = s.qServed := rfl
@[simp] theorem State.modScene_funcs (s : State) (k : Nat) (f : Scene → Scene) : (s.modScene k f).funcs = s.funcs := rfl
@[simp] theorem State.modScene_launches (s : State) (k : Nat) (f : Scene → Scene) : (s.modScene k f).launches = s.launches := rfl
@[simp] theorem State.modScene_gangs (s : State) (k : Nat) (f : Scene → Scene) : (s.modScene k f).gangs = s.gangs := rfl
@[simp] theorem State.modScene_holds (s : State) (k : Nat) (f : Scene → Scene) : (s.modScene k f).holds = s.holds := rfl
@[simp] theorem State.modScene_insts (s : State) (k : Nat) (f : Scene → Scene) : (s.modScene k f).insts = s.insts := rfl
@[simp] theorem State.modScene_batches (s : State) (k : Nat) (f : Scene → Scene) : (s.modScene k f).batches = s.batches := rfl
@[simp] theorem State.modScene_scenes (s : State) (k : Nat) (f : Scene → Scene) : (s.modScene k f).scenes = Tab.modify s.scenes k f := rfl
@[simp] theorem State.modScene_passes (s : State) (k : Nat) (f : Scene → Scene) : (s.modScene k f).passes = s.passes := rfl
@[simp] theorem State.modScene_pairs (s : State) (k : Nat) (f : Scene → Scene) : (s.modScene k f).pairs = s.pairs := rfl
@[simp] theorem State.modScene_packets (s : State) (k : Nat) (f : Scene → Scene) : (s.modScene k f).packets = s.packets := rfl
@[simp] theorem State.modScene_links (s : State) (k : Nat) (f : Scene → Scene) : (s.modScene k f).links = s.links := rfl
@[simp] theorem State.modScene_ptStaged (s : State) (k : Nat) (f : Scene → Scene) : (s.modScene k f).ptStaged = s.ptStaged := rfl
@[simp] theorem State.modScene_pt (s : State) (k : Nat) (f : Scene → Scene) : (s.modScene k f).pt = s.pt := rfl
@[simp] theorem State.modScene_clkStep (s : State) (k : Nat) (f : Scene → Scene) : (s.modScene k f).clkStep = s.clkStep := rfl
@[simp] theorem State.modScene_views (s : State) (k : Nat) (f : Scene → Scene) : (s.modScene k f).views = s.views := rfl
@[simp] theorem State.modScene_ports (s : State) (k : Nat) (f : Scene → Scene) : (s.modScene k f).ports = s.ports := rfl
@[simp] theorem State.modScene_tslots (s : State) (k : Nat) (f : Scene → Scene) : (s.modScene k f).tslots = s.tslots := rfl
@[simp] theorem State.modScene_mgmt (s : State) (k : Nat) (f : Scene → Scene) : (s.modScene k f).mgmt = s.mgmt := rfl

/-! ### `State.putEngine` -/

@[simp] theorem State.putEngine_agenda (s : State) (c : Nat) (e : Engine) : (s.putEngine c e).agenda = s.agenda := rfl
@[simp] theorem State.putEngine_fresh (s : State) (c : Nat) (e : Engine) : (s.putEngine c e).fresh = s.fresh := rfl
@[simp] theorem State.putEngine_now (s : State) (c : Nat) (e : Engine) : (s.putEngine c e).now = s.now := rfl
@[simp] theorem State.putEngine_cur (s : State) (c : Nat) (e : Engine) : (s.putEngine c e).cur = s.cur := rfl
@[simp] theorem State.putEngine_mem (s : State) (c : Nat) (e : Engine) : (s.putEngine c e).mem = s.mem := rfl
@[simp] theorem State.putEngine_full (s : State) (c : Nat) (e : Engine) : (s.putEngine c e).full = s.full := rfl
@[simp] theorem State.putEngine_poison (s : State) (c : Nat) (e : Engine) : (s.putEngine c e).poison = s.poison := rfl
@[simp] theorem State.putEngine_tags (s : State) (c : Nat) (e : Engine) : (s.putEngine c e).tags = s.tags := rfl
@[simp] theorem State.putEngine_groups (s : State) (c : Nat) (e : Engine) : (s.putEngine c e).groups = s.groups := rfl
@[simp] theorem State.putEngine_teams (s : State) (c : Nat) (e : Engine) : (s.putEngine c e).teams = s.teams := rfl
@[simp] theorem State.putEngine_cores (s : State) (c : Nat) (e : Engine) : (s.putEngine c e).cores = s.cores := rfl
@[simp] theorem State.putEngine_copies (s : State) (c : Nat) (e : Engine) : (s.putEngine c e).copies = s.copies := rfl
@[simp] theorem State.putEngine_allocs (s : State) (c : Nat) (e : Engine) : (s.putEngine c e).allocs = s.allocs := rfl
@[simp] theorem State.putEngine_spec (s : State) (c : Nat) (e : Engine) : (s.putEngine c e).spec = s.spec := rfl
@[simp] theorem State.putEngine_barObjs (s : State) (c : Nat) (e : Engine) : (s.putEngine c e).barObjs = s.barObjs := rfl
@[simp] theorem State.putEngine_engines (s : State) (c : Nat) (e : Engine) : (s.putEngine c e).engines = Tab.set {} s.engines c e := rfl
@[simp] theorem State.putEngine_grants (s : State) (c : Nat) (e : Engine) : (s.putEngine c e).grants = s.grants := rfl
@[simp] theorem State.putEngine_ops (s : State) (c : Nat) (e : Engine) : (s.putEngine c e).ops = s.ops := rfl
@[simp] theorem State.putEngine_futs (s : State) (c : Nat) (e : Engine) : (s.putEngine c e).futs = s.futs := rfl
@[simp] theorem State.putEngine_futHeld (s : State) (c : Nat) (e : Engine) : (s.putEngine c e).futHeld = s.futHeld := rfl
@[simp] theorem State.putEngine_walks (s : State) (c : Nat) (e : Engine) : (s.putEngine c e).walks = s.walks := rfl
@[simp] theorem State.putEngine_tlb (s : State) (c : Nat) (e : Engine) : (s.putEngine c e).tlb = s.tlb := rfl
@[simp] theorem State.putEngine_preqs (s : State) (c : Nat) (e : Engine) : (s.putEngine c e).preqs = s.preqs := rfl
@[simp] theorem State.putEngine_contexts (s : State) (c : Nat) (e : Engine) : (s.putEngine c e).contexts = s.contexts := rfl
@[simp] theorem State.putEngine_queues (s : State) (c : Nat) (e : Engine) : (s.putEngine c e).queues = s.queues := rfl
@[simp] theorem State.putEngine_qServed (s : State) (c : Nat) (e : Engine) : (s.putEngine c e).qServed = s.qServed := rfl
@[simp] theorem State.putEngine_funcs (s : State) (c : Nat) (e : Engine) : (s.putEngine c e).funcs = s.funcs := rfl
@[simp] theorem State.putEngine_launches (s : State) (c : Nat) (e : Engine) : (s.putEngine c e).launches = s.launches := rfl
@[simp] theorem State.putEngine_gangs (s : State) (c : Nat) (e : Engine) : (s.putEngine c e).gangs = s.gangs := rfl
@[simp] theorem State.putEngine_holds (s : State) (c : Nat) (e : Engine) : (s.putEngine c e).holds = s.holds := rfl
@[simp] theorem State.putEngine_insts (s : State) (c : Nat) (e : Engine) : (s.putEngine c e).insts = s.insts := rfl
@[simp] theorem State.putEngine_batches (s : State) (c : Nat) (e : Engine) : (s.putEngine c e).batches = s.batches := rfl
@[simp] theorem State.putEngine_scenes (s : State) (c : Nat) (e : Engine) : (s.putEngine c e).scenes = s.scenes := rfl
@[simp] theorem State.putEngine_passes (s : State) (c : Nat) (e : Engine) : (s.putEngine c e).passes = s.passes := rfl
@[simp] theorem State.putEngine_pairs (s : State) (c : Nat) (e : Engine) : (s.putEngine c e).pairs = s.pairs := rfl
@[simp] theorem State.putEngine_packets (s : State) (c : Nat) (e : Engine) : (s.putEngine c e).packets = s.packets := rfl
@[simp] theorem State.putEngine_links (s : State) (c : Nat) (e : Engine) : (s.putEngine c e).links = s.links := rfl
@[simp] theorem State.putEngine_ptStaged (s : State) (c : Nat) (e : Engine) : (s.putEngine c e).ptStaged = s.ptStaged := rfl
@[simp] theorem State.putEngine_pt (s : State) (c : Nat) (e : Engine) : (s.putEngine c e).pt = s.pt := rfl
@[simp] theorem State.putEngine_clkStep (s : State) (c : Nat) (e : Engine) : (s.putEngine c e).clkStep = s.clkStep := rfl
@[simp] theorem State.putEngine_views (s : State) (c : Nat) (e : Engine) : (s.putEngine c e).views = s.views := rfl
@[simp] theorem State.putEngine_ports (s : State) (c : Nat) (e : Engine) : (s.putEngine c e).ports = s.ports := rfl
@[simp] theorem State.putEngine_tslots (s : State) (c : Nat) (e : Engine) : (s.putEngine c e).tslots = s.tslots := rfl
@[simp] theorem State.putEngine_mgmt (s : State) (c : Nat) (e : Engine) : (s.putEngine c e).mgmt = s.mgmt := rfl

/-! ### `State.putObj` -/

@[simp] theorem State.putObj_agenda (s : State) (e : Nat) (b : BarObj) : (s.putObj e b).agenda = s.agenda := rfl
@[simp] theorem State.putObj_fresh (s : State) (e : Nat) (b : BarObj) : (s.putObj e b).fresh = s.fresh := rfl
@[simp] theorem State.putObj_now (s : State) (e : Nat) (b : BarObj) : (s.putObj e b).now = s.now := rfl
@[simp] theorem State.putObj_cur (s : State) (e : Nat) (b : BarObj) : (s.putObj e b).cur = s.cur := rfl
@[simp] theorem State.putObj_mem (s : State) (e : Nat) (b : BarObj) : (s.putObj e b).mem = s.mem := rfl
@[simp] theorem State.putObj_full (s : State) (e : Nat) (b : BarObj) : (s.putObj e b).full = s.full := rfl
@[simp] theorem State.putObj_poison (s : State) (e : Nat) (b : BarObj) : (s.putObj e b).poison = s.poison := rfl
@[simp] theorem State.putObj_tags (s : State) (e : Nat) (b : BarObj) : (s.putObj e b).tags = s.tags := rfl
@[simp] theorem State.putObj_groups (s : State) (e : Nat) (b : BarObj) : (s.putObj e b).groups = s.groups := rfl
@[simp] theorem State.putObj_teams (s : State) (e : Nat) (b : BarObj) : (s.putObj e b).teams = s.teams := rfl
@[simp] theorem State.putObj_cores (s : State) (e : Nat) (b : BarObj) : (s.putObj e b).cores = s.cores := rfl
@[simp] theorem State.putObj_copies (s : State) (e : Nat) (b : BarObj) : (s.putObj e b).copies = s.copies := rfl
@[simp] theorem State.putObj_allocs (s : State) (e : Nat) (b : BarObj) : (s.putObj e b).allocs = s.allocs := rfl
@[simp] theorem State.putObj_spec (s : State) (e : Nat) (b : BarObj) : (s.putObj e b).spec = s.spec := rfl
@[simp] theorem State.putObj_barObjs (s : State) (e : Nat) (b : BarObj) : (s.putObj e b).barObjs = Tab.set {} s.barObjs e b := rfl
@[simp] theorem State.putObj_engines (s : State) (e : Nat) (b : BarObj) : (s.putObj e b).engines = s.engines := rfl
@[simp] theorem State.putObj_grants (s : State) (e : Nat) (b : BarObj) : (s.putObj e b).grants = s.grants := rfl
@[simp] theorem State.putObj_ops (s : State) (e : Nat) (b : BarObj) : (s.putObj e b).ops = s.ops := rfl
@[simp] theorem State.putObj_futs (s : State) (e : Nat) (b : BarObj) : (s.putObj e b).futs = s.futs := rfl
@[simp] theorem State.putObj_futHeld (s : State) (e : Nat) (b : BarObj) : (s.putObj e b).futHeld = s.futHeld := rfl
@[simp] theorem State.putObj_walks (s : State) (e : Nat) (b : BarObj) : (s.putObj e b).walks = s.walks := rfl
@[simp] theorem State.putObj_tlb (s : State) (e : Nat) (b : BarObj) : (s.putObj e b).tlb = s.tlb := rfl
@[simp] theorem State.putObj_preqs (s : State) (e : Nat) (b : BarObj) : (s.putObj e b).preqs = s.preqs := rfl
@[simp] theorem State.putObj_contexts (s : State) (e : Nat) (b : BarObj) : (s.putObj e b).contexts = s.contexts := rfl
@[simp] theorem State.putObj_queues (s : State) (e : Nat) (b : BarObj) : (s.putObj e b).queues = s.queues := rfl
@[simp] theorem State.putObj_qServed (s : State) (e : Nat) (b : BarObj) : (s.putObj e b).qServed = s.qServed := rfl
@[simp] theorem State.putObj_funcs (s : State) (e : Nat) (b : BarObj) : (s.putObj e b).funcs = s.funcs := rfl
@[simp] theorem State.putObj_launches (s : State) (e : Nat) (b : BarObj) : (s.putObj e b).launches = s.launches := rfl
@[simp] theorem State.putObj_gangs (s : State) (e : Nat) (b : BarObj) : (s.putObj e b).gangs = s.gangs := rfl
@[simp] theorem State.putObj_holds (s : State) (e : Nat) (b : BarObj) : (s.putObj e b).holds = s.holds := rfl
@[simp] theorem State.putObj_insts (s : State) (e : Nat) (b : BarObj) : (s.putObj e b).insts = s.insts := rfl
@[simp] theorem State.putObj_batches (s : State) (e : Nat) (b : BarObj) : (s.putObj e b).batches = s.batches := rfl
@[simp] theorem State.putObj_scenes (s : State) (e : Nat) (b : BarObj) : (s.putObj e b).scenes = s.scenes := rfl
@[simp] theorem State.putObj_passes (s : State) (e : Nat) (b : BarObj) : (s.putObj e b).passes = s.passes := rfl
@[simp] theorem State.putObj_pairs (s : State) (e : Nat) (b : BarObj) : (s.putObj e b).pairs = s.pairs := rfl
@[simp] theorem State.putObj_packets (s : State) (e : Nat) (b : BarObj) : (s.putObj e b).packets = s.packets := rfl
@[simp] theorem State.putObj_links (s : State) (e : Nat) (b : BarObj) : (s.putObj e b).links = s.links := rfl
@[simp] theorem State.putObj_ptStaged (s : State) (e : Nat) (b : BarObj) : (s.putObj e b).ptStaged = s.ptStaged := rfl
@[simp] theorem State.putObj_pt (s : State) (e : Nat) (b : BarObj) : (s.putObj e b).pt = s.pt := rfl
@[simp] theorem State.putObj_clkStep (s : State) (e : Nat) (b : BarObj) : (s.putObj e b).clkStep = s.clkStep := rfl
@[simp] theorem State.putObj_views (s : State) (e : Nat) (b : BarObj) : (s.putObj e b).views = s.views := rfl
@[simp] theorem State.putObj_ports (s : State) (e : Nat) (b : BarObj) : (s.putObj e b).ports = s.ports := rfl
@[simp] theorem State.putObj_tslots (s : State) (e : Nat) (b : BarObj) : (s.putObj e b).tslots = s.tslots := rfl
@[simp] theorem State.putObj_mgmt (s : State) (e : Nat) (b : BarObj) : (s.putObj e b).mgmt = s.mgmt := rfl

/-! ### `State.putView` -/

@[simp] theorem State.putView_agenda (s : State) (v : Nat) (x : View) : (s.putView v x).agenda = s.agenda := rfl
@[simp] theorem State.putView_fresh (s : State) (v : Nat) (x : View) : (s.putView v x).fresh = s.fresh := rfl
@[simp] theorem State.putView_now (s : State) (v : Nat) (x : View) : (s.putView v x).now = s.now := rfl
@[simp] theorem State.putView_cur (s : State) (v : Nat) (x : View) : (s.putView v x).cur = s.cur := rfl
@[simp] theorem State.putView_mem (s : State) (v : Nat) (x : View) : (s.putView v x).mem = s.mem := rfl
@[simp] theorem State.putView_full (s : State) (v : Nat) (x : View) : (s.putView v x).full = s.full := rfl
@[simp] theorem State.putView_poison (s : State) (v : Nat) (x : View) : (s.putView v x).poison = s.poison := rfl
@[simp] theorem State.putView_tags (s : State) (v : Nat) (x : View) : (s.putView v x).tags = s.tags := rfl
@[simp] theorem State.putView_groups (s : State) (v : Nat) (x : View) : (s.putView v x).groups = s.groups := rfl
@[simp] theorem State.putView_teams (s : State) (v : Nat) (x : View) : (s.putView v x).teams = s.teams := rfl
@[simp] theorem State.putView_cores (s : State) (v : Nat) (x : View) : (s.putView v x).cores = s.cores := rfl
@[simp] theorem State.putView_copies (s : State) (v : Nat) (x : View) : (s.putView v x).copies = s.copies := rfl
@[simp] theorem State.putView_allocs (s : State) (v : Nat) (x : View) : (s.putView v x).allocs = s.allocs := rfl
@[simp] theorem State.putView_spec (s : State) (v : Nat) (x : View) : (s.putView v x).spec = s.spec := rfl
@[simp] theorem State.putView_barObjs (s : State) (v : Nat) (x : View) : (s.putView v x).barObjs = s.barObjs := rfl
@[simp] theorem State.putView_engines (s : State) (v : Nat) (x : View) : (s.putView v x).engines = s.engines := rfl
@[simp] theorem State.putView_grants (s : State) (v : Nat) (x : View) : (s.putView v x).grants = s.grants := rfl
@[simp] theorem State.putView_ops (s : State) (v : Nat) (x : View) : (s.putView v x).ops = s.ops := rfl
@[simp] theorem State.putView_futs (s : State) (v : Nat) (x : View) : (s.putView v x).futs = s.futs := rfl
@[simp] theorem State.putView_futHeld (s : State) (v : Nat) (x : View) : (s.putView v x).futHeld = s.futHeld := rfl
@[simp] theorem State.putView_walks (s : State) (v : Nat) (x : View) : (s.putView v x).walks = s.walks := rfl
@[simp] theorem State.putView_tlb (s : State) (v : Nat) (x : View) : (s.putView v x).tlb = s.tlb := rfl
@[simp] theorem State.putView_preqs (s : State) (v : Nat) (x : View) : (s.putView v x).preqs = s.preqs := rfl
@[simp] theorem State.putView_contexts (s : State) (v : Nat) (x : View) : (s.putView v x).contexts = s.contexts := rfl
@[simp] theorem State.putView_queues (s : State) (v : Nat) (x : View) : (s.putView v x).queues = s.queues := rfl
@[simp] theorem State.putView_qServed (s : State) (v : Nat) (x : View) : (s.putView v x).qServed = s.qServed := rfl
@[simp] theorem State.putView_funcs (s : State) (v : Nat) (x : View) : (s.putView v x).funcs = s.funcs := rfl
@[simp] theorem State.putView_launches (s : State) (v : Nat) (x : View) : (s.putView v x).launches = s.launches := rfl
@[simp] theorem State.putView_gangs (s : State) (v : Nat) (x : View) : (s.putView v x).gangs = s.gangs := rfl
@[simp] theorem State.putView_holds (s : State) (v : Nat) (x : View) : (s.putView v x).holds = s.holds := rfl
@[simp] theorem State.putView_insts (s : State) (v : Nat) (x : View) : (s.putView v x).insts = s.insts := rfl
@[simp] theorem State.putView_batches (s : State) (v : Nat) (x : View) : (s.putView v x).batches = s.batches := rfl
@[simp] theorem State.putView_scenes (s : State) (v : Nat) (x : View) : (s.putView v x).scenes = s.scenes := rfl
@[simp] theorem State.putView_passes (s : State) (v : Nat) (x : View) : (s.putView v x).passes = s.passes := rfl
@[simp] theorem State.putView_pairs (s : State) (v : Nat) (x : View) : (s.putView v x).pairs = s.pairs := rfl
@[simp] theorem State.putView_packets (s : State) (v : Nat) (x : View) : (s.putView v x).packets = s.packets := rfl
@[simp] theorem State.putView_links (s : State) (v : Nat) (x : View) : (s.putView v x).links = s.links := rfl
@[simp] theorem State.putView_ptStaged (s : State) (v : Nat) (x : View) : (s.putView v x).ptStaged = s.ptStaged := rfl
@[simp] theorem State.putView_pt (s : State) (v : Nat) (x : View) : (s.putView v x).pt = s.pt := rfl
@[simp] theorem State.putView_clkStep (s : State) (v : Nat) (x : View) : (s.putView v x).clkStep = s.clkStep := rfl
@[simp] theorem State.putView_views (s : State) (v : Nat) (x : View) : (s.putView v x).views = Tab.set {} s.views v x := rfl
@[simp] theorem State.putView_ports (s : State) (v : Nat) (x : View) : (s.putView v x).ports = s.ports := rfl
@[simp] theorem State.putView_tslots (s : State) (v : Nat) (x : View) : (s.putView v x).tslots = s.tslots := rfl
@[simp] theorem State.putView_mgmt (s : State) (v : Nat) (x : View) : (s.putView v x).mgmt = s.mgmt := rfl

/-! ### `State.putSlot` -/

@[simp] theorem State.putSlot_agenda (s : State) (k : Nat) (x : TSlot) : (s.putSlot k x).agenda = s.agenda := rfl
@[simp] theorem State.putSlot_fresh (s : State) (k : Nat) (x : TSlot) : (s.putSlot k x).fresh = s.fresh := rfl
@[simp] theorem State.putSlot_now (s : State) (k : Nat) (x : TSlot) : (s.putSlot k x).now = s.now := rfl
@[simp] theorem State.putSlot_cur (s : State) (k : Nat) (x : TSlot) : (s.putSlot k x).cur = s.cur := rfl
@[simp] theorem State.putSlot_mem (s : State) (k : Nat) (x : TSlot) : (s.putSlot k x).mem = s.mem := rfl
@[simp] theorem State.putSlot_full (s : State) (k : Nat) (x : TSlot) : (s.putSlot k x).full = s.full := rfl
@[simp] theorem State.putSlot_poison (s : State) (k : Nat) (x : TSlot) : (s.putSlot k x).poison = s.poison := rfl
@[simp] theorem State.putSlot_tags (s : State) (k : Nat) (x : TSlot) : (s.putSlot k x).tags = s.tags := rfl
@[simp] theorem State.putSlot_groups (s : State) (k : Nat) (x : TSlot) : (s.putSlot k x).groups = s.groups := rfl
@[simp] theorem State.putSlot_teams (s : State) (k : Nat) (x : TSlot) : (s.putSlot k x).teams = s.teams := rfl
@[simp] theorem State.putSlot_cores (s : State) (k : Nat) (x : TSlot) : (s.putSlot k x).cores = s.cores := rfl
@[simp] theorem State.putSlot_copies (s : State) (k : Nat) (x : TSlot) : (s.putSlot k x).copies = s.copies := rfl
@[simp] theorem State.putSlot_allocs (s : State) (k : Nat) (x : TSlot) : (s.putSlot k x).allocs = s.allocs := rfl
@[simp] theorem State.putSlot_spec (s : State) (k : Nat) (x : TSlot) : (s.putSlot k x).spec = s.spec := rfl
@[simp] theorem State.putSlot_barObjs (s : State) (k : Nat) (x : TSlot) : (s.putSlot k x).barObjs = s.barObjs := rfl
@[simp] theorem State.putSlot_engines (s : State) (k : Nat) (x : TSlot) : (s.putSlot k x).engines = s.engines := rfl
@[simp] theorem State.putSlot_grants (s : State) (k : Nat) (x : TSlot) : (s.putSlot k x).grants = s.grants := rfl
@[simp] theorem State.putSlot_ops (s : State) (k : Nat) (x : TSlot) : (s.putSlot k x).ops = s.ops := rfl
@[simp] theorem State.putSlot_futs (s : State) (k : Nat) (x : TSlot) : (s.putSlot k x).futs = s.futs := rfl
@[simp] theorem State.putSlot_futHeld (s : State) (k : Nat) (x : TSlot) : (s.putSlot k x).futHeld = s.futHeld := rfl
@[simp] theorem State.putSlot_walks (s : State) (k : Nat) (x : TSlot) : (s.putSlot k x).walks = s.walks := rfl
@[simp] theorem State.putSlot_tlb (s : State) (k : Nat) (x : TSlot) : (s.putSlot k x).tlb = s.tlb := rfl
@[simp] theorem State.putSlot_preqs (s : State) (k : Nat) (x : TSlot) : (s.putSlot k x).preqs = s.preqs := rfl
@[simp] theorem State.putSlot_contexts (s : State) (k : Nat) (x : TSlot) : (s.putSlot k x).contexts = s.contexts := rfl
@[simp] theorem State.putSlot_queues (s : State) (k : Nat) (x : TSlot) : (s.putSlot k x).queues = s.queues := rfl
@[simp] theorem State.putSlot_qServed (s : State) (k : Nat) (x : TSlot) : (s.putSlot k x).qServed = s.qServed := rfl
@[simp] theorem State.putSlot_funcs (s : State) (k : Nat) (x : TSlot) : (s.putSlot k x).funcs = s.funcs := rfl
@[simp] theorem State.putSlot_launches (s : State) (k : Nat) (x : TSlot) : (s.putSlot k x).launches = s.launches := rfl
@[simp] theorem State.putSlot_gangs (s : State) (k : Nat) (x : TSlot) : (s.putSlot k x).gangs = s.gangs := rfl
@[simp] theorem State.putSlot_holds (s : State) (k : Nat) (x : TSlot) : (s.putSlot k x).holds = s.holds := rfl
@[simp] theorem State.putSlot_insts (s : State) (k : Nat) (x : TSlot) : (s.putSlot k x).insts = s.insts := rfl
@[simp] theorem State.putSlot_batches (s : State) (k : Nat) (x : TSlot) : (s.putSlot k x).batches = s.batches := rfl
@[simp] theorem State.putSlot_scenes (s : State) (k : Nat) (x : TSlot) : (s.putSlot k x).scenes = s.scenes := rfl
@[simp] theorem State.putSlot_passes (s : State) (k : Nat) (x : TSlot) : (s.putSlot k x).passes = s.passes := rfl
@[simp] theorem State.putSlot_pairs (s : State) (k : Nat) (x : TSlot) : (s.putSlot k x).pairs = s.pairs := rfl
@[simp] theorem State.putSlot_packets (s : State) (k : Nat) (x : TSlot) : (s.putSlot k x).packets = s.packets := rfl
@[simp] theorem State.putSlot_links (s : State) (k : Nat) (x : TSlot) : (s.putSlot k x).links = s.links := rfl
@[simp] theorem State.putSlot_ptStaged (s : State) (k : Nat) (x : TSlot) : (s.putSlot k x).ptStaged = s.ptStaged := rfl
@[simp] theorem State.putSlot_pt (s : State) (k : Nat) (x : TSlot) : (s.putSlot k x).pt = s.pt := rfl
@[simp] theorem State.putSlot_clkStep (s : State) (k : Nat) (x : TSlot) : (s.putSlot k x).clkStep = s.clkStep := rfl
@[simp] theorem State.putSlot_views (s : State) (k : Nat) (x : TSlot) : (s.putSlot k x).views = s.views := rfl
@[simp] theorem State.putSlot_ports (s : State) (k : Nat) (x : TSlot) : (s.putSlot k x).ports = s.ports := rfl
@[simp] theorem State.putSlot_tslots (s : State) (k : Nat) (x : TSlot) : (s.putSlot k x).tslots = Tab.set {} s.tslots k x := rfl
@[simp] theorem State.putSlot_mgmt (s : State) (k : Nat) (x : TSlot) : (s.putSlot k x).mgmt = s.mgmt := rfl

/-! ### `State.offerPlace` -/

@[simp] theorem State.offerPlace_agenda (s : State) (g : Nat) : (s.offerPlace g).agenda = s.agenda := rfl
@[simp] theorem State.offerPlace_fresh (s : State) (g : Nat) : (s.offerPlace g).fresh = s.fresh := rfl
@[simp] theorem State.offerPlace_now (s : State) (g : Nat) : (s.offerPlace g).now = s.now := rfl
@[simp] theorem State.offerPlace_cur (s : State) (g : Nat) : (s.offerPlace g).cur = s.cur := rfl
@[simp] theorem State.offerPlace_mem (s : State) (g : Nat) : (s.offerPlace g).mem = s.mem := rfl
@[simp] theorem State.offerPlace_full (s : State) (g : Nat) : (s.offerPlace g).full = s.full := rfl
@[simp] theorem State.offerPlace_poison (s : State) (g : Nat) : (s.offerPlace g).poison = s.poison := rfl
@[simp] theorem State.offerPlace_tags (s : State) (g : Nat) : (s.offerPlace g).tags = s.tags := rfl
@[simp] theorem State.offerPlace_groups (s : State) (g : Nat) : (s.offerPlace g).groups = s.groups := rfl
@[simp] theorem State.offerPlace_teams (s : State) (g : Nat) : (s.offerPlace g).teams = s.teams := rfl
@[simp] theorem State.offerPlace_cores (s : State) (g : Nat) : (s.offerPlace g).cores = Tab.set {} s.cores (s.group g).core ((s.core (s.group g).core).swap g true) := rfl
@[simp] theorem State.offerPlace_copies (s : State) (g : Nat) : (s.offerPlace g).copies = s.copies := rfl
@[simp] theorem State.offerPlace_allocs (s : State) (g : Nat) : (s.offerPlace g).allocs = s.allocs := rfl
@[simp] theorem State.offerPlace_spec (s : State) (g : Nat) : (s.offerPlace g).spec = s.spec := rfl
@[simp] theorem State.offerPlace_barObjs (s : State) (g : Nat) : (s.offerPlace g).barObjs = s.barObjs := rfl
@[simp] theorem State.offerPlace_engines (s : State) (g : Nat) : (s.offerPlace g).engines = s.engines := rfl
@[simp] theorem State.offerPlace_grants (s : State) (g : Nat) : (s.offerPlace g).grants = s.grants := rfl
@[simp] theorem State.offerPlace_ops (s : State) (g : Nat) : (s.offerPlace g).ops = s.ops := rfl
@[simp] theorem State.offerPlace_futs (s : State) (g : Nat) : (s.offerPlace g).futs = s.futs := rfl
@[simp] theorem State.offerPlace_futHeld (s : State) (g : Nat) : (s.offerPlace g).futHeld = s.futHeld := rfl
@[simp] theorem State.offerPlace_walks (s : State) (g : Nat) : (s.offerPlace g).walks = s.walks := rfl
@[simp] theorem State.offerPlace_tlb (s : State) (g : Nat) : (s.offerPlace g).tlb = s.tlb := rfl
@[simp] theorem State.offerPlace_preqs (s : State) (g : Nat) : (s.offerPlace g).preqs = s.preqs := rfl
@[simp] theorem State.offerPlace_contexts (s : State) (g : Nat) : (s.offerPlace g).contexts = s.contexts := rfl
@[simp] theorem State.offerPlace_queues (s : State) (g : Nat) : (s.offerPlace g).queues = s.queues := rfl
@[simp] theorem State.offerPlace_qServed (s : State) (g : Nat) : (s.offerPlace g).qServed = s.qServed := rfl
@[simp] theorem State.offerPlace_funcs (s : State) (g : Nat) : (s.offerPlace g).funcs = s.funcs := rfl
@[simp] theorem State.offerPlace_launches (s : State) (g : Nat) : (s.offerPlace g).launches = s.launches := rfl
@[simp] theorem State.offerPlace_gangs (s : State) (g : Nat) : (s.offerPlace g).gangs = s.gangs := rfl
@[simp] theorem State.offerPlace_holds (s : State) (g : Nat) : (s.offerPlace g).holds = s.holds := rfl
@[simp] theorem State.offerPlace_insts (s : State) (g : Nat) : (s.offerPlace g).insts = s.insts := rfl
@[simp] theorem State.offerPlace_batches (s : State) (g : Nat) : (s.offerPlace g).batches = s.batches := rfl
@[simp] theorem State.offerPlace_scenes (s : State) (g : Nat) : (s.offerPlace g).scenes = s.scenes := rfl
@[simp] theorem State.offerPlace_passes (s : State) (g : Nat) : (s.offerPlace g).passes = s.passes := rfl
@[simp] theorem State.offerPlace_pairs (s : State) (g : Nat) : (s.offerPlace g).pairs = s.pairs := rfl
@[simp] theorem State.offerPlace_packets (s : State) (g : Nat) : (s.offerPlace g).packets = s.packets := rfl
@[simp] theorem State.offerPlace_links (s : State) (g : Nat) : (s.offerPlace g).links = s.links := rfl
@[simp] theorem State.offerPlace_ptStaged (s : State) (g : Nat) : (s.offerPlace g).ptStaged = s.ptStaged := rfl
@[simp] theorem State.offerPlace_pt (s : State) (g : Nat) : (s.offerPlace g).pt = s.pt := rfl
@[simp] theorem State.offerPlace_clkStep (s : State) (g : Nat) : (s.offerPlace g).clkStep = s.clkStep := rfl
@[simp] theorem State.offerPlace_views (s : State) (g : Nat) : (s.offerPlace g).views = s.views := rfl
@[simp] theorem State.offerPlace_ports (s : State) (g : Nat) : (s.offerPlace g).ports = s.ports := rfl
@[simp] theorem State.offerPlace_tslots (s : State) (g : Nat) : (s.offerPlace g).tslots = s.tslots := rfl
@[simp] theorem State.offerPlace_mgmt (s : State) (g : Nat) : (s.offerPlace g).mgmt = s.mgmt := rfl

/-! ### `State.settle`: the scheduler of one core alone -/

@[simp] theorem State.settle_agenda (s : State) (core : Nat) : (s.settle core).agenda = s.agenda := rfl
@[simp] theorem State.settle_fresh (s : State) (core : Nat) : (s.settle core).fresh = s.fresh := rfl
@[simp] theorem State.settle_now (s : State) (core : Nat) : (s.settle core).now = s.now := rfl
@[simp] theorem State.settle_cur (s : State) (core : Nat) : (s.settle core).cur = s.cur := rfl
@[simp] theorem State.settle_mem (s : State) (core : Nat) : (s.settle core).mem = s.mem := rfl
@[simp] theorem State.settle_full (s : State) (core : Nat) : (s.settle core).full = s.full := rfl
@[simp] theorem State.settle_poison (s : State) (core : Nat) : (s.settle core).poison = s.poison := rfl
@[simp] theorem State.settle_tags (s : State) (core : Nat) : (s.settle core).tags = s.tags := rfl
@[simp] theorem State.settle_groups (s : State) (core : Nat) : (s.settle core).groups = s.groups := rfl
@[simp] theorem State.settle_teams (s : State) (core : Nat) : (s.settle core).teams = s.teams := rfl
@[simp] theorem State.settle_copies (s : State) (core : Nat) : (s.settle core).copies = s.copies := rfl
@[simp] theorem State.settle_allocs (s : State) (core : Nat) : (s.settle core).allocs = s.allocs := rfl
@[simp] theorem State.settle_spec (s : State) (core : Nat) : (s.settle core).spec = s.spec := rfl
@[simp] theorem State.settle_barObjs (s : State) (core : Nat) : (s.settle core).barObjs = s.barObjs := rfl
@[simp] theorem State.settle_engines (s : State) (core : Nat) : (s.settle core).engines = s.engines := rfl
@[simp] theorem State.settle_grants (s : State) (core : Nat) : (s.settle core).grants = s.grants := rfl
@[simp] theorem State.settle_ops (s : State) (core : Nat) : (s.settle core).ops = s.ops := rfl
@[simp] theorem State.settle_futs (s : State) (core : Nat) : (s.settle core).futs = s.futs := rfl
@[simp] theorem State.settle_futHeld (s : State) (core : Nat) : (s.settle core).futHeld = s.futHeld := rfl
@[simp] theorem State.settle_walks (s : State) (core : Nat) : (s.settle core).walks = s.walks := rfl
@[simp] theorem State.settle_tlb (s : State) (core : Nat) : (s.settle core).tlb = s.tlb := rfl
@[simp] theorem State.settle_preqs (s : State) (core : Nat) : (s.settle core).preqs = s.preqs := rfl
@[simp] theorem State.settle_contexts (s : State) (core : Nat) : (s.settle core).contexts = s.contexts := rfl
@[simp] theorem State.settle_queues (s : State) (core : Nat) : (s.settle core).queues = s.queues := rfl
@[simp] theorem State.settle_qServed (s : State) (core : Nat) : (s.settle core).qServed = s.qServed := rfl
@[simp] theorem State.settle_funcs (s : State) (core : Nat) : (s.settle core).funcs = s.funcs := rfl
@[simp] theorem State.settle_launches (s : State) (core : Nat) : (s.settle core).launches = s.launches := rfl
@[simp] theorem State.settle_gangs (s : State) (core : Nat) : (s.settle core).gangs = s.gangs := rfl
@[simp] theorem State.settle_holds (s : State) (core : Nat) : (s.settle core).holds = s.holds := rfl
@[simp] theorem State.settle_insts (s : State) (core : Nat) : (s.settle core).insts = s.insts := rfl
@[simp] theorem State.settle_batches (s : State) (core : Nat) : (s.settle core).batches = s.batches := rfl
@[simp] theorem State.settle_scenes (s : State) (core : Nat) : (s.settle core).scenes = s.scenes := rfl
@[simp] theorem State.settle_passes (s : State) (core : Nat) : (s.settle core).passes = s.passes := rfl
@[simp] theorem State.settle_pairs (s : State) (core : Nat) : (s.settle core).pairs = s.pairs := rfl
@[simp] theorem State.settle_packets (s : State) (core : Nat) : (s.settle core).packets = s.packets := rfl
@[simp] theorem State.settle_links (s : State) (core : Nat) : (s.settle core).links = s.links := rfl
@[simp] theorem State.settle_ptStaged (s : State) (core : Nat) : (s.settle core).ptStaged = s.ptStaged := rfl
@[simp] theorem State.settle_pt (s : State) (core : Nat) : (s.settle core).pt = s.pt := rfl
@[simp] theorem State.settle_clkStep (s : State) (core : Nat) : (s.settle core).clkStep = s.clkStep := rfl
@[simp] theorem State.settle_views (s : State) (core : Nat) : (s.settle core).views = s.views := rfl
@[simp] theorem State.settle_ports (s : State) (core : Nat) : (s.settle core).ports = s.ports := rfl
@[simp] theorem State.settle_tslots (s : State) (core : Nat) : (s.settle core).tslots = s.tslots := rfl
@[simp] theorem State.settle_mgmt (s : State) (core : Nat) : (s.settle core).mgmt = s.mgmt := rfl

/-! ### Reads after updates -/

@[simp] theorem State.group_putGroup (s : State) (id j : Nat) (g : Group) :
    (s.putGroup id g).group j = if j = id then g else s.group j := by
  simp only [State.group, State.putGroup_groups, Tab.getD, Tab.get?_put]
  split <;> simp

@[simp] theorem State.core_putCore (s : State) (c d : Nat) (k : CoreSt) :
    (s.putCore c k).core d = if d = c then k else s.core d := by
  simp [State.core]

@[simp] theorem State.func_putFunc (s : State) (p q : Nat) (f : Func) :
    (s.putFunc p f).func q = if q = p then f else s.func q := by
  simp [State.func]

@[simp] theorem State.func_modFunc (s : State) (p q : Nat) (f : Func → Func) :
    (s.modFunc p f).func q = if q = p then f (s.func p) else s.func q := by
  simp [State.func]

theorem State.get?_modGroup (s : State) (id j : Nat) (f : Group → Group) :
    Tab.get? (s.modGroup id f).groups j = if j = id then (Tab.get? s.groups id).map f else Tab.get? s.groups j := by
  simp [Tab.get?_modify]

end Sys2Proof.Machine
end

