-- ==== Sys2Proof/Laws/Issue.lean ====
section
/-!
SUPPORT. The laws of issue: the schedulers of the cores, the end of a slot, and the issue of an instruction that has its
own effect.
-/

namespace Sys2Proof.Machine

open Sys2Proof.Safety

/-! ### Core schedulers keep their clocks -/

@[simp] theorem CoreSt.enter_cycles (k : CoreSt) (g : Nat) : (k.enter g).cycles = k.cycles := rfl

@[simp] theorem CoreSt.swap_cycles (k : CoreSt) (g : Nat) (b : Bool) : (k.swap g b).cycles = k.cycles := by
  unfold CoreSt.swap
  split
  · rfl
  · split <;> simp

@[simp] theorem CoreSt.fill_cycles (size : Nat) : ∀ (n : Nat) (k : CoreSt), (CoreSt.fill size n k).cycles = k.cycles := by
  intro n
  induction n with
  | zero => intro k; rfl
  | succ n ih =>
    intro k
    simp only [CoreSt.fill]
    split
    · rfl
    · split
      · rw [ih]; rfl
      · rfl

theorem CoreSt.swaps_cycles (b : Bool) : ∀ (l : List Nat) (k : CoreSt),
    (l.foldl (fun k g => k.swap g b) k).cycles = k.cycles := by
  intro l
  induction l with
  | nil => intro k; rfl
  | cons g l ih => intro k; simp [ih]

@[simp] theorem State.settle_cycles (s : State) (core k : Nat) : ((s.settle core).core k).cycles = (s.core k).cycles := by
  simp only [State.settle, State.core_putCore]
  split
  · rename_i h
    subst h
    simp [CoreSt.swaps_cycles]
  · rfl

@[simp] theorem State.settle_group (s : State) (core j : Nat) : (s.settle core).group j = s.group j := rfl

@[simp] theorem State.offerPlace_cycles (s : State) (g k : Nat) : ((s.offerPlace g).core k).cycles = (s.core k).cycles := by
  simp only [State.offerPlace, State.core_putCore]
  split
  · rename_i h
    subst h
    simp
  · rfl

/-! ### Groups -/

theorem State.group_of_get? {s : State} {id : Nat} {g : Group} (h : Tab.get? s.groups id = some g) : s.group id = g := by
  simp [State.group, Tab.getD, h]

/-! ### What a change of groups and schedulers alone leaves -/

end Sys2Proof.Machine

namespace Sys2Proof.Safety

open Sys2Proof.Machine

/-- A change of one group and of schedulers, composed of two. -/
theorem OnlyGroup.trans {s t u : State} {id : Nat} (h : OnlyGroup s t id) (k : OnlyGroup t u id) : OnlyGroup s u id where
  rest := by
    have h1 := h.rest
    have k1 := k.rest
    rw [k1]
    rw [h1]
  others := fun j hj => (k.others j hj).trans (h.others j hj)
  cycles := fun c => (k.cycles c).trans (h.cycles c)

theorem OnlyGroup.refl (s : State) (id : Nat) : OnlyGroup s s id := ⟨rfl, fun _ _ => rfl, fun _ => rfl⟩

theorem OnlyGroup.putGroup (s : State) (id : Nat) (g : Group) : OnlyGroup s (s.putGroup id g) id :=
  ⟨rfl, fun j hj => by simp [hj], fun _ => rfl⟩

theorem OnlyGroup.modGroup (s : State) (id : Nat) (f : Group → Group) : OnlyGroup s (s.modGroup id f) id :=
  ⟨rfl, fun j hj => by rw [State.get?_modGroup, if_neg hj], fun _ => rfl⟩

theorem OnlyGroup.settle (s : State) (id core : Nat) : OnlyGroup s (s.settle core) id :=
  ⟨rfl, fun _ _ => rfl, fun k => State.settle_cycles s core k⟩

theorem OnlyGroup.offerPlace (s : State) (id g : Nat) : OnlyGroup s (s.offerPlace g) id :=
  ⟨rfl, fun _ _ => rfl, fun k => State.offerPlace_cycles s g k⟩

theorem OnlyGroup.putCore (s : State) (id c : Nat) (k : CoreSt) (h : k.cycles = (s.core c).cycles) :
    OnlyGroup s (s.putCore c k) id :=
  ⟨rfl, fun _ _ => rfl, fun j => by
    simp only [State.core_putCore]
    split
    · rename_i e; rw [e, h]
    · rfl⟩

theorem OnlyGroup.leaveCore (s : State) (id g : Nat) : OnlyGroup s (s.leaveCore g) id :=
  OnlyGroup.trans (t := s.putCore (s.group g).core
      { s.core (s.group g).core with
        active := (s.core (s.group g).core).active.filter (· != g)
        ready := (s.core (s.group g).core).ready.filter (· != g)
        entered := Tab.erase (s.core (s.group g).core).entered g })
    (OnlyGroup.putCore s id (s.group g).core _ rfl) (OnlyGroup.settle _ id _)

theorem OnlyGroup.countAfter (s : State) (id g : Nat) : OnlyGroup s (s.countAfter g) id := by
  unfold State.countAfter
  split
  · exact OnlyGroup.putCore s id _ _ rfl
  · exact OnlyGroup.refl s id

theorem OnlyGroup.noteCheck (s : State) (id pc : Nat) (f : Form) (ls : List Nat) : OnlyGroup s (s.noteCheck id pc f ls) id := by
  unfold State.noteCheck
  split
  · exact OnlyGroup.modGroup s id _
  · exact OnlyGroup.refl s id

end Sys2Proof.Safety

namespace Sys2Proof.Machine

open Sys2Proof.Safety

@[simp] theorem State.leaveCore_groups (s : State) (g : Nat) : (s.leaveCore g).groups = s.groups := rfl
@[simp] theorem State.leaveCore_group (s : State) (g j : Nat) : (s.leaveCore g).group j = s.group j := rfl
@[simp] theorem State.countAfter_groups (s : State) (g : Nat) : (s.countAfter g).groups = s.groups := by
  unfold State.countAfter
  split <;> rfl
@[simp] theorem State.countAfter_group (s : State) (g j : Nat) : (s.countAfter g).group j = s.group j := by
  simp [State.group]
@[simp] theorem State.offerPlace_group (s : State) (g j : Nat) : (s.offerPlace g).group j = s.group j := rfl

/-! ### The end of a slot -/

/-- A group after a slot: what the end of a slot may change of it. -/
structure SlotEnd (g h : Group) (c : Clause) : Prop where
  same : ∃ fr cl hd dr, h = { g with clock := g.clock + 1, misses := (0, 0), frontier := fr, clause := cl, handler := hd,
                                      draining := dr }
  next : c.last = false → h.clause = some { c with slot := c.slot + 1 } ∧ h.frontier = g.frontier ∧ h.handler = g.handler
    ∧ h.draining = g.draining
  ended : c.last = true → g.handler = none → h.clause = none

/-- The end of a clause: the group's new frontier, the return of its handler, or its drain. -/
theorem State.afterClause_spec (s : State) (id : Nat) (g : Group) (fr : List Entry) (hc : s.cur = .group id) :
    OnlyGroup s (s.afterClause g fr) id ∧ ∃ fr' cl hd dr, (s.afterClause g fr).group id
        = { g with frontier := fr', clause := cl, handler := hd, draining := dr } ∧ (g.handler = none → cl = none) := by
  have hp : ∀ x, s.putCur x = s.putGroup id x := fun x => by simp [State.putCur, hc]
  have hi : s.curId = id := by simp [State.curId, hc]
  unfold State.afterClause
  simp only [hp, hi]
  split
  · rename_i hh
    refine ⟨OnlyGroup.putGroup s id _, ?_⟩
    rw [State.group_putGroup, if_pos rfl]
    unfold Group.handlerReturn
    split
    · rename_i hn
      exact ⟨_, _, _, _, rfl, fun _ => rfl⟩
    · rename_i r hr
      have hne : ¬ g.handler = none := by
        intro h0
        simp [h0] at hr
      split
      · split
        · exact ⟨_, _, _, _, rfl, fun h => absurd h hne⟩
        · exact ⟨_, _, _, _, rfl, fun h => absurd h hne⟩
      · exact ⟨_, _, _, _, rfl, fun h => absurd h hne⟩
  · split
    · refine ⟨?_, ?_⟩
      · unfold State.drain
        exact ((OnlyGroup.putGroup s id _).trans (OnlyGroup.modGroup _ id _)).trans (OnlyGroup.leaveCore _ id id)
      · unfold State.drain
        rw [State.leaveCore_group]
        simp only [State.group, Tab.getD, State.get?_modGroup, if_pos, State.putGroup_groups, Tab.get?_put, Option.map_some,
          Option.getD_some]
        exact ⟨_, _, _, _, rfl, fun _ => rfl⟩
    · refine ⟨OnlyGroup.putGroup s id _, ?_⟩
      rw [State.group_putGroup, if_pos rfl]
      exact ⟨_, _, _, _, rfl, fun _ => rfl⟩

/-- The end of a slot by the issuing group: all that it does. -/
theorem State.finishSlot_spec (s : State) (id : Nat) (g : Group) (c : Clause) (y : Bool) (hc : s.cur = .group id)
    (hg : Tab.get? s.groups id = some g) (hcl : g.clause = some c) :
    OnlyGroup s (s.finishSlot y) id ∧ SlotEnd g ((s.finishSlot y).group id) c := by
  have hcg : s.curGroup? = some g := by simp [State.curGroup?, hc, hg]
  unfold State.finishSlot
  simp only [hcg, hcl, hc]
  by_cases hl : c.last = true
  · simp only [hl, if_true]
    obtain ⟨h1, fr, cl, hd, dr, h2, h3⟩ := State.afterClause_spec s id g.countSlot
      (g.handOn (s.prioAt g c.handler) (fun _ => false) (fun _ => c.follow)) hc
    have hend : SlotEnd g ((s.afterClause g.countSlot
        (g.handOn (s.prioAt g c.handler) (fun _ => false) (fun _ => c.follow))).group id) c := by
      refine ⟨⟨fr, cl, hd, dr, by rw [h2]; rfl⟩, by simp [hl], fun _ hn => ?_⟩
      rw [h2]
      exact h3 hn
    split
    · exact ⟨(h1.trans (OnlyGroup.countAfter _ id id)).trans (OnlyGroup.offerPlace _ id id), by simpa using hend⟩
    · exact ⟨h1.trans (OnlyGroup.countAfter _ id id), by simpa using hend⟩
  · have hl' : c.last = false := by simpa using hl
    simp only [hl', Bool.false_eq_true, if_false]
    have hp : ∀ x, s.putCur x = s.putGroup id x := fun x => by simp [State.putCur, hc]
    simp only [hp]
    have hend : SlotEnd g ((s.putGroup id { g.countSlot with clause := some { c with slot := c.slot + 1 } }).group id) c := by
      rw [State.group_putGroup, if_pos rfl]
      exact ⟨⟨_, _, _, _, rfl⟩, fun _ => ⟨rfl, rfl, rfl, rfl⟩, by simp [hl']⟩
    split
    · exact ⟨((OnlyGroup.putGroup s id _).trans (OnlyGroup.countAfter _ id id)).trans (OnlyGroup.offerPlace _ id id),
        by simpa using hend⟩
    · exact ⟨(OnlyGroup.putGroup s id _).trans (OnlyGroup.countAfter _ id id), by simpa using hend⟩

theorem SlotEnd.passed {t : State} {id : Nat} {g : Group} {c : Clause} (h : SlotEnd g (t.group id) c) : Passed t id g c := by
  obtain ⟨⟨fr, cl, hd, dr, e⟩, h2, h3⟩ := h
  exact ⟨by rw [e], by rw [e], by rw [e], by rw [e], fun hl => (h2 hl).1, h3⟩

/-! ### The issue of an instruction -/

/-- The issue of an instruction that has its own effect: the effect, applied at its slot. -/
theorem issueWith_of_issues {i : Instr} {s : State} {id : Nat} {g : Group} {c : Clause} {f : Form} (h : Issues i s id g c f)
    (pages : Group → List Nat → State → Option (List PageRec)) (body : Group → List Nat → State → Eff) :
    issueWith i s pages body = .next (s.applyEff id c.slotPc f (body g (g.guarded f.slot) s)) := by
  have hg : s.curGroup? = some g := by simp [State.curGroup?, h.cur, h.here]
  have hb : (if g.number = 0 then (s.team g.team).badBuf else none) = none := by
    rcases h.buffers with hn | hn
    · simp [hn]
    · simp [hn]
  unfold issueWith
  simp only [h.cur, hg, h.form, h.clause, hb, h.fate, h.gate, List.isEmpty_nil, Bool.not_true, Bool.false_eq_true, if_false,
    List.isEmpty_iff, h.lane, h.ready]

/-- The issue of an instruction that only changes registers. -/
theorem issueRegs_of_issues {i : Instr} {s : State} {id : Nat} {g : Group} {c : Clause} {f : Form} (h : Issues i s id g c f)
    (body : Group → List Nat → Group) :
    issueRegs i s body = .next (s.applyEff id c.slotPc f (.done (s.putGroup id (body g (g.guarded f.slot))))) := by
  unfold issueRegs issue
  rw [issueWith_of_issues h]
  simp [State.putCur, h.cur]

/-- A completed effect that leaves the clause open and the issuer as it was: what the state is after its slot. -/
theorem State.applyEff_done {s t : State} {id pc : Nat} {f : Form} {g : Group} {c : Clause} (hc : t.cur = .group id)
    (hg : Tab.get? t.groups id = some g) (hcl : g.clause = some c) :
    ∃ ck, OnlyGroup t (s.applyEff id pc f (.done t)) id
      ∧ SlotEnd { g with checks := ck } ((s.applyEff id pc f (.done t)).group id) c := by
  simp only [State.applyEff]
  have hn : (t.noteCheck id pc f ((s.group id).guarded f.slot)).cur = .group id := by
    unfold State.noteCheck
    split <;> simpa using hc
  obtain ⟨ck, hk⟩ : ∃ ck, Tab.get? (t.noteCheck id pc f ((s.group id).guarded f.slot)).groups id
      = some { g with checks := ck } := by
    unfold State.noteCheck
    split
    · rw [State.get?_modGroup, if_pos rfl, hg]
      exact ⟨_, rfl⟩
    · exact ⟨g.checks, hg⟩
  obtain ⟨h1, h2⟩ := State.finishSlot_spec _ id _ c (f.slot.yield || f.op == 7) hn hk hcl
  exact ⟨ck, (OnlyGroup.noteCheck t id pc f _).trans h1, h2⟩

/-- An instruction whose effect is complete: the state that the effect leaves, and the end of its slot. -/
theorem issueWith_done {i : Instr} {s u : State} {id : Nat} {g g' : Group} {c : Clause} {f : Form}
    (h : Issues i s id g c f) (pages : Group → List Nat → State → Option (List PageRec))
    (body : Group → List Nat → State → Eff) (hb : body g (g.guarded f.slot) s = .done u) (hc : u.cur = .group id)
    (hg : Tab.get? u.groups id = some g') (hcl : g'.clause = some c) :
    ∃ t, issueWith i s pages body = .next t ∧ SlotOver u t id c := by
  rw [issueWith_of_issues h, hb]
  obtain ⟨ck, h1, h2⟩ := State.applyEff_done (s := s) (pc := c.slotPc) (f := f) hc hg hcl
  have hu := State.group_of_get? hg
  have hp := h2.passed
  obtain ⟨⟨fr, cl, hd, dr, e⟩, _, _⟩ := h2
  refine ⟨_, rfl, ⟨?_, h1.rest, h1.others, h1.cycles, ⟨ck, (0, 0), fr, cl, hd, dr, by rw [hu, e]⟩⟩⟩
  rw [hu]
  exact ⟨hp.clock, hp.wait, hp.trapping, hp.stopped, hp.next, hp.ended⟩

/-- An instruction that raises a cause: the cause taken at its slot. -/
theorem issueWith_raise {i : Instr} {s : State} {id : Nat} {g : Group} {c : Clause} {f : Form} (h : Issues i s id g c f)
    (pages : Group → List Nat → State → Option (List PageRec)) (body : Group → List Nat → State → Eff) {k : Cause}
    {info : Word} {va : Nat} {hn : Word} (hb : body g (g.guarded f.slot) s = .raise k info va hn) :
    issueWith i s pages body = .next (s.raise id c.slotPc k info va hn) := by
  rw [issueWith_of_issues h, hb]
  rfl

/-- An instruction that waits at issue: its group waits, and nothing has acted. -/
theorem issueWith_hold {i : Instr} {s : State} {id : Nat} {g : Group} {c : Clause} {f : Form} (h : Issues i s id g c f)
    (pages : Group → List Nat → State → Option (List PageRec)) (body : Group → List Nat → State → Eff) {w : WaitWhy}
    (hb : body g (g.guarded f.slot) s = .hold w) : issueWith i s pages body = .next (s.beginWait id { why := w }) := by
  rw [issueWith_of_issues h, hb]
  rfl

/-- What an instruction that only changes registers comes to: the group's new registers, everything else as before. -/
theorem issueRegs_spec {i : Instr} {s : State} {id : Nat} {g : Group} {c : Clause} {f : Form} (h : Issues i s id g c f)
    (body : Group → List Nat → Group) (hcl : (body g (g.guarded f.slot)).clause = some c) :
    ∃ t ck, issueRegs i s body = .next t ∧ OnlyGroup s t id
      ∧ SlotEnd { body g (g.guarded f.slot) with checks := ck } (t.group id) c := by
  rw [issueRegs_of_issues h]
  obtain ⟨ck, h1, h2⟩ := State.applyEff_done (s := s) (pc := c.slotPc) (f := f)
    (t := s.putGroup id (body g (g.guarded f.slot))) (by simpa using h.cur) (by simp) hcl
  exact ⟨_, ck, rfl, (OnlyGroup.putGroup s id _).trans h1, h2⟩

end Sys2Proof.Machine
end

