-- ==== Sys2Proof/Laws/Registers.lean ====
section
/-!
SUPPORT. The laws of registers and predicates: a read after a write, lane by lane, and what the writes leave.
-/

namespace Sys2Proof.Machine

/-! ### One register, one predicate -/

theorem Group.readV_writeV (g : Group) (r l r' l' : Nat) (w : Word) (hl : l < 128) (hl' : l' < 128) :
    (g.writeV r l w).readV r' l' = if r' = r ∧ l' = l then w else g.readV r' l' := by
  have h : (128 * r' + l' = 128 * r + l) ↔ (r' = r ∧ l' = l) := by omega
  simp only [Group.readV, Group.writeV, Tab.getD_set, h]

@[simp] theorem Group.readS_writeS (g : Group) (r r' : Nat) (w : Word) :
    (g.writeS r w).readS r' = if r' = r then w else g.readS r' := by
  simp [Group.readS, Group.writeS]

theorem maskSet_getLsbD (m : Mask) (l j : Nat) (b : Bool) (hl : l < 128) :
    (maskSet m l b).getLsbD j = if j = l then b else m.getLsbD j := by
  unfold maskSet
  by_cases hj : j < 128
  · by_cases h : j = l
    · subst h
      cases b <;> simp [hj]
    · cases b <;> simp [h, hj]
  · have hne : j ≠ l := by omega
    rw [if_neg hne, BitVec.getLsbD_of_ge _ _ (by omega), BitVec.getLsbD_of_ge m _ (by omega)]

theorem Group.pred_writePred (g : Group) (p l p' l' : Nat) (b : Bool) (hl : l < 128) :
    (g.writePred p l b).pred p' l' = if p' = p ∧ l' = l then (p == 0 || b) else g.pred p' l' := by
  unfold Group.writePred
  by_cases hp : p = 0
  · subst hp
    rw [if_pos rfl]
    split
    · rename_i h
      simp [Group.pred, h.1]
    · rfl
  · rw [if_neg hp]
    simp only [Group.pred, Tab.getD_set]
    by_cases h : p' = p
    · subst h
      simp only [if_true, maskSet_getLsbD _ _ _ _ hl, true_and]
      split
      · simp
      · rfl
    · simp [h]

/-! ### Runs of words -/

/-- A run written changes only registers. -/
theorem Group.putRun_same (d : Operand) (l : Nat) : ∀ (ws : List Word) (g : Group) (j : Nat),
    ∃ v s, g.putRun d j l ws = { g with vec := v, scl := s } := by
  intro ws
  induction ws with
  | nil => intro g j; exact ⟨_, _, rfl⟩
  | cons w ws ih =>
    intro g j
    cases d with
    | vec k =>
      obtain ⟨v, s, h⟩ := ih (g.writeV (k.toNat + j) l w) (j + 1)
      exact ⟨v, s, by simp only [Group.putRun]; rw [h]; rfl⟩
    | scl k =>
      obtain ⟨v, s, h⟩ := ih (g.writeS (k.toNat + j) w) (j + 1)
      exact ⟨v, s, by simp only [Group.putRun]; rw [h]; rfl⟩
    | _ => exact ⟨_, _, rfl⟩

theorem Group.readV_putRun_vec (k : BitVec 10) (l : Nat) (hl : l < 128) : ∀ (ws : List Word) (g : Group) (j r m : Nat),
    m < 128 → (g.putRun (.vec k) j l ws).readV r m
      = if m = l ∧ k.toNat + j ≤ r ∧ r < k.toNat + j + ws.length then ws.getD (r - (k.toNat + j)) 0 else g.readV r m := by
  intro ws
  induction ws with
  | nil =>
    intro g j r m hm
    rw [if_neg (by simp only [List.length_nil]; omega)]
    rfl
  | cons w ws ih =>
    intro g j r m hm
    simp only [Group.putRun]
    rw [ih _ _ _ _ hm, Group.readV_writeV _ _ _ _ _ _ hl hm]
    simp only [List.length_cons]
    by_cases h : m = l
    · subst h
      by_cases h1 : r = k.toNat + j
      · subst h1
        rw [if_neg (by omega), if_pos ⟨rfl, rfl⟩, if_pos (by omega)]
        simp
      · by_cases h2 : k.toNat + j + 1 ≤ r ∧ r < k.toNat + j + 1 + ws.length
        · rw [if_pos (by omega), if_pos (by omega)]
          obtain ⟨n, hn⟩ : ∃ n, r - (k.toNat + j) = n + 1 := ⟨r - (k.toNat + j) - 1, by omega⟩
          rw [hn, show r - (k.toNat + (j + 1)) = n by omega]
          simp
        · rw [if_neg (by omega), if_neg (by omega), if_neg (by omega)]
    · rw [if_neg (by omega), if_neg (by omega), if_neg (by omega)]

theorem Group.readS_putRun_scl (k : BitVec 10) (l : Nat) : ∀ (ws : List Word) (g : Group) (j r : Nat),
    (g.putRun (.scl k) j l ws).readS r
      = if k.toNat + j ≤ r ∧ r < k.toNat + j + ws.length then ws.getD (r - (k.toNat + j)) 0 else g.readS r := by
  intro ws
  induction ws with
  | nil =>
    intro g j r
    rw [if_neg (by simp only [List.length_nil]; omega)]
    rfl
  | cons w ws ih =>
    intro g j r
    simp only [Group.putRun]
    rw [ih, Group.readS_writeS]
    simp only [List.length_cons]
    by_cases h1 : r = k.toNat + j
    · subst h1
      rw [if_neg (by omega), if_pos rfl, if_pos (by omega)]
      simp
    · by_cases h2 : k.toNat + j + 1 ≤ r ∧ r < k.toNat + j + 1 + ws.length
      · rw [if_pos (by omega), if_pos (by omega)]
        obtain ⟨n, hn⟩ : ∃ n, r - (k.toNat + j) = n + 1 := ⟨r - (k.toNat + j) - 1, by omega⟩
        rw [hn, show r - (k.toNat + (j + 1)) = n by omega]
        simp
      · rw [if_neg (by omega), if_neg h1, if_neg (by omega)]

theorem Group.readS_putRun_vec (k : BitVec 10) (l : Nat) : ∀ (ws : List Word) (g : Group) (j r : Nat),
    (g.putRun (.vec k) j l ws).readS r = g.readS r := by
  intro ws
  induction ws with
  | nil => intro g j r; rfl
  | cons w ws ih => intro g j r; simp only [Group.putRun]; rw [ih]; rfl

theorem Group.readV_putRun_scl (k : BitVec 10) (l : Nat) : ∀ (ws : List Word) (g : Group) (j r m : Nat),
    (g.putRun (.scl k) j l ws).readV r m = g.readV r m := by
  intro ws
  induction ws with
  | nil => intro g j r m; rfl
  | cons w ws ih => intro g j r m; simp only [Group.putRun]; rw [ih]; rfl

/-! ### A destination in several lanes -/

/-- A destination written changes only registers. -/
theorem Group.writeRuns_same (g : Group) (d : Operand) (ls : List Nat) (f : Nat → List Word) :
    ∃ v s, g.writeRuns d ls f = { g with vec := v, scl := s } := by
  cases d with
  | vec k =>
    show ∃ v s, ls.foldl (fun g l => g.putRun (.vec k) 0 l (f l)) g = { g with vec := v, scl := s }
    induction ls generalizing g with
    | nil => exact ⟨_, _, rfl⟩
    | cons l ls ih =>
      obtain ⟨v, s, h⟩ := Group.putRun_same (.vec k) l (f l) g 0
      obtain ⟨v', s', h'⟩ := ih (g.putRun (.vec k) 0 l (f l))
      exact ⟨v', s', by rw [List.foldl_cons, h', h]⟩
  | scl k =>
    cases ls with
    | nil => exact ⟨_, _, rfl⟩
    | cons l ls => exact Group.putRun_same (.scl k) l (f l) g 0
  | _ => exact ⟨_, _, rfl⟩

/-- A vector destination: in a lane of the set its run, in every other place as before. -/
theorem Group.readV_writeRuns_vec (k : BitVec 10) (f : Nat → List Word) : ∀ (ls : List Nat) (g : Group) (r m : Nat),
    (∀ l ∈ ls, l < 128) → m < 128 → (g.writeRuns (.vec k) ls f).readV r m
      = if m ∈ ls ∧ k.toNat ≤ r ∧ r < k.toNat + (f m).length then (f m).getD (r - k.toNat) 0 else g.readV r m := by
  intro ls
  induction ls with
  | nil => intro g r m _ _; simp [Group.writeRuns]
  | cons l ls ih =>
    intro g r m hls hm
    have h := ih (g.putRun (.vec k) 0 l (f l)) r m (fun x hx => hls x (by simp [hx])) hm
    show (ls.foldl (fun g l => g.putRun (.vec k) 0 l (f l)) (g.putRun (.vec k) 0 l (f l))).readV r m = _
    rw [show ls.foldl (fun g l => g.putRun (.vec k) 0 l (f l)) (g.putRun (.vec k) 0 l (f l))
      = (g.putRun (.vec k) 0 l (f l)).writeRuns (.vec k) ls f from rfl, h,
      Group.readV_putRun_vec k l (hls l (by simp)) (f l) g 0 r m hm]
    by_cases h1 : m = l
    · subst h1
      by_cases h2 : k.toNat ≤ r ∧ r < k.toNat + (f m).length
      · simp [h2]
      · simp [h2]
    · simp [h1]

theorem Group.readS_writeRuns_vec (k : BitVec 10) (f : Nat → List Word) (ls : List Nat) (g : Group) (r : Nat) :
    (g.writeRuns (.vec k) ls f).readS r = g.readS r := by
  show (ls.foldl (fun g l => g.putRun (.vec k) 0 l (f l)) g).readS r = _
  induction ls generalizing g with
  | nil => rfl
  | cons l ls ih => rw [List.foldl_cons, ih, Group.readS_putRun_vec]

/-- A scalar destination: the run of the lowest lane. -/
theorem Group.readS_writeRuns_scl (k : BitVec 10) (f : Nat → List Word) (ls : List Nat) (g : Group) (r : Nat)
    (h : ls ≠ []) : (g.writeRuns (.scl k) ls f).readS r
      = if k.toNat ≤ r ∧ r < k.toNat + (f (ls.headD 0)).length then (f (ls.headD 0)).getD (r - k.toNat) 0
        else g.readS r := by
  cases ls with
  | nil => exact absurd rfl h
  | cons l ls =>
    show (g.putRun (.scl k) 0 l (f l)).readS r = _
    rw [Group.readS_putRun_scl]
    simp

theorem Group.readV_writeRuns_scl (k : BitVec 10) (f : Nat → List Word) (ls : List Nat) (g : Group) (r m : Nat) :
    (g.writeRuns (.scl k) ls f).readV r m = g.readV r m := by
  cases ls with
  | nil => rfl
  | cons l ls => exact Group.readV_putRun_scl k l (f l) g 0 r m

/-! ### Predicates in several lanes -/

theorem Group.writePred_same (g : Group) (p l : Nat) (b : Bool) : ∃ ps, g.writePred p l b = { g with preds := ps } := by
  unfold Group.writePred
  split <;> exact ⟨_, rfl⟩

/-- A predicate destination written changes only predicates. -/
theorem Group.writePreds_same (g : Group) (d : Operand) (ls : List Nat) (f : Nat → Bool) :
    ∃ ps, g.writePreds d ls f = { g with preds := ps } := by
  cases d with
  | prd p =>
    show ∃ ps, ls.foldl (fun g l => g.writePred p.toNat l (f l)) g = { g with preds := ps }
    induction ls generalizing g with
    | nil => exact ⟨_, rfl⟩
    | cons l ls ih =>
      obtain ⟨ps, h⟩ := Group.writePred_same g p.toNat l (f l)
      obtain ⟨ps', h'⟩ := ih (g.writePred p.toNat l (f l))
      exact ⟨ps', by rw [List.foldl_cons, h', h]⟩
  | _ => exact ⟨_, rfl⟩

theorem Group.pred_writePreds (q : BitVec 4) (f : Nat → Bool) : ∀ (ls : List Nat) (g : Group) (p m : Nat),
    (∀ l ∈ ls, l < 128) → (g.writePreds (.prd q) ls f).pred p m
      = if p = q.toNat ∧ m ∈ ls then (q == 0 || f m) else g.pred p m := by
  intro ls
  induction ls with
  | nil => intro g p m _; simp [Group.writePreds]
  | cons l ls ih =>
    intro g p m hls
    show (ls.foldl (fun g l => g.writePred q.toNat l (f l)) (g.writePred q.toNat l (f l))).pred p m = _
    rw [show ls.foldl (fun g l => g.writePred q.toNat l (f l)) (g.writePred q.toNat l (f l))
      = (g.writePred q.toNat l (f l)).writePreds (.prd q) ls f from rfl,
      ih _ p m (fun x hx => hls x (by simp [hx])), Group.pred_writePred _ _ _ _ _ _ (hls l (by simp))]
    have hq : (q.toNat == 0) = (q == 0) := by
      rw [Bool.eq_iff_iff]
      simp [BitVec.toNat_eq]
    by_cases h1 : p = q.toNat
    · by_cases h2 : m = l
      · subst h2
        simp [h1, hq]
      · simp [h1, h2]
    · simp [h1]

/-! ### The lanes of a group -/

theorem mem_maskLanes (n : Nat) (m : Mask) (l : Nat) : l ∈ maskLanes n m ↔ l < n ∧ m.getLsbD l = true := by
  simp [maskLanes]

/-- The lanes that act are lanes of the machine. -/
theorem Group.guarded_lt (g : Group) (o : Slot) (l : Nat) (h : l ∈ g.guarded o) : l < 128 := by
  unfold Group.guarded at h
  have h1 := (List.mem_filter.1 h).1
  unfold Group.active at h1
  split at h1
  · simp at h1
  · rename_i e _
    have h2 := (mem_maskLanes _ _ _).1 h1
    by_contra h3
    rw [BitVec.getLsbD_of_ge _ _ (by omega)] at h2
    simp at h2

end Sys2Proof.Machine
end

