-- ==== Sys2Proof/Laws/Results.lean ====
section
/-!
SUPPORT. The laws of register instructions: what an instruction that only writes registers comes to, and what each kind of
write leaves in the registers.
-/

namespace Sys2Proof.Machine

open Sys2Proof.Safety

/-- Two groups hold the same registers, predicates and float flags. -/
structure SameRegs (g h : Group) : Prop where
  vec : h.vec = g.vec
  scl : h.scl = g.scl
  preds : h.preds = g.preds
  fpflags : h.fpflags = g.fpflags

theorem SameRegs.readV {g h : Group} (e : SameRegs g h) (r l : Nat) : h.readV r l = g.readV r l := by
  simp [Group.readV, e.vec]
theorem SameRegs.readS {g h : Group} (e : SameRegs g h) (r : Nat) : h.readS r = g.readS r := by
  simp [Group.readS, e.scl]
theorem SameRegs.pred {g h : Group} (e : SameRegs g h) (p l : Nat) : h.pred p l = g.pred p l := by
  simp [Group.pred, e.preds]

/-- A group differs from another in its registers, predicates and float flags only. -/
def OnlyRegs (g h : Group) : Prop :=
  ∃ v sc ps fl, h = { g with vec := v, scl := sc, preds := ps, fpflags := fl }

theorem OnlyRegs.refl (g : Group) : OnlyRegs g g := ⟨_, _, _, _, rfl⟩

theorem OnlyRegs.trans {a b c : Group} (h : OnlyRegs a b) (k : OnlyRegs b c) : OnlyRegs a c := by
  obtain ⟨v, sc, ps, fl, rfl⟩ := h
  obtain ⟨v', sc', ps', fl', rfl⟩ := k
  exact ⟨_, _, _, _, rfl⟩

/-- Writes that stay within the destinations of a form. -/
structure Within (f : Form) (ls : List Nat) (g h : Group) : Prop where
  only : OnlyRegs g h
  vec : ∀ r l, l < 128 → (.v r ∉ formDests f ∨ l ∉ ls) → h.readV r l = g.readV r l
  scl : ∀ r, .s r ∉ formDests f → h.readS r = g.readS r
  preds : ∀ p l, (.p p ∉ formDests f ∨ l ∉ ls) → h.pred p l = g.pred p l

theorem Within.refl (f : Form) (ls : List Nat) (g : Group) : Within f ls g g :=
  ⟨OnlyRegs.refl g, fun _ _ _ _ => rfl, fun _ _ => rfl, fun _ _ _ => rfl⟩

theorem Within.trans {f : Form} {ls : List Nat} {a b c : Group} (h : Within f ls a b) (k : Within f ls b c) :
    Within f ls a c :=
  ⟨h.only.trans k.only, fun r l hl hn => (k.vec r l hl hn).trans (h.vec r l hl hn),
    fun r hn => (k.scl r hn).trans (h.scl r hn), fun p l hn => (k.preds p l hn).trans (h.preds p l hn)⟩

theorem Within.orFlags (f : Form) (ls : List Nat) (g : Group) (fl : FFlags) : Within f ls g (g.orFlags fl) :=
  ⟨⟨_, _, _, _, rfl⟩, fun _ _ _ _ => rfl, fun _ _ => rfl, fun _ _ _ => rfl⟩

/-- The registers of a run that a destination names. -/
theorem mem_operandRegs_vec (k : BitVec 10) (n r : Nat) :
    RegName.v r ∈ operandRegs (.vec k) n ↔ k.toNat ≤ r ∧ r < k.toNat + n := by
  simp only [operandRegs, List.mem_map, List.mem_range, RegName.v.injEq]
  constructor
  · rintro ⟨j, hj, rfl⟩
    omega
  · intro h
    exact ⟨r - k.toNat, by omega, by omega⟩

theorem mem_operandRegs_scl (k : BitVec 10) (n r : Nat) :
    RegName.s r ∈ operandRegs (.scl k) n ↔ k.toNat ≤ r ∧ r < k.toNat + n := by
  simp only [operandRegs, List.mem_map, List.mem_range, RegName.s.injEq]
  constructor
  · rintro ⟨j, hj, rfl⟩
    omega
  · intro h
    exact ⟨r - k.toNat, by omega, by omega⟩

/-- A run written to D stays within the destinations, if D names as many registers as the run has words. -/
theorem Within.writeRuns {f : Form} {ls : List Nat} (g : Group) {n : Nat} (v : Nat → List Word) (hn : f.d.n = n)
    (hv : ∀ l, (v l).length = n) (hne : ls ≠ []) (hls : ∀ l ∈ ls, l < 128) : Within f ls g (g.writeRuns f.slot.d ls v) := by
  have only : OnlyRegs g (g.writeRuns f.slot.d ls v) := by
    obtain ⟨a, b, h⟩ := Group.writeRuns_same g f.slot.d ls v
    rw [h]
    exact ⟨_, _, _, _, rfl⟩
  have preds : ∀ p l, (g.writeRuns f.slot.d ls v).pred p l = g.pred p l := by
    obtain ⟨a, b, h⟩ := Group.writeRuns_same g f.slot.d ls v
    intro p l
    rw [h]
    rfl
  refine ⟨only, ?_, ?_, fun p l _ => preds p l⟩
  · intro r l hl hx
    cases hd : f.slot.d with
    | vec k =>
      rw [Group.readV_writeRuns_vec k v ls g r l hls hl, if_neg]
      rintro ⟨h1, h2, h3⟩
      rcases hx with hx | hx
      · apply hx
        rw [formDests, List.mem_append]
        left
        rw [hd, mem_operandRegs_vec, hn]
        rw [hv] at h3
        exact ⟨h2, h3⟩
      · exact hx h1
    | scl k => exact Group.readV_writeRuns_scl k v ls g r l
    | prd _ => rfl
    | spc _ => rfl
    | imm _ => rfl
    | none => rfl
  · intro r hx
    cases hd : f.slot.d with
    | vec k => exact Group.readS_writeRuns_vec k v ls g r
    | scl k =>
      rw [Group.readS_writeRuns_scl k v ls g r hne, if_neg]
      rintro ⟨h2, h3⟩
      apply hx
      rw [formDests, List.mem_append]
      left
      rw [hd, mem_operandRegs_scl, hn]
      rw [hv] at h3
      exact ⟨h2, h3⟩
    | prd _ => rfl
    | spc _ => rfl
    | imm _ => rfl
    | none => rfl

/-- A predicate written stays within the destinations that name it. -/
theorem Within.writePreds {f : Form} {ls : List Nat} (g : Group) (d : Operand) (v : Nat → Bool)
    (hd : ∀ p, d = .prd p → .p p.toNat ∈ formDests f) (hls : ∀ l ∈ ls, l < 128) : Within f ls g (g.writePreds d ls v) := by
  obtain ⟨ps, h⟩ := Group.writePreds_same g d ls v
  refine ⟨⟨_, _, _, _, h⟩, fun r l _ _ => by rw [h]; rfl, fun r _ => by rw [h]; rfl, ?_⟩
  intro p l hx
  cases d with
  | prd q =>
    rw [Group.pred_writePreds q v ls g p l hls, if_neg]
    rintro ⟨h1, h2⟩
    rcases hx with hx | hx
    · exact hx (h1 ▸ hd q rfl)
    · exact hx h2
  | vec _ => rfl
  | scl _ => rfl
  | spc _ => rfl
  | imm _ => rfl
  | none => rfl

/-- What the writes of a form come to after its slot. -/
theorem issueRegs_completes {i : Instr} {s : State} {id : Nat} {g : Group} {c : Clause} {f : Form}
    (h : Issues i s id g c f) (body : Group → List Nat → Group)
    (hb : Within f (g.guarded f.slot) g (body g (g.guarded f.slot))) :
    ∃ t, issueRegs i s body = .next t ∧ Passed t id g c ∧ OnlyGroup s t id
      ∧ KeepsOthers f (g.guarded f.slot) g (t.group id) ∧ SameRegs (body g (g.guarded f.slot)) (t.group id) := by
  obtain ⟨v, sc, ps, fl, ho⟩ := hb.only
  have hcl : (body g (g.guarded f.slot)).clause = some c := by
    rw [ho]
    exact h.clause
  obtain ⟨t, ck, h1, h2, h3⟩ := issueRegs_spec h body hcl
  have hp := h3.passed
  obtain ⟨⟨fr, cl, hd, dr, e⟩, _, _⟩ := h3
  have hs : SameRegs (body g (g.guarded f.slot)) (t.group id) := by
    rw [e]
    exact ⟨rfl, rfl, rfl, rfl⟩
  have hf : ∃ v sc ps fl ck k ms fr cl hd dr, t.group id = { g with vec := v, scl := sc, preds := ps, fpflags := fl, checks := ck, clock := k, misses := ms, frontier := fr, clause := cl, handler := hd, draining := dr } := by
    rw [e, ho]
    exact ⟨_, _, _, _, _, _, _, _, _, _, _, rfl⟩
  refine ⟨t, h1, ?_, h2, ?_, hs⟩
  · rw [ho] at hp
    exact ⟨hp.clock, hp.wait, hp.trapping, hp.stopped, hp.next, hp.ended⟩
  · obtain ⟨_, _, _, _, _, _, _, _, _, _, _, e'⟩ := hf
    exact ⟨fun r l hl hx => (hs.readV r l).trans (hb.vec r l hl hx), fun r hx => (hs.readS r).trans (hb.scl r hx),
      fun p l hx => (hs.pred p l).trans (hb.preds p l hx), by rw [e']; exact ⟨rfl, rfl, rfl⟩,
      by rw [e']; exact ⟨rfl, rfl, rfl, rfl, rfl, rfl⟩, by rw [e']; exact ⟨rfl, rfl, rfl⟩⟩

end Sys2Proof.Machine
end

