-- ==== Sys2Proof/Tests/Slice0.lean ====
section
/-!
SUPPORT. Tests: a word for each instruction of a program, written out from the encoding tables of the spec; an ill-formed term
for each check of well-formedness; single steps whose results are worked out by hand or in the spec; and, for the statements
with hypotheses, states and operands that meet them.
-/

namespace Sys2Proof.Tests

open Sys2Proof Sys2Proof.Machine Sys2Proof.Safety Sys2Proof.Claims

set_option Elab.async false

/-! ## Words -/

/-- What the decoder makes of a word with the fields OP, G, H, D, A, B, M and X of R36. -/
def reads (op g h d a b m x : Nat) : Decoded :=
  decodeWord mapOne (op + 2 ^ 10 * g + 2 ^ 15 * h + 2 ^ 21 * d + 2 ^ 33 * a + 2 ^ 45 * b + 2 ^ 57 * m + 2 ^ 64 * x)

/-! The operand fields below are those of R38: v k is k, s k is 0x400 + k, p k is 0x800 + k, special register k is
0x900 + k, and an immediate is 0xC00 with its ten bits. X is an immediate, or C with E from its bit 12 (R36). The OP, M and E
values are those of the encoding tables of R93, R118, R149, R159, R189, R206, R242, R255, R284, R292, R309, R318, R326, R348,
R362 and R376. -/

theorem test_word_nop : reads 0x000 0x13 0x1F 0x000 0x000 0x000 0x00 0x0 =
    .ok (.nop { neg := true, p := 3, stall := 7, yield := true, rel := true }) := by rfl
theorem test_word_bra : reads 0x001 0x00 0x00 0x000 0x000 0x000 0x00 0x300 =
    .ok (.bra {} 0x300) := by rfl
theorem test_word_bri : reads 0x002 0x00 0x00 0x000 0x007 0x000 0x00 0x0 =
    .ok (.bri { a := .vec 7 }) := by rfl
theorem test_word_call : reads 0x003 0x00 0x00 0x01E 0x000 0x000 0x00 0x3C0 =
    .ok (.call { d := .vec 30 } 0x3C0) := by rfl
theorem test_word_calli : reads 0x004 0x00 0x00 0x409 0x40C 0x000 0x00 0x0 =
    .ok (.calli { d := .scl 9, a := .scl 12 }) := by rfl
theorem test_word_ret : reads 0x005 0x00 0x00 0x000 0x01E 0x000 0x00 0x0 =
    .ok (.ret { a := .vec 30 }) := by rfl
theorem test_word_exit : reads 0x006 0x01 0x00 0x000 0x000 0x000 0x00 0x0 =
    .ok (.exit { p := 1 }) := by rfl
theorem test_word_yield : reads 0x007 0x00 0x00 0x000 0x000 0x000 0x00 0x0 =
    .ok (.yield {}) := by rfl
theorem test_word_trap : reads 0x008 0x00 0x00 0x000 0x000 0x000 0x00 0x80000001 =
    .ok (.trap {} 0x80000001) := by rfl
theorem test_word_swiWake : reads 0x009 0x00 0x00 0x000 0x403 0xFFF 0x00 0x0 =
    .ok (.swiWake { a := .scl 3, b := .imm (-1) }) := by rfl
theorem test_word_swiClear : reads 0x009 0x00 0x00 0x000 0x403 0x404 0x01 0x0 =
    .ok (.swiClear { a := .scl 3, b := .scl 4 }) := by rfl
theorem test_word_swiMgmt : reads 0x009 0x00 0x00 0x000 0x000 0x405 0x02 0x0 =
    .ok (.swiMgmt { b := .scl 5 }) := by rfl
theorem test_word_bkpt : reads 0x00A 0x00 0x00 0x000 0x000 0x000 0x00 0x7 =
    .ok (.bkpt {} 7) := by rfl
theorem test_word_getsr : reads 0x00B 0x00 0x00 0x002 0x950 0xC03 0x00 0x0 =
    .ok (.getsr { d := .vec 2, a := .spc 0x50, b := .imm 3 }) := by rfl
theorem test_word_setsr : reads 0x00C 0x00 0x00 0x940 0x408 0x000 0x00 0x0 =
    .ok (.setsr { d := .spc 0x40, a := .scl 8 }) := by rfl
theorem test_word_sleepc : reads 0x00D 0x00 0x00 0x000 0x401 0xC01 0x00 0x0 =
    .ok (.sleepc { a := .scl 1, b := .imm 1 }) := by rfl
theorem test_word_waitc : reads 0x00E 0x00 0x00 0x000 0xC02 0x000 0x04 0x0 =
    .ok (.waitc { a := .imm 2 } .cx) := by rfl
theorem test_word_plop : reads 0x00F 0x00 0x00 0x801 0x802 0x803 0x00 0x96804 =
    .ok (.plop { d := .prd 1, a := .prd 2, b := .prd 3, c := .prd 4 } 0x96) := by rfl
theorem test_word_pmovGet : reads 0x010 0x00 0x00 0x00B 0x000 0x000 0x00 0x0 =
    .ok (.pmovGet { d := .vec 11 }) := by rfl
theorem test_word_pmovSet : reads 0x010 0x00 0x00 0x000 0x00C 0x000 0x01 0xFFFE =
    .ok (.pmovSet { a := .vec 12 } 0xFFFE) := by rfl
theorem test_word_iadd : reads 0x040 0x00 0x00 0x001 0x402 0xFFD 0x05 0x805 =
    .ok (.iadd { d := .vec 1, a := .scl 2, b := .imm (-3), c := .prd 5 } true false true) := by rfl
theorem test_word_isub : reads 0x041 0x00 0x00 0x401 0x402 0xC03 0x02 0x0 =
    .ok (.isub { d := .scl 1, a := .scl 2, b := .imm 3 } false true false) := by rfl
theorem test_word_iadd3 : reads 0x042 0x00 0x00 0x001 0x002 0x003 0x03 0xC04 =
    .ok (.iadd3 { d := .vec 1, a := .vec 2, b := .vec 3, c := .imm 4 } true true) := by rfl
theorem test_word_iaddc : reads 0x043 0x00 0x00 0x001 0x002 0x003 0x04 0x804 =
    .ok (.iaddc { d := .vec 1, a := .vec 2, b := .vec 3, c := .prd 4 } true) := by rfl
theorem test_word_imul : reads 0x044 0x00 0x00 0x001 0x002 0xE00 0x02 0x0 =
    .ok (.imul { d := .vec 1, a := .vec 2, b := .imm (-512) } false true) := by rfl
theorem test_word_imulh : reads 0x045 0x00 0x00 0x001 0x002 0x003 0x01 0x0 =
    .ok (.imulh { d := .vec 1, a := .vec 2, b := .vec 3 } true) := by rfl
theorem test_word_imad : reads 0x046 0x00 0x00 0x001 0x002 0x403 0x00 0x7FF =
    .ok (.imad { d := .vec 1, a := .vec 2, b := .scl 3, c := .scl 1023 } false false) := by rfl
theorem test_word_isad : reads 0x047 0x00 0x00 0x001 0x002 0x003 0x01 0x13F =
    .ok (.isad { d := .vec 1, a := .vec 2, b := .vec 3, c := .vec 319 } true) := by rfl
theorem test_word_imin : reads 0x048 0x00 0x00 0x001 0x002 0x003 0x00 0x0 =
    .ok (.imin { d := .vec 1, a := .vec 2, b := .vec 3 } false) := by rfl
theorem test_word_imax : reads 0x049 0x00 0x00 0x001 0x002 0x003 0x01 0x0 =
    .ok (.imax { d := .vec 1, a := .vec 2, b := .vec 3 } true) := by rfl
theorem test_word_iabs : reads 0x04A 0x00 0x00 0x001 0x002 0x000 0x02 0x0 =
    .ok (.iabs { d := .vec 1, a := .vec 2 } true) := by rfl
theorem test_word_ineg : reads 0x04B 0x00 0x00 0x001 0x002 0x000 0x00 0x0 =
    .ok (.ineg { d := .vec 1, a := .vec 2 } false) := by rfl
theorem test_word_icmp : reads 0x04C 0x00 0x00 0x809 0x002 0x003 0x2A 0x804 =
    .ok (.icmp { d := .prd 9, a := .vec 2, b := .vec 3, c := .prd 4 } .lt true .or) := by rfl
theorem test_word_isel : reads 0x04D 0x00 0x00 0x001 0x002 0x003 0x00 0x80F =
    .ok (.isel { d := .vec 1, a := .vec 2, b := .vec 3, c := .prd 15 }) := by rfl
theorem test_word_mov : reads 0x04E 0x00 0x00 0x001 0xDFF 0x000 0x00 0x0 =
    .ok (.mov { d := .vec 1, a := .imm 511 }) := by rfl
theorem test_word_movi : reads 0x04F 0x00 0x00 0x401 0x000 0x000 0x00 0xDEADBEEF =
    .ok (.movi { d := .scl 1 } 0xDEADBEEF) := by rfl
theorem test_word_band : reads 0x050 0x00 0x00 0x001 0x002 0x003 0x00 0x0 =
    .ok (.band { d := .vec 1, a := .vec 2, b := .vec 3 }) := by rfl
theorem test_word_bor : reads 0x051 0x00 0x00 0x001 0x002 0x003 0x00 0x0 =
    .ok (.bor { d := .vec 1, a := .vec 2, b := .vec 3 }) := by rfl
theorem test_word_bxor : reads 0x052 0x00 0x00 0x001 0x002 0x003 0x00 0x0 =
    .ok (.bxor { d := .vec 1, a := .vec 2, b := .vec 3 }) := by rfl
theorem test_word_bnot : reads 0x053 0x00 0x00 0x001 0x002 0x000 0x00 0x0 =
    .ok (.bnot { d := .vec 1, a := .vec 2 }) := by rfl
theorem test_word_lop3 : reads 0x054 0x00 0x00 0x001 0x002 0x003 0x00 0xE8004 =
    .ok (.lop3 { d := .vec 1, a := .vec 2, b := .vec 3, c := .vec 4 } 0xE8) := by rfl
theorem test_word_shl : reads 0x055 0x00 0x00 0x001 0x002 0xC04 0x00 0x0 =
    .ok (.shl { d := .vec 1, a := .vec 2, b := .imm 4 } false) := by rfl
theorem test_word_shr : reads 0x056 0x00 0x00 0x001 0x002 0xC04 0x01 0x0 =
    .ok (.shr { d := .vec 1, a := .vec 2, b := .imm 4 } true) := by rfl
theorem test_word_sar : reads 0x057 0x00 0x00 0x001 0x002 0x404 0x00 0x0 =
    .ok (.sar { d := .vec 1, a := .vec 2, b := .scl 4 } false) := by rfl
theorem test_word_shf : reads 0x058 0x00 0x00 0x001 0x002 0x003 0x01 0xC08 =
    .ok (.shf { d := .vec 1, a := .vec 2, b := .vec 3, c := .imm 8 } true false) := by rfl
theorem test_word_bfe : reads 0x059 0x00 0x00 0x001 0x002 0x403 0x01 0x0 =
    .ok (.bfe { d := .vec 1, a := .vec 2, b := .scl 3 } true) := by rfl
theorem test_word_bfi : reads 0x05A 0x00 0x00 0x001 0x002 0x403 0x00 0x4 =
    .ok (.bfi { d := .vec 1, a := .vec 2, b := .scl 3, c := .vec 4 }) := by rfl
theorem test_word_brev : reads 0x05B 0x00 0x00 0x001 0x002 0x000 0x00 0x0 =
    .ok (.brev { d := .vec 1, a := .vec 2 }) := by rfl
theorem test_word_popc : reads 0x05C 0x00 0x00 0x001 0x002 0x000 0x00 0x0 =
    .ok (.popc { d := .vec 1, a := .vec 2 }) := by rfl
theorem test_word_clz : reads 0x05D 0x00 0x00 0x001 0x002 0x000 0x00 0x0 =
    .ok (.clz { d := .vec 1, a := .vec 2 }) := by rfl
theorem test_word_ctz : reads 0x05E 0x00 0x00 0x001 0x002 0x000 0x00 0x0 =
    .ok (.ctz { d := .vec 1, a := .vec 2 }) := by rfl
theorem test_word_prmt : reads 0x05F 0x00 0x00 0x001 0x002 0x003 0x00 0x404 =
    .ok (.prmt { d := .vec 1, a := .vec 2, b := .vec 3, c := .scl 4 }) := by rfl
theorem test_word_lea : reads 0x060 0x00 0x00 0x004 0x410 0x002 0x1A 0x0 =
    .ok (.lea { d := .vec 4, a := .scl 16, b := .vec 2 } 2 true true) := by rfl
theorem test_word_cvti : reads 0x061 0x00 0x00 0x002 0x005 0x000 0x43 0x0 =
    .ok (.cvti { d := .vec 2, a := .vec 5 } .s64 .s8 true) := by rfl
theorem test_word_iaddw : reads 0x062 0x00 0x00 0x002 0x004 0xFFF 0x06 0x803 =
    .ok (.iaddw { d := .vec 2, a := .vec 4, b := .imm (-1), c := .prd 3 } false true true) := by rfl
theorem test_word_isubw : reads 0x063 0x00 0x00 0x002 0x004 0x406 0x01 0x0 =
    .ok (.isubw { d := .vec 2, a := .vec 4, b := .scl 6 } true false false) := by rfl
theorem test_word_imulw : reads 0x064 0x00 0x00 0x002 0x004 0x006 0x00 0x0 =
    .ok (.imulw { d := .vec 2, a := .vec 4, b := .vec 6 }) := by rfl
theorem test_word_imadx : reads 0x065 0x00 0x00 0x002 0x005 0x007 0x00 0x8 =
    .ok (.imadx { d := .vec 2, a := .vec 5, b := .vec 7, c := .vec 8 } false) := by rfl
theorem test_word_icmpw : reads 0x066 0x00 0x00 0x802 0x004 0x006 0x05 0x0 =
    .ok (.icmpw { d := .prd 2, a := .vec 4, b := .vec 6 } .ge false .none) := by rfl
theorem test_word_shlw : reads 0x067 0x00 0x00 0x002 0x004 0xC21 0x01 0x0 =
    .ok (.shlw { d := .vec 2, a := .vec 4, b := .imm 33 } true) := by rfl
theorem test_word_shrw : reads 0x068 0x00 0x00 0x002 0x004 0x007 0x00 0x0 =
    .ok (.shrw { d := .vec 2, a := .vec 4, b := .vec 7 } false) := by rfl
theorem test_word_sarw : reads 0x069 0x00 0x00 0x402 0x404 0x407 0x00 0x0 =
    .ok (.sarw { d := .scl 2, a := .scl 4, b := .scl 7 } false) := by rfl
theorem test_word_movw : reads 0x06A 0x00 0x00 0x002 0xFFF 0x000 0x00 0x0 =
    .ok (.movw { d := .vec 2, a := .imm (-1) }) := by rfl
theorem test_word_fadd : reads 0x0C0 0x00 0x00 0x001 0x002 0x003 0x4B 0x0 =
    .ok (.fadd { d := .vec 1, a := .vec 2, b := .vec 3 } .rd true false true) := by rfl
theorem test_word_fmul : reads 0x0C1 0x00 0x00 0x001 0x002 0x003 0x21 0x0 =
    .ok (.fmul { d := .vec 1, a := .vec 2, b := .vec 3 } .rz false true false) := by rfl
theorem test_word_ffma : reads 0x0C2 0x00 0x00 0x001 0x002 0x003 0x64 0x405004 =
    .ok (.ffma { d := .vec 1, a := .vec 2, b := .vec 3, c := .vec 4, n := .scl 5 } .rs false true true) := by rfl
theorem test_word_fmin : reads 0x0C3 0x00 0x00 0x001 0x002 0x003 0x09 0x0 =
    .ok (.fmin { d := .vec 1, a := .vec 2, b := .vec 3 } true true) := by rfl
theorem test_word_fmax : reads 0x0C4 0x00 0x00 0x001 0x002 0x003 0x00 0x0 =
    .ok (.fmax { d := .vec 1, a := .vec 2, b := .vec 3 } false false) := by rfl
theorem test_word_fcmp : reads 0x0C5 0x00 0x00 0x801 0x002 0x003 0x3E 0x804 =
    .ok (.fcmp { d := .prd 1, a := .vec 2, b := .vec 3, c := .prd 4 } .un true .xor) := by rfl
theorem test_word_frnd : reads 0x0C6 0x00 0x00 0x001 0x002 0x000 0x02 0x0 =
    .ok (.frnd { d := .vec 1, a := .vec 2 } .ru false) := by rfl
theorem test_word_fclass : reads 0x0C7 0x00 0x00 0x001 0x002 0x000 0x01 0x0 =
    .ok (.fclass { d := .vec 1, a := .vec 2 } true) := by rfl
theorem test_word_fdiv : reads 0x0C8 0x00 0x00 0x001 0x002 0x003 0x00 0x0 =
    .ok (.fdiv { d := .vec 1, a := .vec 2, b := .vec 3 } .rn false) := by rfl
theorem test_word_frcp : reads 0x0C9 0x00 0x00 0x001 0x002 0x000 0x08 0x0 =
    .ok (.frcp { d := .vec 1, a := .vec 2 } .rn true) := by rfl
theorem test_word_frsq : reads 0x0CA 0x00 0x00 0x001 0x002 0x000 0x04 0x9 =
    .ok (.frsq { d := .vec 1, a := .vec 2, c := .vec 9 } .rs false) := by rfl
theorem test_word_fsqrt : reads 0x0CB 0x00 0x00 0x001 0x002 0x000 0x01 0x0 =
    .ok (.fsqrt { d := .vec 1, a := .vec 2 } .rz false) := by rfl
theorem test_word_fexp2 : reads 0x0CC 0x00 0x00 0x001 0x002 0x000 0x08 0x0 =
    .ok (.fexp2 { d := .vec 1, a := .vec 2 } true) := by rfl
theorem test_word_flog2 : reads 0x0CD 0x00 0x00 0x001 0x002 0x000 0x00 0x0 =
    .ok (.flog2 { d := .vec 1, a := .vec 2 } false) := by rfl
theorem test_word_fsin : reads 0x0CE 0x00 0x00 0x001 0x002 0x000 0x00 0x0 =
    .ok (.fsin { d := .vec 1, a := .vec 2 } false) := by rfl
theorem test_word_fcos : reads 0x0CF 0x00 0x00 0x001 0x002 0x000 0x08 0x0 =
    .ok (.fcos { d := .vec 1, a := .vec 2 } true) := by rfl
theorem test_word_dadd : reads 0x0D0 0x00 0x00 0x002 0x004 0x006 0x20 0x0 =
    .ok (.dadd { d := .vec 2, a := .vec 4, b := .vec 6 } .rn true false) := by rfl
theorem test_word_dmul : reads 0x0D1 0x00 0x00 0x002 0x004 0xC05 0x43 0x0 =
    .ok (.dmul { d := .vec 2, a := .vec 4, b := .imm 5 } .rd false true) := by rfl
theorem test_word_dfma : reads 0x0D2 0x00 0x00 0x002 0x004 0x006 0x62 0x8 =
    .ok (.dfma { d := .vec 2, a := .vec 4, b := .vec 6, c := .vec 8 } .ru true true) := by rfl
theorem test_word_dcmp : reads 0x0D3 0x00 0x00 0x801 0x004 0x006 0x07 0x0 =
    .ok (.dcmp { d := .prd 1, a := .vec 4, b := .vec 6 } .ord .none) := by rfl
theorem test_word_hadd2 : reads 0x0D4 0x00 0x00 0x001 0x002 0x003 0x79 0x0 =
    .ok (.hadd2 { d := .vec 1, a := .vec 2, b := .vec 3 } .rz true true true true) := by rfl
theorem test_word_hmul2 : reads 0x0D5 0x00 0x00 0x001 0x002 0x003 0x10 0x0 =
    .ok (.hmul2 { d := .vec 1, a := .vec 2, b := .vec 3 } .rn false true false false) := by rfl
theorem test_word_hfma2 : reads 0x0D6 0x00 0x00 0x001 0x002 0x003 0x43 0x4 =
    .ok (.hfma2 { d := .vec 1, a := .vec 2, b := .vec 3, c := .vec 4 } .rd false false false true) := by rfl
theorem test_word_hmnx2 : reads 0x0D7 0x00 0x00 0x001 0x002 0x003 0x13 0x0 =
    .ok (.hmnx2 { d := .vec 1, a := .vec 2, b := .vec 3 } true true false true) := by rfl
theorem test_word_fdp4 : reads 0x0D8 0x00 0x00 0x001 0x002 0x003 0x20 0x4 =
    .ok (.fdp4 { d := .vec 1, a := .vec 2, b := .vec 3, c := .vec 4 } .rn false true false) := by rfl
theorem test_word_cvt : reads 0x0D9 0x00 0x00 0x001 0x002 0x000 0x18 0x12000 =
    .ok (.cvt { d := .vec 1, a := .vec 2 } .rn true true .f16 .f32) := by rfl
theorem test_word_cvtfi : reads 0x0DA 0x00 0x00 0x002 0x003 0x000 0x01 0x13000 =
    .ok (.cvtfi { d := .vec 2, a := .vec 3 } .rz false .s64 .f32) := by rfl
theorem test_word_cvtif : reads 0x0DB 0x00 0x00 0x001 0x002 0x000 0x00 0x71000 =
    .ok (.cvtif { d := .vec 1, a := .vec 2 } .rn false .f32 .z64) := by rfl
theorem test_word_pack : reads 0x0DC 0x00 0x00 0x001 0x002 0x003 0x00 0x14004 =
    .ok (.pack { d := .vec 1, a := .vec 2, b := .vec 3, c := .vec 4 } .rn false false .e4m3 1) := by rfl
theorem test_word_xadd : reads 0x0DD 0x00 0x00 0x00A 0x00A 0x403 0x09 0x0 =
    .ok (.xadd { d := .vec 10, a := .vec 10, b := .scl 3 } .bf16 true) := by rfl
theorem test_word_xrnd : reads 0x0DE 0x00 0x00 0x001 0x014 0x000 0x00 0x1000 =
    .ok (.xrnd { d := .vec 1, a := .vec 20 } .rn false false .f32) := by rfl
theorem test_word_xcmb : reads 0x0DF 0x00 0x00 0x00A 0x014 0x01E 0x01 0x0 =
    .ok (.xcmb { d := .vec 10, a := .vec 20, b := .vec 30 } true) := by rfl
theorem test_word_xchk : reads 0x0E0 0x00 0x00 0x801 0x014 0x000 0x03 0x0 =
    .ok (.xchk { d := .prd 1, a := .vec 20 } .zero) := by rfl
theorem test_word_shfl : reads 0x140 0x00 0x00 0x001 0x002 0xC01 0x35 0x13000 =
    .ok (.shfl { d := .vec 1, a := .vec 2, b := .imm 1 } .back 5 true (some 3)) := by rfl
theorem test_word_shfl_2 : reads 0x140 0x00 0x00 0x001 0x002 0x003 0x03 0x0 =
    .ok (.shfl { d := .vec 1, a := .vec 2, b := .vec 3 } .xor 0 false none) := by rfl
theorem test_word_rdlane : reads 0x141 0x00 0x00 0x401 0x002 0xC05 0x00 0x0 =
    .ok (.rdlane { d := .scl 1, a := .vec 2, b := .imm 5 }) := by rfl
theorem test_word_wrlane : reads 0x142 0x00 0x00 0x001 0xC02 0x405 0x00 0x0 =
    .ok (.wrlane { d := .vec 1, a := .imm 2, b := .scl 5 }) := by rfl
theorem test_word_ballot : reads 0x143 0x00 0x00 0x401 0x802 0x000 0x03 0x0 =
    .ok (.ballot { d := .scl 1, a := .prd 2 } 3) := by rfl
theorem test_word_vote : reads 0x144 0x00 0x00 0x801 0x802 0x000 0x02 0x0 =
    .ok (.vote { d := .prd 1, a := .prd 2 } .same) := by rfl
theorem test_word_vmatch : reads 0x145 0x00 0x00 0x001 0x002 0x000 0x03 0x1F000 =
    .ok (.vmatch { d := .vec 1, a := .vec 2 } true true (some 15)) := by rfl
theorem test_word_pscan : reads 0x146 0x00 0x00 0x001 0x002 0x000 0x71 0x0 =
    .ok (.pscan { d := .vec 1, a := .vec 2 } .min .f32 true true) := by rfl
theorem test_word_redux : reads 0x147 0x00 0x00 0x401 0x002 0x000 0x0D 0x0 =
    .ok (.redux { d := .scl 1, a := .vec 2 } .xor .z32 false false) := by rfl
theorem test_word_compact : reads 0x148 0x00 0x00 0x001 0x002 0x803 0x00 0x0 =
    .ok (.compact { d := .vec 1, a := .vec 2, b := .prd 3 } none) := by rfl
theorem test_word_ld : reads 0x180 0x00 0x20 0x00C 0x410 0x000 0x1E 0x4FF8 =
    .ok (.ld { sel := true, d := .vec 12, a := .scl 16, c := .imm (-8) } .b128 (some .sys) true) := by rfl
theorem test_word_ld_2 : reads 0x180 0x00 0x00 0x001 0x002 0x000 0x03 0xC00 =
    .ok (.ld { d := .vec 1, a := .vec 2, c := .imm 0 } .z16 none false) := by rfl
theorem test_word_st : reads 0x181 0x00 0x00 0x000 0x002 0x405 0x0A 0x3C00 =
    .ok (.st { a := .vec 2, b := .scl 5, c := .imm 0 } .b32 (some .dev)) := by rfl
theorem test_word_atom : reads 0x182 0x00 0x00 0x004 0x002 0x006 0x71 0x27407 =
    .ok (.atom { d := .vec 4, a := .vec 2, b := .vec 6, c := .scl 7 } .min true true true .acqrel .cluster true) := by rfl
theorem test_word_atomc : reads 0x183 0x00 0x00 0x004 0x002 0x008 0x02 0x64900C =
    .ok (.atomc { d := .vec 4, a := .vec 2, b := .vec 8, c := .vec 12 } .b128 .acq .die false (some 9)) := by rfl
theorem test_word_atomx : reads 0x184 0x00 0x00 0x000 0x002 0xC01 0x05 0x12C00 =
    .ok (.atomx { a := .vec 2, b := .imm 1, c := .imm 0 } .s32 .rel .sys) := by rfl
theorem test_word_atomv : reads 0x185 0x00 0x00 0x004 0x00C 0x008 0x1A 0xC10 =
    .ok (.atomv { d := .vec 4, a := .vec 12, b := .vec 8, c := .imm 16 } .max true true .rlx .team) := by rfl
theorem test_word_ldfut : reads 0x186 0x00 0x00 0x004 0x002 0x000 0x01 0xCC00 =
    .ok (.ldfut { d := .vec 4, a := .vec 2, c := .imm 0 } true .dev) := by rfl
theorem test_word_stfut : reads 0x187 0x00 0x00 0x000 0x002 0xC09 0x00 0x10C00 =
    .ok (.stfut { a := .vec 2, b := .imm 9, c := .imm 0 } false .sys) := by rfl
theorem test_word_futrst : reads 0x188 0x00 0x00 0x000 0x002 0x000 0x00 0x404 =
    .ok (.futrst { a := .vec 2, c := .scl 4 }) := by rfl
theorem test_word_lds : reads 0x200 0x00 0x00 0x002 0x005 0x000 0x2D 0x40 =
    .ok (.lds { d := .vec 2, a := .vec 5 } .b64 .full .clus 0x40) := by rfl
theorem test_word_sts : reads 0x201 0x00 0x00 0x000 0x405 0xC03 0x52 0xFFFFFFF0 =
    .ok (.sts { a := .scl 5, b := .imm 3 } .b32 .empty .die 0xFFFFFFF0) := by rfl
theorem test_word_atoms : reads 0x202 0x00 0x00 0x004 0x005 0x006 0x47 0x1007 =
    .ok (.atoms { d := .vec 4, a := .vec 5, b := .vec 6, c := .vec 7 } .cas false false true .clus) := by rfl
theorem test_word_tmov : reads 0x203 0x00 0x00 0x401 0x404 0x405 0x48 0x1C408 =
    .ok (.tmov { d := .scl 1, a := .scl 4, b := .scl 5, c := .scl 8 } .g .core true (some 12)) := by rfl
theorem test_word_bufdec : reads 0x204 0x00 0x00 0x000 0xC07 0x404 0x00 0x0 =
    .ok (.bufdec { a := .imm 7, b := .scl 4 }) := by rfl
theorem test_word_bufdecDrop : reads 0x204 0x00 0x00 0x000 0x407 0x000 0x01 0x0 =
    .ok (.bufdecDrop { a := .scl 7 }) := by rfl
theorem test_word_bufsetFill : reads 0x205 0x00 0x00 0x000 0xC01 0xC02 0x00 0x0 =
    .ok (.bufsetFill { a := .imm 1, b := .imm 2 }) := by rfl
theorem test_word_bufsetDrain : reads 0x205 0x00 0x00 0x000 0xC01 0x402 0x01 0x0 =
    .ok (.bufsetDrain { a := .imm 1, b := .scl 2 }) := by rfl
theorem test_word_bufsetReset : reads 0x205 0x00 0x00 0x000 0xC01 0x000 0x02 0x0 =
    .ok (.bufsetReset { a := .imm 1 }) := by rfl
theorem test_word_bufqry : reads 0x206 0x00 0x00 0x000 0xC01 0x000 0x17 0x0 =
    .ok (.bufqry { a := .imm 1 } .draining 5) := by rfl
theorem test_word_mapr : reads 0x207 0x00 0x00 0x000 0xC00 0x404 0x1D 0x406 =
    .ok (.mapr { a := .imm 0, b := .scl 4, c := .scl 6 } .clus 7) := by rfl
theorem test_word_unmapr : reads 0x208 0x00 0x00 0x000 0x000 0x000 0x03 0x0 =
    .ok (.unmapr {} 3) := by rfl
theorem test_word_flushr : reads 0x209 0x00 0x00 0x000 0x000 0x000 0x07 0x0 =
    .ok (.flushr {} 7) := by rfl
theorem test_word_feset : reads 0x20A 0x00 0x00 0x000 0x001 0xC40 0x03 0x0 =
    .ok (.feset { a := .vec 1, b := .imm 64 } true .clus) := by rfl
theorem test_word_feqry : reads 0x20B 0x00 0x00 0x001 0x002 0x000 0x02 0x0 =
    .ok (.feqry { d := .vec 1, a := .vec 2 } .die) := by rfl
theorem test_word_msub : reads 0x280 0x00 0x00 0x000 0xC00 0x408 0x5F 0x0 =
    .ok (.msub { a := .imm 0, b := .scl 8 } 31 2) := by rfl
theorem test_word_mrd : reads 0x281 0x00 0x00 0x008 0xC01 0xC02 0x07 0x0 =
    .ok (.mrd { d := .vec 8, a := .imm 1, b := .imm 2 } 7) := by rfl
theorem test_word_mwm : reads 0x282 0x00 0x00 0x000 0x403 0x000 0x00 0x0 =
    .ok (.mwm { a := .scl 3 }) := by rfl
theorem test_word_mlda : reads 0x290 0x00 0x00 0x000 0x400 0xD00 0x01 0x1000 =
    .ok (.mlda { a := .scl 0, b := .imm 256 } true 0x1000) := by rfl
theorem test_word_mldb : reads 0x291 0x00 0x00 0x000 0xC03 0x000 0x00 0x5 =
    .ok (.mldb { a := .imm 3 } 5) := by rfl
theorem test_word_mma : reads 0x292 0x00 0x00 0x000 0xC00 0x401 0x48 0x0 =
    .ok (.mma { a := .imm 0, b := .scl 1 } .e4m3 .e5m2 true) := by rfl
theorem test_word_msclOff : reads 0x293 0x00 0x00 0x000 0x000 0x000 0x00 0x0 =
    .ok (.msclOff {}) := by rfl
theorem test_word_mscl : reads 0x293 0x00 0x00 0x000 0x401 0x402 0x02 0x403 =
    .ok (.mscl { a := .scl 1, b := .scl 2, c := .scl 3 } true) := by rfl
theorem test_word_msto : reads 0x294 0x00 0x00 0x000 0xC01 0x402 0x2D 0xD00 =
    .ok (.msto { a := .imm 1, b := .scl 2, c := .imm 256 } .clus .e4m3 true) := by rfl
theorem test_word_mzero : reads 0x295 0x00 0x00 0x000 0xC00 0x000 0x00 0x0 =
    .ok (.mzero { a := .imm 0 }) := by rfl
theorem test_word_mloopDec : reads 0x296 0x00 0x00 0x402 0x000 0x000 0x00 0x18 =
    .ok (.mloopDec { d := .scl 2 } 24) := by rfl
theorem test_word_mloopAdd : reads 0x296 0x00 0x00 0x40F 0x40E 0x000 0x01 0x7 =
    .ok (.mloopAdd { d := .scl 15, a := .scl 14 } 7) := by rfl
theorem test_word_mbarw : reads 0x297 0x00 0x00 0x000 0x400 0x000 0x09 0x0 =
    .ok (.mbarw { a := .scl 0 } 9) := by rfl
theorem test_word_mbara : reads 0x298 0x00 0x00 0x000 0x000 0x000 0x0F 0x0 =
    .ok (.mbara {} 15) := by rfl
theorem test_word_mend : reads 0x299 0x00 0x00 0x000 0x000 0x000 0x00 0x0 =
    .ok (.mend {}) := by rfl
theorem test_word_emitPrim : reads 0x2C0 0x00 0x00 0x000 0x000 0x00A 0x04 0xFFF =
    .ok (.emitPrim { a := .vec 0, b := .vec 10, c := .imm (-1) } true) := by rfl
theorem test_word_emitOpen : reads 0x2C0 0x00 0x00 0x000 0xC01 0x404 0x01 0x0 =
    .ok (.emitOpen { a := .imm 1, b := .scl 4 }) := by rfl
theorem test_word_emitClose : reads 0x2C0 0x00 0x00 0x000 0xC01 0x000 0x02 0x0 =
    .ok (.emitClose { a := .imm 1 }) := by rfl
theorem test_word_vbldLat : reads 0x2C1 0x00 0x00 0x402 0xC03 0x404 0x00 0x0 =
    .ok (.vbldLat { d := .scl 2, a := .imm 3, b := .scl 4 }) := by rfl
theorem test_word_vbldSet : reads 0x2C1 0x00 0x00 0x402 0xC03 0x404 0x01 0x406 =
    .ok (.vbldSet { d := .scl 2, a := .imm 3, b := .scl 4, c := .scl 6 }) := by rfl
theorem test_word_classify : reads 0x2C2 0x00 0x00 0x000 0x401 0x404 0x01 0x0 =
    .ok (.classify { a := .scl 1, b := .scl 4 } true) := by rfl
theorem test_word_sample : reads 0x2C3 0x00 0x00 0x004 0x002 0x408 0x07 0x0 =
    .ok (.sample { d := .vec 4, a := .vec 2, b := .scl 8 } .glob true) := by rfl
theorem test_word_chartxf : reads 0x2C4 0x00 0x00 0x001 0x002 0xC0F 0x03 0x0 =
    .ok (.chartxf { d := .vec 1, a := .vec 2, b := .imm 15 } true true) := by rfl
theorem test_word_tileout : reads 0x2C5 0x00 0x00 0x000 0xC00 0x404 0x00 0x0 =
    .ok (.tileout { a := .imm 0, b := .scl 4 } false) := by rfl
theorem test_word_raybatOpen : reads 0x2D0 0x00 0x00 0x000 0xC00 0x404 0x00 0x0 =
    .ok (.raybatOpen { a := .imm 0, b := .scl 4 }) := by rfl
theorem test_word_raybatClose : reads 0x2D0 0x00 0x00 0x000 0x401 0x000 0x01 0x0 =
    .ok (.raybatClose { a := .scl 1 }) := by rfl
theorem test_word_raygen : reads 0x2D1 0x00 0x00 0x000 0x404 0x408 0x00 0x0 =
    .ok (.raygen { a := .scl 4, b := .scl 8 }) := by rfl
theorem test_word_rayput : reads 0x2D2 0x00 0x00 0x000 0x008 0x010 0x00 0xC02 =
    .ok (.rayput { a := .vec 8, b := .vec 16, c := .imm 2 }) := by rfl
theorem test_word_rayqryCnt : reads 0x2D3 0x00 0x00 0x402 0xC00 0x000 0x00 0x0 =
    .ok (.rayqryCnt { d := .scl 2, a := .imm 0 }) := by rfl
theorem test_word_rayqryWait : reads 0x2D3 0x00 0x00 0x402 0xC00 0x000 0x01 0x0 =
    .ok (.rayqryWait { d := .scl 2, a := .imm 0 }) := by rfl
theorem test_word_spawn : reads 0x300 0x00 0x00 0x000 0x001 0x402 0x03 0x0 =
    .ok (.spawn { a := .vec 1, b := .scl 2 } 3) := by rfl
theorem test_word_launchQ : reads 0x301 0x00 0x00 0x000 0x402 0x405 0x00 0x9 =
    .ok (.launchQ { a := .scl 2, b := .scl 5 } 9) := by rfl
theorem test_word_launchWg : reads 0x301 0x00 0x00 0x000 0x402 0x000 0x01 0x0 =
    .ok (.launchWg { a := .scl 2 }) := by rfl
theorem test_word_recalloc : reads 0x302 0x00 0x00 0x002 0x401 0x000 0x00 0x0 =
    .ok (.recalloc { d := .vec 2, a := .scl 1 }) := by rfl
theorem test_word_reccommit : reads 0x303 0x00 0x00 0x000 0x004 0x000 0x00 0x0 =
    .ok (.reccommit { a := .vec 4 }) := by rfl
theorem test_word_rinv : reads 0x310 0x00 0x00 0x001 0x002 0x003 0x02 0xA08E004 =
    .ok (.rinv { d := .vec 1, a := .vec 2, b := .vec 3, c := .vec 4 } 2 2 true 17 5) := by rfl
theorem test_word_put : reads 0x311 0x00 0x00 0x000 0x002 0x403 0x07 0xAB004 =
    .ok (.put { a := .vec 2, b := .scl 3, c := .vec 4 } 7 0xAB) := by rfl
theorem test_word_wcnt : reads 0x312 0x00 0x00 0x401 0xC02 0xC03 0x02 0x0 =
    .ok (.wcnt { d := .scl 1, a := .imm 2, b := .imm 3 } .ref) := by rfl
theorem test_word_fence : reads 0x340 0x00 0x00 0x000 0x000 0x000 0x13 0x0 =
    .ok (.fence {} .acqrel .sys) := by rfl
theorem test_word_barinit : reads 0x341 0x00 0x00 0x000 0xC02 0x401 0x0B 0x0 =
    .ok (.barinit { a := .imm 2, b := .scl 1 } .dev true) := by rfl
theorem test_word_bararr : reads 0x342 0x00 0x00 0x000 0x404 0xC01 0x05 0x0 =
    .ok (.bararr { a := .scl 4, b := .imm 1 } true false true) := by rfl
theorem test_word_barwait : reads 0x343 0x00 0x00 0x000 0xC03 0x000 0x02 0x0 =
    .ok (.barwait { a := .imm 3 } false true) := by rfl
theorem test_word_barrel : reads 0x344 0x00 0x00 0x000 0x404 0x000 0x00 0x0 =
    .ok (.barrel { a := .scl 4 }) := by rfl
theorem test_word_nbarSet : reads 0x345 0x00 0x00 0x000 0xC03 0x401 0x00 0x0 =
    .ok (.nbarSet { a := .imm 3, b := .scl 1 }) := by rfl
theorem test_word_waitm : reads 0x346 0x00 0x00 0x000 0xC00 0xC10 0x00 0x0 =
    .ok (.waitm { a := .imm 0, b := .imm 16 } .wm) := by rfl

/-! The fates of words that are no instruction (R37, R38, R39, R50, R53). -/

theorem test_header : reads 0x3FF 0x10 0 0 0 0 0 0 = .header := by rfl
theorem test_unassigned_op : reads 0x3A0 0 0 0 0 0 0 0 = .undef := by rfl
theorem test_unused_field : reads 0x000 0 0 0 0x001 0 0 0 = .undef := by rfl
theorem test_unlisted_modifier : reads 0x048 0 0 1 2 3 0b10 0 = .undef := by rfl
theorem test_unused_e_bit : reads 0x042 0 0 1 2 3 0 (0x004 + 2 ^ 12) = .undef := by rfl
theorem test_vector_index_320 : reads 0x04E 0 0 320 2 0 0 0 = .illopnd := by rfl
theorem test_immediate_destination : reads 0x04E 0 0 0xC01 2 0 0 0 = .illopnd := by rfl
theorem test_odd_pair : reads 0x064 0 0 3 4 6 0 0 = .illopnd := by rfl
theorem test_run_beyond_the_limit : reads 0x0E0 0 0 0x801 311 0 0 0 = .illopnd := by rfl
theorem test_class_not_accepted : reads 0x141 0 0 1 0x402 0x403 0 0 = .illopnd := by rfl
theorem test_predicate_with_high_bits : reads 0x144 0 0 0x811 0x802 0 0 0 = .illopnd := by rfl
theorem test_short : decodeBytes mapOne [6, 0, 0] = .short := by rfl

/-! ## Well-formedness: one ill-formed term for each check -/

theorem wf_unit_of_partition : (Instr.tail 8 0 1).wf = false := by rfl
theorem wf_unit_of_view : (Instr.brgsy 16 0).wf = false := by rfl
theorem wf_unit_of_cluster : (Instr.passEnd 64).wf = false := by rfl
theorem wf_unit_of_link : (Instr.linkUp 12).wf = false := by rfl
theorem wf_unit_of_stack : (Instr.hbmTestPath 8 true).wf = false := by rfl
theorem wf_unit_of_die : (Instr.rayRecordCommit 2 0).wf = false := by rfl
theorem wf_unit_of_chip : (Instr.routeWrite 0 4096 0).wf = false := by rfl
theorem wf_modifiers : (Instr.frnd { d := .vec 1, a := .vec 2 } .rs false).wf = false := by rfl
theorem wf_modifiers_of_two_types : (Instr.mma { a := .imm 0, b := .imm 1 } .f16 .bf16 false).wf = false := by rfl
theorem wf_operand_class : (Instr.mov { d := .imm 1, a := .vec 2 }).wf = false := by rfl
theorem wf_operand_missing : (Instr.mov { d := .vec 1 }).wf = false := by rfl
theorem wf_operand_unused : (Instr.nop { a := .vec 2 }).wf = false := by rfl
theorem wf_operand_run : (Instr.xchk { d := .prd 1, a := .vec 311 } .sat).wf = false := by rfl
theorem wf_operand_pair : (Instr.movw { d := .vec 2, a := .vec 5 }).wf = false := by rfl
theorem wf_operands_together : (Instr.xcmb { d := .vec 10, a := .vec 15, b := .vec 30 } false).wf = false := by rfl
theorem wf_scalar_of_vectors : (Instr.iadd { d := .scl 1, a := .vec 2, b := .imm 3 } false false false).wf = false := by rfl
theorem wf_special_register : (Instr.getsr { d := .vec 1, a := .spc 0x16 }).wf = false := by rfl
theorem wf_special_read_only : (Instr.setsr { d := .spc 0x31, a := .scl 1 }).wf = false := by rfl
theorem wf_well_formed : (Instr.iadd { d := .vec 1, a := .vec 2, b := .imm 3 } false false false).wf = true := by rfl

/-! ## Single steps of a group

Two lanes of a small group act, lanes 0 and 1, at the only slot of a clause. -/

def grp : Group :=
  { team := 1, lanes := 16, vregs := 64, sregs := 64, frontier := [⟨0, 0, 3, false⟩]
    clause := some { pc := 0, len := 1, fa := some 0, fb := some 1 } }

/-- Lanes 0 and 1 of a vector register hold two words. -/
def lane2 (g : Group) (r : Nat) (a b : Word) : Group := (g.writeV r 0 a).writeV r 1 b

/-- A state in which only one group is resident, at its slot. -/
def small (g : Group) : State :=
  { State.reset with cur := .group 1, fresh := 100, groups := [(1, g)]
                     teams := [(1, { copy := 1, groups := [1], core := g.core })] }

/-- The group after one instruction. -/
def ran (i : Instr) (g : Group) : Group := ((small g).after (exec i (small g))).group 1

/-- Two lanes of a vector register after one instruction. -/
def vecs (i : Instr) (g : Group) (r : Nat) : Word × Word := ((ran i g).readV r 0, (ran i g).readV r 1)

/-! The add of 64 bits from words (R151, the worked example). -/

theorem test_iadd_carries : (fun h : Group => (h.readV 10 0, h.readV 10 1, h.pred 3 0, h.pred 3 1))
      (ran (.iadd { d := .vec 10, a := .vec 0, b := .vec 4, c := .prd 3 } true false true)
      (lane2 (lane2 grp 0 0xFFFFFFF0 1) 4 0x20 2)) = (0x10, 3, true, false) := by decide +kernel
theorem test_iaddc_takes_the_carry :
    vecs (.iaddc { d := .vec 11, a := .vec 1, b := .vec 5, c := .prd 3 } true)
      ((lane2 (lane2 grp 1 1 1) 5 2 2).writePred 3 0 true) 11 = (4, 3) := by decide +kernel
theorem test_iadd_saturates :
    vecs (.iadd { d := .vec 2, a := .vec 1, b := .imm 1 } false true false) (lane2 grp 1 0x7FFFFFFF 0xFFFFFFFF) 2
      = (0x7FFFFFFF, 0) := by decide +kernel
theorem test_isub_sets_cc_without_borrow :
    (fun h : Group => (h.readV 2 0, h.readV 2 1, h.pred 1 0, h.pred 1 1))
      (ran (.isub { d := .vec 2, a := .vec 1, b := .imm 1, c := .prd 1 } true false true) (lane2 grp 1 0 1)) = (0xFFFFFFFF, 0, false, true) := by decide +kernel
theorem test_imulh_signed :
    vecs (.imulh { d := .vec 2, a := .vec 1, b := .imm 2 } false) (lane2 grp 1 0x80000000 0x40000000) 2
      = (0xFFFFFFFF, 0) := by decide +kernel
theorem test_imulw : (fun h : Group => (h.readV 2 0, h.readV 3 0))
    (ran (.imulw { d := .vec 2, a := .vec 4, b := .imm (-1) }) (lane2 grp 4 1 0)) = (0xFFFFFFFF, 0xFFFFFFFF) := by decide +kernel
theorem test_isad : vecs (.isad { d := .vec 2, a := .vec 1, b := .imm 5, c := .imm 1 } false) (lane2 grp 1 3 0xFFFFFFFF) 2
    = (3, 7) := by decide +kernel
theorem test_iabs_of_the_least : vecs (.iabs { d := .vec 2, a := .vec 1 } true) (lane2 grp 1 0x80000000 (-5)) 2
    = (0x7FFFFFFF, 5) := by decide +kernel
theorem test_icmp_combines :
    (fun h : Group => (h.pred 1 0, h.pred 1 1))
      (ran (.icmp { d := .prd 1, a := .vec 1, b := .imm 0, c := .prd 2 } .lt false .and)
      ((lane2 grp 1 (-1) (-1)).writePred 2 1 true)) = (false, true) := by decide +kernel
theorem test_write_of_p0_is_ignored :
    (ran (.icmp { d := .prd 0, a := .vec 1, b := .imm 0 } .ne false .none) grp).pred 0 0 = true := by decide +kernel
theorem test_isel : vecs (.isel { d := .vec 2, a := .imm 7, b := .imm 8, c := .prd 2 }) (grp.writePred 2 1 true) 2
    = (8, 7) := by decide +kernel
theorem test_guard_keeps_a_lane : vecs (.mov { d := .vec 2, a := .imm 9, p := 1 })
    ((lane2 grp 2 1 1).writePred 1 1 true) 2 = (1, 9) := by decide +kernel
theorem test_movi_scalar : (ran (.movi { d := .scl 5 } 0xDEADBEEF) grp).readS 5 = 0xDEADBEEF := by decide +kernel
theorem test_lop3_majority : vecs (.lop3 { d := .vec 4, a := .vec 1, b := .vec 2, c := .vec 3 } 0xE8)
    (lane2 (lane2 (lane2 grp 1 0b1100 0) 2 0b1010 0) 3 0b0110 0) 4 = (0b1110, 0) := by decide +kernel
theorem test_shl_by_32 : vecs (.shl { d := .vec 2, a := .imm 1, b := .vec 1 } false) (lane2 grp 1 32 31) 2
    = (0, 0x80000000) := by decide +kernel
theorem test_sar_by_more : vecs (.sar { d := .vec 2, a := .vec 1, b := .imm 40 } false) (lane2 grp 1 0x80000000 1) 2
    = (0xFFFFFFFF, 0) := by decide +kernel
theorem test_shf_left : vecs (.shf { d := .vec 4, a := .vec 1, b := .vec 2, c := .imm 8 } false false)
    (lane2 (lane2 grp 1 0x12345678 0) 2 0x9ABCDEF0 0) 4 = (0x3456789A, 0) := by decide +kernel
theorem test_bfe_extends : vecs (.bfe { d := .vec 2, a := .vec 1, b := .scl 3 } false)
    ((lane2 grp 1 0xF0 0x70).writeS 3 0x0404) 2 = (0xFFFFFFFF, 7) := by decide +kernel
theorem test_clz_of_zero : vecs (.clz { d := .vec 2, a := .vec 1 }) (lane2 grp 1 0 1) 2 = (32, 31) := by decide +kernel
theorem test_prmt_reverses : vecs (.prmt { d := .vec 2, a := .vec 1, b := .imm 0, c := .scl 3 })
    ((lane2 grp 1 0x01020304 0).writeS 3 (0o0123)) 2 = (0x04030201, 0) := by decide +kernel
theorem test_lea_scales : (fun h : Group => (h.readV 4 0, h.readV 5 0))
    (ran (.lea { d := .vec 4, a := .scl 16, b := .vec 1 } 2 false false) (((lane2 grp 1 (-1) 0).writeS 16 0).writeS 17 1))
      = (0xFFFFFFFC, 0) := by decide +kernel
theorem test_cvti_clamps : vecs (.cvti { d := .vec 2, a := .vec 1 } .s8 .s32 true) (lane2 grp 1 300 (-300)) 2
    = (127, 0xFFFFFF80) := by decide +kernel

/-! Floating point (R177 to R203, the worked examples). -/

theorem test_ffma_ties_to_even : vecs (.ffma { d := .vec 8, a := .vec 1, b := .vec 2, c := .vec 3 } .rn false false false)
    (lane2 (lane2 (lane2 grp 1 0x3F800000 0) 2 0x3F800001 0) 3 0x33800000 0) 8 = (0x3F800002, 0) := by decide +kernel
theorem test_ffma_stochastic :
    (fun h : Group => (h.readV 8 0, h.fpflags))
      (ran (.ffma { d := .vec 8, a := .vec 1, b := .vec 2, c := .vec 3, n := .scl 5 } .rs false false false)
        ((lane2 (lane2 (lane2 grp 1 0x3F800000 0) 2 0x3F800001 0) 3 0x33800000 0).writeS 5 0x12349000)) = (0x3F800002, 0x10) := by decide +kernel
theorem test_ffma_stochastic_down :
    (ran (.ffma { d := .vec 8, a := .vec 1, b := .vec 2, c := .vec 3, n := .scl 5 } .rs false false false)
      ((lane2 (lane2 (lane2 grp 1 0x3F800000 0) 2 0x3F800001 0) 3 0x33800000 0).writeS 5 0x7FFF)).readV 8 0 = 0x3F800001 := by
  decide +kernel
theorem test_fadd_loses_one : vecs (.fadd { d := .vec 2, a := .vec 1, b := .imm 1 } .rn false false false)
    (lane2 grp 1 0x4B800000 0x3F800000) 2 = (0x4B800000, 0x40000000) := by decide +kernel
theorem test_fmul_of_infinity_and_zero : (fun h : Group => (h.readV 2 0, h.fpflags))
    (ran (.fmul { d := .vec 2, a := .vec 1, b := .imm 0 } .rn false false false) (lane2 grp 1 0x7F800000 0))
      = (0x7FC00000, 1) := by decide +kernel
theorem test_fdiv_third : vecs (.fdiv { d := .vec 2, a := .imm 1, b := .vec 1 } .rn false) (lane2 grp 1 0x40400000 0x3F800000) 2
    = (0x3EAAAAAB, 0x3F800000) := by decide +kernel
theorem test_fsqrt_of_minus_one : vecs (.fsqrt { d := .vec 2, a := .vec 1 } .rn false) (lane2 grp 1 0xBF800000 0x40800000) 2
    = (0x7FC00000, 0x40000000) := by decide +kernel
theorem test_fmin_orders_zeros : vecs (.fmin { d := .vec 2, a := .vec 1, b := .imm 0 } false false)
    (lane2 grp 1 0x80000000 0x7FC00000) 2 = (0x80000000, 0) := by decide +kernel
theorem test_fcmp_unordered : (fun h : Group => (h.pred 1 0, h.pred 1 1, h.fpflags))
      (ran (.fcmp { d := .prd 1, a := .vec 1, b := .imm 0 } .un false .none)
      (lane2 grp 1 0x7FC00000 0)) = (true, false, 0) := by decide +kernel
theorem test_frnd_half : vecs (.frnd { d := .vec 2, a := .vec 1 } .rn false) (lane2 grp 1 0x3F000000 0x3FC00000) 2
    = (0, 0x40000000) := by decide +kernel
theorem test_fclass : vecs (.fclass { d := .vec 2, a := .vec 1 } false) (lane2 grp 1 0xFF800000 0x00000001) 2
    = (4, 0x80) := by decide +kernel
theorem test_cvtfi_clamps : vecs (.cvtfi { d := .vec 2, a := .vec 1 } .rz false .s32 .f32) (lane2 grp 1 0x4F800000 0xBFC00000) 2
    = (0x7FFFFFFF, 0xFFFFFFFF) := by decide +kernel
theorem test_cvt_to_half : vecs (.cvt { d := .vec 2, a := .vec 1 } .rn false false .f16 .f32) (lane2 grp 1 0x3F800000 0x47800000) 2
    = (0x3C00, 0x7C00) := by decide +kernel
theorem test_hadd2 : vecs (.hadd2 { d := .vec 2, a := .vec 1, b := .vec 1 } .rn false false false false)
    (lane2 grp 1 0x3C004000 0) 2 = (0x40004400, 0) := by decide +kernel
theorem test_dadd : (fun h : Group => (h.readV 2 0, h.readV 3 0))
    (ran (.dadd { d := .vec 2, a := .vec 4, b := .imm 1 } .rn false false) (lane2 (lane2 grp 4 0 0) 5 0x3FF00000 0))
      = (0, 0x40000000) := by decide +kernel
theorem test_xadd_and_xrnd : (fun h : Group => (h.readV 45 0, h.readV 44 0, h.fpflags))
    (ran (.xadd { d := .vec 40, a := .vec 40, b := .vec 1 } .f32 false) ((lane2 grp 1 0x3F800000 0).writeV 45 0 0x01000001))
      = (0x01000002, 0, 0) := by decide +kernel
theorem test_xrnd : vecs (.xrnd { d := .vec 0, a := .vec 40 } .rn false false .f32) (grp.writeV 45 0 0x01000002) 0
    = (0x4B800001, 0) := by decide +kernel
theorem test_fexp2_at_level_3 : (fun h : Group => (h.stopped, h.trapCause, h.trapInfo))
    (ran (.fexp2 { d := .vec 2, a := .vec 1 } false) { grp with detlevel := 3 }) = (true, 0x0D, 0x0CC) := by decide +kernel

/-! Cross-lane instructions (R205 to R213, the worked example: lanes 0 to 2 act). -/

/-- Lanes 0 to 2 of v1 hold 2^24, 1 and 1, and lane 3, which does not act, holds 2. -/
def reduced : Group :=
  { (((grp.writeV 1 0 0x4B800000).writeV 1 1 0x3F800000).writeV 1 2 0x3F800000).writeV 1 3 0x40000000 with
    frontier := [⟨0, 0, 7, false⟩] }

theorem test_redux_in_order : (fun h : Group => (h.readS 4, h.fpflags)) (ran (.redux { d := .scl 4, a := .vec 1 } .add .f32 false false) reduced)
    = (0x4B800000, 0x10) := by decide +kernel
theorem test_redux_exact : (fun h : Group => (h.readS 4, h.fpflags)) (ran (.redux { d := .scl 4, a := .vec 1 } .add .f32 true false) reduced)
    = (0x4B800001, 0) := by decide +kernel
theorem test_pscan_keeps_lane_3 : (fun h : Group => ((List.range 4).map (h.readV 2)))
    (ran (.pscan { d := .vec 2, a := .vec 1 } .add .f32 true false) (reduced.writeV 2 3 5)) = [0x4B800000, 0x4B800000, 0x4B800000, 5] := by
  decide +kernel
theorem test_shfl_back : (fun h : Group => ((List.range 3).map (h.readV 2)))
    (ran (.shfl { d := .vec 2, a := .vec 1, b := .imm 1 } .back 0 false none) reduced) = [0x4B800000, 0x4B800000, 0x3F800000] := by
  decide +kernel
theorem test_ballot : (ran (.ballot { d := .scl 4, a := .prd 2 } 0) ((reduced.writePred 2 1 true).writePred 2 3 true)).readS 4 = 2 := by
  decide +kernel
theorem test_vote_all : (ran (.vote { d := .prd 1, a := .prd 2 } .all) ((reduced.writePred 2 0 true).writePred 2 1 true)).pred 1 0
    = false := by decide +kernel
theorem test_match_counts : (fun h : Group => ((List.range 3).map (h.readV 2)))
    (ran (.vmatch { d := .vec 2, a := .vec 1 } false true none) reduced) = [1, 2, 2] := by decide +kernel
theorem test_compact : (fun h : Group => ((List.range 3).map (h.readV 2)))
    (ran (.compact { d := .vec 2, a := .vec 1, b := .prd 2 } none) ((reduced.writePred 2 2 true).writeV 2 1 9)) = [0x3F800000, 9, 0] := by
  decide +kernel

/-! Control, traps and waits (R134, R161 to R168, R385, R389). -/

/-- A code copy with clause headers of one slot at offsets 0 and 24. -/
def withCode (g : Group) : State :=
  let s := small g
  ({ s with copies := [(1, { codeSize := 48, refs := 1, loaded := true })] }.setBytes (spaceKey 1 0)
    (leBytes 12 (0x3FF + 2 ^ 15))).setBytes (spaceKey 1 24) (leBytes 12 (0x3FF + 2 ^ 15 + 2 ^ 21 * 0))

/-- The group after one instruction, in a state with code. -/
def ranIn (s : State) (i : Instr) : Group := (s.after (exec i s)).group 1

theorem test_bra_splits : (fun h : Group => h.frontier.map (fun e => (e.pc, e.mask)))
    (ranIn (withCode (grp.writePred 1 1 true)) (.bra { p := 1 } 0)) = [(24, 1), (0, 2)] := by decide +kernel
theorem test_call_links : (fun h : Group => (h.readV 30 0, h.frontier.map (fun e => (e.pc, e.mask))))
    (ranIn (withCode grp) (.call { d := .vec 30 } 0)) = (24, [(0, 3)]) := by decide +kernel
theorem test_ret_beyond_the_code : (fun h : Group => (h.stopped, h.trapCause, h.trapInfo))
    (ranIn (withCode (lane2 grp 30 0 480)) (.ret { a := .vec 30 })) = (true, 0x0F, 0x100) := by decide +kernel
theorem test_exit_drains : (fun h : Group => (h.draining, h.frontier)) (ranIn (withCode grp) (.exit {})) = (true, []) := by
  decide +kernel
theorem test_exit_with_a_record : (fun h : Group => (h.trapCause, h.trapInfo))
    (ranIn (withCode { grp with recs := [(0, 0)] }) (.exit {})) = (0x14, 7) := by decide +kernel
theorem test_trap_faults : (fun t : State => ((t.group 1).trapCause, (t.group 1).trapInfo, (t.func 0).halted))
    ((small grp).after (exec (.trap {} 0x55) (small grp))) = (0x12, 0x55, true) := by decide +kernel
theorem test_sleepc_of_zero : (ran (.sleepc { a := .imm 0, b := .imm 0 }) grp).wait = none := by decide +kernel
theorem test_sleepc_waits : (ran (.sleepc { a := .imm 9, b := .imm 0 }) grp).wait = some ⟨.sleep 9 0, true, false⟩ := by
  decide +kernel
theorem test_waitc : (ran (.waitc { a := .imm 1 } .cw) { grp with counters := [(0, [(7, false), (8, true), (9, true)])] }).wait
    = some ⟨.counter 0 1, false, false⟩ := by decide +kernel
theorem test_plop : (ran (.plop { d := .prd 1, a := .prd 2, b := .prd 0, c := .prd 0 } 0x80) (grp.writePred 2 1 true)).pred 1 1
    = true := by decide +kernel
theorem test_pmov_set_leaves_the_rest : (fun h : Group => ((List.range 4).map (fun p => h.pred p 0)))
    (ran (.pmovSet { a := .imm 0xA } 0x000A) (grp.writePred 2 0 true)) = [true, false, true, false] := by decide +kernel
theorem test_getsr_laneid : vecs (.getsr { d := .vec 2, a := .spc 0 }) grp 2 = (0, 1) := by decide +kernel
theorem test_setsr_fpflags : (ran (.setsr { d := .spc 0x30, a := .imm 0x7F }) grp).fpflags = 0x3F := by decide +kernel
theorem test_swi_wakes : (fun t : State => (t.queue 0 5).wake)
    (let s := { small (grp.writeS 3 0x00020005) with queues := [(5, { live := true, gen := 2, wake := 1 })] }
     s.after (exec (.swiWake { a := .scl 3, b := .imm 6 }) s)) = 7 := by decide +kernel

/-! ## Hypotheses that can be met

For every statement with hypotheses, states and operands that meet them. First: every instruction of a group issues. -/

/-- A group with every register in its budget, on a core of the array or a helm core. -/
def wide (core : Nat) : Group := { grp with core := core, vregs := 320, sregs := 1024 }

/-- The core on which a form runs. -/
def coreFor (f : Form) : Nat := if f.pool == .helm then 256 else 0

/-- Whether an instruction issues in the small state. -/
def canIssue (i : Instr) : Bool :=
  match i.form with
  | none => false
  | some f =>
    let g := wide (coreFor f)
    (slotFate f g { pc := 0, len := 1, fa := some 0, fb := some 1 }).isNone && ((small g).gate g f.op).isEmpty
      && !(g.guarded f.slot).isEmpty && !((formNames f).any g.isPending)

theorem issued (i : Instr) (h : canIssue i = true) : ∃ s id g c f, Issues i s id g c f := by
  unfold canIssue at h
  cases hf : i.form with
  | none => simp [hf] at h
  | some f =>
    simp only [hf, Bool.and_eq_true, Bool.not_eq_true', List.isEmpty_iff, Option.isNone_iff_eq_none] at h
    obtain ⟨⟨⟨h1, h2⟩, h3⟩, h4⟩ := h
    refine ⟨small (wide (coreFor f)), 1, wide (coreFor f), { pc := 0, len := 1, fa := some 0, fb := some 1 }, f, rfl, rfl, rfl, hf, rfl,
      Or.inr rfl, h1, h2, ?_, h4⟩
    intro e
    simp [e] at h3

/-- Instructions of one family that a group issues. -/
def controlIssued : List Instr :=
  [ .nop {}, .bra {} 0x300, .bri { a := .vec 7 }, .call { d := .vec 30 } 0x3C0, .calli { d := .scl 9, a := .scl 12 },
    .ret { a := .vec 30 }, .exit {}, .yield {}, .trap {} 0x80000001, .swiWake { a := .scl 3, b := .imm (-1) },
    .swiClear { a := .scl 3, b := .scl 4 }, .swiMgmt { b := .scl 5 }, .bkpt {} 7,
    .getsr { d := .vec 2, a := .spc 0x50, b := .imm 3 }, .setsr { d := .spc 0x40, a := .scl 8 },
    .sleepc { a := .scl 1, b := .imm 1 }, .waitc { a := .imm 2 } .cx,
    .plop { d := .prd 1, a := .prd 2, b := .prd 3, c := .prd 4 } 0x96, .pmovGet { d := .vec 11 },
    .pmovSet { a := .vec 12 } 0xFFFE ]

theorem witness_issues_control : ∀ i ∈ controlIssued, ∃ s id g c f, Issues i s id g c f :=
  fun i h => issued i ((List.all_eq_true.mp (by decide +kernel : controlIssued.all canIssue = true)) i h)

/-- Instructions of one family that a group issues. -/
def integerIssued : List Instr :=
  [ .iadd { d := .vec 1, a := .scl 2, b := .imm (-3), c := .prd 5 } true false true,
    .isub { d := .scl 1, a := .scl 2, b := .imm 3 } false true false,
    .iadd3 { d := .vec 1, a := .vec 2, b := .vec 3, c := .imm 4 } true true,
    .iaddc { d := .vec 1, a := .vec 2, b := .vec 3, c := .prd 4 } true,
    .imul { d := .vec 1, a := .vec 2, b := .imm (-512) } false true,
    .imulh { d := .vec 1, a := .vec 2, b := .vec 3 } true,
    .imad { d := .vec 1, a := .vec 2, b := .scl 3, c := .scl 1023 } false false,
    .isad { d := .vec 1, a := .vec 2, b := .vec 3, c := .vec 319 } true,
    .imin { d := .vec 1, a := .vec 2, b := .vec 3 } false, .imax { d := .vec 1, a := .vec 2, b := .vec 3 } true,
    .iabs { d := .vec 1, a := .vec 2 } true, .ineg { d := .vec 1, a := .vec 2 } false,
    .icmp { d := .prd 9, a := .vec 2, b := .vec 3, c := .prd 4 } .lt true .or,
    .isel { d := .vec 1, a := .vec 2, b := .vec 3, c := .prd 15 }, .mov { d := .vec 1, a := .imm 511 },
    .movi { d := .scl 1 } 0xDEADBEEF, .band { d := .vec 1, a := .vec 2, b := .vec 3 },
    .bor { d := .vec 1, a := .vec 2, b := .vec 3 }, .bxor { d := .vec 1, a := .vec 2, b := .vec 3 },
    .bnot { d := .vec 1, a := .vec 2 }, .lop3 { d := .vec 1, a := .vec 2, b := .vec 3, c := .vec 4 } 0xE8,
    .shl { d := .vec 1, a := .vec 2, b := .imm 4 } false, .shr { d := .vec 1, a := .vec 2, b := .imm 4 } true,
    .sar { d := .vec 1, a := .vec 2, b := .scl 4 } false,
    .shf { d := .vec 1, a := .vec 2, b := .vec 3, c := .imm 8 } true false,
    .bfe { d := .vec 1, a := .vec 2, b := .scl 3 } true, .bfi { d := .vec 1, a := .vec 2, b := .scl 3, c := .vec 4 },
    .brev { d := .vec 1, a := .vec 2 }, .popc { d := .vec 1, a := .vec 2 }, .clz { d := .vec 1, a := .vec 2 },
    .ctz { d := .vec 1, a := .vec 2 }, .prmt { d := .vec 1, a := .vec 2, b := .vec 3, c := .scl 4 },
    .lea { d := .vec 4, a := .scl 16, b := .vec 2 } 2 true true, .cvti { d := .vec 2, a := .vec 5 } .s64 .s8 true,
    .iaddw { d := .vec 2, a := .vec 4, b := .imm (-1), c := .prd 3 } false true true,
    .isubw { d := .vec 2, a := .vec 4, b := .scl 6 } true false false, .imulw { d := .vec 2, a := .vec 4, b := .vec 6 },
    .imadx { d := .vec 2, a := .vec 5, b := .vec 7, c := .vec 8 } false,
    .icmpw { d := .prd 2, a := .vec 4, b := .vec 6 } .ge false .none,
    .shlw { d := .vec 2, a := .vec 4, b := .imm 33 } true, .shrw { d := .vec 2, a := .vec 4, b := .vec 7 } false,
    .sarw { d := .scl 2, a := .scl 4, b := .scl 7 } false, .movw { d := .vec 2, a := .imm (-1) } ]

theorem witness_issues_integer : ∀ i ∈ integerIssued, ∃ s id g c f, Issues i s id g c f :=
  fun i h => issued i ((List.all_eq_true.mp (by decide +kernel : integerIssued.all canIssue = true)) i h)

/-- Instructions of one family that a group issues. -/
def floatIssued : List Instr :=
  [ .fadd { d := .vec 1, a := .vec 2, b := .vec 3 } .rd true false true,
    .fmul { d := .vec 1, a := .vec 2, b := .vec 3 } .rz false true false,
    .ffma { d := .vec 1, a := .vec 2, b := .vec 3, c := .vec 4, n := .scl 5 } .rs false true true,
    .fmin { d := .vec 1, a := .vec 2, b := .vec 3 } true true,
    .fmax { d := .vec 1, a := .vec 2, b := .vec 3 } false false,
    .fcmp { d := .prd 1, a := .vec 2, b := .vec 3, c := .prd 4 } .un true .xor,
    .frnd { d := .vec 1, a := .vec 2 } .ru false, .fclass { d := .vec 1, a := .vec 2 } true,
    .fdiv { d := .vec 1, a := .vec 2, b := .vec 3 } .rn false, .frcp { d := .vec 1, a := .vec 2 } .rn true,
    .frsq { d := .vec 1, a := .vec 2, c := .vec 9 } .rs false, .fsqrt { d := .vec 1, a := .vec 2 } .rz false,
    .fexp2 { d := .vec 1, a := .vec 2 } true, .flog2 { d := .vec 1, a := .vec 2 } false,
    .fsin { d := .vec 1, a := .vec 2 } false, .fcos { d := .vec 1, a := .vec 2 } true,
    .dadd { d := .vec 2, a := .vec 4, b := .vec 6 } .rn true false,
    .dmul { d := .vec 2, a := .vec 4, b := .imm 5 } .rd false true,
    .dfma { d := .vec 2, a := .vec 4, b := .vec 6, c := .vec 8 } .ru true true,
    .dcmp { d := .prd 1, a := .vec 4, b := .vec 6 } .ord .none,
    .hadd2 { d := .vec 1, a := .vec 2, b := .vec 3 } .rz true true true true,
    .hmul2 { d := .vec 1, a := .vec 2, b := .vec 3 } .rn false true false false,
    .hfma2 { d := .vec 1, a := .vec 2, b := .vec 3, c := .vec 4 } .rd false false false true,
    .hmnx2 { d := .vec 1, a := .vec 2, b := .vec 3 } true true false true,
    .fdp4 { d := .vec 1, a := .vec 2, b := .vec 3, c := .vec 4 } .rn false true false,
    .cvt { d := .vec 1, a := .vec 2 } .rn true true .f16 .f32, .cvtfi { d := .vec 2, a := .vec 3 } .rz false .s64 .f32,
    .cvtif { d := .vec 1, a := .vec 2 } .rn false .f32 .z64,
    .pack { d := .vec 1, a := .vec 2, b := .vec 3, c := .vec 4 } .rn false false .e4m3 1,
    .xadd { d := .vec 10, a := .vec 10, b := .scl 3 } .bf16 true,
    .xrnd { d := .vec 1, a := .vec 20 } .rn false false .f32, .xcmb { d := .vec 10, a := .vec 20, b := .vec 30 } true,
    .xchk { d := .prd 1, a := .vec 20 } .zero ]

theorem witness_issues_float : ∀ i ∈ floatIssued, ∃ s id g c f, Issues i s id g c f :=
  fun i h => issued i ((List.all_eq_true.mp (by decide +kernel : floatIssued.all canIssue = true)) i h)

/-- Instructions of one family that a group issues. -/
def crossLaneIssued : List Instr :=
  [ .shfl { d := .vec 1, a := .vec 2, b := .imm 1 } .back 5 true (some 3),
    .shfl { d := .vec 1, a := .vec 2, b := .vec 3 } .xor 0 false none, .rdlane { d := .scl 1, a := .vec 2, b := .imm 5 },
    .wrlane { d := .vec 1, a := .imm 2, b := .scl 5 }, .ballot { d := .scl 1, a := .prd 2 } 3,
    .vote { d := .prd 1, a := .prd 2 } .same, .vmatch { d := .vec 1, a := .vec 2 } true true (some 15),
    .pscan { d := .vec 1, a := .vec 2 } .min .f32 true true, .redux { d := .scl 1, a := .vec 2 } .xor .z32 false false,
    .compact { d := .vec 1, a := .vec 2, b := .prd 3 } none ]

theorem witness_issues_crossLane : ∀ i ∈ crossLaneIssued, ∃ s id g c f, Issues i s id g c f :=
  fun i h => issued i ((List.all_eq_true.mp (by decide +kernel : crossLaneIssued.all canIssue = true)) i h)

/-- Instructions of one family that a group issues. -/
def globalIssued : List Instr :=
  [ .ld { sel := true, d := .vec 12, a := .scl 16, c := .imm (-8) } .b128 (some .sys) true,
    .ld { d := .vec 1, a := .vec 2, c := .imm 0 } .z16 none false,
    .st { a := .vec 2, b := .scl 5, c := .imm 0 } .b32 (some .dev),
    .atom { d := .vec 4, a := .vec 2, b := .vec 6, c := .scl 7 } .min true true true .acqrel .cluster true,
    .atomc { d := .vec 4, a := .vec 2, b := .vec 8, c := .vec 12 } .b128 .acq .die false (some 9),
    .atomx { a := .vec 2, b := .imm 1, c := .imm 0 } .s32 .rel .sys,
    .atomv { d := .vec 4, a := .vec 12, b := .vec 8, c := .imm 16 } .max true true .rlx .team,
    .ldfut { d := .vec 4, a := .vec 2, c := .imm 0 } true .dev,
    .stfut { a := .vec 2, b := .imm 9, c := .imm 0 } false .sys, .futrst { a := .vec 2, c := .scl 4 } ]

theorem witness_issues_global : ∀ i ∈ globalIssued, ∃ s id g c f, Issues i s id g c f :=
  fun i h => issued i ((List.all_eq_true.mp (by decide +kernel : globalIssued.all canIssue = true)) i h)

/-- Instructions of one family that a group issues. -/
def scratchIssued : List Instr :=
  [ .lds { d := .vec 2, a := .vec 5 } .b64 .full .clus 0x40,
    .sts { a := .scl 5, b := .imm 3 } .b32 .empty .die 0xFFFFFFF0,
    .atoms { d := .vec 4, a := .vec 5, b := .vec 6, c := .vec 7 } .cas false false true .clus,
    .tmov { d := .scl 1, a := .scl 4, b := .scl 5, c := .scl 8 } .g .core true (some 12),
    .bufdec { a := .imm 7, b := .scl 4 }, .bufdecDrop { a := .scl 7 }, .bufsetFill { a := .imm 1, b := .imm 2 },
    .bufsetDrain { a := .imm 1, b := .scl 2 }, .bufsetReset { a := .imm 1 }, .bufqry { a := .imm 1 } .draining 5,
    .mapr { a := .imm 0, b := .scl 4, c := .scl 6 } .clus 7, .unmapr {} 3, .flushr {} 7,
    .feset { a := .vec 1, b := .imm 64 } true .clus, .feqry { d := .vec 1, a := .vec 2 } .die ]

theorem witness_issues_scratch : ∀ i ∈ scratchIssued, ∃ s id g c f, Issues i s id g c f :=
  fun i h => issued i ((List.all_eq_true.mp (by decide +kernel : scratchIssued.all canIssue = true)) i h)

/-- Instructions of one family that a group issues. -/
def matrixIssued : List Instr :=
  [ .msub { a := .imm 0, b := .scl 8 } 31 2, .mrd { d := .vec 8, a := .imm 1, b := .imm 2 } 7, .mwm { a := .scl 3 } ]

theorem witness_issues_matrix : ∀ i ∈ matrixIssued, ∃ s id g c f, Issues i s id g c f :=
  fun i h => issued i ((List.all_eq_true.mp (by decide +kernel : matrixIssued.all canIssue = true)) i h)

/-- Instructions of one family that a group issues. -/
def graphicsIssued : List Instr :=
  [ .emitPrim { a := .vec 0, b := .vec 10, c := .imm (-1) } true, .emitOpen { a := .imm 1, b := .scl 4 },
    .emitClose { a := .imm 1 }, .vbldLat { d := .scl 2, a := .imm 3, b := .scl 4 },
    .vbldSet { d := .scl 2, a := .imm 3, b := .scl 4, c := .scl 6 }, .classify { a := .scl 1, b := .scl 4 } true,
    .sample { d := .vec 4, a := .vec 2, b := .scl 8 } .glob true,
    .chartxf { d := .vec 1, a := .vec 2, b := .imm 15 } true true, .tileout { a := .imm 0, b := .scl 4 } false ]

theorem witness_issues_graphics : ∀ i ∈ graphicsIssued, ∃ s id g c f, Issues i s id g c f :=
  fun i h => issued i ((List.all_eq_true.mp (by decide +kernel : graphicsIssued.all canIssue = true)) i h)

/-- Instructions of one family that a group issues. -/
def raysIssued : List Instr :=
  [ .raybatOpen { a := .imm 0, b := .scl 4 }, .raybatClose { a := .scl 1 }, .raygen { a := .scl 4, b := .scl 8 },
    .rayput { a := .vec 8, b := .vec 16, c := .imm 2 }, .rayqryCnt { d := .scl 2, a := .imm 0 },
    .rayqryWait { d := .scl 2, a := .imm 0 } ]

theorem witness_issues_rays : ∀ i ∈ raysIssued, ∃ s id g c f, Issues i s id g c f :=
  fun i h => issued i ((List.all_eq_true.mp (by decide +kernel : raysIssued.all canIssue = true)) i h)

/-- Instructions of one family that a group issues. -/
def launchIssued : List Instr :=
  [ .spawn { a := .vec 1, b := .scl 2 } 3, .launchQ { a := .scl 2, b := .scl 5 } 9, .launchWg { a := .scl 2 },
    .recalloc { d := .vec 2, a := .scl 1 }, .reccommit { a := .vec 4 },
    .rinv { d := .vec 1, a := .vec 2, b := .vec 3, c := .vec 4 } 2 2 true 17 5,
    .put { a := .vec 2, b := .scl 3, c := .vec 4 } 7 0xAB, .wcnt { d := .scl 1, a := .imm 2, b := .imm 3 } .ref ]

theorem witness_issues_launch : ∀ i ∈ launchIssued, ∃ s id g c f, Issues i s id g c f :=
  fun i h => issued i ((List.all_eq_true.mp (by decide +kernel : launchIssued.all canIssue = true)) i h)

/-- Instructions of one family that a group issues. -/
def syncIssued : List Instr :=
  [ .fence {} .acqrel .sys, .barinit { a := .imm 2, b := .scl 1 } .dev true,
    .bararr { a := .scl 4, b := .imm 1 } true false true, .barwait { a := .imm 3 } false true, .barrel { a := .scl 4 },
    .nbarSet { a := .imm 3, b := .scl 1 }, .waitm { a := .imm 0, b := .imm 16 } .wm ]

theorem witness_issues_sync : ∀ i ∈ syncIssued, ∃ s id g c f, Issues i s id g c f :=
  fun i h => issued i ((List.all_eq_true.mp (by decide +kernel : syncIssued.all canIssue = true)) i h)


/-! ### States at an instruction -/

def cls : Clause := { pc := 0, len := 1, fa := some 0, fb := some 1 }

/-- The form of an instruction. -/
def formOf (i : Instr) : Form := i.form.getD { op := 0, slot := {} }

/-- Whether an instruction issues in a state whose group 1 is `g`. -/
def issuesIn (i : Instr) (s : State) (g : Group) : Bool :=
  s.cur == .group 1 && Tab.get? s.groups 1 == some g && !g.waiting && i.form == some (formOf i) && g.clause == some cls
    && (g.number != 0 || (s.team g.team).badBuf == none) && slotFate (formOf i) g cls == none && s.gate g (formOf i).op == []
    && g.guarded (formOf i).slot != [] && !(formNames (formOf i)).any g.isPending

theorem issues_of {i : Instr} {s : State} {g : Group} (h : issuesIn i s g = true) : Issues i s 1 g cls (formOf i) := by
  simp only [issuesIn, Bool.and_eq_true, Bool.or_eq_true, bne_iff_ne, beq_iff_eq, Bool.not_eq_true'] at h
  obtain ⟨⟨⟨⟨⟨⟨⟨⟨⟨h1, h2⟩, h3⟩, h4⟩, h5⟩, h6⟩, h7⟩, h8⟩, h9⟩, h10⟩ := h
  exact ⟨h1, h2, h3, h4, h5, h6, h7, h8, h9, h10⟩

/-- The lanes in which an instruction acts. -/
def acting (i : Instr) (g : Group) : List Nat := g.guarded (formOf i).slot

/-! ### Register instructions -/

def leaAt (a : Word) : Group := (grp.writeS 17 a).writeS 16 0xFFFFFFFF
def leaOf : Slot := { d := .vec 4, a := .scl 16, b := .imm 1 }

theorem witness_AddressSums : Issues (.lea leaOf 0 false true) (small (leaAt 0x003FFFFF)) 1 (leaAt 0x003FFFFF) cls (formOf (.lea leaOf 0 false true))
    ∧ (acting (.lea leaOf 0 false true) (leaAt 0x003FFFFF)).any (fun l =>
        decide (2 ^ 54 ≤ (BitVec.ofInt 64 (((leaAt 0x003FFFFF).value64 leaOf.a l).toNat + readAs false ((leaAt 0x003FFFFF).value leaOf.b l))).toNat))
      = true := ⟨issues_of (by decide +kernel), by decide +kernel⟩

theorem witness_FloatConditions : (FVal.fin true 0 0 false).isNaN = false ∧ (FVal.inf true).isNaN = false
    ∧ (FVal.nan true).isNaN = true := by decide
theorem witness_RoundingOfExactValues : Fmt.f32 ≠ .e8m0 ∧ 0x00000001 < 2 ^ fmtBits .f32
    ∧ (fpValue .f32 false 0x00000001).isNaN = false ∧ (fpValue .f32 false 0x7F7FFFFF).isInf = false
    ∧ (roundFmt .f32 (.fin false 1 (-150) false) .ru false false 0).1 = 1
    ∧ (roundFmt .f32 (.fin false 1 (-150) false) .ru false false 0).2 &&& flagOF = 0 := by decide +kernel
theorem witness_FloatSpecialResults : 0 < 1 ∧ (FVal.nan false).isNaN = true := by decide
theorem witness_ApproximateFunctions : Issues (.fexp2 { d := .vec 1, a := .vec 2 } false) (small grp) 1 grp cls (formOf (.fexp2 { d := .vec 1, a := .vec 2 } false))
    ∧ grp.detlevel ≠ 3 ∧ ({ grp with detlevel := 3 } : Group).detlevel = 3
    ∧ issuesIn (.fcos { d := .vec 1, a := .vec 2 } false) (small { grp with detlevel := 3 }) { grp with detlevel := 3 } = true :=
  ⟨issues_of (by decide +kernel), by decide, by decide, by decide +kernel⟩
theorem witness_ApproximateFunctions_cases : fpValue .f32 false 0x7FC00000 = .nan false ∧ fpValue .f32 false 0xFF800000 = .inf true
    ∧ fpValue .f32 false 0x80000000 = .fin true 0 (-149) false ∧ fpValue .f32 false 0xBF800000 = .fin true (2 ^ 23) (-23) false
    ∧ (0xC2FC0000 : Word) = BitVec.ofNat 32 (roundFmt .f32 (.fin true 126 0 false) .rn false false 0).1
    ∧ (0x42FE0000 : Word) = BitVec.ofNat 32 (roundFmt .f32 (.fin false 127 0 false) .rn false false 0).1 := by decide +kernel

/-- A group at level 3 whose run at v10 holds the largest sum. -/
def full10 : Group := { ((List.range 10).foldl (fun g k => g.writeV (10 + k) 0 (if k = 9 then 0x7FFFFFFF else if k = 0 then 0xFFFFFFFE else 0xFFFFFFFF)) grp) with
  detlevel := 3 }
theorem witness_ExactAccumulation :
    Issues (.xadd { d := .vec 10, a := .vec 10, b := .imm 1 } .s32 false) (small full10) 1 full10 cls (formOf (.xadd { d := .vec 10, a := .vec 10, b := .imm 1 } .s32 false))
    ∧ (acting (.xadd { d := .vec 10, a := .vec 10, b := .imm 1 } .s32 false) full10).any (fun l =>
        (xaAdd (accumulator full10 (.vec 10) l) (addendOf .s32 false (full10.addendWord .s32 (.imm 1) l))).2.2) = true
    ∧ issuesIn (.xadd { d := .vec 10, a := .vec 10, b := .imm 1 } .s32 false) (small grp) grp = true :=
  ⟨issues_of (by decide +kernel), by decide +kernel, by decide +kernel⟩
theorem witness_ExactAccumulation_sums : xaIsSpecial 0 = false ∧ (xaInt 0 + (2 ^ 319 - 2)).natAbs ≤ 2 ^ 319 - 2
    ∧ 2 ^ 319 - 2 < (xaInt (2 ^ 319 - 2) + 1).natAbs ∧ xaIsSpecial (2 ^ 319 - 2) = false
    ∧ (xaInt 0 + (2 ^ 319 - 2) + -1).natAbs ≤ 2 ^ 319 - 2 := by decide +kernel
theorem witness_ShufflesScansAndReductions : Issues (.shfl { d := .vec 1, a := .vec 2, b := .imm 1 } .back 0 true none) (small grp) 1 grp cls
      (formOf (.shfl { d := .vec 1, a := .vec 2, b := .imm 1 } .back 0 true none)) ∧ grp.lanes = 16 :=
  ⟨issues_of (by decide +kernel), rfl⟩

/-! ### Words and steps -/

theorem witness_EncodedInstructionsDecode : (Instr.exit {}).wf = true ∧ (Instr.exit {}).isProgram = true := by decide
theorem witness_OnlyListedWordsDecode : decodeWord mapOne 6 = .ok (.exit {}) ∧ 0x3FF % 1024 = 0x3FF
    ∧ 0x3A0 % 1024 ≠ 0x3FF ∧ isOperation (0x3A0 % 1024) = false := by decide +kernel

/-- The state after reset with a word placed. -/
def placed (w : Nat) : State := State.reset.withFetchWord 96 w
/-- The word of `exit` and that of `mend`. -/
theorem witness_StepRunsGroupInstruction : NextIs (placed 6) (.group 1) [] ∧ (placed 6).running = true ∧ (placed 6).mayIssue 1 = true
    ∧ Tab.get? (placed 6).spec 1 = none ∧ (Tab.get? (placed 6).groups 1).isSome = true
    ∧ ((placed 6).group 1).clause = some placedClause ∧ (placed 6).codeWord? ((placed 6).group 1) false 12 = some 6
    ∧ decodeBytes ((placed 6).contextMap 0 0) (leBytes 12 6) = .ok (.exit {}) :=
  ⟨rfl, by decide +kernel⟩
def between : State := (placed 6).modGroup 1 (fun g => { g with clause := none })
theorem witness_StepRunsGroupInstruction_between : NextIs between (.group 1) [] ∧ between.running = true ∧ between.mayIssue 1 = true
    ∧ Tab.get? between.spec 1 = none ∧ (between.group 1).clause = none := ⟨rfl, by decide +kernel⟩
theorem witness_StepRunsStreamsAndEvents : NextIs (placed 0x299) (.stream 1) [] ∧ (placed 0x299).running = true ∧ (placed 0x299).streamMay 1 = true
    ∧ (placed 0x299).streamWord? 1 ((placed 0x299).mx 1).pc = some 0x299 ∧ (Instr.mend {}).form = some { op := 0x299, slot := {}, pool := .stream } :=
  ⟨rfl, by decide +kernel⟩
theorem witness_StepRunsStreamsAndEvents_events :
    NextIs { State.reset with agenda := [{ act := .event .getVersion }] } (.event .getVersion) []
    ∧ State.reset.admits .getVersion = true ∧ State.reset.admits (.tail 1 0 1) = false
    ∧ ({ State.reset with mgmt := { mode := .anchorage } } : State).mgmt.mode ≠ .up ∧ isManagement (.tail 0 0 1) = false :=
  ⟨rfl, by decide +kernel⟩
theorem witness_EveryStepKeepsSound : Sound State.reset ∧ step { State.reset with agenda := [{ act := .event .getVersion }] }
    = .next { State.reset with mgmt := { response := .version } } := ⟨⟨by decide, rfl⟩, by rfl⟩

/-! ### Control, traps and waits -/

def coded : State := withCode grp
/-- A group that is not at the last slot of its clause. -/
def inside : Group := { grp with clause := some { cls with len := 2 } }

theorem witness_ControlTransfersAndExit : issuesIn (.bra {} 0) coded grp = true ∧ grp.entry? = some ⟨0, 0, 3, false⟩
    ∧ cls.handler = grp.handler.isSome ∧ (∀ l ∈ acting (.bra {} 0) grp, (0 : Nat) % 12 = 0 ∧ coded.codeWord? grp false 0 = some (0x3FF + 2 ^ 15))
    ∧ (grp.handOn (coded.prioAt grp false) (fun _ => false) (fun _ => 0)).length ≤ 80 := by decide +kernel
/-- Lane 1 is sent beyond the code of 48 bytes, or to a word that is no header. -/
theorem witness_ControlTransfersAndExit_targets :
    (acting (.bri { a := .vec 1 }) (lane2 grp 1 0 48)).find? (fun l => decide (coded.codeSize grp false ≤ ((lane2 grp 1 0 48).value (.vec 1) l).toNat)) = some 1
    ∧ (acting (.bri { a := .vec 1 }) (lane2 grp 1 0 36)).find? (fun l => decide (coded.codeSize grp false ≤ ((lane2 grp 1 0 36).value (.vec 1) l).toNat)) = none
    ∧ (acting (.bri { a := .vec 1 }) (lane2 grp 1 0 36)).find? (fun l => ((lane2 grp 1 0 36).value (.vec 1) l).toNat % 12 != 0
      || (coded.codeWord? grp false ((lane2 grp 1 0 36).value (.vec 1) l).toNat).all (fun w => w % 1024 != 0x3FF)) = some 1
    ∧ issuesIn (.bri { a := .vec 1 }) (small (lane2 grp 1 0 48)) (lane2 grp 1 0 48) = true := by decide +kernel
theorem witness_ControlTransfersAndExit_flow : issuesIn (.nop {}) coded grp = true ∧ grp.handler = none ∧ cls.last = true
    ∧ (exec (.nop {}) coded matches .next _) = true := by decide +kernel
/-- The core of the group has a ready group beside it. -/
def offered : State := { small inside with cores := [(0, { active := [1], ready := [2] })] }
theorem witness_ControlTransfersAndExit_yield : (offered.core 0).ready = 2 :: [] ∧ (offered.core inside.core).active.contains 1 = true
    ∧ ({ cls with len := 2 } : Clause).last = false ∧ offered.cur = .group 1 ∧ Tab.get? offered.groups 1 = some inside
    ∧ slotFate (formOf (.yield {})) inside { cls with len := 2 } = none ∧ offered.gate inside 7 = [] ∧ inside.guarded {} ≠ []
    ∧ inside.waiting = false := by decide +kernel
theorem witness_ControlTransfersAndExit_exit : issuesIn (.exit {}) coded grp = true ∧ grp.recs = [] ∧ cls.handler = false
    ∧ (grp.handOn (coded.prioAt grp false) (grp.guarded {}).contains (fun _ => cls.follow)).length ≤ 80
    ∧ issuesIn (.exit {}) (small { grp with recs := [(0, 0)] }) { grp with recs := [(0, 0)] } = true := by decide +kernel

/-- A team whose queue takes traps, in a context with a handler. -/
def trapped : State :=
  { small grp with teams := [(1, { copy := 1, groups := [1], trapen := true })], contexts := [(0, { live := true, traph := 256 })] }
theorem witness_TrapsAndFaultsTaken : issuesIn (.trap {} 5) trapped grp = true ∧ (trapped.team grp.team).trapen = true
    ∧ (trapped.context grp.part grp.ctx).traph ≠ 0 ∧ grp.handler = none ∧ ((small grp).team grp.team).trapen = false
    ∧ ((small grp).team grp.team).copyOf = none
    ∧ ({ groups := [1], copyOf := some 2 } : Team).copyOf ≠ none := by decide +kernel

/-- A group that is to enter its handler, and the state around it. -/
def entering : Group := { grp with trapping := some ⟨12, .trap, 5⟩ }
def enteringIn : State :=
  { trapped with groups := [(1, entering)], cores := [(0, { active := [1] })], mgmt := { mode := .up } }
theorem witness_HandlersEnteredAndLeft : Tab.get? enteringIn.groups 1 = some entering ∧ entering.trapping = some ⟨12, .trap, 5⟩
    ∧ entering.clause = some cls ∧ entering.entry? = some ⟨0, 0, 3, false⟩ ∧ enteringIn.attends 1 = true ∧ entering.flags = []
    ∧ enteringIn.hasStopped entering.part (enteringIn.coreStopKey entering.core) = false := by decide +kernel
/-- A group in its handler, with a kernel entry of its own beside it. -/
def handling : Group :=
  { grp with
    clause := none, frontier := [⟨0, 0, 1, false⟩, ⟨0, 0, 2, true⟩], trapPc := 12
    handler := some { clause := cls, entry := ⟨0, 0, 2, false⟩, pcAtEntry := 12 } }
theorem witness_HandlersEnteredAndLeft_return : (⟨0, 0, 2, true⟩ : Entry) ∈ handling.frontier ∧ handling.next? = some ⟨0, 0, 2, true⟩
    ∧ handling.trapPc = 12 ∧ cls.last = true ∧ ({ cls with len := 2 } : Clause).last = false ∧ (24 : Word) ≠ 12 := by decide +kernel

/-- What each fate of a slot needs. -/
theorem witness_SlotFates : (formOf (.mrd { d := .vec 1, a := .imm 0, b := .imm 0 } 0)).long = true
    ∧ ({ cls with fa := none } : Clause).fa = none
    ∧ poolOk (formOf (.mrd { d := .vec 1, a := .imm 0, b := .imm 0 } 0)).pool 256 = false
    ∧ (formOf (.frnd { d := .vec 1, a := .vec 2 } .rs false)).legal = false
    ∧ (formOf (.mov { d := .imm 1, a := .vec 2 })).operandsOk = false
    ∧ grp.inBudget (.v 64) = false ∧ (.v 64) ∈ formNames (formOf (.mov { d := .vec 64, a := .vec 2 }))
    ∧ ({ grp with pending := [(.p 1, 5)] } : Group).isPending (.p 1) = true
    ∧ ({ grp with pending := [(.v 2, 5)] } : Group).isPending (.v 2) = true
    ∧ ({ small grp with ops := [(5, { group := 1 })] } : State).gate { grp with acq := [5] } 0x180 ≠ []
    ∧ grp.guarded { p := 1 } = [] ∧ (formOf (.mov { d := .vec 1, a := .vec 2 })).pool ≠ .stream
    ∧ ¬(1 ≤ (formOf (.mov { d := .vec 1, a := .vec 2 })).op ∧ (formOf (.mov { d := .vec 1, a := .vec 2 })).op ≤ 6) := by decide +kernel

/-- Queue 5 of the group's context is live, of generation 2. -/
def waked : Group := grp.writeS 3 0x00020005
def wakedIn : State := { small waked with queues := [(5, { live := true, gen := 2, wake := 1 })] }
theorem witness_WakesAndWaits : issuesIn (.swiWake { a := .scl 3, b := .imm 6 }) wakedIn waked = true
    ∧ (wakedIn.team waked.team).copyOf = none ∧ (waked.value (.scl 3) 0).toNat % 65536 = 5 ∧ (wakedIn.queue 0 5).live = true
    ∧ (wakedIn.queue 0 5).ctx = waked.ctx ∧ (wakedIn.queue 0 5).gen = (waked.value (.scl 3) 0).toNat / 65536
    ∧ wakedIn.mgmt.softQ.length < 64 ∧ issuesIn (.swiMgmt { b := .imm 6 }) wakedIn waked = true
    ∧ issuesIn (.sleepc { a := .imm 0, b := .imm 1 }) wakedIn waked = true ∧ waked.value (.imm 0) 0 = 0
    ∧ issuesIn (.sleepc { a := .imm 1, b := .imm 1 }) wakedIn waked = true ∧ waked.value (.imm 1) 0 ≠ 0
    ∧ (wakedIn.queue 0 waked.queue).wake &&& waked.value (.imm 1) 0 = 0
    ∧ issuesIn (.waitc { a := .imm 0 } .cw) wakedIn waked = true ∧ waked.counter 0 ≤ min (waked.value (.imm 0) 0).toNat 0xFFFF
    ∧ min (waked.value (.imm 0) 0).toNat 0xFFFF < ({ grp with counters := [(0, [(7, false)])] } : Group).counter 0 := by decide +kernel
/-- No queue is named by a handle of another generation. -/
theorem witness_WakesAndWaits_handle : issuesIn (.swiClear { a := .scl 3, b := .imm 6 }) (small waked) waked = true
    ∧ ((small waked).queue 0 5).live = false := by decide +kernel

theorem witness_SpecialRegisters : issuesIn (.getsr { d := .vec 2, a := .spc 0x20 }) (small grp) grp = true ∧ grp.detlevel < refusedFrom 0x20
    ∧ refusedFrom 0x20 ≤ ({ grp with detlevel := 1 } : Group).detlevel ∧ (0x20 : BitVec 8) ≠ 0x50
    ∧ issuesIn (.getsr { d := .vec 2, a := .spc 0x50, b := .imm 3 }) (small grp) grp = true
    ∧ Tab.getD ({ small grp with pt := { view := [(3, 1)] } } : State).pt.view 3 0 ≠ grp.part
    ∧ issuesIn (.setsr { d := .spc 0x42, a := .imm 1 }) (small grp) grp = true := by decide +kernel

/-! ### Scratch memory -/

/-- A group of which lane 0 alone acts. -/
def one : Group := { grp with frontier := [⟨0, 0, 1, false⟩] }
/-- A team with 4,096 bytes of core scratch and, where `obj` says, buffers and regions. -/
def scrTeam : Team := { copy := 1, groups := [1], coreScr := 5, obj := { coreScr := 4096 } }
def scrIn (g : Group) (t : Team) : State := { small g with teams := [(1, t)], allocs := [(5, { size := 4096 })] }

theorem canAct_plain (s : State) (t : Team) (lvl : Lvl) (k : Standing) (n a : Nat) (h1 : t.regions = []) (h2 : t.bufs = [])
    (h3 : k.needs = none) (h4 : s.poison = []) : canAct s t lvl k n a := by
  refine ⟨?_, ?_, ?_, ?_⟩
  · intro j r h; simp [Team.regionAt, h1] at h
  · intro j b h; simp [Team.bufAt, h2] at h
  · intro b h; simp [h3] at h
  · intro i _; simp [h4]

def ldsOf : Slot := { d := .vec 2, a := .imm 0 }
/-- The last word of the scratch. -/
theorem witness_ScratchLoadsAndStores : Issues (.lds ldsOf .b32 .plain .core 4092) (scrIn one scrTeam) 1 one cls (formOf (.lds ldsOf .b32 .plain .core 4092))
    ∧ acting (.lds ldsOf .b32 .plain .core 4092) one = [0]
    ∧ scratchAt (.imm 0) 4092 one 0 % 4 = 0 ∧ inView (scrIn one scrTeam) scrTeam .core false 4 (scratchAt (.imm 0) 4092 one 0)
    ∧ canAct (scrIn one scrTeam) scrTeam .core (ldStanding .plain) 4 (scratchAt (.imm 0) 4092 one 0) ∧ flagRoom one ldsOf :=
  ⟨issues_of (by decide +kernel), by decide +kernel, by decide +kernel, ⟨⟨(5, 4092), by rfl⟩, Or.inl rfl⟩,
    canAct_plain _ _ _ _ _ _ rfl rfl rfl rfl, fun x _ => by simp [one, grp, Group.flagOps, Tab.getD, Tab.get?]⟩
def stsOf : Slot := { a := .imm 0, b := .imm 7 }
theorem witness_ScratchLoadsAndStores_stores : Issues (.sts stsOf .b32 .plain .core 4092) (scrIn one scrTeam) 1 one cls (formOf (.sts stsOf .b32 .plain .core 4092))
    ∧ canAct (scrIn one scrTeam) scrTeam .core (stStanding .plain) 4 (scratchAt (.imm 0) 4092 one 0)
    ∧ ((scrIn one scrTeam).team one.team).copyOf = none :=
  ⟨issues_of (by decide +kernel), canAct_plain _ _ _ _ _ _ rfl rfl rfl rfl, rfl⟩
def bufTeam (st : BufState) : Team := { scrTeam with bufs := [(3, { base := 0, size := 64, state := st })] }
theorem witness_ScratchLoadsAndStores_stops : (scrIn one scrTeam).view scrTeam .core 4096 4 = .error 0
    ∧ issuesIn (.lds ldsOf .b32 .plain .core 4094) (scrIn one scrTeam) one = true ∧ scratchAt (.imm 0) 4094 one 0 % 4 ≠ 0
    ∧ scratchAt (.imm 0) 4096 one 0 % 4 = 0
    ∧ (bufTeam .full).bufAt .core 60 = some (3, { base := 0, size := 64, state := .full }) ∧ (bufTeam .full).regionAt .core 60 = none
    ∧ (bufTeam .empty).bufAt .core 0 = some (3, { base := 0, size := 64, state := .empty })
    ∧ (scrIn one scrTeam).isFull ((scrIn one scrTeam).viewKey scrTeam .core 16) = false
    ∧ FeLd.take ≠ .plain ∧ FeSt.fill ≠ .empty := ⟨by rfl, by decide +kernel⟩
def regTeam : Team := { scrTeam with regions := [(2, { off := 128, size := 256 })] }
theorem witness_ScratchLoadsAndStores_regions : Tab.get? (scrIn one regTeam).teams 1 = some regTeam
    ∧ regTeam.regionAt .core 383 = some (2, { off := 128, size := 256 }) ∧ regTeam.bufAt .core 383 = none
    ∧ (∀ q ∈ ({ base := 0, size := 64 } : Buf).queries, q.state ≠ .full) := by decide +kernel

def atomsOf : Slot := { a := .imm 0, b := .imm 7 }
theorem witness_ScratchAtomicsAndBits : Issues (.atoms atomsOf .add true false false .core) (scrIn one scrTeam) 1 one cls (formOf (.atoms atomsOf .add true false false .core))
    ∧ acting (.atoms atomsOf .add true false false .core) one = [0] ∧ inView (scrIn one scrTeam) scrTeam .core true 4 (scratchAt (.imm 0) 0 one 0)
    ∧ canAct (scrIn one scrTeam) scrTeam .core { write := true } 4 (scratchAt (.imm 0) 0 one 0) ∧ one.detlevel = 0 ∧ scrTeam.bufs = [] :=
  ⟨issues_of (by decide +kernel), by decide +kernel, ⟨⟨(5, 0), by rfl⟩, Or.inl rfl⟩, canAct_plain _ _ _ _ _ _ rfl rfl rfl rfl, rfl, rfl⟩
/-- At level 1, a group of lower clock in the team holds the atomic back. -/
def later : Group := { one with detlevel := 1, clock := 5 }
def laterIn : State := { scrIn later { scrTeam with groups := [1, 2], detlevel := 1 } with groups := [(1, later), (2, { team := 1, detlevel := 1, clock := 4, number := 1 })] }
theorem witness_ScratchAtomicsAndBits_waits : issuesIn (.atoms atomsOf .add true false false .core) laterIn later = true ∧ 1 ≤ later.detlevel
    ∧ laterIn.clockLeast 1 = false := by decide +kernel
theorem witness_ScratchAtomicsAndBits_bits : (scrIn one scrTeam).view scrTeam .core 0 512 = .ok (5, 0)
    ∧ issuesIn (.feset { a := .imm 0, b := .imm 16 } true .core) (scrIn one scrTeam) one = true
    ∧ (one.value (.imm 16) 0).toNat % 16 = 0 ∧ 16 ≤ (one.value (.imm 16) 0).toNat
    ∧ issuesIn (.feset { a := .imm 0, b := .imm 15 } true .core) (scrIn one scrTeam) one = true ∧ (one.value (.imm 15) 0).toNat < 16
    ∧ issuesIn (.feqry { d := .vec 1, a := .imm 0 } .core) (scrIn one scrTeam) one = true
    ∧ (scrIn one scrTeam).poison = [] ∧ scrTeam.regions = [] := ⟨by rfl, by decide +kernel⟩

/-! Single steps: what lane 0 stores is read back, an atomic returns the old value, and a blocked load waits (R233, R243, R244). -/

def mem4 (s : State) (a : Nat) : Nat := s.nat (s.viewKey (s.team 1) .core a) 4
theorem test_sts_stores : mem4 ((scrIn one scrTeam).after (exec (.sts stsOf .b32 .plain .core 4092) (scrIn one scrTeam))) 4092 = 7 := by
  decide +kernel
theorem test_sts_fill_leaves_full : ((scrIn one scrTeam).after (exec (.sts stsOf .b32 .fill .core 32) (scrIn one scrTeam))).full
    = [spaceKey 5 32] := by decide +kernel
theorem test_lds_take_waits : (((scrIn one scrTeam).after (exec (.lds ldsOf .b32 .take .core 32) (scrIn one scrTeam))).group 1).wait
    = some ⟨.granule (spaceKey 5 32) true, false, false⟩ := by decide +kernel
theorem test_lds_sign_extends : ((((scrIn one scrTeam).setBytes (spaceKey 5 3) [0x80]).after
    (exec (.lds ldsOf .s8 .plain .core 3) ((scrIn one scrTeam).setBytes (spaceKey 5 3) [0x80]))).ops.map (fun o => o.2.res.map (fun r => leNat r.bytes)))
    = [[0xFFFFFF80]] := by decide +kernel
theorem test_atoms_adds_per_lane : mem4 ((scrIn grp scrTeam).after (exec (.atoms atomsOf .add true false false .core) (scrIn grp scrTeam))) 0
    = 14 := by decide +kernel
theorem test_atoms_cas : mem4 ((scrIn one scrTeam).after (exec (.atoms { a := .imm 0, b := .imm 7, c := .imm 1 } .cas false false false .core)
    (scrIn one scrTeam))) 0 = 0 := by decide +kernel
theorem test_feset : ((scrIn one scrTeam).after (exec (.feset { a := .imm 16, b := .imm 32 } true .core) (scrIn one scrTeam))).full
    = [spaceKey 5 16, spaceKey 5 32] := by decide +kernel
theorem test_lds_out_of_range : (fun g : Group => (g.trapCause, g.trapInfo))
    (((scrIn one scrTeam).after (exec (.lds ldsOf .b32 .plain .core 4096) (scrIn one scrTeam))).group 1) = (0x0A, 0) := by decide +kernel

/-! ### Buffers, regions and barriers -/

def bufOf (st : BufState) (fills drains : Nat) (qs : List Query) : Buf :=
  { base := 0, size := 64, maxFills := 2, maxDrains := 2, state := st, fills := fills, drains := drains, queries := qs }
def bufIn (b : Buf) : State := scrIn one { scrTeam with bufs := [(3, b)] }
/-- A group whose s8 to s11 declare a buffer of the first 64 bytes of core scratch, with two fills and two drains. -/
def declaring : Group := (((one.writeS 8 0x00020000).writeS 9 0).writeS 10 64).writeS 11 2

theorem witness_DeclaredBuffers : issuesIn (.bufdec { a := .imm 3, b := .scl 8 }) (scrIn declaring scrTeam) declaring = true
    ∧ Tab.get? (scrIn declaring scrTeam).teams 1 ≠ none ∧ onceOf (.imm 63) declaring [0] < 64 ∧ onceOf (.imm 63) declaring [0] = 63
    ∧ Tab.get? scrTeam.bufs 63 = none
    ∧ ((List.range 4).map (fun j => (declaring.valueAt (.scl 8) j 0).toNat)) = [0x00020000, 0, 64, 2] := by decide +kernel
theorem witness_DeclaredBuffers_fields : Declares (scrIn declaring scrTeam) scrTeam 3 0x00020000 0 64 2 .core :=
  ⟨by decide, by decide, by decide, by decide, ⟨(5, 0), by rfl⟩, by decide, by decide⟩
theorem witness_DeclaredBuffers_counts : issuesIn (.bufsetFill { a := .imm 3, b := .imm 1 }) (bufIn (bufOf .filling 1 0 [])) one = true
    ∧ 1 + onceOf (.imm 1) one [0] = (bufOf .filling 1 0 []).maxFills ∧ 0 + onceOf (.imm 1) one [0] < (bufOf .empty 0 0 []).maxFills
    ∧ issuesIn (.bufsetDrain { a := .imm 3, b := .imm 1 }) (bufIn (bufOf .full 0 0 [])) one = true
    ∧ 1 + onceOf (.imm 1) one [0] = (bufOf .draining 0 1 []).maxDrains ∧ 0 + onceOf (.imm 1) one [0] < (bufOf .full 0 0 []).maxDrains
    ∧ Tab.get? ((bufIn (bufOf .full 0 0 [])).team 1).bufs 3 = some (bufOf .full 0 0 []) ∧ onceOf (.imm 3) one [0] = 3
    ∧ onceOf (.imm (-1)) one [0] > 65535 ∧ (bufOf .empty 0 0 []).maxFills < 0 + onceOf (.imm 3) one [0] := by decide +kernel
theorem witness_DeclaredBuffers_queries : issuesIn (.bufqry { a := .imm 3 } .full 5) (bufIn (bufOf .empty 0 0 [])) one = true
    ∧ (bufOf .empty 0 0 [⟨.full, 5, 1, 12⟩, ⟨.full, 5, 1, 12⟩, ⟨.full, 5, 1, 12⟩]).queries.length < 4
    ∧ 4 ≤ (bufOf .empty 0 0 [⟨.full, 5, 1, 12⟩, ⟨.full, 5, 1, 12⟩, ⟨.full, 5, 1, 12⟩, ⟨.full, 5, 1, 12⟩]).queries.length
    ∧ issuesIn (.bufsetReset { a := .imm 3 }) (bufIn (bufOf .full 0 0 [])) one = true
    ∧ issuesIn (.bufdecDrop { a := .imm 3 }) (bufIn (bufOf .empty 0 0 [])) one = true := by decide +kernel
theorem test_bufset_completes_a_buffer : Tab.get? (((bufIn (bufOf .filling 1 0 [])).after
    (exec (.bufsetFill { a := .imm 3, b := .imm 1 }) (bufIn (bufOf .filling 1 0 [])))).team 1).bufs 3 = some (bufOf .full 2 0 []) := by
  decide +kernel
theorem test_bufset_refuses_more : (fun g : Group => (g.trapCause, g.trapInfo)) (((bufIn (bufOf .filling 1 0 [])).after
    (exec (.bufsetFill { a := .imm 3, b := .imm 2 }) (bufIn (bufOf .filling 1 0 [])))).group 1) = (0x09, 0x00030004) := by decide +kernel

/-- Cluster scratch of 8,192 bytes, and a group that maps its second page. -/
def mapTeam : Team := { copy := 1, groups := [1], clusScr := 6, obj := { clusScr := 8192 } }
def mapping : Group := ((one.writeS 4 0x3000).writeS 5 0).writeS 6 4096 |>.writeS 7 4096
def mapIn (t : Team) : State := { small mapping with teams := [(1, t)], allocs := [(6, { size := 8192 })] }
def mapped (dirty : List Nat) (wb : List (Nat × Nat)) (un : Option Nat) : Team :=
  { mapTeam with regions := [(2, { lvl := .clus, off := 4096, va := 0x3000, size := 4096, filled := [0], dirty := dirty, wb := wb, unmap := un })] }
def maprOf : Slot := { a := .scl 7, b := .scl 4, c := .scl 6 }
theorem witness_MappedRegions : (mapIn mapTeam).view mapTeam .clus 4096 4096 = .ok (6, 4096)
    ∧ issuesIn (.mapr maprOf .clus 2) (mapIn mapTeam) mapping = true ∧ onceOf (.scl 7) mapping [0] = 4096 ∧ onceOf (.scl 6) mapping [0] = 4096
    ∧ (mapping.value64 (.scl 4) 0).toNat = 0x3000 ∧ mapTeam.regions = [] ∧ mapTeam.bufs = []
    ∧ ((mapping.writeS 5 0x400000).value64 (.scl 4) 0).toNat ≥ 2 ^ 54 ∧ onceOf (.scl 6) (mapping.writeS 6 0) [0] = 0 :=
  ⟨by rfl, by decide +kernel⟩
theorem witness_MappedRegions_writes_back : issuesIn (.flushr {} 2) (mapIn (mapped [1] [] none)) mapping = true
    ∧ (mapping.counter 1 < 0xFFFF) ∧ ((mapped [1] [] none).regions.map (fun r => (r.1, r.2.dirty))) = [(2, [1])]
    ∧ issuesIn (.unmapr {} 2) (mapIn (mapped [] [(1, 7)] none)) mapping = true
    ∧ issuesIn (.unmapr {} 2) (mapIn (mapped [] [] none)) mapping = true
    ∧ issuesIn (.flushr {} 2) (mapIn (mapped [] [] (some 9))) mapping = true
    ∧ issuesIn (.flushr {} 1) (mapIn (mapped [] [] none)) mapping = true ∧ Tab.get? (mapped [] [] none).regions 1 = none := by decide +kernel
theorem test_mapr_off_a_page : (fun g : Group => (g.trapCause, g.trapInfo))
    (((mapIn mapTeam).after (exec (.mapr { a := .imm 16, b := .scl 4, c := .scl 6 } .clus 2) (mapIn mapTeam))).group 1) = (0x06, 0x31) := by
  decide +kernel

/-- A numbered barrier of two arrivals, one of which is pending. -/
def barTeam : Team := { scrTeam with nbars := [(4, { phase := 7, expect := 2, pending := 1, nextexp := 2 }), (6, { expect := 0, pending := 0, nextexp := 0 })] }
def barIn (g : Group) : State := scrIn g barTeam
def came : Group := { one with nbarArr := [(4, 7)] }
theorem witness_BarriersAndFences : issuesIn (.fence {} .acqrel .sys) (barIn one) one = true
    ∧ issuesIn (.bararr { a := .imm 4, b := .imm 1 } false false true) (barIn one) one = true
    ∧ onceOf (.imm 4) one [0] < 16 ∧ (barIn one).releaseWrites 1 .team = [] ∧ overArrival (barTeam.nbar 4) 1 = none
    ∧ overArrival (barTeam.nbar 4) 2 = some 1 ∧ overArrival (barTeam.nbar 4) 0 = some 2 ∧ (barTeam.nbar 4).pending = 1
    ∧ 15 < onceOf (.imm 16) one [0] ∧ (barIn one).ops = []
    ∧ issuesIn (.barwait { a := .imm 4 } false false) (barIn came) came = true ∧ Tab.get? came.nbarArr 4 = some 7
    ∧ Tab.get? one.nbarArr 4 = none ∧ (barTeam.nbar 4).expect ≠ 0 ∧ (barTeam.nbar 6).expect = 0
    ∧ issuesIn (.nbarSet { a := .imm 5, b := .imm 2 }) (barIn one) one = true ∧ (barTeam.nbar 5).pending = (barTeam.nbar 5).expect := by
  decide +kernel
theorem witness_BarriersAndFences_phases : past { phase := 8 } 7 ∧ ¬past { phase := 7 } 7 ∧ past { phase := 0x7FFFFFFF } 0
    ∧ ¬past { phase := 0x80000000 } 0 := by unfold past; decide
/-- Entry 0 of die 0's table is held by context 0, with one arrival pending; its handle carries generation 3. -/
def objHandle : Word := 0x00030000
def objObj : BarObj := { gen := 3, held := true, bar := { phase := 7, expect := 2, pending := 1, nextexp := 2 } }
def holder : Group := { (one.writeS 4 objHandle) with objArr := [(objHandle, 7)] }
def objIn (g : Group) : State := { scrIn g scrTeam with barObjs := [(0, objObj)] }
theorem witness_BarriersAndFences_objects : namesObj (objIn holder) holder objHandle ∧ holder.detlevel = 0
    ∧ issuesIn (.bararr { a := .scl 4, b := .imm 1 } true false true) (objIn holder) holder = true
    ∧ (objIn holder).releaseWrites 1 .team = [] ∧ overArrival objObj.bar 1 = none
    ∧ (arrived objObj.bar 1 false).phase ≠ objObj.bar.phase ∧ (arrived { objObj.bar with pending := 2 } 1 false).phase = objObj.bar.phase
    ∧ (holder.objArr.find? (fun x => x.1 == objHandle)).map Prod.snd = some 7 ∧ objObj.bar.expect ≠ 0
    ∧ issuesIn (.barrel { a := .scl 4 }) (objIn holder) holder = true ∧ holder.waitsOn objHandle = false
    ∧ ({ holder with wait := some ⟨.obj objHandle 7, true, false⟩ } : Group).waitsOn objHandle = true
    ∧ 1 ≤ ({ holder with detlevel := 1 } : Group).detlevel :=
  ⟨⟨by decide +kernel, by decide +kernel, by decide +kernel, by decide +kernel, by decide +kernel⟩, by decide +kernel⟩
theorem witness_BarriersAndFences_init : issuesIn (.barinit { a := .imm 2, b := .imm 32 } .team false) (scrIn one scrTeam) one = true
    ∧ onceOf (.imm 32) one [0] % 16 = 0 ∧ 0 < onceOf (.imm 2) one [0] ∧ inView (scrIn one scrTeam) scrTeam .core false 16 32
    ∧ canAct (scrIn one scrTeam) scrTeam .core (stStanding .fill) 16 32 ∧ lowestFree (scrIn one scrTeam) 0 (some 0) :=
  ⟨by decide +kernel, by decide +kernel, by decide +kernel, ⟨⟨(5, 32), by rfl⟩, Or.inl rfl⟩, canAct_plain _ _ _ _ _ _ rfl rfl rfl rfl,
    rfl, by decide +kernel, by intro i h; simp at h⟩
theorem test_bararr_completes_a_phase : (((barIn one).after (exec (.bararr { a := .imm 4, b := .imm 1 } false false false) (barIn one))).team 1).nbar 4
    = { phase := 8, expect := 2, pending := 2, nextexp := 2 } := by decide +kernel
theorem test_bararr_too_many : (fun g : Group => (g.trapCause, g.trapInfo))
    (((barIn one).after (exec (.bararr { a := .imm 4, b := .imm 2 } false false false) (barIn one))).group 1) = (0x0C, 0x00010401) := by
  decide +kernel
theorem test_barwait_waits : (((barIn came).after (exec (.barwait { a := .imm 4 } false false) (barIn came))).group 1).wait
    = some ⟨.nbar 4 7, true, false⟩ := by decide +kernel
theorem test_barrel_frees : (fun b : BarObj => (b.held, b.gen)) (((objIn holder).after (exec (.barrel { a := .scl 4 }) (objIn holder))).barObj 0)
    = (false, 4) := by decide +kernel

/-! ### Global memory -/

/-- Tables of context 0 of partition 0 (R216, R217): the first 1 GiB of addresses read and write memory, the next is absent,
the next read-only, the next a malformed leaf, the next strongly ordered registers. -/
def pageMem : State :=
  (((((({ State.reset with contexts := [(0, { live := true, ptroot := 0x100000 })] }).setNat (globalKey 0 0x100000) 8 0x101001).setNat
    (globalKey 0 0x101000) 8 0x102001).setNat (globalKey 0 0x102000) 8 7).setNat (globalKey 0 0x102010) 8 3).setNat
    (globalKey 0 0x102018) 8 0x43)
def glob (g : Group) : State := { small g with mem := pageMem.mem, contexts := pageMem.contexts }
/-- Lane 0 alone acts; s4 and s5 hold an address. -/
def atVa (va : Nat) : Group := (one.writeS 4 (BitVec.ofNat 32 va)).writeS 5 (BitVec.ofNat 32 (va / 2 ^ 32))
def gldOf : Slot := { d := .vec 2, a := .scl 4, c := .imm 0 }
def gstOf : Slot := { a := .scl 4, b := .imm 7, c := .imm 0 }
def askLd : Ask := { n := 4, align := 4, soOk := true, hostOk := true, body := .ld .b32, returns := true }
def wantLd (g : Group) (l : Nat) : Want := { lane := l, va := addressOf gldOf g l }

theorem witness_GlobalInstructionsSend : Issues (.ld gldOf .b32 none false) (glob (atVa 0x1000)) 1 (atVa 0x1000) cls (formOf (.ld gldOf .b32 none false))
    ∧ mayGo (glob (atVa 0x1000)) (atVa 0x1000) gldOf askLd wantLd (acting (.ld gldOf .b32 none false) (atVa 0x1000)) :=
  ⟨issues_of (by decide +kernel), fun _ => rfl, by decide +kernel, fun x _ => by simp [atVa, one, grp, Group.writeS, Group.flagOps, Tab.getD, Tab.get?]⟩
def xOf : Slot := { a := .scl 4, b := .imm 7, c := .imm 0 }
theorem witness_GlobalInstructionsSend_writes : issuesIn (.st gstOf .b32 none) (glob (atVa 0x1000)) (atVa 0x1000) = true
    ∧ ((glob (atVa 0x1000)).team 1).copyOf = none
    ∧ issuesIn (.atomx xOf .s32 .rel .sys) (glob { atVa 0x1000 with detlevel := 3 }) { atVa 0x1000 with detlevel := 3 } = true
    ∧ addressOf xOf (atVa 0x1000) 0 % 64 = 0
    ∧ (({ glob (atVa 0x1000) with teams := [(1, { copy := 1, groups := [1], copyOf := some 9 })] } : State).team 1).copyOf ≠ none := by decide +kernel
theorem witness_GlobalInstructionsSend_stops :
    1 ≤ ({ atVa 0x1000 with detlevel := 1 } : Group).detlevel
    ∧ issuesIn (.atom { gstOf with d := .vec 2 } .add true false true .rel .sys false) (glob { atVa 0x1000 with detlevel := 1 }) { atVa 0x1000 with detlevel := 1 } = true
    ∧ addressOf gldOf (atVa 0x1002) 0 % 4 ≠ 0
    ∧ (glob one).access 0 0 0 (2 ^ 54) false true true = .bad .prot 0x05
    ∧ (glob one).access 0 0 0 (2 ^ 31) true true true = .bad .prot 0x10
    ∧ (glob one).access 0 0 0 (3 * 2 ^ 30) false true true = .bad .nomap 2
    ∧ (glob one).access 0 0 0 (2 ^ 30) false true true = .miss { page := 2 ^ 30, va := 2 ^ 30 }
    ∧ ((glob one).func 0).prqBase = 0 ∧ (({ glob one with funcs := [(0, { prqBase := 4096 })] } : State).func 0).prqBase ≠ 0
    ∧ (2 ^ 30 + 1, 15) = ({ atVa (2 ^ 30) with misses := (2 ^ 30 + 1, 15) } : Group).misses
    ∧ (actingLanes gldOf [0]).find? (fun l => (reached (glob (atVa (2 ^ 30))) (atVa (2 ^ 30)) askLd (wantLd (atVa (2 ^ 30)) l)).isNone) = some 0 := by
  decide +kernel

/-- An operation with one access in one action. -/
def acc (n : Nat) (d : List Byte) : LaneAcc := { lane := 0, va := 0x2000, key := 0x2000, n := n, data := d, cmp := d }
def actOn (a : LaneAcc) : LineAct := { line := a.key, accs := [a] }
def opIn (body : OpBody) (a : LaneAcc) : Op := { group := 1, body := body, lines := [actOn a], dest := .vec 2 }
def withOp (o : Op) : State := { small one with ops := [(7, o)] }

theorem ready_of {s : State} {id : Nat} {line : Nat} {o : Op} {la : LineAct} (h1 : s.ops = [(id, o)]) (h2 : o.lines = [la]) (h3 : la.done = false)
    (h4 : o.after = []) (h6 : la.line = line) (h5 : (s.team (s.group o.group).team).saved = false) : LineReady s id line o 0 la := by
  refine ⟨by simp [h1, Tab.get?], by simp [h2], h6, h3, fun j _ hj => by omega, by simp [h4], h5, ?_, fun _ j _ hj => by omega⟩
  intro x hx _ hlt
  simp [h1] at hx
  subst hx
  exact absurd hlt (Nat.lt_irrefl _)

theorem witness_LineActions : LineReady (withOp (opIn (.ld .b32) (acc 4 []))) 7 0x2000 (opIn (.ld .b32) (acc 4 [])) 0 (actOn (acc 4 []))
    ∧ clean (withOp (opIn (.ld .b32) (acc 4 []))) (.ld .b32) (actOn (acc 4 [])) :=
  ⟨ready_of rfl rfl rfl rfl rfl rfl, fun _ _ _ _ => rfl⟩
theorem witness_LineActions_writes : LineReady (withOp (opIn (.atom .add true false) (acc 4 [1, 0, 0, 0]))) 7 0x2000
      (opIn (.atom .add true false) (acc 4 [1, 0, 0, 0])) 0 (actOn (acc 4 [1, 0, 0, 0]))
    ∧ (OpBody.atom .add true false).isGlobalWrite = true
    ∧ clean (withOp (opIn (.atom .add true false) (acc 4 [1, 0, 0, 0]))) (.atom .add true false) (actOn (acc 4 [1, 0, 0, 0]))
    ∧ unlinked (withOp (opIn (.atom .add true false) (acc 4 [1, 0, 0, 0]))) (.atom .add true false) (actOn (acc 4 [1, 0, 0, 0])) :=
  ⟨ready_of rfl rfl rfl rfl rfl rfl, rfl, fun _ _ _ _ => rfl, fun r hr => absurd hr (by simp [withOp, small, State.reset])⟩
def linkedAt (slot : Nat) (s : State) : State := { s with futs := [⟨0, 4, slot, 7, [0]⟩] }
theorem witness_LineActions_protected : (linkedAt 0x2010 (withOp (opIn (.st .b32) { acc 4 [1, 0, 0, 0] with key := 0x201B, va := 0x201B }))).linkedHit
    ((actOn { acc 4 [1, 0, 0, 0] with key := 0x201B, va := 0x201B }).keys (.st .b32)) = some 0x2010
    ∧ ({ acc 4 [1, 0, 0, 0] with reach := .kick } : LaneAcc).reach ≠ .memory := by decide +kernel

/-- A future slot's operation, and the slot empty, full, with a reader linked, and malformed. -/
def futOp (b : OpBody) : Op := opIn b (acc 16 [9, 0, 0, 0, 0, 0, 0, 0])
def slotIn (b : OpBody) (ctrl : Nat) (recs : List FutRec) : State := { (withOp (futOp b)).setNat 0x2008 4 ctrl with futs := recs }
theorem witness_FuturesAndCompletions : LineReady (slotIn (.ldfut true) 1 []) 7 0x2000 (futOp (.ldfut true)) 0 (actOn (acc 16 [9, 0, 0, 0, 0, 0, 0, 0]))
    ∧ clean (slotIn (.ldfut true) 1 []) (.ldfut true) (actOn (acc 16 [9, 0, 0, 0, 0, 0, 0, 0]))
    ∧ ctrlOf (slotIn (.ldfut true) 1 []) 0x2000 = 1 ∧ ctrlOf (slotIn (.ldfut true) 0 []) 0x2000 = 0
    ∧ ctrlOf (slotIn (.ldfut true) 2 [⟨0, 0, 0x2000, 3, [0]⟩]) 0x2000 = 2
    ∧ linkedTo (slotIn (.ldfut true) 2 [⟨0, 0, 0x2000, 3, [0]⟩]) 0x2000 ≠ [] ∧ ctrlOf (slotIn (.ldfut true) 3 []) 0x2000 = 3
    ∧ (actOn (acc 16 [9, 0, 0, 0, 0, 0, 0, 0])).accs = [acc 16 [9, 0, 0, 0, 0, 0, 0, 0]] :=
  ⟨ready_of rfl rfl rfl rfl rfl rfl, fun _ _ _ _ => rfl, by decide +kernel⟩
theorem witness_FuturesAndCompletions_free (w : Bool) : freeIn (slotIn (.ldfut w) 0 []) 0 0 ∧ ¬malformed (slotIn (.ldfut w) 0 []) 0x2000
    ∧ malformed (slotIn (.ldfut w) 2 []) 0x2000 := by
  refine ⟨⟨by decide, fun r hr => absurd hr (by simp [slotIn]), fun x hx => absurd hx (by simp [slotIn, withOp, small, State.reset, State.setNat, State.setBytes])⟩, ?_, ?_⟩
  · cases w <;> rintro (h | h | h) <;> revert h <;> decide +kernel
  · cases w <;> exact Or.inr (Or.inr (by decide +kernel))
/-- A table whose 256 records are all linked. -/
theorem witness_FuturesAndCompletions_none : ∀ i, ¬freeIn { State.reset with futs := (List.range 256).map (fun k => ⟨0, k, 0x3000, 1, [0]⟩) } 0 i := by
  rintro i ⟨h, hf, -⟩
  exact hf ⟨0, i, 0x3000, 1, [0]⟩ (List.mem_map.mpr ⟨i, List.mem_range.mpr h, rfl⟩) rfl rfl
def walking : State := { withOp (futOp (.ldfut true)) with walks := [⟨3, [1, 0, 0, 0, 0, 0, 0, 0], [⟨0, 0, 0x2000, 7, [0]⟩]⟩] }
theorem witness_FuturesAndCompletions_ends : (walking.walks.find? (fun w => w.op == 3)) = some ⟨3, [1, 0, 0, 0, 0, 0, 0, 0], [⟨0, 0, 0x2000, 7, [0]⟩]⟩
    ∧ Tab.get? walking.ops 7 = some (futOp (.ldfut true))
    ∧ ({ walking with futHeld := [⟨0, 0, 0x2000, 7, [0]⟩] } : State).futHeld = [⟨0, 0, 0x2000, 7, [0]⟩]
    ∧ ({ opIn (.ld .b32) (acc 4 []) with lines := [{ actOn (acc 4 []) with done := true }], flag := some 0 } : Op).lines.all LineAct.done = true
    ∧ ({ opIn (.st .b32) (acc 4 []) with lines := [{ actOn (acc 4 []) with done := true }], counter := some 0 } : Op).flag = none
    ∧ (∀ j ∈ [(3 : Nat), 5], 3 ≤ j) := by decide +kernel

/-! A load's value reaches its register when its flag clears; ATOM returns the old value (R46, R259, R261). -/

def loading : State := { (small one).setNat 0x2000 4 0x80 with ops := [(7, { opIn (.ld .s8) (acc 1 []) with flag := some 0 })] }
theorem test_load_returns : (((loading.after (exec (.homeSliceLineAction 7 0x2000) loading)).after
    (exec (.flagCompletion 7) (loading.after (exec (.homeSliceLineAction 7 0x2000) loading)))).group 1).readV 2 0 = 0xFFFFFF80 := by decide +kernel
theorem test_atom_adds : ((loading.setNat 0x2000 4 5).after (exec (.homeSliceLineAction 7 0x2000)
    { loading.setNat 0x2000 4 5 with ops := [(7, opIn (.atom .add true false) (acc 4 [3, 0, 0, 0]))] })).nat 0x2000 4 = 8 := by decide +kernel
theorem test_stfut_fills : (fun s : State => (s.nat 0x2000 8, s.nat 0x2008 4))
    ((slotIn (.stfut true) 0 []).after (exec (.homeSliceLineAction 7 0x2000) (slotIn (.stfut true) 0 []))) = (9, 1) := by decide +kernel

/-! ### Translation -/

/-- A group that waits for the answer to request 5, which has been posted. -/
def asked : Group := { one with request := some 5, wait := some ⟨.page 5, false, false⟩ }
def askedOf (posted : Bool) : PageReq := { who := 1, pages := [{ page := 0x40000000, va := 0x40000004 }], posted := posted }
def askedIn (posted : Bool) : State :=
  { glob asked with preqs := [(5, askedOf posted)], tlb := [⟨0, 0, 0x40000000, { pa := 0, size := 4096 }⟩] }
theorem witness_TranslationAndPages : entryBit 7 0 = true ∧ entryBit 0x101001 1 = false ∧ entryBit 0x43 0 = true ∧ 0x43 / 64 % 64 ≠ 0
    ∧ pageMem.rangeTarget 0 (frameOf 7) (2 ^ 30) = .mem 0 ∧ frameOf 7 % 2 ^ 30 = 0
    ∧ pageMem.rangeTarget 0 (frameOf 0x101001) 4096 = .mem 0x101000
    ∧ pageMem.walk 0 0 0x3FFFFFFF = .leaf { pa := 0, size := 2 ^ 30, w := true }
    ∧ pageMem.translate 0 0 0 (2 ^ 30) = .miss ∧ pageMem.translate 0 0 0 (3 * 2 ^ 30) = .malformed
    ∧ pageMem.translate 0 0 0 (2 ^ 31) = .leaf { pa := 0, size := 2 ^ 30 } ∧ 2 ^ 31 < 2 ^ 54 := by decide +kernel
/-- The ends of the partition's memory, of the host's window, of the registers and of the kicks (R215). -/
theorem witness_TranslationAndPages_targets : 3 * 2 ^ 28 * (4 * State.reset.memUnits 0) = 412316860416
    ∧ 412316860415 < 3 * 2 ^ 28 * (4 * State.reset.memUnits 0 - (State.reset.func 0).dropped.length)
    ∧ State.reset.capacity 0 ≤ 2 ^ 50 ∧ State.reset.target 0 412316860416 = .nothing
    ∧ State.reset.target 0 (2 ^ 51 + (2 ^ 51 - 1)) = .host (2 ^ 55 + (2 ^ 51 - 1)) := by decide +kernel
theorem witness_TranslationAndPages_answers : Tab.get? (askedIn true).preqs (2 ^ 32 * 0 + 5 % 2 ^ 32) = some (askedOf true)
    ∧ (askedOf true).answer = none ∧ (askedOf true).kind = 1 ∧ ((askedIn true).context 0 0).saved = false
    ∧ Tab.get? (askedIn true).groups 1 = some asked ∧ Tab.get? (askedIn true).preqs 6 = none
    ∧ (∀ x ∈ (askedIn true).preqs, x.2.part = 0 → x.2.posted = true) ∧ (askedIn false).preqs = [(5, askedOf false)]
    ∧ ((askedIn false).func 0).prqHead - 0 ≠ BitVec.ofNat 32 (ringSize ((askedIn false).func 0).prqSize 4096)
    ∧ ({ askedIn true with funcs := [(0, { invBusy := true, invCmd := 0x80 })] } : State).func 0 = { invBusy := true, invCmd := 0x80 }
    ∧ ((askedIn true).func 0).invBusy = false ∧ (0x80 : Word).getLsbD 7 = true ∧ (0x40 : Word).getLsbD 7 = false := by decide +kernel
theorem test_prqresp_drops_the_held : ((askedIn true).after (exec (.prqrespRetry 0 5) (askedIn true))).tlb = [] := by decide +kernel
theorem test_prqresp_fails : (fun g : Group => (g.trapCause, g.trapInfo)) (((askedIn true).after (exec (.prqrespFail 0 5) (askedIn true))).group 1)
    = (0x08, 1) := by decide +kernel

/-! ### Tile moves and regions -/

/-- A move of one row of 16 bytes from global memory to the end of the core's scratch. -/
def tmOf : Slot := { d := .scl 20, a := .scl 4, b := .scl 6, c := .scl 8 }
def tiling : Group := (((atVa 0x2000).writeS 6 4080).writeS 8 (16 + 65536)).writeS 9 16 |>.writeS 10 16
def tileIn (g : Group) : State := { scrIn g scrTeam with mem := pageMem.mem, contexts := pageMem.contexts }
def tmMove : Move := { sk := .g, dk := .core, src := 0x2000, dst := 4080, rowBytes := 16, rows := 1, ss := 16, ds := 16 }
def tmOp : Op := { group := 1, body := .tmov tmMove, dest := .scl 20 }
def tmIn : State := { tileIn tiling with ops := [(7, tmOp)] }
theorem witness_TileMovesAndRegionLines : Issues (.tmov tmOf .g .core false none) (tileIn tiling) 1 tiling cls (formOf (.tmov tmOf .g .core false none))
    ∧ moveOf tmOf .g .core false none tiling [0] = tmMove ∧ shaped tmMove
    ∧ rowsFit (tileIn tiling) tiling .g 0x2000 16 16 1 ∧ rowsFit (tileIn tiling) tiling .core 4080 16 16 1 := by
  refine ⟨issues_of (by decide +kernel), by decide +kernel, by unfold shaped; decide, ?_, ?_⟩
  · intro r hr
    obtain rfl : r = 0 := by omega
    show 0x2000 + 0 * 16 + 16 ≤ 2 ^ 54
    decide
  · intro r hr
    obtain rfl : r = 0 := by omega
    exact ⟨⟨(5, 4080), by rfl⟩, Or.inl (by rfl)⟩
theorem witness_TileMovesAndRegionLines_stops : issuesIn (.tmov tmOf .g .col false none) (tileIn { tiling with detlevel := 1 }) { tiling with detlevel := 1 } = true
    ∧ issuesIn (.tmov tmOf .g .core false none) (tileIn (tiling.writeS 6 4081)) (tiling.writeS 6 4081) = true
    ∧ (moveOf tmOf .g .core false none (tiling.writeS 6 4081) [0]).dst % 16 ≠ 0
    ∧ issuesIn (.tmov tmOf .g .core true none) (tileIn tiling) tiling = true
    ∧ inBuffer (tileIn tiling) 1 .core 4080 = false ∧ inBuffer (tileIn tiling) 1 .g 0x2000 = false := by decide +kernel
theorem witness_TileMovesAndRegionLines_moves : Tab.get? tmIn.ops 7 = some tmOp ∧ tmIn.requestsOf 7 0 = [] ∧ Tab.get? tmIn.groups 1 = some tiling
    ∧ (tmIn.team tiling.team).bufs = [] ∧ (tmIn.team tiling.team).regions = [] ∧ (tmIn.team tiling.team).checked = false
    ∧ 4080 + 16 ≤ tmIn.allocSize (tmIn.team tiling.team).coreScr ∧ tmIn.poison = []
    ∧ (tmIn.range tiling.unit 0 0 0x2000 16 false).toOption = some ((List.range 16).map (fun i => (0x2000 + i, 0x2000 + i)))
    ∧ ({ tmIn with preqs := [(1, { kind := 2, who := 7, answer := some true })] } : State).answerOf 7 0 = .fail := by decide +kernel
def fillTeam : Team := { mapTeam with regions := [(2, { lvl := .clus, off := 4096, va := 0x3000, size := 4096, want := [31], group := 1 })] }
def fillIn (t : Team) : State := { mapIn t with mem := pageMem.mem, contexts := pageMem.contexts, ops := [(9, { group := 1, body := .writeBack, counter := some 1 })] }
theorem witness_TileMovesAndRegionLines_lines : Tab.get? (fillIn fillTeam).teams 1 = some fillTeam
    ∧ Tab.get? fillTeam.regions 2 = some { lvl := .clus, off := 4096, va := 0x3000, size := 4096, want := [31], group := 1 }
    ∧ (fillIn fillTeam).requestsOf 1 (8 * 31 + 2 + 1) = [] ∧ (fillIn fillTeam).viewKey fillTeam .clus (4096 + 128 * 31) % 16 = 0
    ∧ ((fillIn fillTeam).range mapping.unit 0 0 (0x3000 + 128 * 31) 128 false).toOption.isSome = true
    ∧ ([(255, 9)].filter (fun w : Nat × Nat => w.1 / 8 == 31)) ≠ [] ∧ fillTeam.copyOf = none
    ∧ Tab.get? (fillIn fillTeam).ops 9 = some { group := 1, body := .writeBack, counter := some 1 }
    ∧ ((fillIn fillTeam).range mapping.unit 0 0 (0x3000 + 128 * 31) 128 true).toOption.isSome = true
    ∧ (fillIn fillTeam).requestsOf 1 (8 * 31 + 2 + 1 + 2 ^ 32) = [] := by decide +kernel
def moved : State := tmIn.setNat 0x2000 4 0x12345678
theorem test_tmov_moves : (fun t : State => (t.nat (spaceKey 5 4080) 4, t.full, (t.group 1).readS 20)) (moved.after (exec (.tileMoveComplete 7) moved))
    = (0x12345678, [spaceKey 5 4080], 0) := by decide +kernel
theorem test_region_fill : (fun t : State => (((Tab.getD (t.team 1).regions 2 {}).filled, t.full.length)))
    ((fillIn fillTeam).after (exec (.regionFill 1 2 31) (fillIn fillTeam))) = ([31], 8) := by decide +kernel

/-! ### The matrix engine -/

/-- A stream at an instruction: two tiles, its first mapped; A rows in core scratch, B lines in a window of 64 lines. -/
def mxEntry : Mx := { index := 0, tiles := some 2, mapped := true, state := .running, subs := [{ op := 7 }], m := [(0, 1), (1, 64), (3, 2)], aStride := 2048 }
def mxTeam : Team :=
  { copy := 1, groups := [1], coreScr := 5, mx := some mxEntry, obj := { coreScr := 262144, mstream := true, msSize := 120 } }
def mxIn (t : Team) : State :=
  { small one with cur := .stream 1, teams := [(1, t)], allocs := [(5, { size := 262144 })], grants := [(0, (0, 64))], ops := [(7, { group := 1, body := .msub, counter := some 2 })]
                   engines := [(0, { running := some 1 })] }
/-- Whether a stream instruction stands where the stream of team 1 runs it. -/
def streamsIn (i : Instr) (s : State) : Bool :=
  s.cur == .stream 1 && (Tab.get? s.teams 1).isSome && i.form == some (formOf i) && (formOf i).slot.p == 0 && !(formOf i).slot.neg
    && (formOf i).slot.stall == 0 && !(formOf i).slot.yield && !(formOf i).slot.rel && !(formOf i).slot.sel && (formOf i).legal && (formOf i).operandsOk
theorem streams_of {i : Instr} {s : State} (h : streamsIn i s = true) : Streams i s 1 (formOf i) := by
  simp only [streamsIn, Bool.and_eq_true, beq_iff_eq, Bool.not_eq_true', Option.isSome_iff_ne_none] at h
  obtain ⟨⟨⟨⟨⟨⟨⟨⟨⟨⟨h1, h2⟩, h3⟩, h4⟩, h5⟩, h6⟩, h7⟩, h8⟩, h9⟩, h10⟩, h11⟩ := h
  exact ⟨h1, h2, h3, ⟨h4, h5, h6, h7, h8, h9⟩, h10, h11⟩

theorem witness_MatrixStreams : Streams (.mma { a := .imm 1, b := .imm 64 } .f16 .f16 true) (mxIn mxTeam) 1 (formOf (.mma { a := .imm 1, b := .imm 64 } .f16 .f16 true))
    ∧ entryOf (mxIn mxTeam) 1 = mxEntry ∧ 64 - mxEntry.done + mxEntry.passK ≤ 64
    ∧ (mxIn mxTeam).mmaFate 1 mxEntry .f16 .f16 64 = none ∧ (tileOf (mxIn mxTeam) 1 1).wm = 0 ∧ (tileOf (mxIn mxTeam) 1 1).commit = false
    ∧ (mxIn mxTeam).zeroing 0 ((mxIn mxTeam).teamCluster 1) = false ∧ mxTeam.bufs = [] ∧ mxTeam.regions = [] ∧ (mxIn mxTeam).poison = [] :=
  ⟨streams_of (by decide +kernel), by decide +kernel⟩
theorem witness_MatrixStreams_forms : ([.mlda { a := .imm 32, b := .imm 64 } false 0, .mlda { a := .imm 33, b := .imm 64 } false 0, .mldb { a := .scl 0 } 5,
      .msclOff {}, .mscl { a := .scl 0, b := .imm 32, c := .imm 0 } true, .mloopDec { d := .scl 3 } 108, .mloopDec { d := .scl 3 } 120,
      .mloopDec { d := .scl 4 } 108, .mloopAdd { d := .scl 3, a := .scl 3 } 1, .mbarw { a := .imm (-1) } 15, .mbarw { a := .imm 0 } 15,
      .mbara {} 15, .mend {}, .mzero { a := .imm 1 }, .mzero { a := .imm 2 }, .mma { a := .imm 1, b := .imm 0 } .f16 .f16 true] : List Instr).all
      (fun i => streamsIn i (mxIn mxTeam)) = true
    ∧ past (mxTeam.nbar 15) (-1) ∧ ¬past (mxTeam.nbar 15) 0 ∧ overArrival (mxTeam.nbar 15) 1 = none := by
  refine ⟨by decide +kernel, ?_, ?_, by decide +kernel⟩ <;> unfold past <;> decide +kernel
def mstoOf : Slot := { a := .imm 1, b := .imm 0, c := .scl 5 }
def mstoTeam : Team := { mxTeam with mx := some { mxEntry with m := [(5, 512)] } }
theorem witness_MatrixStreams_stores : streamsIn (.msto mstoOf .core .f32 false) (mxIn mstoTeam) = true ∧ (512 : Word).toNat % 16 = 0
    ∧ (List.range 128).all (fun i => ((mxIn mstoTeam).view mstoTeam .core (0 + i * 512) 512).toOption.isSome) = true
    ∧ mstoTeam.copyOf = none ∧ ((mxIn mstoTeam).group ((mxIn mstoTeam).subOp 1).group).team = 1
    ∧ (formOf (.mend { p := 1 })).slot.p ≠ 0 ∧ (formOf (.mend { p := 1 })).pool = .stream
    ∧ (tileOf (mxIn { mxTeam with accs := [(1, { wm := 128 })] }) 1 1).wm ≠ 0
    ∧ (mxIn { mxTeam with accs := [(1, { wm := 128 })] }).teamLeft 1 = false
    ∧ ((mxIn { mxTeam with nbars := [(15, { pending := 0 })] }).team 1).nbar 15 = { pending := 0 } := by decide +kernel
theorem test_mloop_counts_down : (fun m : Mx => (m.pc, Tab.getD m.m 3 0)) (entryOf ((mxIn mxTeam).after (exec (.mloopDec { d := .scl 3 } 108) (mxIn mxTeam))) 1)
    = (108, 1) := by decide +kernel
theorem test_mma_takes_steps : (fun m : Mx => (m.aStep, m.bStep, m.passK, m.pc)) (entryOf ((mxIn mxTeam).after
    (exec (.mma { a := .imm 0, b := .imm 2 } .f16 .f16 true) (mxIn mxTeam))) 1) = (2, 2, 2, 12) := by decide +kernel
/-- 1.5 times 2 over the first element of a row and a column. -/
def dotIn : State := ((mxIn mxTeam).setBytes (spaceKey 5 0) (leBytes 2 0x3E00)).setBytes (columnKey 0 0) (leBytes 2 0x4000)
theorem test_mma_multiplies : Tab.getD (tileOf (dotIn.after (exec (.mma { a := .imm 0, b := .imm 1 } .f16 .f16 false) dotIn)) 1 0).acc 0 0
    = 0x40400000 := by decide +kernel
theorem test_mend_ends : (fun t : State => ((entryOf t 1).state, (t.engine 0).running)) ((mxIn mxTeam).after (exec (.mend {}) (mxIn mxTeam)))
    = (.ending, none) := by decide +kernel

/-- The team's group at the matrix instructions of its program. -/
def subTeam (subs : List Sub) (accs : Tab Tile) : Team := { mxTeam with mx := some { mxEntry with state := .ready, subs := subs }, accs := accs }
def subIn (t : Team) : State := { mxIn t with cur := .group 1, groups := [(1, one)], engines := [] }
def full4 : List Sub := [{}, {}, {}, {}]
theorem witness_MatrixSubmissionsAndGrants : issuesIn (.msub { a := .imm 108, b := .scl 8 } 1 3) (subIn (subTeam [{}, {}, {}] [])) one = true
    ∧ onceOf (.imm 108) one [0] % 12 = 0 ∧ onceOf (.imm 108) one [0] < 120 ∧ ((1 : BitVec 2).toNat + 1) = 2
    ∧ (entryOf (subIn (subTeam [{}, {}, {}] [])) 1).subs.length < 4 ∧ (entryOf (subIn (subTeam full4 [])) 1).subs.length = 4
    ∧ issuesIn (.msub { a := .imm 120, b := .scl 8 } 1 3) (subIn (subTeam [] [])) one = true ∧ one.counter 2 < 0xFFFF
    ∧ ((small one).team 1).obj.mstream = false := by decide +kernel
theorem witness_MatrixSubmissionsAndGrants_reads : issuesIn (.mrd { d := .vec 2, a := .imm 1, b := .imm 127 } 0) (subIn (subTeam [] [(1, { wm := 128 })])) one = true
    ∧ onceOf (.imm 127) one [0] + 1 ≤ (tileOf (subIn (subTeam [] [(1, { wm := 128 })])) 1 1).wm
    ∧ (tileOf (subIn (subTeam [] [(1, { wm := 112 })])) 1 1).wm < onceOf (.imm 127) one [0] + 1
    ∧ issuesIn (.mrd { d := .vec 2, a := .imm 1, b := .imm 127 } 1) (subIn (subTeam [] [])) one = true ∧ 128 < onceOf (.imm 127) one [0] + 2
    ∧ issuesIn (.mwm { a := .imm 1 }) (subIn (subTeam [] [(1, { wm := 112, commit := true })])) one = true
    ∧ issuesIn (.mwm { a := .imm 2 }) (subIn (subTeam [] [])) one = true
    ∧ issuesIn (.waitm { a := .imm 1, b := .imm 128 } .wm) (subIn (subTeam [] [(1, { wm := 128 })])) one = true
    ∧ issuesIn (.waitm { b := .imm 3 } .slots) (subIn (subTeam full4 [])) one = true
    ∧ (entryOf (subIn (subTeam full4 [])) 1).tiles = some 2 := by decide +kernel
theorem witness_MatrixSubmissionsAndGrants_passes : ((subIn (subTeam [{}] [])).engine 0).running = none ∧ (subIn (subTeam [{}] [])).readyStreams 0 = [1]
    ∧ (subIn (subTeam [{}] [])).hasStopped 0 ((subIn (subTeam [{}] [])).stopKey 0 20) = false ∧ (subIn (subTeam [{}] [])).clusterStreams 0 = [1]
    ∧ (mxIn { mxTeam with mx := some { mxEntry with passI := 32 } }).teamCluster 1 = 0
    ∧ ((mxIn mxTeam).engine 0).running = some 1 ∧ (entryOf (mxIn mxTeam) 1).state = .running := by decide +kernel
def committing (wm : Nat) : State := { mxIn { mxTeam with accs := [(1, { wm := wm, commit := true })] } with engines := [(0, { commits := [(1, 1)] })] }
theorem witness_MatrixSubmissionsAndGrants_commits : ((committing 96).engine 0).commits = (1, 1) :: [] ∧ (tileOf (committing 96) 1 1).wm + 16 < 128
    ∧ 128 ≤ (tileOf (committing 112) 1 1).wm + 16 ∧ (tileOf (committing 112) 1 1).clear = false ∧ Tab.get? (committing 96).teams 1 ≠ none
    ∧ (entryOf (mxIn { mxTeam with mx := some { mxEntry with state := .ending } }) 1).state = .ending
    ∧ (entryOf (mxIn mxTeam) 1).subs = { op := 7 } :: [] ∧ Tab.get? (mxIn mxTeam).ops 7 = some { group := 1, body := .msub, counter := some 2 } := by
  decide +kernel
theorem witness_MatrixSubmissionsAndGrants_grants : (State.reset.clusters 0)[63]? = some 63 ∧ (State.reset.func 0).csgBusy = false
    ∧ (8192 * 65536 : Word).toNat / 2 ^ 16 % 2 ^ 14 = 8192 ∧ (8192 * 65536 + 1 : Word).toNat % 2 ^ 14 + 8192 > 8192
    ∧ ({ State.reset with funcs := [(0, { csgBusy := true, csgZero := [(63, 8191, 1)] })] } : State).func 0 = { csgBusy := true, csgZero := [(63, 8191, 1)] } := by
  decide +kernel
theorem test_commit_raises_the_watermark : ((tileOf ((committing 96).after (exec (.tileCommit 0) (committing 96))) 1 1).wm,
    (tileOf ((committing 112).after (exec (.tileCommit 0) (committing 112))) 1 1).commit) = (112, false) := by decide +kernel

/-! ### Views, tile slots and strips -/

/-- A chart of 16 segments of four pixels at one chart sample a pixel, of 32 by 32 samples, for a display of 64 by 64. -/
def chart : List Byte :=
  leBytes 4 0x54524843 ++ leBytes 2 64 ++ leBytes 2 64 ++ leBytes 2 32 ++ leBytes 2 32 ++ leBytes 2 0 ++ leBytes 2 0
    ++ ((List.range 16).map (fun _ => leBytes 2 4)).flatten ++ List.replicate 16 16
    ++ ((List.range 16).map (fun _ => leBytes 2 4)).flatten ++ List.replicate 16 16 ++ List.replicate 16 0
    ++ ((List.range 16).map (fun k => leBytes 4 (if k % 5 = 0 then 0x3F800000 else 0))).flatten
theorem chart_charted : Charted chart :=
  ⟨by decide +kernel, by decide +kernel, by decide +kernel, by decide +kernel, by decide +kernel, by decide +kernel⟩
def snap : Snap := { chart := chart }
def viewTeam : Team := { scrTeam with snaps := [(15, snap)], obj := { coreScr := 32768 }, core := 256, helm := true }
theorem ok_of {ε α : Type} {e : Except ε α} (h : e.toOption.isSome = true) : ∃ x, e = .ok x := by
  cases e with
  | ok x => exact ⟨x, rfl⟩
  | error _ => simp [Except.toOption] at h
/-- The group on a helm core. -/
def hone : Group := { one with core := 256 }
def viewIn (g : Group) : State := { scrIn g viewTeam with allocs := [(5, { size := 32768 })], mem := pageMem.mem, contexts := pageMem.contexts }
/-- An image of 64 by 64 texels of format 0 at 0x2000, and its description in s8 to s11; a coordinate in v4 and v5. -/
def imaging : Group := ((((((atVa 0x2000).writeS 8 0x2000).writeS 9 0).writeS 10 (64 + 65536 * 64)).writeS 11 256).writeV 4 0 0x3F800000)
def image : Image := { base := 0x2000, w := 64, h := 64, pitch := 256, fmt := 0 }
def sampleOf : Slot := { d := .vec 8, a := .vec 4, b := .scl 8 }
theorem witness_GraphicsInstructions : Issues (.chartxf { d := .vec 1, a := .vec 2, b := .imm 15 } false true) (viewIn one) 1 one cls
      (formOf (.chartxf { d := .vec 1, a := .vec 2, b := .imm 15 } false true))
    ∧ Tab.get? ((viewIn one).team 1).snaps 15 = some snap ∧ Charted snap.chart ∧ wordFrac? snap.py = some ⟨0, 1⟩
    ∧ Tab.get? ((viewIn one).team 1).snaps 14 = none :=
  ⟨issues_of (by decide +kernel), by decide +kernel, chart_charted, by decide +kernel⟩
theorem witness_GraphicsInstructions_reads : issuesIn (.vbldSet { d := .scl 20, a := .imm 15, b := .scl 4, c := .scl 6 }) (viewIn imaging) imaging = true
    ∧ issuesIn (.vbldLat { d := .scl 20, a := .imm 15, b := .scl 4 }) (viewIn { imaging with detlevel := 1 }) { imaging with detlevel := 1 } = true
    ∧ (List.range 3).all (fun j => (reached (viewIn imaging) imaging { n := 64, align := 64, hostOk := true, det := false }
        { va := (imaging.value64 (.scl 4) 0).toNat + 64 * j }).isSome) = true
    ∧ issuesIn (.sample sampleOf .glob true) (viewIn imaging) imaging = true
    ∧ wordsOf (.scl 8) imaging [0] 2 = 64 + 65536 * 64 ∧ (texels sampleOf true image imaging 0).length = 4 := by decide +kernel
theorem witness_GraphicsInstructions_image : Describes .glob (wordsOf (.scl 8) imaging [0]) image
    ∧ ∀ im, ¬Describes .core (wordsOf (.scl 8) (imaging.writeS 9 1) [0]) im :=
  ⟨⟨by decide, by decide, by decide, by decide, by decide, by decide⟩, fun _ h => absurd (h.high (by decide)) (by decide)⟩
theorem witness_GraphicsInstructions_scratch : sampLvl? .core = some .core ∧ issuesIn (.sample sampleOf .core false) (viewIn imaging) imaging = true
    ∧ (texels sampleOf false image imaging 0).all (fun t => ((viewIn imaging).view viewTeam .core (0x2000 + t.1) 4).toOption.isSome) = true
    ∧ 0x2001 % 16 ≠ 0 ∧ image.fmt = 0 ∧ (1 : Nat) ≤ 64
    ∧ ((((clamped 64 0x3FC00000).sub ⟨1, 2⟩).sub (Frac.ofInt ((clamped 64 0x3FC00000).sub ⟨1, 2⟩).floor)).snap.mul ⟨256, 1⟩).floor = 0
    ∧ ((((clamped 64 0x3F800000).sub ⟨1, 2⟩).sub (Frac.ofInt ((clamped 64 0x3F800000).sub ⟨1, 2⟩).floor)).snap.mul ⟨256, 1⟩).floor = 128 := by
  decide +kernel
/-- s8 to s11 describe a tile slot of the chart's only tile, which one close completes. -/
def opening : Group := (((hone.writeS 8 0).writeS 9 16384).writeS 10 (15 * 2 ^ 14)).writeS 11 1
def openSlot : TSlot := { state := .opened, team := 1, opening := 3, view := 15, closes := 1, cap := 1, snap := snap, bin := 16384 }
theorem witness_GraphicsInstructions_slots : issuesIn (.emitOpen { a := .imm 15, b := .scl 8 }) (viewIn opening) opening = true
    ∧ ((viewIn opening).tslot 4111).state = .free ∧ opening.counter 4 < 0xFFFF
    ∧ issuesIn (.emitOpen { a := .imm 16, b := .scl 8 }) (viewIn opening) opening = true
    ∧ issuesIn (.emitPrim { a := .vec 0, b := .vec 10, c := .imm (-1) } true) (viewIn hone) hone = true ∧ (hone.value64 (.vec 10) 0).toNat % 256 = 0
    ∧ ((lane2 hone 10 1 0).value64 (.vec 10) 0).toNat % 256 ≠ 0
    ∧ issuesIn (.emitClose { a := .imm 15 }) { viewIn hone with tslots := [(4111, openSlot)] } hone = true
    ∧ ({ viewIn hone with tslots := [(4111, openSlot)] } : State).tslot (16 * 256 + 15) = openSlot := by decide +kernel
theorem witness_GraphicsInstructions_opens : Opens (viewIn opening) viewTeam (wordsOf (.scl 8) opening [0]) snap :=
  ⟨by decide +kernel, by decide +kernel, by decide +kernel, by decide +kernel, ⟨ok_of (by decide +kernel), Or.inl (by decide +kernel)⟩,
    ⟨ok_of (by decide +kernel), Or.inl (by decide +kernel)⟩⟩
/-- s4 to s6 name latch 1, view 15 and column 0, and the status granule at 16384; the classifier's descriptor is at 0x2000. -/
def tiling2 : Group := ((one.writeS 4 1).writeS 5 15).writeS 6 16384
def shown : View := { scanen := true, latched := true, lseq := 1, lseq0 := 1, hact := 64, vact := 64, strSize := 16, frameBase := 0x100000 }
def showIn (g : Group) : State := { viewIn g with views := [(15, shown)] }
theorem witness_GraphicsInstructions_tiles : issuesIn (.tileout { a := .imm 0, b := .scl 4 } false) (showIn tiling2) tiling2 = true
    ∧ wordsOf (.scl 4) tiling2 [0] 1 / 2 ^ 11 = 0 ∧ (showIn tiling2).viewPart 15 = 0 ∧ 64 * 0 < ((showIn tiling2).view? 15).hact
    ∧ ((showIn tiling2).view viewTeam .core 0 16384).toOption.isSome = true ∧ ((showIn tiling2).view viewTeam .core 16384 16).toOption.isSome = true
    ∧ issuesIn (.tileout { a := .imm 8, b := .scl 4 } false) (showIn tiling2) tiling2 = true ∧ onceOf (.imm 8) tiling2 [0] % 16 ≠ 0
    ∧ issuesIn (.classify { a := .imm 0, b := .scl 4 } false) (viewIn { imaging with core := 256 }) { imaging with core := 256 } = true
    ∧ ({ viewIn imaging with launches := [(0, { src := .entry 3 })] } : State).groupNode imaging = some (3, 0)
    ∧ (viewIn imaging).groupNode imaging = none ∧ (imaging.value64 (.scl 4) 0).toNat % 32 = 0
    ∧ issuesIn (.classify { a := .imm 0, b := .scl 4 } false) { laterIn with groups := [(1, { later with core := 256 })] } { later with core := 256 } = true := by decide +kernel

/-- A triangle that covers the first samples of the display, with depth one half. -/
def prim : Prim := { xs := [(-100, 1), (200, 1), (-100, 1)], ys := [(-100, 1), (-100, 1), (200, 1)], zs := [(1, 2), (1, 2), (1, 2)], ident := 0x1FF }
def triangle : Emitted := { verts := [0xBF800000, 0x3F800000, 0, 0, 0x3F800000, 0, 0xBF800000, 0, 0], ident := 0x100, slots := [(4111, 3)] }
def emitting : State :=
  { viewIn hone with tslots := [(4111, openSlot)], ops := [(7, { group := 1, body := .emit [triangle], counter := some 4 })] }
theorem witness_GraphicsEngines : Tab.get? emitting.ops 7 = some { group := 1, body := .emit [triangle], counter := some 4 }
    ∧ (triangle.slots.map Prod.fst).Nodup ∧ (emitting.tslot 4111).opening = 3 ∧ ((emitting.tslot 4111).prepare triangle).isSome = true
    ∧ ((emitting.tslot 4111).prepare { triangle with verts := [0, 0, 0, 0, 0, 0, 0, 0, 0] }) = none := by decide +kernel
theorem witness_GraphicsEngines_vertices : (∀ k, k < 16 → wordFrac? (BitVec.ofNat 32 (field snap.chart (128 + 4 * k) 4))
      = some (if k % 5 = 0 then ⟨1, 1⟩ else ⟨0, 1⟩)) ∧ triangle.verts.length = 9
    ∧ (snap.vertex [⟨0, 1⟩, ⟨0, 1⟩, ⟨0, 1⟩]) = some (⟨32, 1⟩, ⟨32, 1⟩, ⟨0, 1⟩) := by decide +kernel
theorem witness_GraphicsEngines_samples : prim.depth? ⟨1, 2⟩ ⟨1, 2⟩ = some 0x3F000000 ∧ prim.depth? ⟨150, 1⟩ ⟨150, 1⟩ = none
    ∧ Charted openSlot.snap.chart ∧ wordFrac? openSlot.snap.px = some ⟨0, 1⟩ ∧ (1023 : Nat) < 1024 :=
  ⟨by decide +kernel, by decide +kernel, chart_charted, by decide +kernel, by decide⟩
/-- A slot at its last close, all of whose primitives are binned. -/
def closing : State :=
  { viewIn hone with
    tslots := [(4111, { openSlot with state := .closing, group := 1, op := 7, made := 1, binned := 1, prims := [prim] })]
    ops := [(7, { group := 1, body := .emitClose [] true, counter := some 4 })] }
theorem witness_GraphicsEngines_resolve : (closing.tslot 4111).state = .closing ∧ (closing.tslot 4111).team = 1 ∧ closing.pendingOps (closing.tslot 4111).before = []
    ∧ (closing.group (closing.tslot 4111).group).team = 1 ∧ (closing.tslot 4111).lvl = .core ∧ (closing.tslot 4111).tile + 16384 ≤ closing.allocSize 5
    ∧ (closing.tslot 4111).bin + 16 ≤ closing.allocSize (closing.team 1).coreScr ∧ (closing.tslot 4111).tile + 16384 ≤ (closing.tslot 4111).bin := by
  decide +kernel
theorem witness_GraphicsEngines_plain : Plain closing 1 := ⟨rfl, rfl, rfl, rfl, rfl⟩
def vbldOp : Op :=
  { group := 1, body := .vbld 15 (some (0, 0)), flag := some 0, dest := .scl 20, destN := 2
    lines := (List.range 3).map (fun j => { line := 0x2000 + 64 * j, accs := [{ va := 0x2000 + 64 * j, n := 64 }], done := true })
    res := (List.range 3).map (fun j => { va := 0x2000 + 64 * j, bytes := (chart.drop (64 * j)).take 64 }) }
def sampOp : Op :=
  { group := 1, body := .sample image false [(0, 0x3F800000, 0)], flag := some 0, dest := .vec 8, destN := 4
    lines := [{ line := 0x2000, accs := [{ va := 0x2004, n := 4 }], done := true }], res := [{ va := 0x2004, bytes := [255, 0, 51, 255] }] }
def retIn (o : Op) : State := { viewIn one with ops := [(7, o)] }
theorem witness_GraphicsEngines_returns : ((vbldOp.lines.map LineAct.accs).flatten).map LaneAcc.va = [0x2000, 0x2040, 0x2080]
    ∧ vbldOp.lines.all LineAct.done = true ∧ (vbldOp.res.find? (fun y => y.va == 0x2000 + 64 * 2)).isSome = true
    ∧ Tab.get? (retIn vbldOp).teams 1 = some viewTeam ∧ viewTeam.saved = false ∧ Tab.get? (retIn vbldOp).groups 1 ≠ none
    ∧ sampOp.lines.all LineAct.done = true ∧ (0, 0x3F800000, 0) ∈ [((0 : Nat), (0x3F800000 : Word), (0 : Word))]
    ∧ image.taps false 0x3F800000 0 = [(4, 65536)] := by decide +kernel
/-- A classification whose tile is full: every sample is background, which node 1 takes. -/
def desc : List Byte := leBytes 8 0 ++ leBytes 4 0 ++ leBytes 2 0 ++ [1, 0] ++ leBytes 8 0 ++ leBytes 8 0
def graph : WInst :=
  { nodes := [{ targets := 2 }, { recBytes := 16, batch := 4 }], nblocks := 2, pool := 0x100000, blocks := [], running := true }
def classing (body : OpBody) (g : Group) : State :=
  { (viewIn g).setBytes 0x2000 desc with
    full := (List.range 1024).map (fun k => spaceKey 5 (16 * k))
    launches := [(0, { src := .entry 3 })], insts := [(3, graph)], ops := [(7, { group := 1, body := body, counter := some 4 })] }
def clIn : State := classing (.classify .core 0 0x2000 none) one
theorem witness_GraphicsEngines_classify : clIn.groupNode one = some (3, 0) ∧ (clIn.readRange 0 0 0 0x2000 32).toOption == some desc
    ∧ (clIn.classifySample one desc (List.replicate 8 255)).toOption == some 1 := by decide +kernel
theorem witness_GraphicsEngines_full (k : Nat) (hk : k < 1024) : clIn.isFull (clIn.viewKey viewTeam .core (0 + 16 * k)) = true := by
  have ha : clIn.allocSize 5 = 32768 := by decide +kernel
  have hv : clIn.viewKey viewTeam .core (0 + 16 * k) = spaceKey 5 (16 * k) := by
    have hle : 16 * k + 1 ≤ 32768 := by omega
    simp [State.viewKey, State.view, show viewTeam.coreScr = 5 from rfl, ha, hle]
  have hd : spaceKey 5 (16 * k) / 16 * 16 = spaceKey 5 (16 * k) := by
    unfold spaceKey
    omega
  have hf : clIn.full = (List.range 1024).map (fun k => spaceKey 5 (16 * k)) := by simp only [clIn, classing]
  rw [hv, State.isFull, hd, hf, List.contains_iff_mem]
  exact List.mem_map.mpr ⟨k, List.mem_range.mpr hk, rfl⟩
theorem witness_GraphicsEngines_records :
    graph.targetOk 0 1 = true ∧ graph.targetOk 0 0 = false ∧ 16 ≤ (graph.node 1).recBytes ∧ (graph.node 0).recBytes < 16
    ∧ ((State.reserveRun 3 1 none 1 clIn).map (fun r => r.2.length)) = some 1
    ∧ (State.reserveRun 3 1 none 1 { clIn with
        insts := [(3, { graph with blocks := [(0, { state := .sealed }), (1, { state := .sealed })] })] }).isNone = true := by decide +kernel
def outOp : Op := { group := 1, body := .tileout .core 0 1 15 0 16384, counter := some 1 }
def outIn : State := { showIn one with ops := [(7, outOp)] }
theorem witness_GraphicsEngines_tileout : Tab.get? outIn.ops 7 = some outOp ∧ 0 < ((outIn.view? 15).hact + 63) / 64
    ∧ 0x100000 + 64 * 64 * 4 ≤ outIn.capacity 0 ∧ 16384 + 16 ≤ outIn.allocSize (outIn.team 1).coreScr := by decide +kernel
theorem test_emit_bins : ((emitting.after (exec (.primitiveBinned 7) emitting)).tslot 4111).binned = 1 := by decide +kernel
theorem test_vbld_takes_the_chart : (fun t : State => ((Tab.getD (t.team 1).snaps 15 {}).chart == chart, (t.group 1).readS 21))
    ((retIn vbldOp).after (exec (.flagCompletion 7) (retIn vbldOp))) = (true, 0) := by decide +kernel
theorem test_sample_returns : (fun g : Group => (g.readV 8 0, g.readV 9 0, g.readV 10 0))
    (((retIn sampOp).after (exec (.flagCompletion 7) (retIn sampOp))).group 1) = (0x3F800000, 0, 0x3E4CCCCD) := by decide +kernel
def views (v : View) : State := { State.reset with views := [(15, v)] }
theorem witness_ViewsAndStrips : (15 : Nat) < 16 ∧ ((views shown).view? 15).scanen = true ∧ (({ shown with lseq := 2 } : View).lseq - 0).toNat < 3
    ∧ ({ shown with latched := false } : View).latched = false ∧ shown.passed ≠ shown.lseq ∧ shown.toScan.length ≤ 1
    ∧ (shown.passed + 1 - shown.lseq0).toNat % ((shown.vact + 63) / 64) + 1 = (shown.vact + 63) / 64
    ∧ ringSize shown.strSize 4096 = 16 ∧ ({ shown with strHead := 16 } : View).strHead - shown.strTail = BitVec.ofNat 32 16
    ∧ 0x100000 + 64 * 64 * 4 ≤ (views shown).capacity 0 := by decide +kernel
theorem witness_ViewsAndStrips_scan : ({ shown with toScan := [(1, [0])] } : View).toScan = (1, [0]) :: []
    ∧ 0x100000 + 2 * (64 * 1 * (64 * 1) * 4) ≤ (views shown).capacity 0 ∧ [0].Nodup ∧ ({ shown with ending := true } : View).ending = true
    ∧ (1 : Word).getLsbD 0 = true ∧ ((views { shown with scanen := false }).view? 15).scanen = false
    ∧ 0x100001 % 4096 ≠ 0 ∧ (0 : Word).getLsbD 0 = false := by decide +kernel
theorem test_latch : (fun v : View => (v.lseq, v.lseq0, v.latched)) (((views { shown with latched := false, lseq := 7 }).after
    (exec (.bearingLatch 15) (views { shown with latched := false, lseq := 7 }))).view? 15) = (8, 8, true) := by decide +kernel
theorem test_deadline_counts_missing : (fun v : View => (v.passed, v.missTiles, v.lateStrips)) (((views shown).after
    (exec (.stripDeadline 15) (views shown))).view? 15) = (1, 1, 1) := by decide +kernel

/-! ### Rays -/

/-- A ray from (-1/2, -1/2, -2) along z between parameters 0 and 10, whose batch is entry 0 of generation 1 (R328). -/
def ray : List Byte :=
  rayBytes (([0xBF000000, 0xBF000000, 0xC0000000, 0, 0, 0x3F800000, 0, 0x41200000] : List Nat).map (leBytes 4)).flatten 1 0x10000 0 255 0 0
/-- The box from -1 to 1, a scene of it alone at 0x3000 with its pool at 0x4000, and an image of one triangle at 0x6000 (R329, R330). -/
def cube : List Word := [0xBF800000, 0xBF800000, 0xBF800000, 0x3F800000, 0x3F800000, 0x3F800000]
def sceneBytes (blocks : Nat) : List Byte :=
  leBytes 4 0x4E454353 ++ leBytes 4 1 ++ leBytes 8 0x4000 ++ leBytes 4 blocks ++ leBytes 4 0 ++ leBytes 8 0 ++ leBytes 32 0
    ++ (cube.map (fun w => leBytes 4 w.toNat)).flatten ++ leBytes 8 0x6000 ++ leBytes 4 112 ++ leBytes 1 255 ++ leBytes 11 0
def imageBytes : List Byte :=
  leBytes 4 0x45455254 ++ leBytes 4 0 ++ leBytes 4 1 ++ leBytes 4 (2 ^ 31 + 2 ^ 24) ++ leBytes 48 0
    ++ (([0xBF800000, 0xBF800000, 0, 0x3F800000, 0xBF800000, 0, 0xBF800000, 0x3F800000, 0] : List Nat).map (leBytes 4)).flatten
    ++ leBytes 8 0x110 ++ leBytes 4 0
def subs : List Subtree := [{ box := cube, image := 0x6000, bytes := 112, mask := 255 }]
def scene : Scene := { addr := 0x3000, pool := 0x4000, blocks := 68, subs := subs }
def batch : Batch := { gen := 1, held := true, team := 1, group := 1, scene := 0, result := 0x8000, count := 2 }
/-- A team whose slot 3 is open on entry 0, with a camera at 0x2000 and a chart. -/
def rayTeam (b : BatchSlot) : Team := { viewTeam with core := 0, helm := false, batches := [(3, b)] }
def rayIn (g : Group) (b : BatchSlot) : State :=
  { (viewIn g).setBytes 0x6000 imageBytes with teams := [(1, rayTeam b)], batches := [(0, batch)], scenes := [(0, scene)], funcs := [(0, { rayStage := 1 })] }
def onZero : BatchSlot := { entry := some 0 }
/-- v16 to v20 hold the index, the flags and mask, the cookie and the payload address. -/
def putting : Group := (one.writeV 16 0 1).writeV 17 0 0xFF0000
def putOf : Slot := { a := .vec 8, b := .vec 16, c := .imm 3 }

theorem witness_RayInstructions : Issues (.rayput putOf) (rayIn putting onZero) 1 putting cls (formOf (.rayput putOf))
    ∧ openOn (rayIn putting onZero) putting 3 0 ∧ raysFine batch (fun _ => 1) (fun _ => 0) 1 ∧ admitted scene 1 1 :=
  ⟨issues_of (by decide +kernel), ⟨by decide, onZero, by rfl, rfl, rfl⟩, by unfold raysFine; decide, by decide, fun _ h => by simp [scene] at h⟩
theorem witness_RayInstructions_put : (rayIn putting onZero).batch 0 = batch
    ∧ (rayIn putting onZero).pendingOps ((rayIn putting onZero).releaseWrites 1 .dev) = []
    ∧ (putting.valueAt (.vec 16) 0 0).toNat = 1 ∧ (putting.valueAt (.vec 16) 1 0).toNat % 65536 = 0 ∧ putting.counter 4 < 0xFFFF
    ∧ 32 < ({ scene with held := 32 } : Scene).held + 1 ∧ batch.count ≤ 2 ∧ batch.count < ({ batch with submitted := 2 } : Batch).submitted + 0 + 1
    ∧ (8 : Nat) % 65536 / 8 ≠ 0 ∧ Tab.get? (rayIn putting onZero).scenes 0 ≠ none := by decide +kernel
theorem witness_RayInstructions_waits :
    ({ rayIn putting onZero with ops := [(7, { group := 1, body := .st .b32, lines := [{}] })], groups := [(1, { putting with counters := [(0, [(7, false)])] })] } : State).pendingOps
      (({ rayIn putting onZero with ops := [(7, { group := 1, body := .st .b32, lines := [{}] })], groups := [(1, { putting with counters := [(0, [(7, false)])] })] } : State).releaseWrites 1 .dev) ≠ [] := by
  decide +kernel
theorem witness_RayInstructions_slots : issuesIn (.raybatOpen { a := .imm 2, b := .scl 4 }) (rayIn (atVa 0x2000) onZero) (atVa 0x2000) = true
    ∧ Tab.get? ((rayIn (atVa 0x2000) onZero).team 1).batches 2 = none ∧ ((atVa 0x2000).value64 (.scl 4) 0).toNat % 32 = 0
    ∧ ((rayIn (atVa 0x2000) onZero).range 0 0 0 0x2000 32 false).toOption.isSome = true
    ∧ issuesIn (.raybatOpen { a := .imm 4, b := .scl 4 }) (rayIn (atVa 0x2000) onZero) (atVa 0x2000) = true
    ∧ issuesIn (.raybatOpen { a := .imm 3, b := .scl 4 }) (rayIn (atVa 0x2010) onZero) (atVa 0x2010) = true ∧ 0x2010 % 32 ≠ 0
    ∧ issuesIn (.raybatClose { a := .imm 3 }) (rayIn one { status := 1 }) one = true
    ∧ issuesIn (.raybatClose { a := .imm 3 }) (rayIn one { opening := true }) one = true
    ∧ issuesIn (.raybatClose { a := .imm 2 }) (rayIn one onZero) one = true
    ∧ (({ rayIn one onZero with batches := [(0, { batch with complete := true })] } : State).batch 0).complete = true
    ∧ issuesIn (.rayqryCnt { d := .scl 2, a := .imm 3 }) (rayIn one onZero) one = true
    ∧ issuesIn (.rayqryWait { d := .scl 2, a := .imm 3 }) (rayIn one { opening := true }) one = true
    ∧ issuesIn (.rayqryCnt { d := .scl 2, a := .imm 4 }) (rayIn { one with detlevel := 1 } onZero) { one with detlevel := 1 } = true := by decide +kernel
/-- A camera at the origin, of one sample at (0, 0), to batch slot 3 by view 15. -/
def filming : Group := ((((atVa 0x2000).writeS 8 (3 + 4 * 15)).writeS 9 0).writeS 10 0x10001).writeS 11 1
theorem witness_RayInstructions_camera : issuesIn (.raygen { a := .scl 4, b := .scl 8 }) (rayIn filming onZero) filming = true
    ∧ wordsOf (.scl 8) filming [0] 0 % 4 = 3 ∧ Tab.get? ((rayIn filming onZero).team 1).snaps (wordsOf (.scl 8) filming [0] 0 / 4 % 16) = some snap
    ∧ (((rayIn filming onZero).readRange 0 0 0 0x2000 64).toOption == some (List.replicate 64 0)) = true
    ∧ 0 + wordsOf (.scl 8) filming [0] 2 % 65536 ≤ field snap.chart 8 2 ∧ wordFrac? (BitVec.ofNat 32 (field (List.replicate 64 0) 0 4)) = some ⟨0, 1⟩
    ∧ issuesIn (.raygen { a := .scl 4, b := .scl 8 }) (rayIn (filming.writeS 4 0x2020) onZero) (filming.writeS 4 0x2020) = true ∧ 0x2020 % 64 ≠ 0
    ∧ issuesIn (.raygen { a := .scl 4, b := .scl 8 }) (rayIn (filming.writeS 10 0) onZero) (filming.writeS 10 0) = true
    ∧ issuesIn (.raygen { a := .scl 4, b := .scl 8 }) (rayIn (filming.writeS 8 3) onZero) (filming.writeS 8 3) = true
    ∧ Tab.get? ((rayIn filming onZero).team 1).snaps 0 = none := by decide +kernel

/-- The parameters of the ray, which enters the box at 1 and meets its triangle at 2 (R332, R333). -/
def par : RayPar := ⟨[⟨-1, 2⟩, ⟨-1, 2⟩, ⟨-2, 1⟩], [⟨0, 1⟩, ⟨0, 1⟩, ⟨1, 1⟩], ⟨0, 1⟩, ⟨10, 1⟩⟩
def rimage : RayImage := (parseImage imageBytes 112).getD ⟨0, [], []⟩
theorem witness_RayTraversal : rayPar? ray = some par ∧ ray.length = 128 ∧ boxEntry par cube = some ⟨1, 1⟩
    ∧ (∀ k, k < 6 → wordFrac? (cube.getD k 0) = some (if k < 3 then ⟨-1, 1⟩ else ⟨1, 1⟩))
    ∧ listing subs par 255 none = [0] ∧ boxEntry { par with tmax := ⟨1, 2⟩ } cube = none
    ∧ wordFrac? 0x7FC00000 = none := by decide +kernel
theorem witness_RayTraversal_hit : (rimage.tris.map (fun t => t.candidate par false false)) = [some (⟨2, 1⟩, ⟨1, 4⟩, ⟨1, 4⟩)]
    ∧ rimage.tris.all (fun t => t.prim % 16 == 0 && t.v.length == 9 && t.v.all Option.isSome) = true
    ∧ (rimage.candidates par ray 1 0).length = 1 ∧ field ray 48 8 = 2 ^ 64 - 1
    ∧ (rimage.candidates par (ray.take 44 ++ [2] ++ ray.drop 45) 0 0).length = 1 ∧ natBit (field (ray.take 44 ++ [2] ++ ray.drop 45) 44 2) 1 = true
    ∧ wordFrac? 0x3F800000 = some ⟨1, 1⟩ ∧ (nextAbove 0x3F800000).isSome = true := by decide +kernel
theorem witness_RayTraversal_next : field (putBytes (putBytes ray 64 [0, 0, 0, 0]) 80 [1]) 80 1 = 1
    ∧ (nextSubtree subs par 0 (putBytes (putBytes ray 64 [0, 0, 0, 0]) 80 [1])).map Prod.fst = some 0
    ∧ field ray 80 1 = 0 ∧ listing subs par (field ray 46 1) (some (⟨1, 1⟩, 0)) = [] ∧ subs.length ≤ 4096
    ∧ nextSubtree subs par 0 (putBytes (takeHit (putBytes (putBytes ray 64 [0, 0, 0, 0]) 80 [1]) (rimage.tris.getD 0 {}) (⟨1, 2⟩, ⟨0, 1⟩, ⟨0, 1⟩)) 80 [1]) = none := by
  decide +kernel
/-- A ray that enters the box and misses its triangle. -/
def past_ : List Byte := leBytes 4 0x3F000000 ++ leBytes 4 0x3F000000 ++ ray.drop 8

/-- A producer that waits for a scene; an open of slot 2 whose descriptor, at 0x2000, names the scene at 0x3000. -/
def waiting : State :=
  { rayIn { one with wait := some ⟨.room, false, false⟩ } onZero with scenes := [(0, { scene with waiting := [(1, 32)] })] }
def openDesc (result : Nat) : List Byte := leBytes 8 0x3000 ++ leBytes 8 result ++ leBytes 4 2 ++ [255, 255] ++ leBytes 10 0
def openOp : Op := { group := 1, body := .rayOpen 2 0x2000, counter := some 4 }
def batchOpening (result blocks : Nat) (scenes : Tab Scene) : State :=
  { (rayIn one onZero).setBytes 0x2000 (openDesc result) |>.setBytes 0x3000 (sceneBytes blocks) with ops := [(7, openOp)], scenes := scenes }
theorem witness_RayScheduling : (0, { scene with waiting := [(1, 32)] }) ∈ waiting.scenes ∧ scene.held + 32 ≤ 32 * (scene.blocks / 2 - scene.subs.length - 32)
    ∧ (waiting.group 1).wait = some ⟨.room, false, false⟩ ∧ Tab.get? (batchOpening 0x8000 68 []).ops 7 = some openOp
    ∧ ((batchOpening 0x8000 68 []).batch 1).held = false ∧ ((batchOpening 0x8000 68 []).batch 0).held = true
    ∧ ((batchOpening 0x8000 68 []).readRange 0 0 0 0x2000 32).toOption == some (openDesc 0x8000)
    ∧ (batchOpening 0x8000 68 []).sceneSlot 0 0 0 0x3000 = none ∧ (batchOpening 0x8000 68 []).freeScene 0 = some 0
    ∧ (batchOpening 0x8000 68 [(0, scene)]).sceneSlot 0 0 0 0x3000 = some 0
    ∧ natBit ((batchOpening 0x8000 68 []).func 0).rayStage ((batchOpening 0x8000 68 []).relUnit 0) = true
    ∧ 0x8001 % 128 ≠ 0 ∧ natBit (State.reset.func 0).rayStage 0 = false := by decide +kernel
theorem witness_RayScheduling_loads : ((batchOpening 0x8000 68 []).loadScene 7 1 0 0x3000 matches .ok (.ok _)) = true
    ∧ ((batchOpening 0x8000 66 []).loadScene 7 1 0 0x3000 matches .ok (.error 2)) = true
    ∧ ((batchOpening 0x8000 67 []).loadScene 7 1 0 0x3000 matches .ok (.error 1)) = true
    ∧ ((batchOpening 0x8000 68 []).readRange 0 0 0 0x3000 64).toOption == some ((sceneBytes 68).take 64) := by decide +kernel
def rin : State := (rayIn one onZero).setBytes 0x4000 ray
def queued (n age : Nat) : State := { rin with scenes := [(0, { scene with queues := [(0, { age := age, blocks := [(0, n)] })] })] }
theorem witness_RayScheduling_rays : Tab.get? rin.batches 0 = some batch ∧ (rin.writeRange 0 0 0 (0x8000 + 128 * field ray 32 4) ray).toOption.isSome = true
    ∧ ((({ rin with batches := [(0, { batch with result := 2 ^ 31 })] } : State).writeRange 0 0 0 (2 ^ 31 + 128) ray) matches .error (.bad _ _ _)) = true
    ∧ listing (rin.scene 0).subs par (field ray 46 1) none = [0]
    ∧ ((queued 31 0).scene 0).queue 0 = { blocks := [(0, 31)] } ∧ rin.freeBlock 0 = some 0
    ∧ (rin.writeRange 0 0 0 (0x4000 + 4096 * 0 + 128 * 31) ray).toOption.isSome = true
    ∧ (rin.submitRays 7 0 0 [(ray, false)] matches .ok _) = true := by decide +kernel
theorem witness_RayScheduling_passes : (queued 1 63).waitingQueues 0 = [(0, 0, { age := 63, blocks := [(0, 1)] })]
    ∧ natBit ((queued 1 63).func 0).rayStage ((queued 1 63).relUnit 0) = true ∧ Tab.get? (queued 1 63).passes 0 = none
    ∧ ((queued 1 63).markRays (passWho 0) 0 ((queued 1 63).sceneGroup 0) ((queued 1 63).scene 0) [0x4000] matches .ok _) = true
    ∧ ((queued 1 63).passImage (passWho 0) 0 (1, 0) scene 0 matches .ok (some _)) = true
    ∧ ((queued 1 63).readRays (passWho 0) 0 (1, 0) scene (scene.records [(0, 1)]) matches .ok [_]) = true
    ∧ (rin.passRays (passWho 0) 0 0 0 (some rimage) [(past_, false)] [] matches .ok (_, [])) = true
    ∧ rin.recBatch 0 ray = some 0 := by decide +kernel
/-- A batch with a record to commit to node 1, and batches whose rays are all done. -/
def recIn : State :=
  { rin with batches := [(0, { batch with recs := [(1, 0, ray)] })], launches := [(0, { src := .entry 3 })], insts := [(3, graph)] }
def doneIn (det : Nat) (reaped : Bool) : State :=
  { rin with batches := [(0, { batch with completed := 2, det := det, reaped := reaped })], ops := [(7, { group := 1, body := .rayWait 0, flag := some 0 })] }
theorem witness_RayScheduling_ends : (State.reserveRun 3 1 none 1 recIn).isSome = true ∧ recIn.groupNode (recIn.group 1) = some (3, 0)
    ∧ ((doneIn 1 false).reapBatch (batchWho 0) 0 (List.range 2) matches .ok _) = true ∧ ((doneIn 1 false).batch 0).complete = false
    ∧ ((doneIn 0 false).batch 0).count ≤ ((doneIn 0 false).batch 0).completed ∧ ((doneIn 1 true).batch 0).recs = [] := by decide +kernel
theorem test_batch_completes : (fun t : State => ((t.batch 0).complete, t.ops.map (fun o => o.2.body))) ((doneIn 0 false).after (exec (.rayBatchComplete 0 0) (doneIn 0 false)))
    = (true, [.engine]) := by decide +kernel
theorem test_hit_is_written : ((takeHit ray (rimage.tris.getD 0 {}) (⟨2, 1⟩, ⟨1, 4⟩, ⟨1, 4⟩)).drop 48).take 16
    = leBytes 8 0x110 ++ leBytes 2 0x3400 ++ leBytes 2 0x3400 ++ leBytes 4 0x40000000 := by decide +kernel

/-! ### Records, launches and invocations -/

/-- A group of node 0 of a work graph, whose node 1 takes records of 16 bytes, four to a batch. -/
def noded (g : Group) (w : WInst) : State :=
  { glob g with launches := [(0, { src := .entry 3 })], insts := [(3, w)] }
def recd : Group := { one with recs := [(1, 0)] }
theorem witness_RecordsAndLaunches : (noded one graph).groupNode one = some (3, 0) ∧ aims (noded one graph) 3 0 1 ∧ ¬aims (noded one graph) 3 0 0
    ∧ issuesIn (.spawn { a := .vec 1, b := .imm 1 } 3) (noded one graph) one = true ∧ 4 * (3 + 1) ≤ (graph.node 1).recBytes
    ∧ issuesIn (.spawn { a := .vec 1, b := .imm 1 } 7) (noded one graph) one = true ∧ (graph.node 1).recBytes < 4 * (7 + 1)
    ∧ (State.reserveRun 3 1 one.producer 1 (noded one graph)).isSome = true ∧ one.detlevel = 0 ∧ graph.waiting.head? = none
    ∧ issuesIn (.spawn { a := .vec 1, b := .imm 1 } 3) (glob one) one = true ∧ (glob one).groupNode one = none := by decide +kernel
theorem witness_RecordsAndLaunches_slots : issuesIn (.recalloc { d := .vec 2, a := .imm 1 }) (noded one graph) one = true
    ∧ (recallocRun 3 one.producer (fun _ => 1) [0] (noded one graph)).isSome = true
    ∧ issuesIn (.reccommit { a := .vec 4 }) (noded recd graph) recd = true ∧ (recd.value64 (.vec 4) 0).toNat = 0
    ∧ 0 ∈ recd.recs.map Prod.snd ∧ issuesIn (.reccommit { a := .vec 4 }) (noded one graph) one = true
    ∧ issuesIn (.reccommit { a := .vec 4 }) (noded { grp with recs := [(1, 0)] } graph) { grp with recs := [(1, 0)] } = true
    ∧ (({ grp with recs := [(1, 0)] } : Group).value64 (.vec 4) 1).toNat = 0 := by decide +kernel
/-- s4 and s5 hold a graph's address, and s6 the handle of queue 1023, of generation 2. -/
def launching : Group := (atVa 0x2000).writeS 6 0x000203FF
def launchIn (g : Group) (n : Nat) : State :=
  { glob g with queues := [(1023, { live := true, gen := 2 })]
                ops := (List.range n).map (fun k => (7 + k, { group := 1, body := .launchQ 1023 2 0 0, counter := some 0 })) }
theorem witness_RecordsAndLaunches_launches : issuesIn (.launchQ { a := .scl 4, b := .scl 6 } 9) (launchIn launching 0) launching = true
    ∧ onceOf (.scl 6) launching [0] % 65536 = 1023 ∧ ((launchIn launching 0).queue 0 1023).gen = onceOf (.scl 6) launching [0] / 65536
    ∧ (launchIn launching 3).launchesOf 1 < 4 ∧ 4 ≤ (launchIn launching 4).launchesOf 1
    ∧ issuesIn (.launchQ { a := .scl 4, b := .scl 6 } 9) (launchIn (launching.writeS 6 0x000303FF) 0) (launching.writeS 6 0x000303FF) = true
    ∧ issuesIn (.launchQ { a := .scl 4, b := .scl 6 } 9) (launchIn { launching with detlevel := 1 } 0) { launching with detlevel := 1 } = true
    ∧ issuesIn (.launchWg { a := .scl 4 }) (launchIn launching 0) launching = true ∧ 0x2000 % 64 = 0
    ∧ (((launchIn launching 0).readRange 0 0 0 0x2000 64).toOption == some (List.replicate 64 0)) = true
    ∧ issuesIn (.launchWg { a := .scl 4 }) (launchIn (atVa 0x2020) 0) (atVa 0x2020) = true ∧ 0x2020 % 64 ≠ 0 := by decide +kernel
def opened : WInst := { graph with blocks := [(0, { state := .opened, node := 1, count := 4 })] }
def committing2 (recs : List (Nat × List Byte)) : State :=
  { noded one { opened with pool := 0x2000 } with ops := [(7, { group := 1, body := .commit 3 recs, counter := some 0 })] }
theorem witness_RecordsAndLaunches_commits : (committing2 [(0x2000, [])]).pendingOps [] = [] ∧ (committing2 [(0x2000, [])]).requestsOf 7 0 = []
    ∧ ((committing2 [(0x2000, [1])]).writeRange 0 0 0 0x2000 [1]).toOption.isSome = true
    ∧ (opened.block 0).state = .opened ∧ (opened.block 0).commits = [] := by decide +kernel
theorem test_commit_counts_a_slot : (((committing2 [(0x2010, [])]).after (exec (.writeAcknowledged 7) (committing2 [(0x2010, [])]))).inst 3).block 0
    = { state := .opened, node := 1, count := 4, commits := [1], first := some 0 } := by decide +kernel

/-- A group that may send to partition 0 of chip 1 over link 0, in a context with a window of 16 bytes at 0x2000. -/
def sender : Group := one.writeV 3 0 1
def windowed : Context := { live := true, ptroot := 0x100000, windows := [{ base := 0x2000, size := 16, src := true, dst := true }] }
def sendIn (g : Group) : State :=
  { glob g with contexts := [(0, windowed)], links := [(0, { up := true })]
                funcs := [(0, { fabEn := true, seqBase := 0x200000, routes := [(1, 0x100)], evBase := 0x1000 })] }
theorem witness_RemoteInstructions : issuesIn (.rinv { d := .vec 1, a := .vec 2, b := .vec 3, c := .vec 4 } 2 2 true 17 5) (sendIn sender) sender = true
    ∧ (sendIn sender).hasRoute 0 1 = true ∧ (sender.value (.vec 3) 0).toNat < 2 ^ 31
    ∧ (sendIn sender).pendingOps ((sendIn sender).releaseWrites 1 .sys) = [] ∧ sender.counter 3 + 1 ≤ 0xFFFF
    ∧ ((sendIn sender).pair (pairOf sender 1)).sent.length + 1 ≤ 256
    ∧ ¬(({ sendIn sender with pairs := [(pairOf sender 1, { sent := List.replicate 256 {} })] } : State).pair (pairOf sender 1)).sent.length + 1 ≤ 256
    ∧ issuesIn (.rinv { d := .vec 1, a := .vec 2, b := .vec 3, c := .vec 4 } 2 2 true 17 5) (sendIn { sender with detlevel := 1 }) { sender with detlevel := 1 } = true
    ∧ (sendIn one).hasRoute 0 2 = false := by decide +kernel
theorem witness_RemoteInstructions_puts : issuesIn (.put { a := .vec 2, b := .scl 20, c := .vec 3 } 3 0) (sendIn sender) sender = true
    ∧ ((sendIn sender).context 0 0).windows.length = 1 ∧ (sender.value (.vec 3) 0).toNat < 2 ^ 29 ∧ ((sendIn sender).team 1).copyOf = none
    ∧ issuesIn (.put { a := .vec 2, b := .scl 20, c := .vec 3 } 3 1) (sendIn sender) sender = true
    ∧ issuesIn (.wcnt { d := .scl 20, a := .imm 0, b := .imm 0 } .ref) (sendIn one) one = true ∧ ((0 : Word) - 0).toNat < 2 ^ 31
    ∧ issuesIn (.wcnt { d := .scl 20, a := .imm 0, b := .imm 1 } .src) (sendIn one) one = true ∧ ¬((0 : Word) - 1).toNat < 2 ^ 31
    ∧ issuesIn (.wcnt { d := .scl 20, a := .imm 1, b := .imm 0 } .dst) (sendIn one) one = true := by decide +kernel
theorem test_put_sends : (fun t : State => (t.pairs.map (fun p => (p.2.sent.length, p.2.next)), (t.link 0).out.length))
    ((sendIn sender).after (exec (.put { a := .vec 2, b := .scl 20, c := .vec 3 } 3 0) (sendIn sender))) = ([(1, 1)], 1) := by decide +kernel

/-- A packet from chip 1 with a number: an INV to queue 5 of generation 2, or a PUT into window 0 of context 0. -/
def invBytes (number : Nat) : List Byte :=
  leBytes 1 1 ++ leBytes 1 0 ++ leBytes 2 0 ++ leBytes 2 1 ++ leBytes 2 0 ++ leBytes 4 number ++ leBytes 4 0x00020005 ++ List.replicate 112 0
def putBytes2 (number off : Nat) : List Byte :=
  leBytes 1 2 ++ leBytes 1 0 ++ leBytes 2 0 ++ leBytes 2 1 ++ leBytes 2 0 ++ leBytes 4 number ++ leBytes 4 0 ++ leBytes 4 off ++ leBytes 1 4
    ++ List.replicate 11 0 ++ leBytes 4 0x12345678 ++ List.replicate 28 0
def okObj : CodeObj := { roles := [{}] }
def inbox : Inbound := { recv := true, land := 0x3000, ring := 0x4000, verdicts := [(0, some (okObj, none))] }
def boxIn (bs : List Byte) (x : Inbound) : State :=
  { sendIn one with contexts := [(0, { windowed with handlers := [{ valid := true, code := 0x5000 }] })]
                    queues := [(5, { live := true, gen := 2, inb := x })], packets := [(9, { bytes := bs, link := some 0 })] }
theorem arrived_inv (n : Nat) (x : Inbound) : Arrived (boxIn (invBytes n) x) 9 1 (invBytes n) :=
  ⟨⟨_, rfl, rfl, rfl⟩, by simp [field, invBytes, leBytes, leNat], by simp [field, invBytes, leBytes, leNat, boxIn, sendIn, glob, small, State.reset],
    by simp [field, invBytes, leBytes, leNat, boxIn, sendIn, glob, small, State.reset, State.func, toPart, Tab.getD, Tab.get?], fun h => by simp at h⟩
theorem witness_RemoteEvents : Arrived (boxIn (invBytes 0) inbox) 9 1 (invBytes 0) ∧ behindBy (boxIn (invBytes 0) inbox) (invBytes 0) = 0
    ∧ refusalOf (boxIn (invBytes 0) inbox) (invBytes 0) true = none ∧ verdictOf (boxIn (invBytes 0) inbox) (invBytes 0) = some (some (okObj, none))
    ∧ inbox.freeSlot = some 0 ∧ (boxIn (invBytes 0) inbox).asSaved 0 0 = false :=
  ⟨arrived_inv 0 inbox, by decide +kernel⟩
theorem witness_RemoteEvents_numbers : behindBy (boxIn (invBytes 1) inbox) (invBytes 1) > 256 ∧ (boxIn (invBytes (2 ^ 32 - 256)) inbox).stillLanding (invBytes (2 ^ 32 - 256)) = false
    ∧ behindBy (boxIn (invBytes (2 ^ 32 - 256)) inbox) (invBytes (2 ^ 32 - 256)) = 256
    ∧ refusalOf (boxIn (invBytes 0) { inbox with recv := false }) (invBytes 0) true = some (4, 2)
    ∧ refusalOf (boxIn (invBytes 0) { inbox with verdicts := [(0, none)] }) (invBytes 0) false = some (4, 6)
    ∧ refusalOf (boxIn (invBytes 0) { inbox with waiting := List.replicate 16 1 }) (invBytes 0) true = some (2, 7) := by decide +kernel
theorem witness_RemoteEvents_lands : ((boxIn (invBytes 0) inbox).engWrite (receiverEng 0 0 0) 0x3000 (invBytes 0) matches .ok _) = true
    ∧ ((boxIn (invBytes 0) inbox).engWrite (receiverEng 0 0 0) (2 ^ 31) (invBytes 0) matches .bad _ _) = true
    ∧ { inbox with waiting := [3] }.waiting ≠ []
    ∧ ((boxIn (putBytes2 0 12) inbox).engWrite (receiverEng 0 0 0) (0x2000 + 12) (leBytes 4 0x12345678) matches .ok _) = true
    ∧ field (putBytes2 0 12) 16 4 + field (putBytes2 0 12) 20 1 ≤ 16 ∧ ¬field (putBytes2 0 16) 16 4 + 4 ≤ 16
    ∧ field (putBytes2 0 12) 12 4 % 256 < ((boxIn (putBytes2 0 12) inbox).context 0 0).windows.length
    ∧ (State.reset.context 0 0).live = false := by decide +kernel
theorem witness_RemoteEvents_replies : field (leBytes 1 3 ++ List.replicate 31 0) 0 1 ≥ 3
    ∧ ([{ seq := 0, op := 7 }] : List Machine.Sent).find? (fun y => y.seq == BitVec.ofNat 32 (numberOf (leBytes 1 3 ++ List.replicate 31 0))) = some { seq := 0, op := 7 }
    ∧ ((sendIn one).func 0).evBase ≠ 0 ∧ ((sendIn one).func 0).evHead - ((sendIn one).func 0).evTail ≠ BitVec.ofNat 32 (ringSize ((sendIn one).func 0).evSize 4096)
    ∧ (State.reset.func 0).evBase = 0 ∧ 128 * 2 ^ 20 ≤ 85 * (1579034 - 0)
    ∧ Tab.getD ((sendIn one).func 0).routes 1 0 / 2 ^ 8 % 2 = 1 ∧ (sendIn one).routeLink 0 1 = some 0 ∧ (sendIn one).routeLink 0 2 = none
    ∧ field (leBytes 2 3 ++ leBytes 2 2) 2 2 % 4096 ≠ (sendIn one).pt.chipid := by decide +kernel
theorem witness_RemoteEvents_links : ((sendIn one).link 0).up = true ∧ packetSize (putBytes2 0 0) = some 64 ∧ (putBytes2 0 0).length = 64
    ∧ packetSize (List.replicate 32 0) = none ∧ 64 ≤ ({ up := true, fails := 64 } : Link).fails ∧ ((sendIn one).link 11).up = false := by decide +kernel
/-- A waiting entry that a FREE slot takes, and an invocation in slot 0 that is ready to run. -/
theorem witness_RemoteEvents_slots : { inbox with waiting := [3] }.freeSlot = some 0
    ∧ ((boxIn [] { inbox with waiting := [3] }).engRead (receiverEng 0 0 0) 0x4000 128 matches .ok _) = true
    ∧ ((boxIn [] { inbox with slots := [(0, ⟨.held, 3⟩)] }).setBytes 0x3000 (invBytes 0) |>.batch? 0 5).isSome = true := by decide +kernel
def landed : State := (boxIn (putBytes2 0 12) inbox).after (exec (.putReceived 9) (boxIn (putBytes2 0 12) inbox))
theorem test_put_lands : (landed.nat 0x200C 4, (Tab.getD landed.packets 9 {}).landing) = (0x12345678, true) := by decide +kernel
theorem test_inv_is_held : (fun t : State => (((t.queue 0 5).inb.slots), t.packets.length, (t.link 0).out.length))
    ((boxIn (invBytes 0) inbox).after (exec (.invReceived 9) (boxIn (invBytes 0) inbox))) = ([(0, ⟨.held, 100⟩)], 0, 1) := by decide +kernel

/-! ### Issue and retirement -/

/-- A group outside a clause, before one at offset 24 whose header names flag 11. -/
def outside_ : Group := { one with clause := none, frontier := [⟨24, 0, 1, false⟩] }
def head11 : Nat := 0x3FF + 2 ^ 15 + 2 ^ 30
def outIn2 (g : Group) (w : Nat) : State :=
  { (withCode g).setBytes (spaceKey 1 24) (leBytes 12 w) with cores := [(0, { active := [1], ready := [2] })] }
theorem before_of {s : State} {g : Group} {e : Entry} (h : (s.mayIssue 1 && Tab.get? s.groups 1 == some g && Tab.get? s.spec 1 == none
    && g.clause == none && g.next? == some e) = true) : Before s 1 g e := by
  simp only [Bool.and_eq_true, beq_iff_eq] at h
  obtain ⟨⟨⟨⟨h1, h2⟩, h3⟩, h4⟩, h5⟩ := h
  exact ⟨h1, h2, h3, h4, h5⟩
theorem witness_IssueEvents : Before (outIn2 outside_ head11) 1 outside_ ⟨24, 0, 1, false⟩
    ∧ (outIn2 outside_ head11).codeWord? outside_ false 24 = some head11 ∧ HeaderFine head11
    ∧ 24 + 12 * (head11 / 2 ^ 15 % 16 + 1) ≤ (outIn2 outside_ head11).codeSize outside_ false
    ∧ head11 / 2 ^ (19 + 11) % 2 = 1 ∧ ({ outside_ with flags := [(11, [7])] } : Group).flagOps 11 ≠ [] :=
  ⟨before_of (by decide +kernel), by decide +kernel, ⟨by decide, by decide, by decide, by decide, by decide, by decide⟩, by decide +kernel⟩
theorem witness_IssueEvents_headers : (outIn2 outside_ 0x3FE).codeWord? outside_ false 24 = some 0x3FE ∧ 0x3FE % 2 ^ 10 ≠ 0x3FF
    ∧ (outIn2 outside_ head11).codeSize outside_ false = 48 ∧ 48 < 24 + 12 * ((0x3FF + 2 ^ 16) / 2 ^ 15 % 16 + 1)
    ∧ ¬(1 ≤ 0x3FF / 2 ^ 15 % 16) ∧ 24 % 12 = 0 ∧ 25 % 12 ≠ 0 := by decide +kernel
/-- A group that waits for its counter, one that sleeps until cycle 9, and one at the end of its time in the active set. -/
def sleeper : Group := { one with wait := some ⟨.sleep 9 1, true, false⟩ }
def coreIn (g : Group) (cycles : Nat) : State := { small g with cores := [(0, { active := [1], ready := [2], entered := [], cycles := cycles })] }
theorem witness_IssueEvents_waits : endedWait (small { one with wait := some ⟨.counter 0 0, false, false⟩ }) 1 one ⟨.counter 0 0, false, false⟩
    ∧ (small { one with wait := some ⟨.counter 0 0, false, false⟩ }).attends 1 = true ∧ one.trapping = none :=
  ⟨Nat.le_of_eq (by rfl), by decide +kernel⟩
theorem witness_IssueEvents_sleeps : Tab.get? (coreIn sleeper 9).groups 1 = some sleeper ∧ (coreIn sleeper 9).attends 1 = true
    ∧ 9 ≤ ((coreIn sleeper 9).core 0).cycles ∧ one.waiting = false ∧ 1 ∈ ((coreIn one 512).core 0).active
    ∧ ((coreIn one 512).core 0).ready = 2 :: [] ∧ Tab.getD ((coreIn one 512).core 0).entered 1 0 + 512 ≤ ((coreIn one 512).core 0).cycles := by
  decide +kernel
theorem witness_IssueEvents_words : decodeWord mapOne head11 = .header ∧ decodeWord mapOne 0x3A0 = .undef
    ∧ decodeWord mapOne (0x180 + 2 ^ 33 * 0x9FF) = .illopnd ∧ one.number = 0 ∧ ({ badBuf := some 3 } : Team).badBuf = some 3
    ∧ decodeWord mapOne (0x280 + 2 ^ 33 * 0x9FF) = .illopnd ∧ poolOk (opPool 0x180 (0x180 + 2 ^ 33 * 0x9FF)) 0 = true
    ∧ (small { one with checks := [(12, 1)] }).groups.map (fun g => g.2.checks) = [[(12, 1)]] := by decide +kernel
theorem test_clause_waits_for_its_flags : ((outIn2 { outside_ with flags := [(11, [7])] } head11).after
    (exec (.clauseStart 1) (outIn2 { outside_ with flags := [(11, [7])] } head11))).groups.map (fun g => g.2.wait)
    = [some ⟨.flags [11], false, false⟩] := by decide +kernel
theorem test_clause_starts : ((outIn2 outside_ head11).after (exec (.clauseStart 1) (outIn2 outside_ head11))).groups.map (fun g => g.2.clause)
    = [some { pc := 24, len := 1 }] := by decide +kernel

/-- A group with nothing in flight that drains, and a team whose groups have all retired. -/
def drained : Group := { one with draining := true }
def endTeam : Team := { scrTeam with coreScr := 0, launch := 8, gang := 9 }
def endIn (g : Group) (t : Team) : State :=
  { small g with teams := [(1, t)], gangs := [(9, { launch := 8, teams := [1] })], launches := [(8, { x := 2, y := 1, z := 1, obj := { roles := [{}] } })]
                 copies := [(1, { refs := 1 })], contexts := [(0, { live := true })] }
theorem witness_Retirement : Tab.get? (endIn drained endTeam).groups 1 = some drained ∧ drained.draining = true ∧ drained.retired = false
    ∧ ((endIn drained endTeam).team 1).saved = false ∧ ((endIn drained endTeam).team 1).copyOf = none ∧ drained.request = none
    ∧ drained.flags = [] ∧ drained.counters = [] ∧ (endIn drained endTeam).preqs = []
    ∧ 1 ∈ (endIn drained endTeam).teamGroups 1 ∧ ((endIn drained endTeam).team 1).regions = []
    ∧ ((endIn drained { endTeam with copyOf := some 5 }).team 1).copyOf ≠ none := by decide +kernel
def gone : Group := { one with retired := true }
theorem mayRetire_of (t : Team) (h : t.groups = [1] ∧ t.retired = false ∧ t.saved = false ∧ t.regions = []) : MayRetire (endIn gone t) 1 t :=
  ⟨rfl, ⟨h.2.1, h.2.2.1, by simp [h.1]⟩, fun j hj => by simp only [h.1, List.mem_singleton] at hj; subst hj; rfl, h.2.2.2,
    fun b hb => absurd hb (by simp [endIn, small, State.reset]), fun y hy => absurd hy (by simp [endIn, small, State.reset])⟩
theorem witness_Retirement_team : MayRetire (endIn gone endTeam) 1 endTeam ∧ Alone (endIn gone endTeam) 1 endTeam
    ∧ (∃ l, Tab.get? (endIn gone endTeam).launches 8 = some l ∧ l.src = .node ∧ l.done + 1 < l.teams)
    ∧ ((endIn gone endTeam).copy 1).refs ≤ 1 :=
  ⟨mayRetire_of _ ⟨rfl, rfl, rfl, rfl⟩, ⟨fun b hb => absurd hb (by simp [endIn, small, State.reset]),
    fun y hy => absurd hy (by simp [endIn, small, State.reset]), ⟨rfl, rfl⟩, rfl, by decide +kernel, by decide +kernel⟩,
    ⟨_, rfl, rfl, by decide +kernel⟩, by decide +kernel⟩
theorem witness_Retirement_others : MayRetire (endIn gone { endTeam with killed := true }) 1 { endTeam with killed := true }
    ∧ MayRetire (endIn gone { endTeam with copyOf := some 5, skipped := true }) 1 { endTeam with copyOf := some 5, skipped := true } :=
  ⟨mayRetire_of _ ⟨rfl, rfl, rfl, rfl⟩, mayRetire_of _ ⟨rfl, rfl, rfl, rfl⟩⟩
theorem witness_Retirement_launches : ({ x := 1, y := 1, z := 1, done := 1, obj := { roles := [{}] } } : Launch).teams ≤ 1
    ∧ (endIn gone endTeam).digest 1 = (endIn gone endTeam).digest 1 ∧ (endIn gone endTeam).raisedMore 1 1 = false
    ∧ ({ endIn one { endTeam with groups := [1] } with groups := [(1, { one with stores := [{ op := 0, addr := 1 }] })] } : State).digest 1
      ≠ (endIn one endTeam).digest 1
    ∧ ({ endIn gone { endTeam with retired := true } with teams := [(1, { endTeam with retired := true })] } : State).team 1 = { endTeam with retired := true } := by
  decide +kernel
theorem test_team_retires : (fun t : State => (t.teams.length, t.groups.length, (t.launches.map (fun l => l.2.done))))
    ((endIn gone endTeam).after (exec (.teamRetire 1) (endIn gone endTeam))) = (0, 0, [1]) := by decide +kernel

/-! ### Contexts, queues and the host -/

/-- A context descriptor at 0x7000 and a queue descriptor at 0x7040 (R68, R71). -/
def ctxDesc (template : Nat) : List Byte := leBytes 8 0x100000 ++ leBytes 8 0 ++ leBytes 8 0 ++ leBytes 8 0 ++ leBytes 8 5 ++ leBytes 8 template ++ leBytes 16 0
def qDesc (size : Nat) : List Byte :=
  leBytes 8 0x9000 ++ leBytes 4 size ++ [4, 3, 1, 1] ++ leBytes 8 0xA000 ++ leBytes 8 0xA020 ++ leBytes 32 0
def descIn (template size : Nat) : State := ((glob one).setBytes 0x7000 (ctxDesc template)).setBytes 0x7040 (qDesc size)
theorem witness_ContextsAndQueues : (1 : Word).toNat % 16 = 1 ∧ (State.reset.func 0).qCmd = none
    ∧ ({ glob one with funcs := [(0, { qCmd := some (1, 0x7000) })] } : State).func 0 = { qCmd := some (1, 0x7000) }
    ∧ ((descIn 0 16).runCommand 0 1 0x7000 matches .ok _) = true ∧ ((descIn 0 16).runCommand 0 1 0x7001 matches .refused 4) = true
    ∧ 0x7001 % 64 ≠ 0 ∧ (descIn 0 16).rangeTarget 0 (2 ^ 52) 64 = .nothing := by decide +kernel
theorem witness_ContextsAndQueues_descriptors : Descriptor (descIn 0 16) 0 0x7000 (ctxDesc 0) ∧ Descriptor (descIn 0 16) 0 0x7040 (qDesc 16)
    ∧ ContextFine (descIn 0 16) 0 (ctxDesc 0) ∧ QueueFine (descIn 0 16) 0 (qDesc 16) ∧ ¬QueueFine (descIn 0 17) 0 (qDesc 17) := by
  refine ⟨⟨rfl, 0x7000, Or.inl (by decide +kernel), by decide +kernel, by decide +kernel⟩,
    ⟨rfl, 0x7040, Or.inl (by decide +kernel), by decide +kernel, by decide +kernel⟩,
    ⟨by decide +kernel, by decide +kernel, Or.inl ⟨0x100000, by decide +kernel⟩⟩,
    ⟨by decide +kernel, ⟨by decide +kernel, 4, by decide +kernel⟩, by decide +kernel, ⟨by decide +kernel, 32, by decide +kernel, by decide +kernel⟩, by decide +kernel⟩, ?_⟩
  rintro ⟨-, ⟨-, k, h4, h16, hk⟩, -, -, -⟩
  have hf : field (qDesc 17) 8 4 = 17 := by decide +kernel
  rw [hf] at hk
  have h2 : (17 : Nat) % 2 = 1 := rfl
  rw [hk] at h2
  obtain ⟨j, rfl⟩ : ∃ j, k = j + 1 := ⟨k - 1, by omega⟩
  rw [Nat.pow_succ] at h2
  omega
def template : Context := { live := true, isTemplate := true, desc := 0xB000, inq := 3 }
theorem witness_ContextsAndQueues_tables : ((descIn 0 16).context 0 1).live = false ∧ ((descIn 0 16).context 0 0).live = true
    ∧ field (ctxDesc 0xB000) 40 8 ≠ 0 ∧ field (ctxDesc 0) 24 8 = 0 ∧ field (ctxDesc 0) 8 8 = 0 ∧ field (ctxDesc 0) 16 8 = 0
    ∧ ({ descIn 0xB000 16 with contexts := [(0, { live := true, ptroot := 0x100000 }), (7, template)] } : State).contexts.find? (fun x => x.2.live && x.2.part == 0
        && x.2.isTemplate && x.2.desc == field (ctxDesc 0xB000) 40 8) = some (7, template)
    ∧ ([(0x9000, 256, false), (0x9000, 256, true), (0xA000, 8, true), (0xA020, 32, true)] : List (Nat × Nat × Bool)).all (fun r =>
        (descIn 0 16).mapped ((descIn 0 16).commandEng 0 0 1) r.1 r.2.1 r.2.2 matches .ok ()) = true
    ∧ ((descIn 0 16).context 0 0).inq = 0 ∧ ((descIn 0 16).queue 0 1023).live = false := by decide +kernel
theorem witness_ContextsAndQueues_destroys : (({ glob one with queues := [(1023, { live := true, state := .node })] } : State).queue 0 1023).state = .node
    ∧ (({ glob one with queues := [(1023, { live := true, held := [(0x2000, 1, 7)] })] } : State).queue 0 1023).held = [(0x2000, 1, 7)]
    ∧ ({ glob one with queues := [(1023, { live := true, state := .node })] } : State).contextQueues 0 0 = [1023]
    ∧ (glob one).contextQueues 0 0 = [] := by decide +kernel
theorem test_create_context : (fun t : State => ((t.context 0 1).live, (t.context 0 1).seed, (t.func 0).qResult, (t.func 0).qNumber))
    ((fun s : State => s.after (exec (.queueCommandDone 0) s)) { descIn 0 16 with funcs := [(0, { qCmd := some (1, 0x7000) })] }) = (true, 5, 0, 1) := by
  decide +kernel

/-- A graph of one copy of 16 bytes from 0x6000 to 0x6010, named by the entry of a queue at 0x9000. -/
def copyNode : List Byte := [2, 0] ++ leBytes 2 0xFFFF ++ leBytes 4 0 ++ leBytes 8 0x6000 ++ leBytes 8 0x6010 ++ leBytes 8 16 ++ leBytes 32 0
def graphBytes : List Byte := leBytes 4 0x47524648 ++ leBytes 2 1 ++ leBytes 2 0 ++ leBytes 8 0xA040 ++ leBytes 8 9 ++ leBytes 1 2 ++ leBytes 39 0 ++ copyNode
def walk (x : Queue) : State :=
  { ((glob one).setBytes 0x8000 graphBytes).setBytes 0x9000 (leBytes 8 0x8000 ++ leBytes 4 7 ++ leBytes 4 0) with queues := [(5, x)] }
def que : Queue := { live := true, ring := 0x9000, head := 0xA000, err := 0xA020, t := 1 }
theorem serves_of {s : State} {q : Nat} {x : Queue} (h : (s.queueTurn 0 q && s.queue 0 q == x && x.fault == none) = true) : Serves s 0 q x := by
  simp only [Bool.and_eq_true, beq_iff_eq] at h
  exact ⟨h.1.1, h.1.2, h.2⟩
theorem witness_QueueWalk : Serves (walk que) 0 5 que ∧ que.t ≠ que.h ∧ que.stop = false ∧ que.size = 16 ∧ que.badTail = none :=
  ⟨serves_of (by decide +kernel), by decide⟩
theorem witness_QueueWalk_tails : ¬que.size < ((16 : Word) - que.h).toNat ∧ que.size < ((17 : Word) - que.h).toNat
    ∧ ((walk que).engWrite ((walk que).qEng 0 5) que.head (leBytes 8 1) matches .ok _) = true
    ∧ ((walk { que with head := 2 ^ 31 }).engWrite ((walk que).qEng 0 5) (2 ^ 31) (leBytes 8 1) matches .bad _ _) = true
    ∧ ((walk que).engWrite ((walk que).qEng 0 5) que.err (leBytes 32 0) matches .ok _) = true
    ∧ ({ que with state := .error } : Queue).state = .error := by decide +kernel
theorem witness_QueueWalk_order : ({ walk { que with prio := 3 } with queues := [(5, { que with prio := 3 }), (6, { que with realtime := true })] } : State).queueReady 0 6 = true
    ∧ ({ walk { que with prio := 3 } with queues := [(5, { que with prio := 3 }), (6, { que with realtime := true })] } : State).queueTurn 0 5 = false := by decide +kernel
theorem witness_QueueWalk_fetch : Serves (walk { que with state := .fetch }) 0 5 { que with state := .fetch }
    ∧ Serves (walk { que with state := .fetch, stop := true }) 0 5 { que with state := .fetch, stop := true } :=
  ⟨serves_of (by decide +kernel), serves_of (by decide +kernel)⟩
theorem witness_QueueWalk_check : Serves (walk { que with state := .check, graph := 0x8000 }) 0 5 { que with state := .check, graph := 0x8000 }
    ∧ ((walk que).checkGraph ((walk que).qEng 0 5) 0x8000 matches .ok (0, 1, 0xA040, 9)) = true
    ∧ ((walk que).checkGraph ((walk que).qEng 0 5) 0x8040 matches .bad _ _) = true
    ∧ ((walk que).checkNode ((walk que).qEng 0 5) copyNode 1 0x8040 matches .ok ()) = true
    ∧ ((walk que).checkNode ((walk que).qEng 0 5) (copyNode.drop 8) 1 0x8040 matches .bad _ _) = true :=
  ⟨serves_of (by decide +kernel), by decide +kernel⟩
/-- A queue at a node: its current node's bytes are `cur`. -/
def waitQ (cur : List Byte) (succ : Option Nat) : Queue := { que with state := .waitNode, graph := 0x8000, nodes := 1, cur := cur, succ := succ }
theorem witness_QueueWalk_nodes : Serves (walk { que with state := .node, graph := 0x8000, nodes := 1 }) 0 5 { que with state := .node, graph := 0x8000, nodes := 1 }
    ∧ Serves (walk (waitQ copyNode none)) 0 5 (waitQ copyNode none) ∧ Serves (walk (waitQ copyNode (some 0xFFFF))) 0 5 (waitQ copyNode (some 0xFFFF))
    ∧ Serves (walk (waitQ copyNode (some 0))) 0 5 (waitQ copyNode (some 0)) :=
  ⟨serves_of (by decide +kernel), serves_of (by decide +kernel), serves_of (by decide +kernel), serves_of (by decide +kernel)⟩
theorem witness_QueueWalk_effects : ((walk que).engRead ((walk que).qEng 0 5) 0x6000 16 matches .ok _) = true
    ∧ ((walk que).engWrite ((walk que).qEng 0 5) 0x6010 (List.replicate 16 0) matches .ok _) = true
    ∧ ((walk que).engNat ((walk que).qEng 0 5) 0x6000 8 matches .ok 0) = true ∧ (waitQ copyNode none).launch = none
    ∧ (walk (waitQ (4 :: copyNode.drop 1) none)).queueRuns 0 5 = true ∧ field (4 :: copyNode.drop 1) 16 8 = 0x6010
    ∧ (walk { que with held := [(0x8000, 7, 3)] }).queueRuns 0 5 = true ∧ (que.t - que.h).toNat < que.size
    ∧ ((walk que).engWrite { (walk que).qEng 0 5 with who := 2 ^ 44 + 1024 * 0 + 5 } (0x9000 + 16) (leBytes 16 0) matches .ok _) = true := by decide +kernel
theorem test_copy_node : (fun t : State => (t.nat 0x6010 4, (t.queue 0 5).h)) ((fun s : State => s.after (exec (.nodeComplete 0 5) s))
    ((walk (waitQ copyNode none)).setNat 0x6000 4 0x12345678)) = (0x12345678, 1) := by decide +kernel

theorem witness_HostAccesses : State.reset.serves 0 = true ∧ (0 : Nat) < 8 ∧ (State.reset.func 0).fabEn = false
    ∧ ((sendIn one).func 0).fabEn = true ∧ State.reset.physFunction = 0 ∧ State.reset.viewPart 15 = 0
    ∧ State.reset.serves 1 = false ∧ (1 : Nat) ≠ State.reset.physFunction ∧ 2 % 4 ≠ 0
    ∧ ((walk que).queue 0 5).live = true ∧ (State.reset.func 0).dropCmd = none ∧ (2 ^ 52 - 4) + 4 ≤ 2 ^ 52 := by decide +kernel
theorem test_register_write : ((State.reset.after (exec (.registerWrite 0 0x1004 1) State.reset)).func 0).qArg = 2 ^ 32 := by decide +kernel
theorem test_host_write : (State.reset.after (exec (.hostMemoryRequest 0 0x2000 true [1, 2]) State.reset)).nat 0x2000 4 = 0x201 := by decide +kernel

/-! ### Placement -/

/-- A code object of one role of one group at 0x3000, its one instruction after its header and roles (R27). -/
def objBytes : List Byte :=
  leBytes 4 0x4B464D49 ++ leBytes 2 1 ++ leBytes 2 8 ++ leBytes 4 108 ++ leBytes 4 96 ++ leBytes 4 12 ++ leBytes 8 0 ++ leBytes 2 96 ++ leBytes 2 0
    ++ leBytes 14 0 ++ leBytes 2 1 ++ leBytes 16 0 ++ [1, 0, 8, 0] ++ leBytes 40 0
/-- A partition of four clusters, and on it launch 8 of one team, of which gang 9 waits for a core. -/
def ranked : Launch := { code := 0x3000, x := 1, y := 1, z := 1, obj := { roles := [{}], sregs := 96 } }
def gangIn (g : Gang) (l : Launch) : State :=
  { glob one with pt := { unit := (List.range 15).map (fun k => (k + 1, 1)) }, teams := [], groups := [], cur := .none
                  launches := [(8, l)], gangs := [(9, g)], copies := [(3, { code := 0x3000, refs := 1 })] }
def ganged : Gang := { launch := 8, lins := [0] }
theorem witness_Placement : (gangIn ganged ranked).gangWaits 9 = true ∧ (gangIn ganged ranked).target? 9 = some (0, [0])
    ∧ (gangIn ganged ranked).wgAllows ((gangIn ganged ranked).launch ((gangIn ganged ranked).gang 9).launch) ((gangIn ganged ranked).gang 9).lins.length = true
    ∧ (match (gangIn ganged ranked).reserve 9 0 [0] with
      | .ok t => t.keepsFootprints ((gangIn ganged ranked).launch ((gangIn ganged ranked).gang 9).launch) 0
      | _ => false) = true
    ∧ (∀ b ∈ Tab.keys (gangIn ganged ranked).gangs, (gangIn ganged ranked).servedBefore b 9 = false) := by decide +kernel
theorem witness_Placement_gang : PlainGang (gangIn ganged ranked) 9 0 3 :=
  ⟨rfl, by decide +kernel, rfl, rfl, rfl, by decide +kernel, by decide +kernel⟩
/-- Two resident launches at 7 and 8, the gang of the second loading, or of long ago. -/
def loadedIn : State :=
  { gangIn { ganged with state := .loading, teams := [4] } ranked with teams := [(4, { launch := 8, gang := 9, core := 0, copy := 3, obj := ranked.obj })] }
theorem witness_Placement_choices : (gangIn ganged ranked).bestUnit ranked [1, 0] = some 0
    ∧ (gangIn ganged ranked).assignCores ranked.obj [[0, 1]] [] = some [0] ∧ (gangIn ganged ranked).coreFits ranked.obj 0 1 = true
    ∧ ({ gangIn ganged ranked with cores := [(0, { quarantined := true })] } : State).coreFits ranked.obj 0 1 = false
    ∧ (loadedIn.gang 9).state = .loading ∧ (loadedIn.context 0 0).saved = false ∧ (loadedIn.func 0).halted = false ∧ (loadedIn.gang 9).restores = false
    ∧ Tab.get? loadedIn.teams 4 ≠ none ∧ (loadedIn.launch (loadedIn.team 4).launch).src = .node ∧ (loadedIn.launch 8).args.length ≤ 256
    ∧ 80 ≤ (loadedIn.launch 8).obj.sregs ∧ (loadedIn.team 4).helm = (loadedIn.launch 8).helm := by decide +kernel
theorem test_loaded_team_starts : (fun t : State => (t.gang 9).state == .resident && (t.team 4).groups.length == 1
    && (t.group ((t.team 4).groups.headD 0)).frontier == [⟨0, 0, 2 ^ 128 - 1, false⟩]) (loadedIn.after (exec (.codeLoadComplete 9) loadedIn)) = true := by
  decide +kernel
def patient : State := { gangIn ganged ranked with now := 65536 }
theorem witness_Placement_holds : patient.gangWaits 9 = true ∧ 65536 ≤ patient.now - (patient.gang 9).since ∧ patient.holdTarget 9 = some 0
    ∧ patient.holds = [] ∧ (∀ b ∈ Tab.keys patient.gangs, b = 9)
    ∧ Tab.get? ({ patient with holds := [(0, 5)] } : State).holds (if (patient.launch 8).helm then 64 + 0 else 0) = some 5 ∧ (5 : Nat) ≠ 9 := by
  decide +kernel
/-- A launch packet for the graph at 0x2000, whose one node runs the object at 0x3000 (R85, R86). -/
def packet (x : Nat) : List Byte := leBytes 8 0x2000 ++ leBytes 4 x ++ leBytes 4 1 ++ leBytes 4 1 ++ leBytes 44 0
def wgBytes : List Byte :=
  leBytes 4 0x48574752 ++ leBytes 2 1 ++ leBytes 2 0 ++ leBytes 8 0x4000 ++ leBytes 4 2 ++ [12, 2] ++ leBytes 42 0
    ++ ([1] ++ leBytes 7 0 ++ leBytes 8 0x3000 ++ leBytes 48 0)
def accepting : State :=
  { ((glob one).setBytes 0x2000 wgBytes).setBytes 0x3000 objBytes with ops := [(7, { group := 1, body := .launchWg (packet 1), counter := some 0 })] }
def accEng : Eng := { unit := queueTransUnit 0, part := 0, ctx := 0, who := 7, die := 0 }
theorem witness_Placement_accepts : (accepting.checkWg accEng (accepting.queue 0 0) 0 0 (packet 1) matches .ok _) = true
    ∧ (accepting.checkWg accEng (accepting.queue 0 0) 0 0 (packet 1).tail matches .no _) = true
    ∧ accepting.insts = [] ∧ (Tab.get? accepting.ops 7).map (fun x => (x.flag, x.group)) = some (none, 1) := by decide +kernel

/-! ### Halts, pre-emption and repair -/

/-- A partition of one cluster unit, its partition's state, its context and a team of one group. -/
def pt4 : PartTable := { unit := (List.range 15).map (fun k => (k + 1, 1)) }
def haltIn (f : Func) : State := { glob one with pt := pt4, funcs := [(0, f)] }
def allBut33 : Func := { halted := true, stoppedEngines := List.range 33 }
theorem witness_HaltAndPreemption : (haltIn { halted := true }).engineKeys 0 = List.range 34 ∧ (16 : Word).toNat ≤ (if 15 < 16 then 16 else 32)
    ∧ ¬((haltIn { halted := true }).engineKeys 0).length ≤ ((haltIn { halted := true }).func 0).stoppedEngines.length + 1
    ∧ ((haltIn allBut33).engineKeys 0).length ≤ ((haltIn allBut33).func 0).stoppedEngines.length + 1 ∧ 33 ∉ allBut33.stoppedEngines
    ∧ ((haltIn { allBut33 with stopBase := 0x40000 }).func 0).stopBase ≠ 0
    ∧ ((haltIn {}).partCores 0).find? (fun c => (haltIn {}).coreStopKey c == 64 * 0 + 0) = some 0 := by decide +kernel
/-- The group at its trap on a stopped core: its record names the cause (R394). -/
theorem test_stop_record : (fun b => (field b 0 1, field b 1 1, field b 24 4)) (({ haltIn { halted := true } with groups := [(1, { one with stopped := true, trapCause := 5 })] } : State).stopRecord 0 0 3) = (1, 3, 5) := by
  decide +kernel
theorem witness_HaltAndPreemption_clear : (1 : Word).getLsbD 0 = true ∧ (∀ o ∈ (haltIn { halted := true }).ops, o.2.part = 0 → False)
    ∧ (∀ c ∈ ((haltIn { halted := true, haltCtxs := [1] }).func 0).haltCtxs, ((haltIn {}).context 0 c).live = false)
    ∧ ¬(∀ c ∈ ((haltIn { halted := true, haltCtxs := [0] }).func 0).haltCtxs, ((haltIn {}).context 0 c).live = false ∨ ((haltIn {}).context 0 c).saved = true)
    ∧ (0 : Word).getLsbD 0 = false := by decide +kernel
/-- The command words 0x100 and 0x200 save and restore context 0, and 0x101 and 0x201 context 1. -/
theorem witness_HaltAndPreemption_commands : (0x101 : Word).toNat % 64 = 1 ∧ (0x101 : Word).toNat / 256 % 4 = 1 ∧ (0x200 : Word).toNat / 256 % 4 = 2
    ∧ ((haltIn {}).func 0).cswCmd = none ∧ ((haltIn { cswCmd := some 0x100 }).func 0).cswCmd ≠ none ∧ ((haltIn {}).context 0 1).live = false
    ∧ ((haltIn {}).context 0 0).live = true ∧ ((haltIn {}).context 0 0).saved = false := by decide +kernel
theorem roundPage_pos (n : Nat) : 0 < roundPage (24 + n) := by
  unfold roundPage ceilDiv
  omega
/-- The context of the test's team needs more than no byte, and one of no team its context section (R400). -/
theorem cannot_hold (s : State) (h : (s.func 0).cswSize = 0) : (s.func 0).cswSize < s.saveNeed 0 0 := by
  rw [h]
  exact Nat.lt_of_lt_of_le (roundPage_pos Config.contextBytes) (Nat.le_add_right _ _)
theorem can_hold (s : State) (h : s.ctxTeams 0 0 = []) (hn : (s.func 0).cswSize = roundPage contextBytes) :
    s.saveNeed 0 0 ≤ (s.func 0).cswSize := by
  rw [hn, State.saveNeed, h]
  simp
theorem witness_HaltAndPreemption_sizes : ((haltIn {}).func 0).cswSize < (haltIn {}).saveNeed 0 0
    ∧ ({ haltIn { cswSize := roundPage contextBytes } with teams := [] } : State).saveNeed 0 0
      ≤ (({ haltIn { cswSize := roundPage contextBytes } with teams := [] } : State).func 0).cswSize :=
  ⟨cannot_hold _ (by decide +kernel), can_hold _ (by decide +kernel) rfl⟩
def savedIn (f : Func) : State := { haltIn f with contexts := [(0, { live := true, ptroot := 0x100000, saved := true })], teams := [] }

theorem bytes_of_set (bs : List Byte) : ∀ (m : List Host.Cell) (k : Nat), Memory.bytes (Memory.setBytes m k bs) k bs.length = bs := by
  suffices h : ∀ (cs : List Byte) (m : List Host.Cell) (k : Nat), (∀ i, i < cs.length → Memory.get m (k + i) = cs.getD i 0) →
      Memory.bytes m k cs.length = cs by
    intro m k
    refine h bs _ k fun i hi => ?_
    rw [Memory.get_setBytes, if_pos (by omega), show k + i - k = i by omega]
  intro cs
  induction cs with
  | nil => intro m k _; rfl
  | cons b cs ih =>
    intro m k h
    have h0 : Memory.get m k = b := by simpa using h 0 (by simp)
    refine congr (congrArg List.cons h0) (ih m (k + 1) fun i hi => ?_)
    have := h (i + 1) (by simpa using hi)
    rw [show k + 1 + i = k + (i + 1) by omega, this]
    rfl
theorem bytes_take (m : List Host.Cell) : ∀ (n j k : Nat), j ≤ n → Memory.bytes m k j = (Memory.bytes m k n).take j := by
  intro n
  induction n with
  | zero => intro j k h; obtain rfl : j = 0 := by omega
            rfl
  | succ n ih =>
    intro j k h
    match j with
    | 0 => rfl
    | j + 1 => exact congrArg (List.cons _) (ih j (k + 1) (by omega))
theorem bytes_drop (m : List Host.Cell) : ∀ (j n k : Nat), Memory.bytes m (k + j) n = (Memory.bytes m k (j + n)).drop j := by
  intro j
  induction j with
  | zero => intro n k; simp
  | succ j ih =>
    intro n k
    rw [show k + (j + 1) = k + 1 + j by omega, ih n (k + 1), show j + 1 + n = (j + n) + 1 by omega]
    rfl
theorem leBytes_len : ∀ n v, (leBytes n v).length = n
  | 0, _ => rfl
  | n + 1, v => congrArg (· + 1) (leBytes_len n (v / 256))
theorem leNat_of_leBytes : ∀ n v, leNat (leBytes n v) = v % 256 ^ n
  | 0, v => by simp [leNat, leBytes, Nat.mod_one]
  | n + 1, v => by
    rw [leBytes, leNat, leNat_of_leBytes n, BitVec.toNat_ofNat, show 256 ^ (n + 1) = 256 * 256 ^ n by rw [Nat.pow_succ, Nat.mul_comm]]
    exact Nat.mod_mul.symm
theorem section_len (s : State) (n : Nat) : (s.contextSection n).length = contextBytes := by
  simp only [State.contextSection, withCheck, List.length_append, leBytes_len, freeBytes, List.length_map, List.length_range, contextBytes]
  omega
theorem check_of (bs : List Byte) : checkOk (withCheck bs) = true := by
  have h : (withCheck bs).length - 8 = bs.length := by simp [withCheck, leBytes_len]
  have h8 : 8 ≤ (withCheck bs).length := by simp [withCheck, leBytes_len]
  rw [checkOk, h, decide_eq_true h8, numAt]
  have hd : ((withCheck bs).drop bs.length).take 8 = leBytes 8 (crc64 bs).toNat := by
    rw [withCheck, List.drop_left, List.take_of_length_le (Nat.le_of_eq (leBytes_len _ _))]
  have ht : (withCheck bs).take bs.length = bs := by rw [withCheck, List.take_left]
  rw [hd, ht, leNat_of_leBytes]
  have hlt : (crc64 bs).toNat % 256 ^ 8 = (crc64 bs).toNat := Nat.mod_eq_of_lt (crc64 bs).isLt
  rw [hlt]
  simp
/-- A saved context whose save area, at 0x10000, holds its context section, and one whose area holds nothing (R400). -/
def emptied : State := savedIn { cswArea := 0x10000 }
def restorable : State := emptied.physWrite 0 0x10000 (emptied.contextSection 0)
theorem emptied_key (off : Nat) (h : off ≤ 8) : emptied.physKey? 0 (0x10000 + off) = some (globalKey 0 0x10000 + off) := by
  have : ∀ k, k ≤ 8 → emptied.physKey? 0 (0x10000 + k) = some (globalKey 0 0x10000 + k) := by decide +kernel
  exact this off h
theorem restorable_is : restorable = { emptied with mem := Memory.setBytes emptied.mem (globalKey 0 0x10000) (emptied.contextSection 0) } := by
  have h := emptied_key 0 (by omega)
  unfold restorable State.physWrite
  simp only [Nat.add_zero] at h
  rw [h]
  rfl
theorem other_mem (s : State) (m : List Host.Cell) (part pa : Nat) : ({ s with mem := m } : State).physKey? part pa = s.physKey? part pa
    ∧ ({ s with mem := m } : State).context 0 0 = s.context 0 0 ∧ ({ s with mem := m } : State).savedTeams 0 0 = s.savedTeams 0 0
    ∧ ({ s with mem := m } : State).insts = s.insts ∧ ({ s with mem := m } : State).func 0 = s.func 0 := ⟨rfl, rfl, rfl, rfl, rfl⟩
theorem restorable_read (off n : Nat) (h : off ≤ 8) : restorable.physRead 0 (0x10000 + off) n = Memory.bytes restorable.mem (globalKey 0 0x10000 + off) n := by
  have hk : restorable.physKey? 0 (0x10000 + off) = emptied.physKey? 0 (0x10000 + off) := by rw [restorable_is, (other_mem _ _ _ _).1]
  rw [State.physRead, hk, emptied_key off h]
  rfl
theorem area_of (s t : State) (k : Nat) (bs : List Byte) (h : t = { s with mem := Memory.setBytes s.mem k bs }) :
    Memory.bytes t.mem k bs.length = bs := by
  subst h
  exact bytes_of_set bs s.mem k
theorem restorable_area : Memory.bytes restorable.mem (globalKey 0 0x10000) contextBytes = emptied.contextSection 0 :=
  section_len emptied 0 ▸ area_of emptied restorable (globalKey 0 0x10000) (emptied.contextSection 0) restorable_is
theorem witness_HaltAndPreemption_saved : (emptied.context 0 0).live = true ∧ (emptied.context 0 0).saved = true
    ∧ restorable.context 0 0 = emptied.context 0 0 ∧ restorable.savedTeams 0 0 = [] ∧ restorable.insts = []
    ∧ (restorable.func 0).cswCmd = none ∧ (restorable.func 0).cswArea = 0x10000 := by
  obtain ⟨-, hc, ht, hi, hf⟩ := other_mem emptied (Memory.setBytes emptied.mem (globalKey 0 0x10000) (emptied.contextSection 0)) 0 0
  rw [← restorable_is] at hc ht hi hf
  rw [hc, ht, hi, hf]
  exact ⟨by decide +kernel, by decide +kernel, rfl, by decide +kernel, by decide +kernel, by decide +kernel, by decide +kernel⟩
theorem witness_HaltAndPreemption_restores : restorable.areaOk 0 0 = true ∧ (savedIn {}).areaOk 0 0 = false := by
  constructor
  · obtain ⟨-, -, -, hs, -, -, hf⟩ := witness_HaltAndPreemption_saved
    have h4 : (24 : Nat) ≤ contextBytes := Nat.le_add_right _ _
    have r0 : restorable.physRead 0 0x10000 contextBytes = emptied.contextSection 0 :=
      (restorable_read 0 contextBytes (by omega)).trans restorable_area
    have r1 : restorable.physRead 0 0x10000 4 = leBytes 4 0x58435343 := by
      have h := restorable_read 0 4 (by omega)
      rw [Nat.add_zero, Nat.add_zero] at h
      rw [h, bytes_take _ contextBytes 4 _ (by omega), restorable_area]
      rfl
    have r2 : restorable.physRead 0 (0x10000 + 4) 4 = leBytes 4 0 := by
      rw [restorable_read 4 4 (by omega), bytes_drop, bytes_take _ contextBytes (4 + 4) _ (by omega), restorable_area]
      rfl
    simp only [State.areaOk, hf, hs, r0, r1, r2, State.areaPlaces]
    rw [State.contextSection, check_of]
    decide
  · have h : leNat ((savedIn {}).physRead 0 ((savedIn {}).func 0).cswArea 4) = 0 := by decide +kernel
    generalize savedIn {} = s at h
    simp only [State.areaOk]
    rw [h, show ((0 : Nat) == 0x58435343) = false from rfl, Bool.and_false, Bool.false_and, Bool.false_and]
theorem witness_HaltAndPreemption_starts : Tab.get? (savedIn {}).contexts (64 * 0 + 0) ≠ none ∧ (savedIn {}).teams = [] ∧ (savedIn {}).spec = []
    ∧ (savedIn {}).gangs = [] := by decide +kernel
/-- A team of an idempotent object that has written nothing, one that has written, one whose groups are done, and one whose
object's teams last no cycle (R397). -/
def leaves (g : Group) (t : Team) (times : Tab (List Nat)) : State :=
  { haltIn {} with groups := [(1, g)], teams := [(1, t)], contexts := [(0, { live := true, ptroot := 0x100000, times := times })] }
def idemTeam : Team := { copy := 1, groups := [1], obj := { idem := true } }
theorem witness_HaltAndPreemption_ways : (leaves one idemTeam []).wayOf true 1 = .flush ∧ (leaves one { idemTeam with wrote := true } []).wayOf true 1 = .save
    ∧ (leaves { one with draining := true } idemTeam []).wayOf true 1 = .drain
    ∧ (leaves one { idemTeam with wrote := true } [(0, List.replicate 16 0)]).wayOf true 1 = .drain
    ∧ (1, Way.save) ∈ (leaves one { idemTeam with wrote := true } []).ways 0 0 := by decide +kernel
/-- A team that has drained for its context's budget, and one that may be saved. -/
def drainIn (way : Nat) (cmd : Option Word) : State :=
  { haltIn { cswCmd := cmd, cswArea := 0x10000 } with teams := [(1, { copy := 1, groups := [1], obj := { coreScr := 4096 }, way := way })] }
theorem witness_HaltAndPreemption_drains : ((drainIn 1 (some 0x100)).team 1).way = 1 ∧ ((drainIn 1 (some 0x100)).team 1).retired = false
    ∧ ((drainIn 1 (some 0x100)).func 0).cswCmd ≠ none ∧ ((drainIn 1 (some 0x100)).func 0).cswDrain ≤ (drainIn 1 (some 0x100)).now - ((drainIn 1 (some 0x100)).func 0).cswAt := by
  decide +kernel
theorem witness_HaltAndPreemption_done : (savedIn { cswCmd := some 0x100 }).ctxTeams 0 0 = [] ∧ (savedIn {}).passes = []
    ∧ Tab.get? (savedIn { cswCmd := some 0x100 }).contexts (64 * 0 + (0x100 : Word).toNat % 64) ≠ none
    ∧ (drainIn 2 (some 0x100)).ctxTeams 0 0 = [1] ∧ (drainIn 2 (some 0x100)).saveable 1 = true
    ∧ (∀ y ∈ (drainIn 2 (some 0x100)).teams, y.2.killed = false) ∧ (drainIn 2 (some 0x100)).passes = [] := by decide +kernel
def fatIn : State := { drainIn 2 none with groups := [(1, { one with lanes := 128, sregs := 64, vregs := 64 })] }
def fat : Group := { one with lanes := 128, sregs := 64, vregs := 64 }
theorem witness_HaltAndPreemption_records : fat.lanes = 128 ∧ fat.sregs = 64 ∧ fat.vregs = 64
    ∧ (fatIn.group 1 == fat) = true ∧ fatIn.pendingEntries 1 = 0
    ∧ (Tab.get? (drainIn 2 none).teams 1).map (fun x => (x.groups, x.obj.coreScr, x.obj.clusScr, x.obj.mstream, x.helm, x.snaps.length)) = some ([1], 4096, 0, false, false, 0) := by
  decide +kernel

/-- A partition of one memory unit, channels 0 to 3, with the contexts and the lost channels given. -/
def ptMem1 : PartTable := { mem := (List.range 127).map (fun k => (k + 1, 1)) }
def repair (contexts : Tab Context) (f : Func) : State := { State.reset with pt := ptMem1, contexts := contexts, funcs := [(0, f)] }
theorem witness_ChannelRepair : ((repair [] { dropCmd := some 1 }).func 0).dropCmd ≠ none
    ∧ (∃ c, c < 64 ∧ ((repair [(63, { live := true })] {}).context 0 c).live = true ∧ ((repair [(63, { live := true })] {}).context 0 c).saved = false)
    ∧ (∀ c, c < 64 → ((repair [] {}).context 0 c).live = false)
    ∧ (∀ k, k < 4 → 4 * (3 / 4) + k = 3 ∨ 4 * (3 / 4) + k ∈ ((repair [] { dropped := [0, 1, 2] }).func 0).dropped)
    ∧ ¬(∀ k, k < 4 → 4 * (3 / 4) + k = 3 ∨ 4 * (3 / 4) + k ∈ ((repair [] {}).func 0).dropped)
    ∧ 4 * (repair [] {}).memUnits 0 ≤ (4 : Word).toNat % 512 ∧ ¬(∀ k, k < 4 → 4 * (4 / 4) + k = 4 ∨ 4 * (4 / 4) + k ∈ ((repair [] {}).func 0).dropped)
    ∧ ¬4 * (repair [] {}).memUnits 0 ≤ (3 : Word).toNat % 512 ∧ (3 : Word).toNat % 512 ∉ ((repair [] {}).func 0).dropped := by
  refine ⟨by decide +kernel, ⟨63, by decide +kernel⟩, by decide +kernel, by decide +kernel, by decide +kernel, by decide +kernel, by decide +kernel, by decide +kernel, by decide +kernel⟩
/-- Three uncorrectable errors of whatever channel the address falls on, and none. -/
theorem witness_ChannelRepair_errors (ch : Nat) :
    (((Tab.getD [(ch, [0, 0, 0])] ch ([] : List Nat)).filter (fun m => decide (State.reset.now < m + 2 ^ 40)) ++ [State.reset.now]).length = 4)
    ∧ ((Tab.getD ([] : Tab (List Nat)) ch []).filter (fun m => decide (State.reset.now < m + 2 ^ 40)) ++ [State.reset.now]).length < 4 := by
  constructor
  · simp [Tab.getD, Tab.get?, State.reset]
  · simp [Tab.getD, Tab.get?]

/-! ### Binnacle -/

/-- Slot A holds the active image, of SVN 4, and slot B what an update put there, or nothing. -/
def flashed (b : FlashSlot) (fsc : Nat) (anchor : Bool) : State :=
  { State.reset with mgmt := { slotA := { svn := 4 }, slotB := b, svn := 4, fsc := fsc, anchor := anchor } }
theorem witness_StartsAndFlash : (ResetReason.command, 2) ∈ [(ResetReason.powerOn, 0), (.pcie, 1), (.command, 2), (.watchdog, 3), (.thermal, 4)]
    ∧ Boots (beginning (flashed { ok := false } 3 false).mgmt 2 false) false ∧ ¬Boots (flashed { ok := false } 0 false).mgmt true
    ∧ Boots (flashed { svn := 4 } 0 false).mgmt true ∧ ¬Boots (flashed { svn := 3 } 0 false).mgmt true
    ∧ (∀ b, ¬Boots { (flashed { ok := false } 0 false).mgmt with svn := 5 } b)
    ∧ Boots { (flashed { svn := 5 } 0 false).mgmt with svn := 5 } true ∧ ¬Boots { (flashed { svn := 5 } 0 false).mgmt with svn := 5 } false
    ∧ (beginning (flashed {} 3 false).mgmt 2 (decide ((flashed {} 3 false).mgmt.fsc = 3))).anchor = true
    ∧ (beginning (flashed {} 2 false).mgmt 2 (decide ((flashed {} 2 false).mgmt.fsc = 3))).anchor = false := by
  unfold Boots
  decide
theorem witness_StartsAndFlash_stages : ({ State.reset.mgmt with mode := .starting 4 } : Mgmt).mode = .starting 4 ∧ State.reset.mgmt.due = none
    ∧ State.reset.mgmt.mode ≠ .starting 4 ∧ ({ State.reset.mgmt with mode := .anchorage } : Mgmt).mode = .anchorage ∧ 7 < 8
    ∧ State.reset.mgmt.reason < 16 ∧ State.reset.mgmt.fsc < 4 ∧ State.reset.mgmt.lastStage < 256
    ∧ (flashed { ok := false } 0 false).mgmt.active = false ∧ (flashed { ok := false } 0 false).mgmt.slotA.ok = true
    ∧ (flashed { ok := false } 0 false).mgmt.slotA.svn = 4 ∧ (flashed { ok := false } 0 false).mgmt.svn = 4
    ∧ (flashed { ok := false } 0 false).mgmt.anchor = false ∧ (flashed { ok := false } 0 false).mgmt.due = none := by decide +kernel
/-- R433: a third failed start's boot register, from the words of the spec's example: reason 5, FSC 3, the anchorage bit and ROLLBACK. -/
theorem test_boot_reason : ({ reason := 5, fsc := 3, anchor := true, rollback := true, lastStage := 4 } : Mgmt).bootReason = 0x00040175 := by
  decide

/-- The staged table given; a live context, a scan engine on a port, and a function with its fabric enabled. -/
def stagedIn (t : PartTable) : State := { State.reset with ptStaged := t }
theorem refused_lost : TableRefused (stagedIn { unit := [(0, 8)] }) :=
  Or.inl ⟨8, ⟨((fun t => t.unit), 16), by simp [unitKinds], 0, by decide, by decide⟩, by omega⟩
theorem refused_live : TableRefused { stagedIn { unit := [(0, 1)], mem := [(0, 1)] } with contexts := [(0, { live := true })] } :=
  Or.inr (Or.inl ⟨0, 0, by decide, by decide, by decide +kernel, ((fun t => t.unit), 16), by simp [unitKinds], 0, by decide, by decide⟩)
theorem refused_port : TableRefused { stagedIn { view := [(15, 1)] } with views := [(15, { port := 0 })] } :=
  Or.inr (Or.inr (Or.inl ⟨15, by decide, by decide, by decide⟩))
theorem refused_chip : TableRefused { stagedIn { chipid := 5 } with funcs := [(7, { fabEn := true })] } :=
  Or.inr (Or.inr (Or.inr ⟨by decide, 7, by decide, by decide +kernel⟩))
theorem reset_allowed : ¬TableRefused State.reset := by
  rintro (⟨p, ⟨x, hx, i, -, h⟩, hp⟩ | ⟨p, c, -, -, h, -⟩ | ⟨v, -, h, -⟩ | ⟨h, -⟩)
  · have h0 : p = 0 := by
      rw [← h]
      simp only [unitKinds, List.mem_cons, List.mem_nil_iff, or_false] at hx
      rcases hx with rfl | rfl | rfl | rfl | rfl <;> rfl
    subst h0
    rcases hp with hp | hp | hp
    · omega
    · exact hp 0 (by decide) rfl
    · exact hp 0 (by decide) rfl
  · exact absurd h (by show ¬(({} : Context).live = true); decide)
  · exact h rfl
  · exact h rfl
theorem witness_ManagementCommands : (1 : Word).getLsbD 0 = true ∧ (0 : Word).getLsbD 0 = false
    ∧ ((List.range 16).filter (fun u => Tab.getD State.reset.pt.unit u 0 == 0)).length = 16 ∧ Tab.getD State.reset.mgmt.budgets 0 0 = 2000
    ∧ ((List.range 16).filter (fun u => Tab.getD State.reset.pt.unit u 0 == 7)).length = 0
    ∧ ¬40 * 16 ≤ Tab.getD ([(0, 639)] : Tab Nat) 0 0 ∧ ¬Tab.getD ([(0, 2001)] : Tab Nat) 0 0 ≤ 2000
    ∧ 115 ≤ (List.replicate 64 115).getD 63 0 ∧ ¬(∃ k, k < 64 ∧ 115 ≤ (List.replicate 72 114).getD k 0) := by decide +kernel
theorem test_commit_refuses : (fun t : State => (t.mgmt.ptRefused, t.pt.unit))
    ((stagedIn { unit := [(0, 8)] }).after (exec (.commit 1) (stagedIn { unit := [(0, 8)] }))) = (true, []) := by decide +kernel

end Sys2Proof.Tests
end

section
/-!
SUPPORT. What the state after reset reads as: every table that it leaves empty gives its default at each key.
-/

namespace Sys2Proof.Machine

/-- A read of a table that lists nothing. -/
@[simp] theorem Tab.getD_nil {α : Type} (k : Nat) (d : α) : Tab.getD ([] : Tab α) k d = d := rfl

/-- A read of a table that lists one key. -/
theorem Tab.getD_singleton {α : Type} (k j : Nat) (v d : α) : Tab.getD [(k, v)] j d = if j = k then v else d := by
  simp only [Tab.getD, Tab.get?, eq_comm (a := k)]
  split <;> rfl

/-! ### Reads of the state after reset -/

@[simp] theorem State.func_reset (p : Nat) : State.reset.func p = {} := Tab.getD_nil p _

@[simp] theorem State.queue_reset (p k : Nat) : State.reset.queue p k = {} := Tab.getD_nil (1024 * p + k) _

@[simp] theorem State.context_reset (p c : Nat) : State.reset.context p c = {} := Tab.getD_nil (64 * p + c) _

@[simp] theorem State.view?_reset (v : Nat) : State.reset.view? v = {} := Tab.getD_nil v _

@[simp] theorem State.core_reset (c : Nat) : State.reset.core c = {} := Tab.getD_nil c _

/-- Every cluster runs at 16 sixteenths of its full clock (R16). -/
@[simp] theorem State.clock_reset (c : Nat) : State.reset.clock c = 16 := Tab.getD_nil c 16

/-- The one budget is that of partition 0 (R17). -/
theorem State.budget_reset (p : Nat) : Tab.getD State.reset.mgmt.budgets p 0 = if p = 0 then 2000 else 0 :=
  Tab.getD_singleton 0 p 2000 0

theorem State.sound_reset : Safety.Sound State.reset := ⟨State.reset_wf, rfl⟩

end Sys2Proof.Machine

namespace Sys2Proof.Claims

open Sys2Proof.Machine

/-- The reset partition table gives every unit, of each kind, to partition 0 (R17, R424). -/
theorem unitKinds_reset (p : Nat) : ∀ x ∈ unitKinds, Tab.getD (x.1 State.reset.pt) p 0 = 0 := by
  have unlisted : ∀ x ∈ unitKinds, x.1 State.reset.pt = [] := by simp [unitKinds, State.reset]
  intro x hx
  rw [unlisted x hx, Tab.getD_nil]

/-- Settles O23: what `State.reset` holds stands in its defaults, and a key that a table does not list reads as the default
of that table. -/
theorem resetState : Obligations.ResetState := by
  unfold Obligations.ResetState
  refine ⟨State.sound_reset, rfl, rfl, rfl, rfl, rfl, rfl, rfl, rfl, rfl, rfl, fun p => ⟨rfl, unitKinds_reset p⟩,
    State.budget_reset, rfl, fun c => ?clocks, fun p => ?function, fun p k => ?queues, fun p c => ?contexts, fun v => ?views⟩
  case clocks => simp only [State.clock_reset, State.core_reset, and_self]
  case function => simp only [State.func_reset, and_self]
  case queues => simp only [State.queue_reset, and_self]
  case contexts => simp only [State.context_reset]
  case views => simp only [State.view?_reset, and_self]

end Sys2Proof.Claims
end

section
/-!
SUPPORT. The shared pieces of channel repair and of the management commands: sets of numbers, tables without some of their
keys, memory that a range of keys is taken from, and a change of one function block.
-/

namespace Sys2Proof.Machine

/-! ### Sets and tables -/

/-- A write puts its key in and leaves every other. -/
@[simp] theorem NatSet.mem_insert (xs : List Nat) (k j : Nat) : j ∈ NatSet.insert xs k ↔ j = k ∨ j ∈ xs := by
  unfold NatSet.insert
  split
  case isTrue h =>
    have hk : k ∈ xs := by simpa using h
    exact ⟨Or.inr, fun hj => hj.elim (fun e => e ▸ hk) id⟩
  case isFalse h =>
    simp only [List.mem_append, List.mem_cons, List.mem_filter, decide_eq_true_eq]
    constructor
    · tauto
    · rintro (rfl | hj)
      · exact .inr (.inl rfl)
      · rcases Nat.lt_trichotomy j k with hlt | rfl | hgt
        · exact .inl ⟨hj, hlt⟩
        · exact .inr (.inl rfl)
        · exact .inr (.inr ⟨hj, hgt⟩)

@[simp] theorem Tab.getD_put {α : Type} (t : Tab α) (k j : Nat) (v d : α) :
    Tab.getD (Tab.put t k v) j d = if j = k then v else Tab.getD t j d := by
  simp only [Tab.getD, Tab.get?_put]
  split <;> rfl

/-- A read of a table that keeps only some of its keys. -/
theorem Tab.getD_filter {α : Type} (t : Tab α) (keeps : Nat → Bool) (k : Nat) (d : α) :
    Tab.getD (t.filter (fun c => keeps c.1)) k d = if keeps k then Tab.getD t k d else d := by
  induction t with
  | nil => simp [Tab.getD, Tab.get?]
  | cons x t ih =>
    obtain ⟨j, v⟩ := x
    by_cases hk : j = k
    · subst hk
      cases hj : keeps j
      · simpa [hj] using ih
      · simp [hj, Tab.getD, Tab.get?]
    · have skip : Tab.getD ((j, v) :: t) k d = Tab.getD t k d := by simp [Tab.getD, Tab.get?, hk]
      rw [skip, ← ih]
      cases hj : keeps j <;> simp [hj, Tab.getD, Tab.get?, hk]

/-- `eraseDups` leaves each member once. -/
theorem nodup_eraseDups : ∀ xs : List Nat, xs.eraseDups.Nodup
  | [] => by simp
  | x :: xs => by
    rw [List.eraseDups_cons, List.nodup_cons]
    exact ⟨by simp, nodup_eraseDups _⟩
  termination_by xs => xs.length
  decreasing_by exact Nat.lt_succ_of_le (List.length_filter_le _ xs)

/-! ### Reads of a state -/

@[simp] theorem State.func_logEntry (s : State) (k : LogKind) (p : Nat) : (s.logEntry k).func p = s.func p := rfl

@[simp] theorem State.mem_liveContexts (s : State) (part c : Nat) :
    c ∈ s.liveContexts part ↔ c < 64 ∧ (s.context part c).live = true := by
  simp [State.liveContexts]

/-! ### Memory that is forgotten -/

/-- `t` is `s` but for global memory's bytes, tags and errors: those of the keys in `gone` read as never written, the others
as before. -/
structure Forgot (gone : Nat → Prop) (s t : State) : Prop where
  frame : t = { s with mem := t.mem, tags := t.tags, poison := t.poison }
  kept : ∀ k, ¬gone k →
    Memory.get t.mem k = Memory.get s.mem k ∧ Tab.getD t.tags k 0 = Tab.getD s.tags k 0 ∧ (k ∈ t.poison ↔ k ∈ s.poison)
  lost : ∀ k, gone k → Memory.get t.mem k = 0 ∧ Tab.getD t.tags k 0 = 0 ∧ k ∉ t.poison

theorem State.forget_forgot (s : State) (first size : Nat) :
    Forgot (fun k => first ≤ k ∧ k < first + size) s (s.forget first size) := by
  have bytes := Tab.getD_filter s.mem (fun k => decide (k < first) || decide (first + size ≤ k))
  have tags := Tab.getD_filter s.tags (fun k => decide (k < first) || decide (first + size ≤ k))
  refine ⟨rfl, fun k hk => ?kept, fun k hk => ?lost⟩
  case kept =>
    have out : k < first ∨ first + size ≤ k := by omega
    simp [State.forget, Memory.get, bytes, tags, out]
  case lost =>
    have inside : ¬(k < first ∨ first + size ≤ k) := by omega
    simp [State.forget, Memory.get, unlistedByte, bytes, tags, inside]

theorem Forgot.nothing (s : State) : Forgot (fun _ => False) s s := ⟨rfl, fun _ _ => ⟨rfl, rfl, .rfl⟩, fun _ h => h.elim⟩

theorem Forgot.trans {a b : Nat → Prop} {s t u : State} (h : Forgot a s t) (h' : Forgot b t u) :
    Forgot (fun k => a k ∨ b k) s u where
  frame := h'.frame.trans (by rw [h.frame])
  kept k hk := by
    obtain ⟨ha, hb⟩ := not_or.1 hk
    obtain ⟨mem, tags, poison⟩ := h.kept k ha
    obtain ⟨mem', tags', poison'⟩ := h'.kept k hb
    exact ⟨mem'.trans mem, tags'.trans tags, poison'.trans poison⟩
  lost k hk := by
    by_cases hb : b k
    · exact h'.lost k hb
    · obtain ⟨mem, tags, poison⟩ := h.lost k (hk.resolve_right hb)
      obtain ⟨mem', tags', poison'⟩ := h'.kept k hb
      exact ⟨mem'.trans mem, tags'.trans tags, fun hp => poison (poison'.1 hp)⟩

theorem Forgot.congr {a b : Nat → Prop} {s t : State} (h : Forgot a s t) (hab : ∀ k, a k ↔ b k) : Forgot b s t :=
  (funext fun k => propext (hab k) : a = b) ▸ h

/-- Several ranges are forgotten one after the other. -/
theorem State.foldl_forget_forgot (first : Nat → Nat) (size : Nat) : ∀ (ps : List Nat) (s : State),
    Forgot (fun k => ∃ p ∈ ps, first p ≤ k ∧ k < first p + size) s (ps.foldl (fun s p => s.forget (first p) size) s)
  | [], s => (Forgot.nothing s).congr (by simp)
  | p :: ps, s => ((s.forget_forgot (first p) size).trans (State.foldl_forget_forgot first size ps _)).congr (by simp)

end Sys2Proof.Machine

namespace Sys2Proof.Claims

open Sys2Proof.Machine

/-- A change of one function block is a change of nothing else. -/
theorem funcOnly_modFunc (s : State) (part : Nat) (f : Func → Func) : FuncOnly s (s.modFunc part f) part (f (s.func part)) :=
  ⟨rfl, fun j hj => by simp [hj], by simp⟩

end Sys2Proof.Claims
end

section
/-!
SUPPORT and O58. DROPGO's refusals in their order, the drop, and the count of uncorrectable errors (R252, R414, R415).
-/

namespace Sys2Proof.Machine

open Sys2Proof.Claims

/-! ### DROPGO -/

/-- A context is live and not saved, or its save or restore is in progress (R415). -/
def State.Unsaved (s : State) (part : Nat) : Prop :=
  ∃ c, c < 64 ∧ (s.context part c).live = true
    ∧ ((s.context part c).saved = false ∨ ((s.func part).cswCmd ≠ none ∧ (s.func part).cswCtx = c))

/-- Every other pseudo-channel of a channel's slice has been dropped. -/
def State.LastOfSlice (s : State) (part ch : Nat) : Prop :=
  ∀ k, k < 4 → 4 * (ch / 4) + k = ch ∨ 4 * (ch / 4) + k ∈ (s.func part).dropped

/-- A channel is not one of the partition's, or is dropped already. -/
def State.NotHeld (s : State) (part ch : Nat) : Prop :=
  4 * s.memUnits part ≤ ch ∨ ch ∈ (s.func part).dropped

theorem State.unsaved_iff (s : State) (part : Nat) :
    (s.liveContexts part).any
      (fun c => !(s.context part c).saved || ((s.func part).cswCmd.isSome && (s.func part).cswCtx == c)) = true
      ↔ s.Unsaved part := by
  simp [State.Unsaved, and_assoc, Option.isSome_iff_ne_none]

theorem State.lastOfSlice_iff (s : State) (part ch : Nat) :
    (List.range 4).all (fun k => 4 * (ch / 4) + k == ch || (s.func part).dropped.contains (4 * (ch / 4) + k)) = true
      ↔ s.LastOfSlice part ch := by
  simp [State.LastOfSlice]

/-! The refusals of DROPGO, in the order in which they are tested (R415). -/

section
variable {s : State} {part ch : Nat}

theorem State.dropRefused_unsaved (live : s.Unsaved part) : s.dropRefused part ch = some 1 :=
  if_pos ((s.unsaved_iff part).2 live)

theorem State.dropRefused_past_unsaved (live : ¬s.Unsaved part) :
    s.dropRefused part ch = if (List.range 4).all
        (fun k => 4 * (ch / 4) + k == ch || (s.func part).dropped.contains (4 * (ch / 4) + k)) then some 2
      else if 4 * s.memUnits part ≤ ch ∨ (s.func part).dropped.contains ch then some 3 else none :=
  if_neg (mt (s.unsaved_iff part).1 live)

theorem State.dropRefused_last (live : ¬s.Unsaved part) (alone : s.LastOfSlice part ch) : s.dropRefused part ch = some 2 :=
  (State.dropRefused_past_unsaved live).trans (if_pos ((s.lastOfSlice_iff part ch).2 alone))

theorem State.dropRefused_past_last (live : ¬s.Unsaved part) (alone : ¬s.LastOfSlice part ch) :
    s.dropRefused part ch = if 4 * s.memUnits part ≤ ch ∨ (s.func part).dropped.contains ch then some 3 else none :=
  (State.dropRefused_past_unsaved live).trans (if_neg (mt (s.lastOfSlice_iff part ch).1 alone))

theorem State.dropRefused_notHeld (live : ¬s.Unsaved part) (alone : ¬s.LastOfSlice part ch) (foreign : s.NotHeld part ch) :
    s.dropRefused part ch = some 3 :=
  (State.dropRefused_past_last live alone).trans (if_pos (foreign.imp_right List.contains_iff_mem.2))

theorem State.dropRefused_none (live : ¬s.Unsaved part) (alone : ¬s.LastOfSlice part ch) (held : ¬s.NotHeld part ch) :
    s.dropRefused part ch = none :=
  (State.dropRefused_past_last live alone).trans (if_neg (mt (Or.imp_right List.contains_iff_mem.1) held))

end

theorem execDropgo_busy {s : State} {part : Nat} (v : Word) (busy : (s.func part).dropCmd ≠ none) :
    execDropgo part v s = .next s := by
  simp [execDropgo, Option.isSome_iff_ne_none, busy]

/-- The channel that DROPGO names. -/
theorem dropgo_channel (v : Word) : natField v.toNat 8 0 = v.toNat % 512 := by simp [natField]

/-- DROPGO, with no drop in progress: its refusal changes DROPRESULT alone, and its acceptance begins the drop. -/
theorem execDropgo_refused {s : State} {part r : Nat} {v : Word} (idle : (s.func part).dropCmd = none)
    (why : s.dropRefused part (v.toNat % 512) = some r) :
    ∃ t : State, execDropgo part v s = .next t ∧ FuncOnly s t part { s.func part with dropResult := r } :=
  ⟨_, by simp only [execDropgo, idle, dropgo_channel, why]; rfl, funcOnly_modFunc s part _⟩

theorem execDropgo_accepted {s : State} {part : Nat} {v : Word} (idle : (s.func part).dropCmd = none)
    (ok : s.dropRefused part (v.toNat % 512) = none) :
    ∃ t : State, execDropgo part v s = .next t ∧ FuncOnly s t part { s.func part with dropCmd := some (v.toNat % 512) } :=
  ⟨_, by simp only [execDropgo, idle, dropgo_channel, ok]; rfl, funcOnly_modFunc s part _⟩

/-! ### DROP_COMPLETE -/

/-- What a completed drop does to the function block (R414, R415). -/
def Func.dropChannel (f : Func) (ch : Nat) : Func :=
  { f with dropped := NatSet.insert f.dropped ch, dropReq := f.dropReq.filter (· != ch), dropCmd := none, dropResult := 0 }

/-- DROP_COMPLETE: the top of the partition's memory is forgotten, the channel is dropped, and the log says so (R415). -/
theorem execDropComplete_of_cmd {s : State} {part ch : Nat} (cmd : (s.func part).dropCmd = some ch) :
    execDropComplete part s = .next (((s.forget (globalKey part (s.capacity part - 3 * 2 ^ 28)) (3 * 2 ^ 28)).modFunc part
      (Func.dropChannel · ch)).logEntry (.channelDrop part ch)) := by
  simp only [execDropComplete, cmd]
  rfl

/-! ### The count of uncorrectable errors -/

/-- The moments of a pseudo-channel's errors that are less than 2^40 cycles old, the present one last (R414). -/
def State.errorMoments (s : State) (part ch : Nat) : List Nat :=
  (Tab.getD (s.func part).ueAt ch []).filter (fun m => decide (s.now < m + 2 ^ 40)) ++ [s.now]

/-- An age below 2^40 is a moment above the present less 2^40: the model's own form of the test. -/
theorem State.errorMoments_eq (s : State) (part ch : Nat) :
    (Tab.getD (s.func part).ueAt ch []).filter (fun m => decide (s.now - m < 2 ^ 40)) ++ [s.now] = s.errorMoments part ch := by
  have age : ∀ m, s.now - m < 2 ^ 40 ↔ s.now < m + 2 ^ 40 := fun m => by omega
  simp only [State.errorMoments, age]

/-- An error in global memory, before its channel is charged with it: its word is poisoned, and it is counted (R252, R436). -/
def State.countError (s : State) (unit : Nat) : State :=
  { s with poison := NatSet.insert s.poison (unit / 32 * 32), mgmt := { s.mgmt with uncorr := s.mgmt.uncorr + 1 } }

/-- The present error added to those of a channel (R414). -/
def State.addMoment (s : State) (part ch : Nat) : State :=
  s.modFunc part (fun f => { f with ueAt := Tab.put f.ueAt ch (s.errorMoments part ch) })

section
variable {s : State} {unit part ch : Nat} (hbm : unit < 2 ^ 55) (hpart : unit / 2 ^ 52 = part)
  (hch : Config.channelOf part (s.func part).dropped.length (unit % 2 ^ 52) = ch)
include hbm hpart hch

/-- Up to the third error of a channel within 2^40 cycles the moment alone is kept; the fourth asks for the channel's drop and
signals the repair interrupt (R414). -/
theorem State.uncorrectable_eq : s.uncorrectable unit =
    if (s.errorMoments part ch).length < 4 then (s.countError unit).addMoment part ch
    else (((s.countError unit).addMoment part ch).modFunc part (fun f =>
      { f with dropReq := NatSet.insert f.dropReq ch })).signal part 5 := by
  have global : isHbmKey unit = true := decide_eq_true hbm
  have word : wordKey unit = unit / 32 * 32 := if_pos hbm
  simp only [State.uncorrectable, global, word, hpart, hch, State.errorMoments_eq, Bool.not_true, Bool.false_eq_true, if_false]
  rfl

/-- Beside its count an error changes its partition's function block alone. -/
theorem State.uncorrectable_frame :
    s.uncorrectable unit = { s.countError unit with funcs := (s.uncorrectable unit).funcs } := by
  rw [State.uncorrectable_eq hbm hpart hch]
  split <;> rfl

theorem State.uncorrectable_func_few (few : (s.errorMoments part ch).length < 4) : (s.uncorrectable unit).func part =
    { s.func part with ueAt := Tab.put (s.func part).ueAt ch (s.errorMoments part ch) } := by
  rw [State.uncorrectable_eq hbm hpart hch, if_pos few, State.addMoment, State.func_modFunc, if_pos rfl]
  rfl

theorem State.uncorrectable_func_many (many : 4 ≤ (s.errorMoments part ch).length) : (s.uncorrectable unit).func part =
    { s.func part with ueAt := Tab.put (s.func part).ueAt ch (s.errorMoments part ch)
                       dropReq := NatSet.insert (s.func part).dropReq ch, vectors := (s.func part).vectors ++ [5] } := by
  rw [State.uncorrectable_eq hbm hpart hch, if_neg (Nat.not_lt.2 many)]
  simp only [State.signal, State.addMoment, State.func_modFunc, if_true]
  rfl

end

end Sys2Proof.Machine

namespace Sys2Proof.Claims

open Sys2Proof.Machine

/-- Settles O58: DROPGO by the order of its refusals, the drop by what forgetting a range leaves, and the count by the number
of the channel's recent errors. -/
theorem channelRepair : Obligations.ChannelRepair := by
  unfold Obligations.ChannelRepair
  refine ⟨fun s part v => ?dropgo, fun s part ch => ?complete, fun s unit hbm => ?errors⟩
  case dropgo =>
    intro f ch live alone foreign refused
    simp only [exec_dropgo]
    exact ⟨execDropgo_busy v,
      fun idle hl => execDropgo_refused idle (State.dropRefused_unsaved hl),
      fun idle hl ha => execDropgo_refused idle (State.dropRefused_last hl ha),
      fun idle hl ha hf => execDropgo_refused idle (State.dropRefused_notHeld hl ha hf),
      fun idle hl ha hf => execDropgo_accepted idle (State.dropRefused_none hl ha hf)⟩
  case complete =>
    intro f top gone cmd
    have forgot : Forgot gone s (s.forget top (3 * 2 ^ 28)) := s.forget_forgot top _
    obtain ⟨-, others, own⟩ := funcOnly_modFunc (s.forget top (3 * 2 ^ 28)) part (Func.dropChannel · ch)
    exact ⟨_, execDropComplete_of_cmd cmd, rfl, others, own.trans (by rw [State.func_logEntry, own]; rfl),
      fun k => by rw [State.func_logEntry, own]; exact NatSet.mem_insert _ _ k, forgot.kept, forgot.lost, rfl⟩
  case errors =>
    intro part f ch ts
    have frame := State.uncorrectable_frame hbm rfl (rfl : ch = ch)
    refine ⟨_, rfl, by rw [frame]; rfl, fun k => by rw [frame]; exact NatSet.mem_insert _ _ k, by rw [frame]; rfl, ?charge⟩
    rcases Nat.lt_or_ge ts.length 4 with few | many
    · have own := State.uncorrectable_func_few hbm rfl rfl few
      exact ⟨by rw [own, Tab.getD_put, if_pos rfl]; rfl, fun _ => by rw [own], fun h => absurd few (Nat.not_lt.2 h)⟩
    · have own := State.uncorrectable_func_many hbm rfl rfl many
      exact ⟨by rw [own, Tab.getD_put, if_pos rfl]; rfl, fun h => absurd h (Nat.not_lt.2 many),
        fun _ => ⟨by rw [own], by rw [own]; exact (NatSet.mem_insert _ _ _).2 (.inl rfl)⟩⟩

end Sys2Proof.Claims
end

section
/-!
SUPPORT and O60. The budgets, the clocks of the clusters, and the staged partition table (R16 to R19, R424, R437, R438).
-/

namespace Sys2Proof.Machine

open Sys2Proof.Claims

/-! ### Budgets -/

theorem State.sum_stagedBudgets (s : State) : (s.stagedBudgets.map Prod.snd).sum
    = ((List.range 8).map (fun p => if s.computeUnits p = 0 then 0 else Tab.getD s.mgmt.budgets p 0)).sum := by
  have holders : (List.range 8).filter (fun p => s.computeUnits p != 0)
      = (List.range 8).filter (fun p => ¬s.computeUnits p = 0) := List.filter_congr fun _ _ => decide_not.symm
  rw [List.sum_map_ite (fun p => s.computeUnits p = 0), State.stagedBudgets, holders]
  simp [Function.comp_def]

/-- The staged budgets are within the module's, and none is below what its partition's compute units need (R17, R438). -/
def State.BudgetsFit (s : State) : Prop :=
  ((List.range 8).map (fun p => if s.computeUnits p = 0 then 0 else Tab.getD s.mgmt.budgets p 0)).sum ≤ 2000
    ∧ ∀ p, p < 8 → s.computeUnits p ≠ 0 → 40 * s.computeUnits p ≤ Tab.getD s.mgmt.budgets p 0

theorem State.budgetsFit_iff (s : State) : s.BudgetsFit ↔
    ¬(2000 < (s.stagedBudgets.map Prod.snd).sum ∨ s.stagedBudgets.any (fun b => decide (b.2 < 40 * s.computeUnits b.1))) := by
  rw [not_or, Nat.not_lt, s.sum_stagedBudgets, State.BudgetsFit]
  simp [State.stagedBudgets]

theorem execApply_fit {s : State} {v : Word} (go : v.getLsbD 0 = true) (fit : s.BudgetsFit) :
    execApply v s = .next { s with mgmt := { s.mgmt with budgetErr := false, budgetsNow := s.mgmt.budgets } } := by
  rw [execApply, if_neg (by simp [go]), if_neg (s.budgetsFit_iff.1 fit)]
  rfl

theorem execApply_misfit {s : State} {v : Word} (go : v.getLsbD 0 = true) (misfit : ¬s.BudgetsFit) :
    execApply v s = .next { s with mgmt := { s.mgmt with budgetErr := true } } := by
  rw [execApply, if_neg (by simp [go]), if_pos (not_not.1 (mt s.budgetsFit_iff.2 misfit))]
  rfl

/-! ### Clocks -/

/-- A clock after one cluster's has been set. -/
theorem State.clock_set (s : State) (cluster step c : Nat) :
    { s with clkStep := Tab.set 16 s.clkStep cluster step }.clock c = if c = cluster then step else s.clock c :=
  Tab.getD_set 16 s.clkStep cluster c step

theorem State.clock_lower (s : State) (cluster c : Nat) :
    (s.lower cluster).clock c = if c = cluster ∧ c < 64 ∧ 4 < s.clock c then s.clock c - 1 else s.clock c := by
  unfold State.lower
  by_cases hc : c = cluster
  · subst hc
    split <;> simp_all [State.clock_set]
  · split <;> simp [State.clock_set, hc]

theorem State.lower_frame (s : State) (cluster : Nat) : s.lower cluster = { s with clkStep := (s.lower cluster).clkStep } := by
  unfold State.lower
  split <;> rfl

theorem State.foldl_lower_frame : ∀ (cs : List Nat) (s : State),
    cs.foldl State.lower s = { s with clkStep := (cs.foldl State.lower s).clkStep }
  | [], _ => rfl
  | c :: cs, s => by
    rw [List.foldl_cons, State.foldl_lower_frame cs (s.lower c), s.lower_frame c]

/-- Clusters that are lowered once each: one step down, where the clock is above the lowest. -/
theorem State.clock_foldl_lower (c : Nat) : ∀ (cs : List Nat) (s : State), cs.Nodup →
    (cs.foldl State.lower s).clock c = if c ∈ cs ∧ c < 64 ∧ 4 < s.clock c then s.clock c - 1 else s.clock c
  | [], s, _ => by simp
  | d :: cs, s, h => by
    obtain ⟨hd, hcs⟩ := List.nodup_cons.1 h
    rw [List.foldl_cons, State.clock_foldl_lower c cs _ hcs, State.clock_lower]
    by_cases hc : c = d
    · subst hc
      simp [hd]
    · simp [hc]

theorem execGovernorThrottle_clock (cluster step : Nat) (s : State) :
    ∃ t : State, execGovernorThrottle cluster step s = .next t ∧ t = { s with clkStep := t.clkStep }
      ∧ ∀ c, t.clock c = if c = cluster ∧ cluster < 64 ∧ 4 ≤ step ∧ step ≤ 16 then step else s.clock c := by
  unfold execGovernorThrottle
  by_cases ok : cluster < 64 ∧ 4 ≤ step ∧ step ≤ 16
  · exact ⟨_, if_pos ok, rfl, fun c => by simp only [State.clock_set, ok, and_true]⟩
  · exact ⟨_, if_neg ok, rfl, fun c => by simp only [ok, and_false, if_false]⟩

/-- The sensors, of the 64 die sites and the eight stacks, that read as hot (R437). -/
def hotSensors (temps : List Nat) : List Nat :=
  (List.range 72).filter (fun k => decide ((if k < 64 then 105 else 95) ≤ temps.getD k 0))

theorem mem_hotSensors (temps : List Nat) (k : Nat) :
    k ∈ hotSensors temps ↔ k < 72 ∧ (if k < 64 then 105 else 95) ≤ temps.getD k 0 := by
  simp only [hotSensors, List.mem_filter, List.mem_range, decide_eq_true_eq]

/-- The clusters nearest to the sensors that read as hot, each once (R437). -/
def hotClusters (temps : List Nat) : List Nat := ((hotSensors temps).map Config.nearest).flatten.eraseDups

theorem mem_hotClusters (temps : List Nat) (c : Nat) :
    c ∈ hotClusters temps ↔ ∃ k, (k < 72 ∧ (if k < 64 then 105 else 95) ≤ temps.getD k 0) ∧ c ∈ Config.nearest k := by
  simp only [hotClusters, List.mem_eraseDups, List.mem_flatten, List.mem_map, ← mem_hotSensors, exists_exists_and_eq_and]

/-- What a sample leaves in the registers of the management subsystem (R437). -/
def Mgmt.sampled (m : Mgmt) (temps volts : List Nat) (current power : Nat) : Mgmt :=
  { m with temps := temps, volts := volts, current := current, thermal := !(hotSensors temps).isEmpty, power := power
           due := if (List.range 64).any (fun k => decide (115 ≤ temps.getD k 0)) then some 4 else m.due }

section
variable (m : Mgmt) (temps volts : List Nat) (current power : Nat)

theorem Mgmt.sampled_thermal : (m.sampled temps volts current power).thermal = true
    ↔ ∃ k, k < 72 ∧ (if k < 64 then 105 else 95) ≤ temps.getD k 0 := by
  simp only [Mgmt.sampled, Bool.not_eq_true', List.isEmpty_eq_false_iff_exists_mem, mem_hotSensors]

theorem Mgmt.sampled_due_trip (trip : ∃ k, k < 64 ∧ 115 ≤ temps.getD k 0) :
    (m.sampled temps volts current power).due = some 4 :=
  if_pos (by simpa using trip)

theorem Mgmt.sampled_due_cool (cool : ¬∃ k, k < 64 ∧ 115 ≤ temps.getD k 0) :
    (m.sampled temps volts current power).due = m.due :=
  if_neg (by simpa using cool)

end

theorem execSensorSample_eq (temps volts : List Nat) (current : Nat) (s : State) :
    execSensorSample temps volts current s = .next { s with
      clkStep := ((hotClusters temps).foldl State.lower s).clkStep, fresh := s.fresh + 1
      mgmt := s.mgmt.sampled temps volts current (Config.freeValue s.fresh % 65536) } := by
  show Host.Outcome.next (((hotClusters temps).foldl State.lower s).modMgmt
    (·.sampled temps volts current (Config.freeValue s.fresh % 65536))).tick = _
  rw [State.foldl_lower_frame]
  rfl

/-! ### The partition table -/

@[simp] theorem PartTable.mem_of (t : Tab Nat) (n p : Nat) : p ∈ PartTable.of t n ↔ ∃ i, i < n ∧ Tab.getD t i 0 = p := by
  simp [PartTable.of]

theorem PartTable.mem_names (t : PartTable) (p : Nat) :
    p ∈ t.names ↔ ∃ x ∈ unitKinds, ∃ i, i < x.2 ∧ Tab.getD (x.1 t) i 0 = p := by
  simp [PartTable.names, unitKinds]

/-- Two images give a partition the same units of one kind. -/
theorem PartTable.of_map_eq_iff (t u : Tab Nat) (n p : Nat) :
    (PartTable.of t n).map (· == p) = (PartTable.of u n).map (· == p)
      ↔ ∀ i, i < n → (Tab.getD t i 0 = p ↔ Tab.getD u i 0 = p) := by
  simp [PartTable.of, beq_eq_beq]

theorem PartTable.holds_eq_iff (t u : PartTable) (p : Nat) : t.holds p = u.holds p ↔
    ∀ x ∈ unitKinds, ∀ i, i < x.2 → (Tab.getD (x.1 t) i 0 = p ↔ Tab.getD (x.1 u) i 0 = p) := by
  simp [PartTable.holds, unitKinds, PartTable.of_map_eq_iff]

/-! The four reasons to refuse the staged table, each as the model tests it (R19, R424). -/

section
variable (s : State)

theorem State.commit_loses_iff :
    s.ptStaged.names.any (fun p => decide (8 ≤ p) || !(PartTable.of s.ptStaged.unit 16).contains p
      || !(PartTable.of s.ptStaged.mem 128).contains p) = true
    ↔ ∃ p, (∃ x ∈ unitKinds, ∃ i, i < x.2 ∧ Tab.getD (x.1 s.ptStaged) i 0 = p)
      ∧ (8 ≤ p ∨ (∀ i, i < 16 → Tab.getD s.ptStaged.unit i 0 ≠ p) ∨ ∀ i, i < 128 → Tab.getD s.ptStaged.mem i 0 ≠ p) := by
  simp [PartTable.mem_names, or_assoc]

theorem State.commit_moves_live_iff :
    (List.range 8).any (fun p => !(s.liveContexts p).isEmpty && s.ptStaged.holds p != s.pt.holds p) = true
    ↔ ∃ p ctx, p < 8 ∧ ctx < 64 ∧ (s.context p ctx).live = true
      ∧ ∃ x ∈ unitKinds, ∃ i, i < x.2 ∧ ¬(Tab.getD (x.1 s.ptStaged) i 0 = p ↔ Tab.getD (x.1 s.pt) i 0 = p) := by
  have lives : ∀ p, (!(s.liveContexts p).isEmpty) = true ↔ ∃ ctx, ctx < 64 ∧ (s.context p ctx).live = true := by
    simp [List.eq_nil_iff_forall_not_mem]
  have differs : ∀ p, (s.ptStaged.holds p != s.pt.holds p) = true
      ↔ ∃ x ∈ unitKinds, ∃ i, i < x.2 ∧ ¬(Tab.getD (x.1 s.ptStaged) i 0 = p ↔ Tab.getD (x.1 s.pt) i 0 = p) := by
    simp [PartTable.holds_eq_iff]
  simp only [List.any_eq_true, List.mem_range, Bool.and_eq_true, lives, differs]
  exact ⟨fun ⟨p, hp, ⟨ctx, hctx, live⟩, d⟩ => ⟨p, ctx, hp, hctx, live, d⟩,
    fun ⟨p, ctx, hp, hctx, live, d⟩ => ⟨p, hp, ⟨ctx, hctx, live⟩, d⟩⟩

theorem State.commit_parts_view_iff :
    (List.range 16).any (fun v => (Tab.getD s.views v {}).port != 7
      && Tab.getD s.ptStaged.view v 0 != Tab.getD s.ptStaged.port (Tab.getD s.views v {}).port 0) = true
    ↔ ∃ v, v < 16 ∧ (Tab.getD s.views v {}).port ≠ 7
      ∧ Tab.getD s.ptStaged.view v 0 ≠ Tab.getD s.ptStaged.port (Tab.getD s.views v {}).port 0 := by
  simp

theorem State.commit_renames_iff :
    (s.ptStaged.chipid != s.pt.chipid && (List.range 8).any (fun p => (s.func p).fabEn)) = true
    ↔ s.ptStaged.chipid ≠ s.pt.chipid ∧ ∃ p, p < 8 ∧ (s.func p).fabEn = true := by
  simp

theorem State.commitRefused_iff : s.commitRefused = true ↔ TableRefused s := by
  simp only [State.commitRefused, Bool.or_eq_true, s.commit_loses_iff, s.commit_moves_live_iff, s.commit_parts_view_iff,
    s.commit_renames_iff, TableRefused, or_assoc]

end

/-- The partitions whose memory units a commit changes. -/
def State.movedMemory (s : State) : List Nat :=
  (List.range 8).filter (fun p =>
    (PartTable.of s.ptStaged.mem 128).map (· == p) != (PartTable.of s.pt.mem 128).map (· == p))

theorem State.mem_movedMemory (s : State) (p : Nat) : p ∈ s.movedMemory ↔
    p < 8 ∧ ∃ i, i < 128 ∧ ¬(Tab.getD s.ptStaged.mem i 0 = p ↔ Tab.getD s.pt.mem i 0 = p) := by
  simp only [State.movedMemory, List.mem_filter, List.mem_range, bne_iff_ne, ne_eq, PartTable.of_map_eq_iff, not_forall,
    exists_prop]

/-- The state of which the memory of every such partition has been forgotten (notes/assumptions/51.md). -/
def State.forgetMoved (s : State) : State := s.movedMemory.foldl (fun s p => s.forget (globalKey p 0) (2 ^ 52)) s

theorem State.forgetMoved_forgot (s : State) :
    Forgot (fun k => ∃ p, p < 8 ∧ globalKey p 0 ≤ k ∧ k < globalKey p 0 + 2 ^ 52
      ∧ ∃ i, i < 128 ∧ ¬(Tab.getD s.ptStaged.mem i 0 = p ↔ Tab.getD s.pt.mem i 0 = p)) s s.forgetMoved :=
  (State.foldl_forget_forgot (globalKey · 0) (2 ^ 52) s.movedMemory s).congr fun k => exists_congr fun p => by
    rw [s.mem_movedMemory]
    exact ⟨fun ⟨⟨hp, moved⟩, lo, hi⟩ => ⟨hp, lo, hi, moved⟩, fun ⟨hp, lo, hi, moved⟩ => ⟨⟨hp, moved⟩, lo, hi⟩⟩

theorem execCommit_refused {s : State} {v : Word} (go : v.getLsbD 0 = true) (refused : TableRefused s) :
    execCommit v s = .next { s with mgmt := { s.mgmt with ptRefused := true } } := by
  rw [execCommit, if_neg (by simp [go]), if_pos (s.commitRefused_iff.2 refused)]
  rfl

theorem execCommit_accepted {s : State} {v : Word} (go : v.getLsbD 0 = true) (ok : ¬TableRefused s) :
    execCommit v s = .next ({ s.forgetMoved with pt := s.ptStaged }.modMgmt (fun m => { m with ptRefused := false })) := by
  rw [execCommit, if_neg (by simp [go]), if_neg (mt s.commitRefused_iff.1 ok)]
  rfl

end Sys2Proof.Machine

namespace Sys2Proof.Claims

open Sys2Proof.Machine

/-- Settles O60: budgets by their sum over the partitions, the clocks cluster by cluster, the partition table by its four
reasons for a refusal and by what forgetting leaves, and each interface by what it answers. -/
theorem managementCommands : Obligations.ManagementCommands := by
  unfold Obligations.ManagementCommands
  refine ⟨fun s v => ?budgets, fun s cluster step => execGovernorThrottle_clock cluster step s,
    fun s temps volts current => ?sensors, fun s v => ⟨fun off => if_pos off, fun go bad => execCommit_refused go bad, ?commit⟩,
    fun s vfs => ⟨fun few => if_pos few, fun many => if_neg (Nat.not_le.2 many)⟩, fun s nonce algs off len => ?answers⟩
  case budgets => exact ⟨fun off => if_pos off, execApply_fit, execApply_misfit⟩
  case sensors =>
    intro hot trip near
    refine ⟨_, execSensorSample_eq temps volts current s, rfl, rfl, s.mgmt.sampled_thermal _ _ _ _, Nat.mod_lt _ (by decide),
      s.mgmt.sampled_due_trip _ _ _ _, s.mgmt.sampled_due_cool _ _ _ _, fun c => ?_⟩
    have clock := State.clock_foldl_lower c (hotClusters temps) s (nodup_eraseDups _)
    by_cases lowered : near c ∧ 4 < s.clock c
    · obtain ⟨⟨hc, hnear⟩, above⟩ := lowered
      exact .inl ⟨⟨hc, hnear⟩, above, clock.trans (if_pos ⟨(mem_hotClusters temps c).2 hnear, hc, above⟩)⟩
    · refine .inr ⟨(not_and_or.1 lowered).imp_right Nat.not_lt.1, clock.trans (if_neg fun ⟨hmem, hc, above⟩ => ?_)⟩
      exact lowered ⟨⟨hc, (mem_hotClusters temps c).1 hmem⟩, above⟩
  case commit =>
    intro go ok gone
    have forgot := s.forgetMoved_forgot
    exact ⟨_, execCommit_accepted go ok, by rw [forgot.frame]; rfl, forgot.kept, forgot.lost⟩
  case answers =>
    intro m digest signed answers
    exact ⟨rfl, rfl, rfl, rfl, rfl, rfl, rfl, rfl⟩

end Sys2Proof.Claims
end

section
/-!
SUPPORT. The choice of a unit and of its cores, the order of service, and holds (R127 to R129).
-/

namespace Sys2Proof.Machine

open Sys2Proof.Claims

/-! ### The choice of a unit and its cores (R128, R129) -/

/-- Exactly when an "any" entry prefers a unit: by free vector registers, then by the launch's die, then by number. -/
theorem State.prefers_iff (s : State) (l : Launch) (a b : Nat) : s.prefers l a b = true ↔
    s.unitFree l.helm b < s.unitFree l.helm a ∨ (s.unitFree l.helm b = s.unitFree l.helm a
      ∧ ((a / 32 = l.die ∧ b / 32 ≠ l.die) ∨ ((a / 32 = l.die ↔ b / 32 = l.die) ∧ a < b))) := by
  simp only [State.prefers, Bool.or_eq_true, Bool.and_eq_true, decide_eq_true_eq, bne_iff_ne, ne_eq,
    Bool.beq_eq_decide_eq, decide_eq_decide, eq_comm (a := s.unitFree l.helm b)]

/-- A unit is at least as good as another: it is preferred to it, or is the same. -/
def State.atLeast (s : State) (l : Launch) (u v : Nat) : Prop := s.prefers l u v = true ∨ u = v

theorem State.atLeast_iff (s : State) (l : Launch) (u v : Nat) : s.atLeast l u v ↔
    s.unitFree l.helm v < s.unitFree l.helm u ∨ (s.unitFree l.helm v = s.unitFree l.helm u
      ∧ ((u / 32 = l.die ∧ v / 32 ≠ l.die) ∨ ((u / 32 = l.die ↔ v / 32 = l.die) ∧ u ≤ v))) := by
  rw [State.atLeast, State.prefers_iff]
  constructor
  · rintro (h | rfl)
    · omega
    · exact .inr ⟨rfl, .inr ⟨.rfl, le_rfl⟩⟩
  · intro h
    by_cases e : u = v
    · exact .inr e
    · left; omega

theorem State.atLeast_trans {s : State} {l : Launch} {u v w : Nat} (h : s.atLeast l u v) (k : s.atLeast l v w) :
    s.atLeast l u w := by
  rw [State.atLeast_iff] at *
  omega

theorem State.atLeast_of_not_prefers {s : State} {l : Launch} {u v : Nat} (h : ¬s.prefers l u v = true) :
    s.atLeast l v u := by
  rw [State.prefers_iff] at h
  rw [State.atLeast_iff]
  omega

theorem State.bestUnit_eq_none {s : State} {l : Launch} : ∀ {us : List Nat}, s.bestUnit l us = none → us = []
  | [], _ => rfl
  | u :: us, h => by
    rw [State.bestUnit] at h
    split at h
    · cases h
    · split at h <;> cases h

/-- The most preferred unit is one of those offered, and none of them is better. -/
theorem State.bestUnit_spec {s : State} {l : Launch} : ∀ {us : List Nat} {u : Nat}, s.bestUnit l us = some u →
    u ∈ us ∧ ∀ v ∈ us, s.atLeast l u v
  | w :: us, u, h => by
    rw [State.bestUnit] at h
    split at h
    case h_1 alone =>
      cases h
      cases State.bestUnit_eq_none alone
      exact ⟨List.mem_singleton_self _, fun v hv => .inr (List.mem_singleton.1 hv).symm⟩
    case h_2 v rest =>
      obtain ⟨hv, best⟩ := State.bestUnit_spec rest
      split at h
      case isTrue better =>
        cases h
        exact ⟨List.mem_cons_self,
          List.forall_mem_cons.2 ⟨.inr rfl, fun x hx => State.atLeast_trans (.inl better) (best x hx)⟩⟩
      case isFalse worse =>
        cases h
        exact ⟨List.mem_cons_of_mem _ hv, List.forall_mem_cons.2 ⟨State.atLeast_of_not_prefers worse, best⟩⟩

/-- One team takes the first of its candidates on which it fits. -/
theorem State.assignCores_one (s : State) (o : CodeObj) (cands : List Nat) (c : Nat) :
    s.assignCores o [cands] [] = some [c] ↔
      ∃ a b, cands = a ++ c :: b ∧ s.coreFits o c 1 = true ∧ ∀ d ∈ a, s.coreFits o d 1 = false := by
  have first : s.assignCores o [cands] [] = some [c] ↔ cands.find? (fun c => s.coreFits o c 1) = some c := by
    simp only [State.assignCores, List.filter_nil, List.length_nil, Nat.zero_add]
    cases cands.find? (fun c => s.coreFits o c 1) <;> simp
  rw [first, List.find?_eq_some_iff_append]
  simp only [Bool.not_eq_true']
  tauto

/-- Exactly what a core must have free for `k` teams of an object (R129). -/
theorem State.coreFits_iff (s : State) (o : CodeObj) (core k : Nat) :
    let ts := (s.coreTeams core).map Team.obj
    s.coreFits o core k = true ↔ (s.core core).quarantined = false
      ∧ (ts.map CodeObj.groupCount).sum + k * o.groupCount ≤ (if 256 ≤ core then 16 else 64)
      ∧ (ts.map CodeObj.vregSum).sum + k * o.vregSum ≤ 2048
      ∧ (ts.map CodeObj.sregSum).sum + k * o.sregSum ≤ (if 256 ≤ core then 8192 else 32768)
      ∧ (ts.map CodeObj.scratchSum).sum + k * o.scratchSum ≤ 256 * 1024 := by
  simp only [State.coreFits, Bool.and_eq_true, Bool.not_eq_true', decide_eq_true_eq, and_assoc]
  simp only [coreSlots, coreSregs, coreVregs, coreScratch, coreIsHelm, decide_eq_true_eq]

/-! ### The order of service (R127) -/

/-- The priority at which a launch is served: realtime is above the four others. -/
def Launch.rank (l : Launch) : Nat := if l.realtime then 4 else l.prio

theorem State.servedBefore_higher {s : State} {a b : Nat}
    (h : (s.launch (s.gang b).launch).rank < (s.launch (s.gang a).launch).rank) : s.servedBefore a b = true := by
  rw [Launch.rank, Launch.rank] at h
  simp [State.servedBefore, h]

theorem State.servedBefore_lower {s : State} {a b : Nat}
    (h : (s.launch (s.gang a).launch).rank < (s.launch (s.gang b).launch).rank) : s.servedBefore a b = false := by
  rw [Launch.rank, Launch.rank] at h
  simp [State.servedBefore, Nat.lt_asymm h, Nat.ne_of_lt h]

/-- Gangs of kernel nodes of one priority are served by the acceptance of their launches, then by their index. -/
theorem State.servedBefore_equal {s : State} {a b : Nat}
    (h : (s.launch (s.gang a).launch).rank = (s.launch (s.gang b).launch).rank)
    (ha : (s.launch (s.gang a).launch).src = .node) (hb : (s.launch (s.gang b).launch).src = .node) :
    s.servedBefore a b = true ↔ (s.gang a).launch < (s.gang b).launch
      ∨ ((s.gang a).launch = (s.gang b).launch ∧ (s.gang a).index < (s.gang b).index) := by
  rw [Launch.rank, Launch.rank] at h
  simp [State.servedBefore, h, ha, hb, Launch.accepted, Source.inst?]

/-! ### Service and holds (R127, R128) -/

/-- A gang is reserved on its target where the limits of R93 to R95 hold, before and after. -/
theorem State.serve_eq {s t : State} {gid unit : Nat} {cores : List Nat} (target : s.target? gid = some (unit, cores))
    (allowed : s.wgAllows (s.launch (s.gang gid).launch) (s.gang gid).lins.length = true)
    (reserved : s.reserve gid unit cores = .ok t)
    (kept : t.keepsFootprints (s.launch (s.gang gid).launch) unit = true) : s.serve gid unit = some (.ok t) := by
  simp [State.serve, target, allowed, reserved, kept]

/-- A waiting gang is served where no gang of its partition and die that is served before it can be. -/
theorem execGangServed_first {s t : State} {gid unit : Nat} (waits : s.gangWaits gid = true)
    (served : s.serve gid unit = some (.ok t))
    (first : ∀ b ∈ Tab.keys s.gangs, (s.launch (s.gang b).launch).part = (s.launch (s.gang gid).launch).part →
      (s.launch (s.gang b).launch).die = (s.launch (s.gang gid).launch).die → s.servedBefore b gid = true →
      s.servable b = false) : execGangServed gid unit s = .next t := by
  have none_earlier : (Tab.keys s.gangs).all (fun b =>
      (s.launch (s.gang b).launch).part != (s.launch (s.gang gid).launch).part
        || (s.launch (s.gang b).launch).die != (s.launch (s.gang gid).launch).die
        || !s.servedBefore b gid || !s.servable b) = true := by
    simp only [List.all_eq_true, Bool.or_eq_true, bne_iff_ne, ne_eq, Bool.not_eq_true']
    intro b hb
    have earlier := first b hb
    have order := Bool.eq_false_or_eq_true (s.servedBefore b gid)
    tauto
  simp only [execGangServed, none_earlier, waits, served, Bool.not_true, Bool.or_self, Bool.false_eq_true, if_false]

/-- A unit that another gang holds takes no gang. -/
theorem State.fitOn_held {s : State} {gid unit k : Nat}
    (held : Tab.get? s.holds (holdKey (s.launch (s.gang gid).launch).helm unit) = some k) (other : k ≠ gid) :
    s.fitOn gid unit = none := by
  simp [State.fitOn, held, other]

/-- A key that no entry of a table has is not listed. -/
theorem Tab.get?_eq_none {α : Type} {t : Tab α} {k : Nat} (h : ∀ x ∈ t, x.1 ≠ k) : Tab.get? t k = none := by
  induction t with
  | nil => rfl
  | cons x t ih =>
    obtain ⟨hx, ht⟩ := List.forall_mem_cons.1 h
    rw [Tab.get?, if_neg hx, ih ht]

theorem oneEntry_put {α : Type} (t : Tab α) (k : Nat) (v : α) : oneEntry t (Tab.put t k v) k (some v) :=
  ⟨by simp, fun j hj => by simp [hj]⟩

/-- The gang that has waited longest holds its unit, where neither of them has a hold. -/
theorem execPlacementHold_oldest {s : State} {gid unit : Nat} (waits : s.gangWaits gid = true)
    (long : 65536 ≤ s.now - (s.gang gid).since) (target : s.holdTarget gid = some unit)
    (free : ∀ h ∈ s.holds, h.2 ≠ gid ∧ h.1 ≠ holdKey (s.launch (s.gang gid).launch).helm unit)
    (oldest : ∀ b, b ≠ gid → s.gangWaits b = true → (s.gang gid).since < (s.gang b).since
      ∨ ((s.gang gid).since = (s.gang b).since ∧ gid < b)) :
    execPlacementHold gid s
      = .next { s with holds := Tab.put s.holds (holdKey (s.launch (s.gang gid).launch).helm unit) gid } := by
  have no_hold : s.holds.any (fun h => h.2 == gid) = false := by simpa using fun a b hb => (free _ hb).1
  have no_key : Tab.get? s.holds (holdKey (s.launch (s.gang gid).launch).helm unit) = none :=
    Tab.get?_eq_none fun x hx => (free x hx).2
  have none_older : (Tab.keys s.gangs).any (fun b => b != gid && (s.gangWaits b && decide (65536 ≤ s.now - (s.gang b).since))
      && (s.launch (s.gang b).launch).helm == (s.launch (s.gang gid).launch).helm && s.holdTarget b == some unit
      && !(s.holds.any (fun h => h.2 == b)) && (decide ((s.gang b).since < (s.gang gid).since)
        || ((s.gang b).since == (s.gang gid).since && decide (b < gid)))) = false := by
    rw [List.any_eq_false]
    intro b _ hb
    simp only [Bool.and_eq_true, Bool.or_eq_true, bne_iff_ne, decide_eq_true_eq, beq_iff_eq] at hb
    obtain ⟨⟨⟨⟨⟨ne, waits, -⟩, -⟩, -⟩, -⟩, earlier⟩ := hb
    have := oldest b ne waits
    omega
  simp only [execPlacementHold, target, none_older, no_hold, no_key, waits, long, decide_true, Bool.and_self, Bool.not_true,
    Bool.or_self, Option.isSome_none, Bool.false_eq_true, if_false]

end Sys2Proof.Machine
end

section
/-!
SUPPORT. The reservation of a gang: its allocations, its teams and its place on a unit (R77, R128, R131).
-/

namespace Sys2Proof.Machine

open Sys2Proof.Claims

/-! ### Reads of gangs -/

/-- A gang after a change of one. -/
theorem State.get?_modGang (s : State) (gid k : Nat) (f : Gang → Gang) :
    Tab.get? (s.modGang gid f).gangs k = if k = gid then (Tab.get? s.gangs gid).map f else Tab.get? s.gangs k :=
  Tab.get?_modify s.gangs gid k f

theorem State.gang_of_get? {s : State} {k : Nat} {g : Gang} (h : Tab.get? s.gangs k = some g) : s.gang k = g := by
  simp [State.gang, Tab.getD, h]

theorem State.get?_gang {s : State} {k : Nat} (h : Tab.get? s.gangs k ≠ none) : Tab.get? s.gangs k = some (s.gang k) := by
  obtain ⟨g, hg⟩ := Option.ne_none_iff_exists'.1 h
  rw [hg, State.gang_of_get? hg]

theorem State.gang_modGang {s : State} {gid : Nat} (h : Tab.get? s.gangs gid ≠ none) (f : Gang → Gang) :
    (s.modGang gid f).gang gid = f (s.gang gid) :=
  State.gang_of_get? (by rw [State.get?_modGang, if_pos rfl, State.get?_gang h, Option.map_some])

/-! ### Allocations and the next gang -/

/-- An allocation changes the allocations, and draws a number. -/
theorem State.allocate_frame (s : State) (lvl : Lvl) (unit size part : Nat) :
    (s.allocate lvl unit size part).1
      = { s with allocs := (s.allocate lvl unit size part).1.allocs, fresh := (s.allocate lvl unit size part).1.fresh } := by
  unfold State.allocate
  split <;> rfl

theorem State.fresh_le_allocate (s : State) (lvl : Lvl) (unit size part : Nat) :
    s.fresh ≤ (s.allocate lvl unit size part).1.fresh := by
  unfold State.allocate
  split
  · exact le_rfl
  · exact Nat.le_succ _

/-- An allocation made is listed under its number, which was not used before. -/
theorem State.allocate_listed (s : State) (lvl : Lvl) (unit part : Nat) {size : Nat} (h : 0 < size) :
    Tab.get? (s.allocate lvl unit size part).1.allocs (s.allocate lvl unit size part).2 = some ⟨lvl, unit, size, part⟩
      ∧ (s.allocate lvl unit size part).2 < (s.allocate lvl unit size part).1.fresh := by
  rw [State.allocate, if_neg (Nat.ne_of_gt h)]
  exact ⟨by simp, Nat.lt_succ_self _⟩

/-- The allocations of the numbers used before stay. -/
theorem State.allocate_kept (s : State) (lvl : Lvl) (unit size part : Nat) {k : Nat} (h : k < s.fresh) :
    Tab.get? (s.allocate lvl unit size part).1.allocs k = Tab.get? s.allocs k := by
  unfold State.allocate
  split
  · rfl
  · simp [Nat.ne_of_lt h]

/-- The next gang of a launch, where there is one, is listed under the next number. -/
theorem State.nextGang_cases (s : State) (lid : Nat) : s.nextGang lid = s ∨ ∃ (g : Gang) (ls : Tab Launch),
    s.nextGang lid = { s with gangs := Tab.put s.gangs s.fresh g, launches := ls, fresh := s.fresh + 1 } := by
  by_cases last : ((s.launch lid).gangLins (s.launch lid).next).isEmpty = true
  · exact .inl (if_pos last)
  · exact .inr ⟨_, _, if_neg last⟩

/-- The next gang of a launch changes neither teams, allocations, copies nor holds, nor a gang of a number used before. -/
theorem State.nextGang_kept (s : State) (lid : Nat) :
    (s.nextGang lid).teams = s.teams ∧ (s.nextGang lid).allocs = s.allocs ∧ (s.nextGang lid).copies = s.copies
      ∧ (s.nextGang lid).holds = s.holds
      ∧ ∀ k, k < s.fresh → Tab.get? (s.nextGang lid).gangs k = Tab.get? s.gangs k := by
  rcases s.nextGang_cases lid with h | ⟨g, ls, h⟩ <;> rw [h]
  · exact ⟨rfl, rfl, rfl, rfl, fun _ _ => rfl⟩
  · exact ⟨rfl, rfl, rfl, rfl, fun k hk => by simp [Nat.ne_of_lt hk]⟩

/-! ### Teams placed (R128) -/

/-- `t` is `s` with teams `ids` added to a gang: launches and copies are as before, and so is what was listed under the
numbers used before. -/
structure TeamsAdded (s t : State) (gid : Nat) (ids : List Nat) : Prop where
  launches : t.launches = s.launches
  copies : t.copies = s.copies
  fresh : s.fresh ≤ t.fresh
  teams : ∀ k, k < s.fresh → Tab.get? t.teams k = Tab.get? s.teams k
  allocs : ∀ k, k < s.fresh → Tab.get? t.allocs k = Tab.get? s.allocs k
  gang : Tab.get? t.gangs gid = (Tab.get? s.gangs gid).map (fun g => { g with teams := g.teams ++ ids })

theorem TeamsAdded.refl (s : State) (gid : Nat) : TeamsAdded s s gid [] where
  launches := rfl
  copies := rfl
  fresh := le_rfl
  teams _ _ := rfl
  allocs _ _ := rfl
  gang := by simp

theorem TeamsAdded.trans {s t u : State} {gid : Nat} {xs ys : List Nat} (h : TeamsAdded s t gid xs)
    (k : TeamsAdded t u gid ys) : TeamsAdded s u gid (xs ++ ys) where
  launches := k.launches.trans h.launches
  copies := k.copies.trans h.copies
  fresh := h.fresh.trans k.fresh
  teams j hj := (k.teams j (hj.trans_le h.fresh)).trans (h.teams j hj)
  allocs j hj := (k.allocs j (hj.trans_le h.fresh)).trans (h.allocs j hj)
  gang := by rw [k.gang, h.gang, Option.map_map]; simp [Function.comp_def]

/-- The gang itself. -/
theorem TeamsAdded.gang_eq {s t : State} {gid : Nat} {ids : List Nat} (h : TeamsAdded s t gid ids)
    (listed : Tab.get? s.gangs gid ≠ none) :
    Tab.get? t.gangs gid = some { s.gang gid with teams := (s.gang gid).teams ++ ids } := by
  rw [h.gang, State.get?_gang listed, Option.map_some]

theorem TeamsAdded.launch_eq {s t : State} {gid : Nat} {ids : List Nat} (h : TeamsAdded s t gid ids) (lid : Nat) :
    t.launch lid = s.launch lid := by
  rw [State.launch, State.launch, h.launches]

/-- An allocation adds no team. -/
theorem State.allocate_added (s : State) (lvl : Lvl) (unit size part gid : Nat) :
    TeamsAdded s (s.allocate lvl unit size part).1 gid [] where
  launches := by rw [s.allocate_frame]
  copies := by rw [s.allocate_frame]
  fresh := s.fresh_le_allocate lvl unit size part
  teams k _ := by rw [s.allocate_frame]
  allocs k hk := s.allocate_kept lvl unit size part hk
  gang := by rw [s.allocate_frame]; simp

/-- A team's record listed under the next number, and that number added to its gang. -/
def State.listTeam (s : State) (gid : Nat) (x : Team) : State :=
  ({ s with teams := Tab.put s.teams s.fresh x } : State).tick.modGang gid (fun g => { g with teams := g.teams ++ [s.fresh] })

theorem State.listTeam_added (s : State) (gid : Nat) (x : Team) : TeamsAdded s (s.listTeam gid x) gid [s.fresh] where
  launches := rfl
  copies := rfl
  fresh := Nat.le_succ _
  teams k hk := by simp [State.listTeam, Nat.ne_of_lt hk]
  allocs _ _ := rfl
  gang := (State.get?_modGang _ gid gid _).trans (if_pos rfl)

/-- A team listed with the scratch of its core allocated. -/
def State.addTeam (s : State) (gid core size part : Nat) (x : Nat → Team) : State :=
  (s.allocate .core core size part).1.listTeam gid (x (s.allocate .core core size part).2)

theorem State.addTeam_spec (s : State) (gid core size part : Nat) (x : Nat → Team) : ∃ id scr,
    TeamsAdded s (s.addTeam gid core size part x) gid [id] ∧ id < (s.addTeam gid core size part x).fresh
      ∧ Tab.get? (s.addTeam gid core size part x).teams id = some (x scr)
      ∧ (0 < size → Tab.get? (s.addTeam gid core size part x).allocs scr = some ⟨.core, core, size, part⟩
        ∧ scr < (s.addTeam gid core size part x).fresh) := by
  refine ⟨_, (s.allocate .core core size part).2,
    (s.allocate_added .core core size part gid).trans (State.listTeam_added _ gid _), Nat.lt_succ_self _,
    by simp [State.addTeam, State.listTeam], fun h => ?_⟩
  obtain ⟨listed, below⟩ := s.allocate_listed .core core part h
  exact ⟨listed, Nat.lt_succ_of_lt below⟩

/-- What holds of a gang of new teams of a kernel node through the placing of its teams: it is listed and of launch `lid`;
no copy is chosen, and it has no matrix stream (R77, R131, R409). -/
structure NewTeams (s : State) (gid lid : Nat) : Prop where
  listed : Tab.get? s.gangs gid ≠ none
  launch : (s.gang gid).launch = lid
  plain : (s.gang gid).copyOf = none ∧ (s.gang gid).again = none
  src : (s.launch lid).src = .node
  chosen : (s.launch lid).sel = none
  stream : (s.launch lid).obj.mstream = false

theorem NewTeams.added {s t : State} {gid lid : Nat} {ids : List Nat} (h : NewTeams s gid lid) (k : TeamsAdded s t gid ids) :
    NewTeams t gid lid := by
  have gang := k.gang_eq h.listed
  have read := State.gang_of_get? gang
  exact ⟨by simp [gang], by rw [read]; exact h.launch, by rw [read]; exact h.plain, by rw [k.launch_eq]; exact h.src,
    by rw [k.launch_eq]; exact h.chosen, by rw [k.launch_eq]; exact h.stream⟩

/-- A kernel node sets no blocks aside for its teams (R95). -/
theorem State.setAside_node {s : State} {l : Launch} (h : l.src = .node) (team : Nat) : s.setAside l team = s := by
  simp [State.setAside, State.launchNode, h]

/-- A team of a launch that no copy is chosen for gets none (R408). -/
theorem NewTeams.addCopy {s : State} {gid lid : Nat} (h : NewTeams s gid lid) (team lin : Nat) :
    s.addCopy lid gid team lin = s := by
  simp [State.addCopy, h.plain.2, Launch.chosen, h.chosen]

/-- A team of a gang, as it is placed with its scratch allocation. -/
def State.newTeam (s : State) (gid unit copy clus lin core scr : Nat) : Team :=
  let l := s.launch (s.gang gid).launch
  l.team (s.gang gid).launch gid (s.gang gid) lin core copy scr clus (Tab.getD l.dieScr (unit / 32) 0)
    (Tab.getD l.dieScr (1 - unit / 32) 0)

theorem NewTeams.newTeam_added {s t : State} {gid lid : Nat} {ids : List Nat} (h : NewTeams s gid lid)
    (k : TeamsAdded s t gid ids) : t.newTeam gid = s.newTeam gid := by
  funext unit copy clus lin core scr
  rw [State.newTeam, State.gang_of_get? (k.gang_eq h.listed), k.launch_eq]
  rfl

theorem State.placeTeam_eq {s : State} {gid lid : Nat} (h : NewTeams s gid lid) (unit copy clus lin core : Nat) :
    s.placeTeam gid unit copy clus lin core
      = s.addTeam gid core (s.launch lid).obj.coreScr (s.launch lid).part (s.newTeam gid unit copy clus lin core) := by
  obtain ⟨id, scr, added, -⟩ := s.addTeam_spec gid core (s.launch lid).obj.coreScr (s.launch lid).part
    (s.newTeam gid unit copy clus lin core)
  rw [← (h.added added).addCopy (s.allocate .core core (s.launch lid).obj.coreScr (s.launch lid).part).1.fresh lin]
  rw [State.placeTeam]
  simp only [h.launch, h.stream, State.setAside_node h.src, Bool.false_eq_true, if_false, State.addTeam, State.listTeam,
    State.newTeam]

/-- The teams of a gang placed in turn: one team for each of them, on its core. -/
theorem State.placeTeams_spec {gid lid : Nat} (unit copy clus : Nat) : ∀ (ps : List (Nat × Nat)) (s : State),
    NewTeams s gid lid → ∃ ids, ids.length = ps.length
      ∧ TeamsAdded s (ps.foldl (fun s x => s.placeTeam gid unit copy clus x.1 x.2) s) gid ids
      ∧ ∀ j (hj : j < ps.length), ∃ scr,
        Tab.get? (ps.foldl (fun s x => s.placeTeam gid unit copy clus x.1 x.2) s).teams (ids.getD j 0)
          = some (s.newTeam gid unit copy clus ps[j].1 ps[j].2 scr)
        ∧ (0 < (s.launch lid).obj.coreScr →
          Tab.get? (ps.foldl (fun s x => s.placeTeam gid unit copy clus x.1 x.2) s).allocs scr
            = some ⟨.core, ps[j].2, (s.launch lid).obj.coreScr, (s.launch lid).part⟩)
  | [], s, _ => ⟨[], rfl, .refl s gid, fun j hj => absurd hj (Nat.not_lt_zero j)⟩
  | (lin, core) :: ps, s, h => by
    obtain ⟨id, scr, added, below, listed, scratch⟩ := s.addTeam_spec gid core (s.launch lid).obj.coreScr
      (s.launch lid).part (s.newTeam gid unit copy clus lin core)
    rw [← State.placeTeam_eq h] at added below listed scratch
    obtain ⟨ids, length, rest, each⟩ := State.placeTeams_spec unit copy clus ps _ (h.added added)
    refine ⟨id :: ids, by simp [length], added.trans rest, fun j hj => ?_⟩
    cases j with
    | zero =>
      exact ⟨scr, (rest.teams id below).trans listed, fun pos => (rest.allocs scr (scratch pos).2).trans (scratch pos).1⟩
    | succ j =>
      obtain ⟨scr', hteam, halloc⟩ := each j (Nat.lt_of_succ_lt_succ hj)
      rw [h.newTeam_added added] at hteam
      rw [added.launch_eq] at halloc
      exact ⟨scr', hteam, halloc⟩

/-! ### The reservation of a gang (R128) -/

/-- A code copy with one reference more (R131). -/
def State.shareCopy (s : State) (c : Nat) : State :=
  { s with copies := Tab.modify s.copies c (fun x => { x with refs := x.refs + 1 }) }

/-- The state in which a gang's teams are placed: its cluster scratch is allocated, under the second of the pair. -/
def State.gangRoom (s : State) (gid unit c : Nat) : State × Nat :=
  ((s.shareCopy c).engDone (s.loader gid)).allocate .clus unit
    ((s.gang gid).lins.length * (s.launch (s.gang gid).launch).obj.clusScr) (s.launch (s.gang gid).launch).part

/-- The state with a gang's new teams placed. -/
def State.gangPlaced (s : State) (gid unit c : Nat) (cores : List Nat) : State :=
  ((s.gang gid).lins.zip cores).foldl (fun t x => t.placeTeam gid unit c (s.gangRoom gid unit c).2 x.1 x.2)
    (s.gangRoom gid unit c).1

/-- The gang LOADING on its unit, its hold gone. -/
def State.gangLoading (s : State) (gid unit scr : Nat) : State :=
  { s.modGang gid (fun g => { g with state := .loading, unit := unit, clusScr := scr }) with
    holds := s.holds.filter (fun h => h.2 != gid) }

section
variable {s : State} {gid unit c : Nat} (h : PlainGang s gid unit c)
include h

/-- The reservation of a gang of new teams whose code lies on the unit, without a next gang or with one. -/
theorem State.reserve_plain (cores : List Nat) :
    let t := (s.gangPlaced gid unit c cores).gangLoading gid unit (s.gangRoom gid unit c).2
    s.reserve gid unit cores = .ok t ∨ s.reserve gid unit cores = .ok (t.nextGang (s.gang gid).launch) := by
  have code : s.loadCopy gid unit = .ok (s.shareCopy c, c) := by
    simp only [State.loadCopy, h.copy, State.shareCopy]
  have die : ((s.shareCopy c).engDone (s.loader gid)).dieAlloc (s.gang gid).launch unit
      = (s.shareCopy c).engDone (s.loader gid) := if_pos (.inl h.die)
  have src : (((s.shareCopy c).engDone (s.loader gid)).launch (s.gang gid).launch).src = .node := h.src
  rw [State.reserve, code]
  simp only [Got.map, Got.andThen, die, src, h.fresh.1, Bool.false_eq_true, if_false]
  split
  · exact .inr rfl
  · exact .inl rfl

/-- A reservation leaves the gang LOADING, its hold gone, and its teams, allocations and copies as they were placed. -/
theorem State.reserve_loading (cores : List Nat) (below : gid < (s.gangPlaced gid unit c cores).fresh) :
    let p := s.gangPlaced gid unit c cores
    ∃ t, s.reserve gid unit cores = .ok t ∧ t.teams = p.teams ∧ t.allocs = p.allocs ∧ t.copies = p.copies
      ∧ t.holds = p.holds.filter (fun h => h.2 != gid)
      ∧ Tab.get? t.gangs gid = (Tab.get? p.gangs gid).map
          (fun g => { g with state := .loading, unit := unit, clusScr := (s.gangRoom gid unit c).2 }) := by
  intro p
  have gang := (State.get?_modGang p gid gid
    (fun g => { g with state := .loading, unit := unit, clusScr := (s.gangRoom gid unit c).2 })).trans (if_pos rfl)
  rcases State.reserve_plain h cores with e | e
  · exact ⟨_, e, rfl, rfl, rfl, rfl, gang⟩
  · obtain ⟨teams, allocs, copies, holds, gangs⟩ :=
      (p.gangLoading gid unit (s.gangRoom gid unit c).2).nextGang_kept (s.gang gid).launch
    exact ⟨_, e, teams, allocs, copies, holds, (gangs gid below).trans gang⟩

/-- The gang's new teams, one for each core, each with its allocations. -/
theorem State.gangPlaced_spec {cores : List Nat} (length : cores.length = (s.gang gid).lins.length) :
    let p := s.gangPlaced gid unit c cores
    let l := s.launch (s.gang gid).launch
    ∃ ids, ids.length = cores.length ∧ TeamsAdded ((s.shareCopy c).engDone (s.loader gid)) p gid ids
      ∧ (0 < (s.gang gid).lins.length * l.obj.clusScr → Tab.get? p.allocs (s.gangRoom gid unit c).2
        = some ⟨.clus, unit, (s.gang gid).lins.length * l.obj.clusScr, l.part⟩)
      ∧ ∀ j, j < cores.length → ∃ scr, Tab.get? p.teams (ids.getD j 0)
          = some (s.newTeam gid unit c (s.gangRoom gid unit c).2 ((s.gang gid).lins.getD j 0) (cores.getD j 0) scr)
        ∧ (0 < l.obj.coreScr → Tab.get? p.allocs scr = some ⟨.core, cores.getD j 0, l.obj.coreScr, l.part⟩) := by
  intro p l
  have new : NewTeams ((s.shareCopy c).engDone (s.loader gid)) gid (s.gang gid).launch :=
    ⟨h.listed.1, rfl, ⟨h.fresh.2.1, h.fresh.2.2.1⟩, h.src, h.chosen, h.stream⟩
  have room : TeamsAdded ((s.shareCopy c).engDone (s.loader gid)) (s.gangRoom gid unit c).1 gid [] :=
    State.allocate_added _ .clus unit _ _ gid
  obtain ⟨ids, hids, placed, each⟩ := State.placeTeams_spec unit c (s.gangRoom gid unit c).2
    ((s.gang gid).lins.zip cores) (s.gangRoom gid unit c).1 (new.added room)
  have pairs : ((s.gang gid).lins.zip cores).length = cores.length := by rw [List.length_zip, ← length, Nat.min_self]
  refine ⟨ids, hids.trans pairs, room.trans placed, fun pos => ?_, fun j hj => ?_⟩
  · obtain ⟨listed, below⟩ := ((s.shareCopy c).engDone (s.loader gid)).allocate_listed .clus unit l.part pos
    exact (placed.allocs _ below).trans listed
  · obtain ⟨scr, team, alloc⟩ := each j (pairs ▸ hj)
    have hlin : j < (s.gang gid).lins.length := length ▸ hj
    rw [List.getElem_zip, new.newTeam_added room] at team
    rw [List.getElem_zip, room.launch_eq] at alloc
    rw [List.getD_eq_getElem _ _ hj, List.getD_eq_getElem _ _ hlin]
    exact ⟨scr, team, alloc⟩

/-- A new team as it is placed is what R30, R77 and R128 say of it. -/
theorem placed_newTeam {t : State} {clus lin core scr : Nat}
    (scratch : 0 < (s.launch (s.gang gid).launch).obj.coreScr → Tab.get? t.allocs scr
      = some ⟨.core, core, (s.launch (s.gang gid).launch).obj.coreScr, (s.launch (s.gang gid).launch).part⟩)
    (cluster : 0 < (s.gang gid).lins.length * (s.launch (s.gang gid).launch).obj.clusScr → Tab.get? t.allocs clus
      = some ⟨.clus, unit, (s.gang gid).lins.length * (s.launch (s.gang gid).launch).obj.clusScr,
          (s.launch (s.gang gid).launch).part⟩) :
    Placed s t gid c lin core (s.newTeam gid unit c clus lin core scr) where
  launch := ⟨rfl, rfl, rfl, rfl, rfl⟩
  owner := ⟨rfl, rfl, rfl, rfl, rfl⟩
  levels := ⟨rfl, rfl, by simp [State.newTeam, Launch.team, h.src], h.fresh.2.1⟩
  coords := by simp [State.newTeam, Launch.team, Launch.coords, Launch.extents, h.src]
  scratch := scratch
  cluster pos := ⟨unit, cluster pos⟩
  idle := ⟨rfl, rfl, rfl, rfl⟩

/-- A served gang has its unit, one team on each core, and a reference to its code's copy; its hold is gone (R128, R131). -/
theorem State.reserve_placed {cores : List Nat} (length : cores.length = (s.gang gid).lins.length) :
    ∃ t : State, s.reserve gid unit cores = .ok t ∧ (t.gang gid).state = .loading ∧ (t.gang gid).unit = unit
      ∧ (t.gang gid).teams.length = cores.length ∧ (∀ h ∈ t.holds, h.2 ≠ gid)
      ∧ (∀ x, Tab.get? s.copies c = some x → Tab.get? t.copies c = some { x with refs := x.refs + 1 })
      ∧ ∀ j, j < cores.length → ∃ x, Tab.get? t.teams ((t.gang gid).teams.getD j 0) = some x
          ∧ Placed s t gid c ((s.gang gid).lins.getD j 0) (cores.getD j 0) x := by
  obtain ⟨ids, hids, added, cluster, each⟩ := State.gangPlaced_spec h length
  have numbered : gid < (s.gangPlaced gid unit c cores).fresh := h.listed.2.2.trans_le added.fresh
  obtain ⟨t, reserved, teams, allocs, copies, holds, gangs⟩ := State.reserve_loading h cores numbered
  rw [added.gang_eq h.listed.1, Option.map_some] at gangs
  have gang := State.gang_of_get? gangs
  have ids_eq : (t.gang gid).teams = ids := by
    rw [gang]
    exact congrArg (· ++ ids) h.fresh.2.2.2
  refine ⟨t, reserved, by rw [gang], by rw [gang], by rw [ids_eq, hids], fun x hx => ?_, fun x hx => ?_, fun j hj => ?_⟩
  · rw [holds] at hx
    simpa using (List.mem_filter.1 hx).2
  · rw [copies, added.copies]
    exact (Tab.get?_modify s.copies c c _).trans (by rw [if_pos rfl, hx, Option.map_some])
  · obtain ⟨scr, team, scratch⟩ := each j hj
    rw [ids_eq, teams]
    rw [← allocs] at scratch cluster
    exact ⟨_, team, placed_newTeam h scratch cluster⟩

end

end Sys2Proof.Machine
end

section
/-!
SUPPORT. A gang's code loaded, and a group at its first instruction (R30, R128, R131).
-/

namespace Sys2Proof.Machine

open Sys2Proof.Claims

/-! ### The code of a gang loaded (R128, R131) -/

/-- The code copies of teams marked as loaded. -/
def State.markLoaded (s : State) (ts : List Nat) : State :=
  ts.foldl (fun s t =>
    { s with copies := Tab.modify s.copies (s.team t).copy (fun c => { c with loaded := true }) }) s

theorem State.markLoaded_frame : ∀ (ts : List Nat) (s : State),
    s.markLoaded ts = { s with copies := (s.markLoaded ts).copies }
  | [], _ => rfl
  | t :: ts, s => by
    rw [State.markLoaded, List.foldl_cons, ← State.markLoaded, State.markLoaded_frame ts]

/-- A copy once loaded stays loaded, and so do those of the teams of the list. -/
theorem State.markLoaded_loaded : ∀ (ts : List Nat) (s : State) {k : Nat} {c : Copy},
    (k ∈ ts.map (fun t => (s.team t).copy) ∨ ∀ c, Tab.get? s.copies k = some c → c.loaded = true) →
    Tab.get? (s.markLoaded ts).copies k = some c → c.loaded = true
  | [], s, k, c, h, hc => h.elim (fun hk => absurd hk List.not_mem_nil) (fun h => h c hc)
  | t :: ts, s, k, c, h, hc => by
    rw [State.markLoaded, List.foldl_cons, ← State.markLoaded] at hc
    refine State.markLoaded_loaded ts _ ?_ hc
    by_cases hk : k = (s.team t).copy
    · refine .inr fun x hx => ?_
      rw [Tab.get?_modify, if_pos hk, Option.map_eq_some_iff] at hx
      obtain ⟨y, -, rfl⟩ := hx
      rfl
    · refine h.imp (fun hm => (List.mem_cons.1 hm).resolve_left hk) fun h x hx => ?_
      rw [Tab.get?_modify, if_neg hk] at hx
      exact h x hx

/-- A LOADING gang of new teams becomes RESIDENT, its code loaded, and its teams start. -/
theorem execCodeLoadComplete_new {s : State} {gid : Nat} (loading : (s.gang gid).state = .loading)
    (runs : (s.context (s.launch (s.gang gid).launch).part (s.launch (s.gang gid).launch).ctx).saved = false)
    (unhalted : (s.func (s.launch (s.gang gid).launch).part).halted = false) (new : (s.gang gid).restores = false) :
    execCodeLoadComplete gid s = .next ((s.gang gid).teams.foldl State.startTeam
      ((s.markLoaded (s.gang gid).teams).modGang gid (fun g => { g with state := .resident, restores := false }))) := by
  simp [execCodeLoadComplete, loading, runs, unhalted, new, State.markLoaded]

theorem State.listed_of_loading {s : State} {gid : Nat} (h : (s.gang gid).state = .loading) :
    Tab.get? s.gangs gid ≠ none := by
  intro none
  rw [State.gang, Tab.getD, none] at h
  cases h

/-! ### The first instruction of a group (R30) -/

/-- A group that becomes ready changes the cores only. -/
theorem State.becomeReady_frame (s : State) (g : Nat) : s.becomeReady g = { s with cores := (s.becomeReady g).cores } := by
  unfold State.becomeReady
  split <;> rfl

/-- The lanes of a mask's list are its lanes. -/
theorem getLsbD_lanesMask (ls : List Nat) {i : Nat} (h : i < 128) : (lanesMask ls).getLsbD i = true ↔ i ∈ ls := by
  induction ls with
  | nil => simp [lanesMask]
  | cons l ls ih =>
    rw [lanesMask, BitVec.getLsbD_or, Bool.or_eq_true, ih, BitVec.getLsbD_twoPow, List.mem_cons, Bool.and_eq_true,
      decide_eq_true_eq, decide_eq_true_eq, or_comm (a := i ∈ ls)]
    exact or_congr_left ⟨fun e => e.2.symm, fun e => ⟨e ▸ h, e.symm⟩⟩

/-- A register below a bound set, and one above it left out. -/
theorem getD_setBelow (b : Nat) (t : Tab Word) (x : Nat × Word) (k : Nat) :
    Tab.getD (if x.1 < b then Tab.set 0 t x.1 x.2 else t) k 0 = if k = x.1 ∧ k < b then x.2 else Tab.getD t k 0 := by
  by_cases hb : x.1 < b
  · rw [if_pos hb, Tab.getD_set]
    exact if_congr ⟨fun e => ⟨e, e ▸ hb⟩, And.left⟩ rfl rfl
  · rw [if_neg hb, if_neg fun ⟨e, h⟩ => hb (e ▸ h)]

/-- Words set in the registers from `base` on that lie below a bound. -/
theorem getD_setWords (b base : Nat) (f : Nat → Word) (k : Nat) : ∀ n,
    Tab.getD (((List.range n).map (fun i => (base + i, f i))).foldl
      (fun (t : Tab Word) (x : Nat × Word) => if x.1 < b then Tab.set 0 t x.1 x.2 else t) []) k 0
      = if (base ≤ k ∧ k < base + n) ∧ k < b then f (k - base) else 0
  | 0 => (if_neg (by omega)).symm
  | n + 1 => by
    rw [List.range_succ, List.map_append, List.foldl_append, List.map_singleton, List.foldl_cons, List.foldl_nil,
      getD_setBelow, getD_setWords b base f k n]
    by_cases last : k = base + n
    · simp [last]
    · have : (base ≤ k ∧ k < base + (n + 1)) ↔ base ≤ k ∧ k < base + n := by omega
      simp only [last, this, false_and, if_false]

/-- The scalar registers of a kernel node's group: the argument words from s16 on, and zeros (R30). -/
theorem State.firstScalars_node {s : State} {l : Launch} (src : l.src = .node) (number k : Nat) (h : k < l.obj.sregs) :
    Tab.getD (s.firstScalars l number) k 0
      = if k < 16 then 0 else BitVec.ofNat 32 (leNat ((l.args.drop (4 * (k - 16))).take 4)) := by
  have words : s.firstScalars l number = ((List.range ((l.args.length + 3) / 4)).map (fun i =>
      (16 + i, BitVec.ofNat 32 (leNat ((l.args.drop (4 * i)).take 4))))).foldl
        (fun (t : Tab Word) (x : Nat × Word) => if x.1 < l.obj.sregs then Tab.set 0 t x.1 x.2 else t) [] := by
    simp [State.firstScalars, State.recAddr, src, Tab.set, Tab.erase]
  rw [words, getD_setWords]
  by_cases low : k < 16
  · rw [if_pos low, if_neg (by omega)]
  · rw [if_neg low]
    by_cases listed : k < 16 + (l.args.length + 3) / 4
    · rw [if_pos (by omega)]
    · rw [if_neg (by omega), List.drop_eq_nil_of_le (by omega)]
      rfl

/-- A group as R30 gives it to a team of a kernel node, but for the slot of its core and its first clause's priority. -/
def State.firstGroup (s : State) (team number role : Nat) (r : Role) : Group :=
  let t := s.team team
  let l := s.launch t.launch
  let g : Group :=
    { team := team, part := t.part, ctx := t.ctx, queue := t.queue, number := number, role := role, core := t.core
      gslot := (s.freeSlots t.core).headD 0, lanes := poolLanes t.helm, vregs := r.vregs, sregs := t.obj.sregs
      vec := l.firstVectors number, scl := s.firstScalars l number, detlevel := t.detlevel
      seed := (s.context t.part t.ctx).seed }
  { g with frontier := [⟨r.entry, s.prioAt g false r.entry, lanesMask (List.range (poolLanes l.helm)), false⟩] }

theorem State.startGroup_node {s : State} {team : Nat} (src : (s.launch (s.team team).launch).src = .node)
    (number role : Nat) (r : Role) : s.startGroup team number role r
      = (({ s with groups := Tab.put s.groups s.fresh (s.firstGroup team number role r) } : State).tick.modTeam team
          (fun t => { t with groups := t.groups ++ [s.fresh] })).becomeReady s.fresh := by
  have lanes : ∀ helm, (List.range (poolLanes helm)).isEmpty = false := by decide
  simp only [State.startGroup, Launch.activeLanes, src, lanes, Bool.false_eq_true, if_false]
  rfl

theorem State.team_of_get? {s : State} {k : Nat} {x : Team} (h : Tab.get? s.teams k = some x) : s.team k = x := by
  simp [State.team, Tab.getD, h]

section
variable {s : State} {team : Nat} (src : (s.launch (s.team team).launch).src = .node) (number role : Nat) (r : Role)
include src

/-- A start lists the group under the next number and among its team's, and changes no other group. -/
theorem State.startGroup_listed :
    Tab.get? (s.startGroup team number role r).groups s.fresh = some (s.firstGroup team number role r)
      ∧ Tab.get? (s.startGroup team number role r).teams team
        = (Tab.get? s.teams team).map (fun t => { t with groups := t.groups ++ [s.fresh] })
      ∧ ∀ j, j ≠ s.fresh → Tab.get? (s.startGroup team number role r).groups j = Tab.get? s.groups j := by
  rw [State.startGroup_node src, State.becomeReady_frame]
  refine ⟨?_, (Tab.get?_modify s.teams team team _).trans (if_pos rfl), fun j hj => ?_⟩
  · exact (Tab.get?_put s.groups s.fresh s.fresh _).trans (if_pos rfl)
  · exact (Tab.get?_put s.groups s.fresh j _).trans (if_neg hj)

theorem State.firstGroup_readV (k i : Nat) : (s.firstGroup team number role r).readV k i = 0 := by
  simp [State.firstGroup, Group.readV, Launch.firstVectors, src]

theorem State.firstGroup_readS {k : Nat} (h : k < (s.launch (s.team team).launch).obj.sregs) :
    (s.firstGroup team number role r).readS k = if k < 16 then 0
      else BitVec.ofNat 32 (leNat (((s.launch (s.team team).launch).args.drop (4 * (k - 16))).take 4)) :=
  State.firstScalars_node src number k h

end

end Sys2Proof.Machine
end

section
/-!
SUPPORT and O56. The end of an operation, launches of work graphs and the sealing of blocks (R86, R87, R91, R95).
-/

namespace Sys2Proof.Machine

open Sys2Proof.Claims

/-! ### The end of an operation -/

theorem Group.flagOps_endOp (g : Group) (o : Op) (id y : Nat) :
    (g.endOp o id).flagOps y = if o.flag = some y then (g.flagOps y).filter (· != id) else g.flagOps y := by
  cases hf : o.flag with
  | none => simp [Group.endOp, Group.flagOps, hf]
  | some f =>
    simp only [Group.endOp, Group.flagOps, hf, Tab.getD_set, Option.some.injEq, eq_comm (a := y)]
    split
    case isTrue h => rw [h]
    case isFalse => rfl

/-- A listed operation completes. -/
theorem State.finishOp_ended {s : State} {id : Nat} {o : Op} (listed : Tab.get? s.ops id = some o) :
    Ended s (s.finishOp id) id o := by
  have eq : s.finishOp id = { s.modGroup o.group (fun g => g.endOp o id) with ops := Tab.erase s.ops id } := by
    rw [State.finishOp, listed]
  have own : Tab.get? (s.finishOp id).groups o.group = (Tab.get? s.groups o.group).map (fun g => g.endOp o id) := by
    rw [eq]
    exact (Tab.get?_modify s.groups o.group o.group _).trans (if_pos rfl)
  have group : (s.finishOp id).group o.group = (s.group o.group).endOp o id
      ∨ ((s.finishOp id).group o.group = {} ∧ s.group o.group = {}) := by
    cases h : Tab.get? s.groups o.group with
    | none => exact .inr (by simp [State.group, Tab.getD, own, h])
    | some g => exact .inl (by simp [State.group, Tab.getD, own, h])
  refine ⟨by rw [eq]; simp [Tab.get?_erase], fun j hj => by rw [eq]; simp [Tab.get?_erase, hj],
    fun j hj => by rw [eq]; exact (Tab.get?_modify s.groups o.group j _).trans (if_neg hj), ?flag, ?pending, ?same⟩
  case flag =>
    intro y
    rcases group with g | ⟨t, e⟩
    · rw [g, Group.flagOps_endOp]
    · rw [t, e]
      exact (ite_self _).symm
  case pending =>
    rcases group with g | ⟨t, e⟩
    · rw [g]; rfl
    · rw [t, e]; rfl
  case same =>
    rcases group with g | ⟨t, e⟩
    · rw [g]; rfl
    · rw [t, e]

/-- The end of an operation leaves every table but those of operations and groups. -/
theorem State.finishOp_frame (s : State) (id : Nat) :
    s.finishOp id = { s with groups := (s.finishOp id).groups, ops := (s.finishOp id).ops } := by
  unfold State.finishOp
  split <;> rfl

theorem State.ctxEvent_ops (s : State) (part ctx code info addr : Nat) (data : List Byte) :
    (s.ctxEvent part ctx code info addr data).ops = s.ops := by
  rw [State.ctxEvent]
  split <;> rfl

/-! ### Launches of work graphs (R86, R87) -/

/-- The engine that checks a launch packet: the scheduler of the issuing group's die. -/
def State.wgEng (s : State) (op : Nat) (x : Op) : Eng :=
  { unit := queueTransUnit (coreDie (s.group x.group).core), part := x.part, ctx := x.ctx, who := op
    die := coreDie (s.group x.group).core }

/-- Its check of the packet. -/
def State.wgCheck (s : State) (op : Nat) (x : Op) (pkt : List Byte) : Verdict WInst :=
  s.checkWg (s.wgEng op x) (s.queue x.part (s.group x.group).queue) (s.group x.group).queue (s.group x.group).detlevel pkt

/-- The state with a launched work graph listed under the next number. -/
def State.addInst (s : State) (w : WInst) : State := ({ s with insts := Tab.put s.insts s.fresh w } : State).tick

section
variable {s : State} {op : Nat} {x : Op} {pkt : List Byte} (listed : Tab.get? s.ops op = some x)
  (body : x.body = .launchWg pkt) (unhalted : (s.func x.part).halted = false)
  (runs : (s.context x.part x.ctx).saved = false)
include listed body unhalted runs

theorem execWgLaunchAccept_refused {c sub : Nat} (check : s.wgCheck op x pkt = .no (c, sub)) :
    execWgLaunchAccept op s
      = .next (((s.engDone (s.wgEng op x)).ctxEvent x.part x.ctx 1 (c + 65536 * sub) 0).finishOp op) := by
  rw [State.wgCheck, State.wgEng] at check
  simp only [execWgLaunchAccept, listed, body, unhalted, runs, check, Bool.or_self, Bool.false_eq_true, if_false]
  rfl

/-- An accepted launch is listed; it starts where none of its graph is pending. -/
theorem execWgLaunchAccept_accepted {w : WInst} (check : s.wgCheck op x pkt = .ok w) :
    let u := (s.engDone (s.wgEng op x)).finishOp op
    execWgLaunchAccept op s = .next
      (if u.insts.any (fun y => y.2.part == w.part && y.2.ctx == w.ctx && y.2.addr == w.addr) then u.addInst w
       else ((u.addInst w).startInst u.fresh).settleInst u.fresh) := by
  rw [State.wgCheck, State.wgEng] at check
  simp only [execWgLaunchAccept, listed, body, unhalted, runs, check, Bool.or_self, Bool.false_eq_true, if_false]
  rfl

end

/-- Whether a launch of the same graph is pending (R87). -/
theorem any_pending_iff (t : Tab WInst) (w : WInst) :
    t.any (fun y => y.2.part == w.part && y.2.ctx == w.ctx && y.2.addr == w.addr) = true
      ↔ ∃ y ∈ t, y.2.part = w.part ∧ y.2.ctx = w.ctx ∧ y.2.addr = w.addr := by
  simp only [List.any_eq_true, Bool.and_eq_true, beq_iff_eq, and_assoc]

theorem State.inst_of_get? {s : State} {i : Nat} {w : WInst} (h : Tab.get? s.insts i = some w) : s.inst i = w := by
  simp [State.inst, Tab.getD, h]

theorem State.inst_put (s : State) (i n : Nat) (w : WInst) :
    ({ s with insts := Tab.put s.insts i w, fresh := n } : State).inst i = w :=
  State.inst_of_get? (by rw [Tab.get?_put, if_pos rfl])

theorem State.oneEntry_modInst {s : State} {i : Nat} {w : WInst} (h : Tab.get? s.insts i = some w) (f : WInst → WInst) :
    oneEntry s.insts (s.modInst i f).insts i (some (f w)) :=
  ⟨by rw [State.modInst_insts, Tab.get?_modify, if_pos rfl, h, Option.map_some],
   fun j hj => by rw [State.modInst_insts, Tab.get?_modify, if_neg hj]⟩

/-- A held launch with teams starts: it runs, and its entry launch is accepted (R87). -/
theorem State.startInst_eq {s : State} {i : Nat} {w : WInst} (h : Tab.get? s.insts i = some w) (teams : w.x * w.y * w.z ≠ 0) :
    s.startInst i = (s.modInst i (fun w => { w with running := true })).addLaunch (w.entryLaunch i) := by
  rw [State.startInst, State.inst_of_get? h]
  exact if_neg teams

/-! ### A block sealed by its timeout (R91, R95) -/

theorem WInst.block_putBlock (w : WInst) (b c : Nat) (x : Block) :
    (w.putBlock b x).block c = if c = b then x else w.block c :=
  Tab.getD_set (α := Block) {} w.blocks b c x

/-- An OPEN block of a node at level 0 is sealed once its TIMEOUT has passed since its first commit. -/
theorem execBlockTimeoutSeal_due {s : State} {i b m : Nat} {w : WInst} (h : Tab.get? s.insts i = some w)
    (opened : (w.block b).state = .opened) (first : (w.block b).first = some m) (level : w.det = 0)
    (timed : 0 < (w.node (w.block b).node).timeout) (due : (w.node (w.block b).node).timeout ≤ s.now - m)
    (runs : (s.context w.part w.ctx).saved = false) (unhalted : (s.func w.part).halted = false) :
    execBlockTimeoutSeal i (w.block b).node b s = .next ((s.sealBlock i b).settleInst i) := by
  have hw := State.inst_of_get? h
  simp [execBlockTimeoutSeal, hw, opened, first, level, Nat.ne_of_gt timed, Nat.not_lt.2 due, runs, unhalted]

/-- A block as it is sealed: it takes the next batch number of its node. -/
def WInst.sealedBlock (w : WInst) (b order : Nat) : Block :=
  { w.block b with state := .sealed, order := order, seq := (w.node (w.block b).node).seq }

/-- The work graph with a block sealed. -/
def WInst.sealed (w : WInst) (b order : Nat) : WInst :=
  { w.putBlock b (w.sealedBlock b order) with
    nodes := w.nodes.modify (w.block b).node (fun x => { x with seq := x.seq + 1 }) }

theorem WInst.block_sealed (w : WInst) (b order c : Nat) :
    (w.sealed b order).block c = if c = b then w.sealedBlock b order else w.block c :=
  w.block_putBlock b c (w.sealedBlock b order)

theorem State.modInst_eq {s : State} {i : Nat} {w : WInst} (h : Tab.get? s.insts i = some w) (f : WInst → WInst) :
    s.modInst i f = { s with insts := Tab.put s.insts i (f w) } := by
  simp only [State.modInst, Tab.modify, h]

/-- A block with commits outstanding does not become READY. -/
theorem State.checkReady_outstanding {s : State} {i b : Nat}
    (h : ((s.inst i).block b).commits.length < ((s.inst i).block b).count) : s.checkReady i b = s := by
  simp [State.checkReady, h]

/-- A block sealed with commits outstanding waits for them. -/
theorem State.sealBlock_outstanding {s : State} {i b : Nat} {w : WInst} (h : Tab.get? s.insts i = some w)
    (outstanding : (w.block b).commits.length < (w.block b).count) :
    s.sealBlock i b = { s with insts := Tab.put s.insts i (w.sealed b s.fresh), fresh := s.fresh + 1 } := by
  have waits := State.checkReady_outstanding (i := i) (b := b)
    (s := { s with insts := Tab.put s.insts i (w.sealed b s.fresh), fresh := s.fresh + 1 })
    (by rw [State.inst_put, WInst.block_sealed, if_pos rfl]; exact outstanding)
  rw [State.sealBlock, State.inst_of_get? h, State.modInst_eq h]
  exact waits

end Sys2Proof.Machine

namespace Sys2Proof.Claims

open Sys2Proof.Machine

/-- Settles O56: a reservation by what it leaves in its tables, the choice of a unit by its order, the start of a group by the
record it lists, and a launch of a work graph by the verdict on its packet. -/
theorem placement : Obligations.Placement := by
  unfold Obligations.Placement
  refine ⟨fun s gid unit cores t waits target allowed reserved kept first =>
      execGangServed_first waits (State.serve_eq target allowed reserved kept) first,
    fun s gid unit c cores plain length => State.reserve_placed plain length, fun s l us u best => ?units,
    fun s o cands c => s.assignCores_one o cands c, fun s o core k => s.coreFits_iff o core k,
    fun s a b => ⟨State.servedBefore_higher, State.servedBefore_lower, State.servedBefore_equal⟩,
    fun s gid => ?loaded, fun s team number role r x listed src _ regs => ?started, fun s gid unit => ?held,
    fun s gid unit k held other => State.fitOn_held held other, fun s op x pkt listed body _ => ?launched,
    fun s i w listed teams => ⟨_, State.startInst_eq listed teams, rfl, State.oneEntry_modInst listed _⟩,
    fun s i w b x m listed hx opened first level timed due runs unhalted => ?sealed⟩
  case units =>
    obtain ⟨mem, least⟩ := State.bestUnit_spec best
    exact ⟨mem, fun v hv => (s.atLeast_iff l u v).1 (least v hv)⟩
  case loaded =>
    intro g l loading runs unhalted new
    have frame := s.markLoaded_frame g.teams
    refine ⟨_, execCodeLoadComplete_new loading runs unhalted new, by rw [frame]; rfl, ?_, fun t ht c hc => ?_⟩
    · rw [State.gang_modGang (by rw [frame]; exact State.listed_of_loading loading)]
    · exact State.markLoaded_loaded _ s (.inl (List.mem_map_of_mem ht)) hc
  case started =>
    intro l n pool
    obtain rfl := State.team_of_get? listed
    obtain ⟨group, teams, others⟩ := State.startGroup_listed src number role r
    have lanes : poolLanes l.helm = n := by rw [← pool]; rfl
    refine ⟨_, _, rfl, group, by rw [teams, listed]; rfl, others, rfl, rfl, rfl, rfl, rfl, rfl, rfl, rfl, rfl, rfl, rfl, rfl,
      ⟨_, _, rfl, fun i hi => ?_⟩, fun p i hp => ?_, fun k => ⟨rfl, rfl⟩, rfl, rfl,
      fun k i _ => State.firstGroup_readV src number role r k i,
      fun k hk => State.firstGroup_readS src number role r (hk.trans_le regs), rfl, rfl, rfl, rfl⟩
    · rw [Bool.eq_iff_iff, getLsbD_lanesMask _ hi, List.mem_range, lanes, decide_eq_true_eq]
    · simp [Group.pred, State.firstGroup, hp]
  case held =>
    intro l waits long target free oldest
    exact ⟨_, execPlacementHold_oldest waits long target free oldest, rfl, oneEntry_put s.holds _ gid⟩
  case launched =>
    intro g die e check unhalted runs
    refine ⟨fun c sub no => ?_, fun w ok => ?_⟩
    · exact ⟨_, execWgLaunchAccept_refused listed body unhalted runs no,
        State.finishOp_ended (by rw [State.ctxEvent_ops]; exact listed)⟩
    · have insts : ((s.engDone e).finishOp op).insts = s.insts := by rw [State.finishOp_frame]; rfl
      have accepted := execWgLaunchAccept_accepted listed body unhalted runs ok
      refine ⟨(s.engDone e).finishOp op, ((s.engDone e).finishOp op).addInst w, State.finishOp_ended listed, rfl,
        oneEntry_put _ _ w, fun pending => accepted.trans ?_, fun idle => accepted.trans ?_⟩
      · exact congrArg _ (if_pos ((any_pending_iff _ w).2 (insts ▸ pending)))
      · refine congrArg _ (if_neg fun any => ?_)
        obtain ⟨y, hy, same⟩ := (any_pending_iff _ w).1 any
        exact idle y (insts ▸ hy) same
  case sealed =>
    subst hx
    refine ⟨execBlockTimeoutSeal_due listed opened first level timed due runs unhalted, fun outstanding => ?_⟩
    refine ⟨_, State.sealBlock_outstanding listed outstanding, rfl, ?_⟩
    rw [State.inst_put, WInst.block_sealed, if_pos rfl]
    exact ⟨rfl, fun c hc => by rw [WInst.block_sealed, if_neg hc], rfl⟩

end Sys2Proof.Claims
end

section
/-!
SUPPORT. The code of each modifier, and what reads it back out of a field.
-/

namespace Sys2Proof

/-! ### Modifiers: each is read back from its code, and its code is small -/

@[simp] theorem Cond.ofCode_code (t : Cond) : Cond.ofCode t.code = some t := by cases t <;> rfl

@[simp] theorem Cond.code_lt {n : Nat} (t : Cond) (h : 5 < n) : t.code < n := by
  cases t <;> simp only [Cond.code] <;> omega

@[simp] theorem FCond.ofCode_code (t : FCond) : FCond.ofCode t.code = some t := by cases t <;> rfl

@[simp] theorem FCond.code_lt {n : Nat} (t : FCond) (h : 7 < n) : t.code < n := by
  cases t <;> simp only [FCond.code] <;> omega

@[simp] theorem Combine.ofCode_code (t : Combine) : Combine.ofCode t.code = some t := by cases t <;> rfl

@[simp] theorem Combine.code_lt {n : Nat} (t : Combine) (h : 3 < n) : t.code < n := by
  cases t <;> simp only [Combine.code] <;> omega

@[simp] theorem IntTy.ofCode_code (t : IntTy) : IntTy.ofCode t.code = some t := by cases t <;> rfl

@[simp] theorem IntTy.code_lt {n : Nat} (t : IntTy) (h : 7 < n) : t.code < n := by
  cases t <;> simp only [IntTy.code] <;> omega

@[simp] theorem Fmt.ofCode_code (t : Fmt) : Fmt.ofCode t.code = some t := by cases t <;> rfl

@[simp] theorem Fmt.code_lt {n : Nat} (t : Fmt) (h : 7 < n) : t.code < n := by
  cases t <;> simp only [Fmt.code] <;> omega

@[simp] theorem RMode.ofCode_code (t : RMode) : RMode.ofCode t.code = some t := by cases t <;> rfl

@[simp] theorem RMode.code_lt {n : Nat} (t : RMode) (h : 4 < n) : t.code < n := by
  cases t <;> simp only [RMode.code] <;> omega

@[simp] theorem XTy.ofCode_code (t : XTy) : XTy.ofCode t.code = some t := by cases t <;> rfl

@[simp] theorem XTy.code_lt {n : Nat} (t : XTy) (h : 6 < n) : t.code < n := by
  cases t <;> simp only [XTy.code] <;> omega

@[simp] theorem XTest.ofCode_code (t : XTest) : XTest.ofCode t.code = some t := by cases t <;> rfl

@[simp] theorem XTest.code_lt {n : Nat} (t : XTest) (h : 3 < n) : t.code < n := by
  cases t <;> simp only [XTest.code] <;> omega

@[simp] theorem Counter.ofCode_code (t : Counter) : Counter.ofCode t.code = some t := by cases t <;> rfl

@[simp] theorem Counter.code_lt {n : Nat} (t : Counter) (h : 4 < n) : t.code < n := by
  cases t <;> simp only [Counter.code] <;> omega

@[simp] theorem ShflMode.ofCode_code (t : ShflMode) : ShflMode.ofCode t.code = some t := by cases t <;> rfl

@[simp] theorem ShflMode.code_lt {n : Nat} (t : ShflMode) (h : 3 < n) : t.code < n := by
  cases t <;> simp only [ShflMode.code] <;> omega

@[simp] theorem VoteMode.ofCode_code (t : VoteMode) : VoteMode.ofCode t.code = some t := by cases t <;> rfl

@[simp] theorem VoteMode.code_lt {n : Nat} (t : VoteMode) (h : 2 < n) : t.code < n := by
  cases t <;> simp only [VoteMode.code] <;> omega

@[simp] theorem LaneOp.ofCode_code (t : LaneOp) : LaneOp.ofCode t.code = some t := by cases t <;> rfl

@[simp] theorem LaneOp.code_lt {n : Nat} (t : LaneOp) (h : 5 < n) : t.code < n := by
  cases t <;> simp only [LaneOp.code] <;> omega

@[simp] theorem LaneTy.ofCode_code (t : LaneTy) : LaneTy.ofCode t.code = some t := by cases t <;> rfl

@[simp] theorem LaneTy.code_lt {n : Nat} (t : LaneTy) (h : 2 < n) : t.code < n := by
  cases t <;> simp only [LaneTy.code] <;> omega

@[simp] theorem Lvl.ofCode_code (t : Lvl) : Lvl.ofCode t.code = some t := by cases t <;> rfl

@[simp] theorem Lvl.code_lt {n : Nat} (t : Lvl) (h : 2 < n) : t.code < n := by
  cases t <;> simp only [Lvl.code] <;> omega

@[simp] theorem TEnd.ofCode_code (t : TEnd) : TEnd.ofCode t.code = some t := by cases t <;> rfl

@[simp] theorem TEnd.code_lt {n : Nat} (t : TEnd) (h : 4 < n) : t.code < n := by
  cases t <;> simp only [TEnd.code] <;> omega

@[simp] theorem LdSize.ofCode_code (t : LdSize) : LdSize.ofCode t.code = some t := by cases t <;> rfl

@[simp] theorem LdSize.code_lt {n : Nat} (t : LdSize) (h : 7 < n) : t.code < n := by
  cases t <;> simp only [LdSize.code] <;> omega

@[simp] theorem StSize.ofCode_code (t : StSize) : StSize.ofCode t.code = some t := by cases t <;> rfl

@[simp] theorem StSize.code_lt {n : Nat} (t : StSize) (h : 5 < n) : t.code < n := by
  cases t <;> simp only [StSize.code] <;> omega

@[simp] theorem FeLd.ofCode_code (t : FeLd) : FeLd.ofCode t.code = some t := by cases t <;> rfl

@[simp] theorem FeLd.code_lt {n : Nat} (t : FeLd) (h : 2 < n) : t.code < n := by
  cases t <;> simp only [FeLd.code] <;> omega

@[simp] theorem FeSt.ofCode_code (t : FeSt) : FeSt.ofCode t.code = some t := by cases t <;> rfl

@[simp] theorem FeSt.code_lt {n : Nat} (t : FeSt) (h : 2 < n) : t.code < n := by
  cases t <;> simp only [FeSt.code] <;> omega

@[simp] theorem AtomsOp.ofCode_code (t : AtomsOp) : AtomsOp.ofCode t.code = some t := by cases t <;> rfl

@[simp] theorem AtomsOp.code_lt {n : Nat} (t : AtomsOp) (h : 8 < n) : t.code < n := by
  cases t <;> simp only [AtomsOp.code] <;> omega

@[simp] theorem AtomOp.ofCode_code (t : AtomOp) : AtomOp.ofCode t.code = some t := by cases t <;> rfl

@[simp] theorem AtomOp.code_lt {n : Nat} (t : AtomOp) (h : 9 < n) : t.code < n := by
  cases t <;> simp only [AtomOp.code] <;> omega

@[simp] theorem AtomvOp.ofCode_code (t : AtomvOp) : AtomvOp.ofCode t.code = some t := by cases t <;> rfl

@[simp] theorem AtomvOp.code_lt {n : Nat} (t : AtomvOp) (h : 5 < n) : t.code < n := by
  cases t <;> simp only [AtomvOp.code] <;> omega

@[simp] theorem AtomcW.ofCode_code (t : AtomcW) : AtomcW.ofCode t.code = some t := by cases t <;> rfl

@[simp] theorem AtomcW.code_lt {n : Nat} (t : AtomcW) (h : 2 < n) : t.code < n := by
  cases t <;> simp only [AtomcW.code] <;> omega

@[simp] theorem Ord.ofCode_code (t : Ord) : Ord.ofCode t.code = some t := by cases t <;> rfl

@[simp] theorem Ord.code_lt {n : Nat} (t : Ord) (h : 3 < n) : t.code < n := by
  cases t <;> simp only [Ord.code] <;> omega

@[simp] theorem Scope.ofCode_code (t : Scope) : Scope.ofCode t.code = some t := by cases t <;> rfl

@[simp] theorem Scope.code_lt {n : Nat} (t : Scope) (h : 4 < n) : t.code < n := by
  cases t <;> simp only [Scope.code] <;> omega

@[simp] theorem BufState.ofCode_code (t : BufState) : BufState.ofCode t.code = some t := by cases t <;> rfl

@[simp] theorem BufState.code_lt {n : Nat} (t : BufState) (h : 3 < n) : t.code < n := by
  cases t <;> simp only [BufState.code] <;> omega

@[simp] theorem MmaTy.ofCode_code (t : MmaTy) : MmaTy.ofCode t.code = some t := by cases t <;> rfl

@[simp] theorem MmaTy.code_lt {n : Nat} (t : MmaTy) (h : 4 < n) : t.code < n := by
  cases t <;> simp only [MmaTy.code] <;> omega

@[simp] theorem StoTy.ofCode_code (t : StoTy) : StoTy.ofCode t.code = some t := by cases t <;> rfl

@[simp] theorem StoTy.code_lt {n : Nat} (t : StoTy) (h : 4 < n) : t.code < n := by
  cases t <;> simp only [StoTy.code] <;> omega

@[simp] theorem SampLvl.ofCode_code (t : SampLvl) : SampLvl.ofCode t.code = some t := by cases t <;> rfl

@[simp] theorem SampLvl.code_lt {n : Nat} (t : SampLvl) (h : 3 < n) : t.code < n := by
  cases t <;> simp only [SampLvl.code] <;> omega

@[simp] theorem WcntKind.ofCode_code (t : WcntKind) : WcntKind.ofCode t.code = some t := by cases t <;> rfl

@[simp] theorem WcntKind.code_lt {n : Nat} (t : WcntKind) (h : 2 < n) : t.code < n := by
  cases t <;> simp only [WcntKind.code] <;> omega

@[simp] theorem WaitmKind.ofCode_code (t : WaitmKind) : WaitmKind.ofCode t.code = some t := by cases t <;> rfl

@[simp] theorem WaitmKind.code_lt {n : Nat} (t : WaitmKind) (h : 2 < n) : t.code < n := by
  cases t <;> simp only [WaitmKind.code] <;> omega

@[simp] theorem bitNat_le {n : Nat} (b : Bool) (h : 1 ≤ n) : bitNat b ≤ n := by
  cases b <;> simp [bitNat, h]

@[simp] theorem bitNat_lt {n : Nat} (b : Bool) (h : 1 < n) : bitNat b < n :=
  (bitNat_le b le_rfl).trans_lt h

@[simp] theorem natBit_bitNat (b : Bool) : natBit (bitNat b) 0 = b := by cases b <;> rfl

@[simp] theorem optQCode_lt {n : Nat} (q : Option (BitVec 4)) (h : 31 < n) : optQCode q < n := by
  cases q <;> simp only [optQCode] <;> omega

@[simp] theorem optQOf_optQCode (q : Option (BitVec 4)) : optQOf (optQCode q) = q := by
  rcases q with _ | q
  · rfl
  · have valid : natBit (q.toNat + 16) 4 = true := by simp only [natBit, beq_iff_eq]; omega
    simp only [optQOf, optQCode, valid, if_true, Option.some.injEq]
    exact BitVec.eq_of_toNat_eq (by simp; omega)

@[simp] theorem optScopeOf_optScopeCode (s : Option Scope) : optScopeOf s.isSome (optScopeCode s) = some s := by
  cases s <;> simp [optScopeOf, optScopeCode]

theorem optScopeCode_lt {n : Nat} (s : Option Scope) (h : 4 < n) : optScopeCode s < n := by
  cases s <;> simp only [optScopeCode, Scope.code_lt, h]; omega

theorem toNat_lt {w n : Nat} (v : BitVec w) (h : 2 ^ w ≤ n) : v.toNat < n := v.isLt.trans_le h

/-! ### Fields of a sum whose terms stand in disjoint ranges

A modifier field is a sum `a + c * k` of digits, the last the highest. A read below the last digit passes over it
(`…_peel`), and a read of the last digit finds it where the rest is below its weight (`…_top`). -/

theorem radix_lt {a c k n : Nat} (ha : a < c) (hk : k < n / c) : a + c * k < n := by
  have bound : c * (k + 1) ≤ n := (Nat.mul_le_mul_left c hk).trans (Nat.mul_div_le n c)
  linarith [Nat.mul_succ c k]

theorem radix_lt2 {a b k c d n : Nat} (ha : a < c) (hb : b < d / c) (hk : k < n / d) : a + c * b + d * k < n :=
  radix_lt (radix_lt ha hb) hk

theorem radix_lt3 {a b b' k c d d' n : Nat} (ha : a < c) (hb : b < d / c) (hb' : b' < d' / d) (hk : k < n / d') :
    a + c * b + d * b' + d' * k < n :=
  radix_lt (radix_lt2 ha hb hb') hk

theorem radix_lt4 {a b b' b'' k c d d' d'' n : Nat} (ha : a < c) (hb : b < d / c) (hb' : b' < d' / d)
    (hb'' : b'' < d'' / d') (hk : k < n / d'') : a + c * b + d * b' + d' * b'' + d'' * k < n :=
  radix_lt (radix_lt3 ha hb hb' hb'') hk

theorem scaled_lt {c k n : Nat} (hc : 0 < c) (hk : k < n / c) : c * k < n := by
  simpa using radix_lt hc hk

theorem mod_peel {a c k n : Nat} (h : c % n = 0) : (a + c * k) % n = a % n := by
  rw [Nat.add_mod, Nat.mul_mod, h, Nat.zero_mul, Nat.zero_mod, Nat.add_zero, Nat.mod_mod]

theorem div_mod_peel {a c n k t : Nat} (h : c % (n * k) = 0) : (a + c * t) / n % k = a / n % k := by
  rw [← Nat.mod_mul_right_div_self, mod_peel h, Nat.mod_mul_right_div_self]

theorem div_top {a c t : Nat} (h : a < c) : (a + c * t) / c = t := by
  rw [Nat.add_mul_div_left _ _ (Nat.zero_lt_of_lt h), Nat.div_eq_of_lt h, Nat.zero_add]

theorem natBit_peel {a c i k : Nat} (h : c % 2 ^ (i + 1) = 0) : natBit (a + c * k) i = natBit a i := by
  rw [natBit, natBit, div_mod_peel (by rwa [← Nat.pow_succ])]

theorem natBit_top {a c i : Nat} {b : Bool} (hc : 2 ^ i = c) (h : a < c) : natBit (a + c * bitNat b) i = b := by
  rw [natBit, hc, div_top h]
  cases b <;> rfl

theorem natBit_only {c i : Nat} {b : Bool} (hc : 2 ^ i = c) : natBit (c * bitNat b) i = b := by
  simpa using natBit_top (a := 0) hc (hc ▸ Nat.two_pow_pos i)

theorem ofNat_peel {w a c k : Nat} (h : c % 2 ^ w = 0) : BitVec.ofNat w (a + c * k) = BitVec.ofNat w a :=
  BitVec.eq_of_toNat_eq (by rw [BitVec.toNat_ofNat, BitVec.toNat_ofNat, mod_peel h])

theorem ofNat_div_peel {w a c n k : Nat} (h : c % (n * 2 ^ w) = 0) :
    BitVec.ofNat w ((a + c * k) / n) = BitVec.ofNat w (a / n) :=
  BitVec.eq_of_toNat_eq (by rw [BitVec.toNat_ofNat, BitVec.toNat_ofNat, div_mod_peel h])

end Sys2Proof
end

section
/-!
SUPPORT. The encoding table read in both directions: the operation that a form's own fields name is the instruction of
the form, and each operation that a word names is a row of the table.
-/

namespace Sys2Proof

/-- E and X of a word carry what a form puts there: its immediate in X, or its modifiers in E (R36, R187). -/
def Form.Carries (f : Form) (e x : Nat) : Prop :=
  (f.imm = none → f.eN = false → e = f.e) ∧ ∀ v, f.imm = some v → x = v

/-! ### From the instruction to the operation of its word

One lemma per family of opcodes. An instruction of another family contradicts the range; for one of this family the line of its
operation is evaluated (`whnf`), and each field that the line reads is the digit that the form puts there. -/

theorem partsControl_of_form {i : Instr} {f : Form} {e x : Nat} (h : i.form = some f)
    (range : f.op < 0x040) (fields : f.Carries e x) : (partsControl f.op f.m e x).map (· f.slot) = some i := by
  obtain ⟨he, hx⟩ := fields
  cases i <;> cases h
  all_goals try exact absurd range (of_decide_eq_false rfl)
  all_goals clear range; simp at he hx; try subst_vars
  all_goals
    conv_lhs => arg 2; whnf
    simp (disch := simp [radix_lt, radix_lt2, radix_lt3, toNat_lt, optScopeCode_lt]) [Nat.mod_eq_of_lt]

theorem partsInteger_of_form {i : Instr} {f : Form} {e x : Nat} (h : i.form = some f)
    (range : 0x040 ≤ f.op ∧ f.op < 0x0C0) (fields : f.Carries e x) : (partsInteger f.op f.m e x).map (· f.slot) = some i := by
  obtain ⟨he, hx⟩ := fields
  cases i <;> cases h
  all_goals try exact absurd range (of_decide_eq_false rfl)
  all_goals clear range; simp at he hx; try subst_vars
  all_goals
    conv_lhs => arg 2; whnf
    simp (disch := simp [radix_lt, radix_lt2, radix_lt3, toNat_lt, optScopeCode_lt]) [mod_peel, div_mod_peel, div_top,
      natBit_peel, natBit_top, natBit_only, ofNat_peel, Nat.mod_eq_of_lt]

theorem partsFloat_of_form {i : Instr} {f : Form} {e x : Nat} (h : i.form = some f)
    (range : 0x0C0 ≤ f.op ∧ f.op < 0x140) (fields : f.Carries e x) : (partsFloat f.op f.m e x).map (· f.slot) = some i := by
  obtain ⟨he, hx⟩ := fields
  cases i <;> cases h
  all_goals try exact absurd range (of_decide_eq_false rfl)
  all_goals clear range; simp at he hx; try subst_vars
  all_goals
    conv_lhs => arg 2; whnf
    simp (disch := simp [radix_lt, radix_lt2, radix_lt3, toNat_lt, optScopeCode_lt]) [mod_peel, div_top,
      natBit_peel, natBit_top, natBit_only, Nat.mod_eq_of_lt]

theorem partsCrossLane_of_form {i : Instr} {f : Form} {e x : Nat} (h : i.form = some f)
    (range : 0x140 ≤ f.op ∧ f.op < 0x180) (fields : f.Carries e x) : (partsCrossLane f.op f.m e x).map (· f.slot) = some i := by
  obtain ⟨he, hx⟩ := fields
  cases i <;> cases h
  all_goals try exact absurd range (of_decide_eq_false rfl)
  all_goals clear range; simp at he hx; try subst_vars
  all_goals
    conv_lhs => arg 2; whnf
    simp (disch := simp [radix_lt, radix_lt2, radix_lt3, toNat_lt, optScopeCode_lt]) [mod_peel, div_mod_peel, div_top,
      natBit_peel, natBit_top, ofNat_div_peel, Nat.mod_eq_of_lt]

theorem partsGlobal_of_form {i : Instr} {f : Form} {e x : Nat} (h : i.form = some f)
    (range : 0x180 ≤ f.op ∧ f.op < 0x200) (fields : f.Carries e x) : (partsGlobal f.op f.m e x).map (· f.slot) = some i := by
  obtain ⟨he, hx⟩ := fields
  cases i <;> cases h
  all_goals try exact absurd range (of_decide_eq_false rfl)
  all_goals clear range; simp at he hx; try subst_vars
  all_goals
    conv_lhs => arg 2; whnf
    simp (disch := simp [radix_lt, radix_lt2, radix_lt3, toNat_lt, optScopeCode_lt]) [mod_peel, div_mod_peel, div_top,
      natBit_peel, natBit_top, Nat.mod_eq_of_lt]

theorem partsScratch_of_form {i : Instr} {f : Form} {e x : Nat} (h : i.form = some f)
    (range : 0x200 ≤ f.op ∧ f.op < 0x280) (fields : f.Carries e x) : (partsScratch f.op f.m e x).map (· f.slot) = some i := by
  obtain ⟨he, hx⟩ := fields
  cases i <;> cases h
  all_goals try exact absurd range (of_decide_eq_false rfl)
  all_goals clear range; simp at he hx; try subst_vars
  all_goals
    conv_lhs => arg 2; whnf
    simp (disch := simp [radix_lt, radix_lt2, radix_lt3, toNat_lt, optScopeCode_lt]) [mod_peel, div_mod_peel, div_top,
      natBit_peel, natBit_top, Nat.mod_eq_of_lt]

theorem partsMatrix_of_form {i : Instr} {f : Form} {e x : Nat} (h : i.form = some f)
    (range : 0x280 ≤ f.op ∧ f.op < 0x2C0) (fields : f.Carries e x) : (partsMatrix f.op f.m e x).map (· f.slot) = some i := by
  obtain ⟨he, hx⟩ := fields
  cases i <;> cases h
  all_goals try exact absurd range (of_decide_eq_false rfl)
  all_goals clear range; simp at he hx; try subst_vars
  case mscl.refl o clus => cases clus <;> simp [partsMatrix, bitNat, natBit]
  all_goals
    conv_lhs => arg 2; whnf
    simp (disch := simp [radix_lt, radix_lt2, radix_lt3, toNat_lt, optScopeCode_lt]) [mod_peel, div_mod_peel, div_top,
      natBit_top, ofNat_peel, Nat.mod_eq_of_lt]

theorem partsGraphics_of_form {i : Instr} {f : Form} {e x : Nat} (h : i.form = some f)
    (range : 0x2C0 ≤ f.op ∧ f.op < 0x300) (fields : f.Carries e x) : (partsGraphics f.op f.m e x).map (· f.slot) = some i := by
  obtain ⟨he, hx⟩ := fields
  cases i <;> cases h
  all_goals try exact absurd range (of_decide_eq_false rfl)
  all_goals clear range; simp at he hx; try subst_vars
  case emitPrim.refl o cullb => cases cullb <;> simp [partsGraphics, bitNat, natBit]
  all_goals
    conv_lhs => arg 2; whnf
    simp (disch := simp [radix_lt, radix_lt2, radix_lt3, toNat_lt, optScopeCode_lt]) [natBit_peel, natBit_top, Nat.mod_eq_of_lt]

theorem partsLaunch_of_form {i : Instr} {f : Form} {e x : Nat} (h : i.form = some f)
    (range : 0x300 ≤ f.op ∧ f.op < 0x340) (fields : f.Carries e x) : (partsLaunch f.op f.m e x).map (· f.slot) = some i := by
  obtain ⟨he, hx⟩ := fields
  cases i <;> cases h
  all_goals try exact absurd range (of_decide_eq_false rfl)
  all_goals clear range; simp at he hx; try subst_vars
  all_goals
    conv_lhs => arg 2; whnf
    simp (disch := simp [radix_lt, radix_lt2, radix_lt3, toNat_lt, optScopeCode_lt]) [div_top,
      natBit_peel, natBit_top, ofNat_peel, ofNat_div_peel, Nat.mod_eq_of_lt]

theorem partsSync_of_form {i : Instr} {f : Form} {e x : Nat} (h : i.form = some f)
    (range : 0x340 ≤ f.op ∧ f.op < 0x380) (fields : f.Carries e x) : (partsSync f.op f.m e x).map (· f.slot) = some i := by
  obtain ⟨he, hx⟩ := fields
  cases i <;> cases h
  all_goals try exact absurd range (of_decide_eq_false rfl)
  all_goals clear range; simp at he hx; try subst_vars
  all_goals
    conv_lhs => arg 2; whnf
    simp (disch := simp [radix_lt, radix_lt2, radix_lt3, toNat_lt, optScopeCode_lt]) [div_top,
      natBit_peel, natBit_top, Nat.mod_eq_of_lt]

/-- What a form's own fields name is the instruction of the form. -/
theorem instrParts_of_form {i : Instr} {f : Form} {e x : Nat} (h : i.form = some f) (assigned : f.op < 0x380)
    (fields : f.Carries e x) : ∃ mk, instrParts f.op f.m e x = some mk ∧ mk f.slot = i := by
  rw [← Option.map_eq_some_iff]
  unfold instrParts
  split_ifs
  · exact partsControl_of_form h ‹_› fields
  · exact partsInteger_of_form h (by omega) fields
  · exact partsFloat_of_form h (by omega) fields
  · exact partsCrossLane_of_form h (by omega) fields
  · exact partsGlobal_of_form h (by omega) fields
  · exact partsScratch_of_form h (by omega) fields
  · exact partsMatrix_of_form h (by omega) fields
  · exact partsGraphics_of_form h (by omega) fields
  · exact partsLaunch_of_form h (by omega) fields
  · exact partsSync_of_form h (by omega) fields

/-! ### From the operation of a word to its row -/

/-- A form without its operands and what depends on them. -/
def Form.fields (f : Form) : Form := { f with slot := {}, preds := [], cross := true }

/-- An operation is a row of the table: whatever its operands, it has a form under its OPID, and the fields of that form turn
on D and A alone, where it uses them. -/
def RowOf (op : Nat) (mk : Slot → Instr) : Prop :=
  ∀ o, ∃ f, (mk o).form = some f ∧ f.op = op ∧ f.slot = o ∧
    ∀ o' : Slot, (f.d.used → o'.d = o.d) → (f.a.used → o'.a = o.a) → ((mk o').form).map Form.fields = some f.fields

/-- Each operation that the reading of a word can give is a row of the table. -/
def Lists (op : Nat) (r : Option (Slot → Instr)) : Prop := ∀ mk, r = some mk → RowOf op mk

theorem Lists.none {op : Nat} : Lists op none := fun _ h => nomatch h

theorem Lists.row {op : Nat} {mk : Slot → Instr} (h : RowOf op mk) : Lists op (some mk) := by
  rintro _ ⟨⟩
  exact h

theorem Lists.bind {α : Type} {op : Nat} {r : Option α} {k : α → Option (Slot → Instr)} (h : ∀ a, Lists op (k a)) :
    Lists op (r.bind k) := by
  intro mk hmk
  obtain ⟨a, -, ha⟩ := Option.bind_eq_some_iff.1 hmk
  exact h a mk ha

theorem partsControl_lists (op m e x : Nat) : Lists op (partsControl op m e x) := by
  unfold partsControl
  split
  case h_12 => exact Lists.row fun o => ⟨_, rfl, rfl, rfl, fun o' _ ha => by simp [Instr.form, ha rfl, Form.fields]⟩
  case h_13 => exact Lists.row fun o => ⟨_, rfl, rfl, rfl, fun o' hd _ => by simp [Instr.form, hd rfl, Form.fields]⟩
  all_goals try split_ifs
  all_goals repeat refine Lists.bind fun _ => ?_
  on_goal -1 => exact Lists.none
  all_goals exact Lists.row fun o => ⟨_, rfl, rfl, rfl, fun _ _ _ => rfl⟩

theorem partsInteger_lists (op m e x : Nat) : Lists op (partsInteger op m e x) := by
  unfold partsInteger
  split
  all_goals repeat refine Lists.bind fun _ => ?_
  on_goal -1 => exact Lists.none
  all_goals exact Lists.row fun o => ⟨_, rfl, rfl, rfl, fun _ _ _ => rfl⟩

theorem partsFloat_lists (op m e x : Nat) : Lists op (partsFloat op m e x) := by
  unfold partsFloat
  split
  all_goals repeat refine Lists.bind fun _ => ?_
  on_goal -1 => exact Lists.none
  all_goals exact Lists.row fun o => ⟨_, rfl, rfl, rfl, fun _ _ _ => rfl⟩

theorem partsCrossLane_lists (op m e x : Nat) : Lists op (partsCrossLane op m e x) := by
  unfold partsCrossLane
  split
  all_goals repeat refine Lists.bind fun _ => ?_
  on_goal -1 => exact Lists.none
  all_goals exact Lists.row fun o => ⟨_, rfl, rfl, rfl, fun _ _ _ => rfl⟩

theorem partsGlobal_lists (op m e x : Nat) : Lists op (partsGlobal op m e x) := by
  unfold partsGlobal
  split
  all_goals repeat refine Lists.bind fun _ => ?_
  on_goal -1 => exact Lists.none
  all_goals exact Lists.row fun o => ⟨_, rfl, rfl, rfl, fun _ _ _ => rfl⟩

theorem partsScratch_lists (op m e x : Nat) : Lists op (partsScratch op m e x) := by
  unfold partsScratch
  split
  all_goals try split_ifs
  all_goals repeat refine Lists.bind fun _ => ?_
  on_goal -1 => exact Lists.none
  all_goals exact Lists.row fun o => ⟨_, rfl, rfl, rfl, fun _ _ _ => rfl⟩

theorem partsMatrix_lists (op m e x : Nat) : Lists op (partsMatrix op m e x) := by
  unfold partsMatrix
  split
  all_goals try split_ifs
  all_goals repeat refine Lists.bind fun _ => ?_
  on_goal -1 => exact Lists.none
  all_goals exact Lists.row fun o => ⟨_, rfl, rfl, rfl, fun _ _ _ => rfl⟩

theorem partsGraphics_lists (op m e x : Nat) : Lists op (partsGraphics op m e x) := by
  unfold partsGraphics
  split
  all_goals try split_ifs
  all_goals repeat refine Lists.bind fun _ => ?_
  on_goal -1 => exact Lists.none
  all_goals exact Lists.row fun o => ⟨_, rfl, rfl, rfl, fun _ _ _ => rfl⟩

theorem partsLaunch_lists (op m e x : Nat) : Lists op (partsLaunch op m e x) := by
  unfold partsLaunch
  split
  all_goals try split_ifs
  all_goals repeat refine Lists.bind fun _ => ?_
  on_goal -1 => exact Lists.none
  all_goals exact Lists.row fun o => ⟨_, rfl, rfl, rfl, fun _ _ _ => rfl⟩

theorem partsSync_lists (op m e x : Nat) : Lists op (partsSync op m e x) := by
  unfold partsSync
  split
  all_goals repeat refine Lists.bind fun _ => ?_
  on_goal -1 => exact Lists.none
  all_goals exact Lists.row fun o => ⟨_, rfl, rfl, rfl, fun _ _ _ => rfl⟩

theorem instrParts_lists (op m e x : Nat) : Lists op (instrParts op m e x) := by
  unfold instrParts
  split_ifs
  · exact partsControl_lists op m e x
  · exact partsInteger_lists op m e x
  · exact partsFloat_lists op m e x
  · exact partsCrossLane_lists op m e x
  · exact partsGlobal_lists op m e x
  · exact partsScratch_lists op m e x
  · exact partsMatrix_lists op m e x
  · exact partsGraphics_lists op m e x
  · exact partsLaunch_lists op m e x
  · exact partsSync_lists op m e x
  · exact Lists.none

end Sys2Proof
end
section
/-!
SUPPORT. The fields of a word: each is what the form puts there (R36), and a word is the sum of its fields.
-/

namespace Sys2Proof

/-! ### Bytes -/

theorem leBytes_length (n v : Nat) : (leBytes n v).length = n := by
  induction n generalizing v with
  | zero => rfl
  | succ n ih => simp [leBytes, ih]

theorem leNat_leBytes {n v : Nat} (h : v < 256 ^ n) : leNat (leBytes n v) = v := by
  induction n generalizing v with
  | zero => simp_all [leBytes, leNat]
  | succ n ih =>
    have upper : v / 256 < 256 ^ n := Nat.div_lt_of_lt_mul (by rwa [← Nat.pow_succ'])
    rw [leBytes, leNat, ih upper, BitVec.toNat_ofNat]
    omega

/-- Code stores a word lowest byte first, so its twelve bytes decode as the word (R35). -/
theorem decodeBytes_leBytes (map : Nat → Option Nat) {w : Nat} (h : w < 2 ^ 96) :
    decodeBytes map (leBytes 12 w) = decodeWord map w := by
  have whole : (leBytes 12 w).take 12 = leBytes 12 w := List.take_of_length_le (leBytes_length 12 w).le
  rw [decodeBytes, if_neg (by rw [leBytes_length]; omega), whole, leNat_leBytes h]

/-! ### Operands -/

theorem Operand.code_lt (x : Operand) : x.code < 4096 := by
  cases x <;> simp only [Operand.code] <;> omega

theorem ofNat_add_toNat {w c : Nat} (v : BitVec w) (h : c % 2 ^ w = 0) : BitVec.ofNat w (c + v.toNat) = v :=
  BitVec.eq_of_toNat_eq (by rw [BitVec.toNat_ofNat, Nat.add_mod, h, Nat.zero_add, Nat.mod_mod, BitVec.toNat_mod_cancel])

/-- An operand that an entry accepts in a used field is read back from its code. -/
theorem Operand.parse_code {need : Need} {x : Operand} (fits : need.fits x) (used : need.used) (run : 1 ≤ need.n) :
    Operand.parse x.code = some x := by
  cases x with
  | none => simp [Need.fits, used] at fits
  | vec n =>
    simp only [Need.fits, Bool.and_eq_true, decide_eq_true_eq] at fits
    obtain ⟨⟨-, bound⟩, -⟩ := fits
    have code : (Operand.vec n).code = n.toNat := rfl
    rw [Operand.parse, code, if_pos (by omega), if_pos (by omega), BitVec.ofNat_toNat, BitVec.setWidth_eq]
  | scl n =>
    have code : (Operand.scl n).code = 0x400 + n.toNat := rfl
    rw [Operand.parse, code, if_neg (by omega), if_pos (by omega), ofNat_add_toNat n rfl]
  | prd p =>
    have code : (Operand.prd p).code = 0x800 + p.toNat := rfl
    rw [Operand.parse, code, if_neg (by omega), if_neg (by omega), if_neg (by omega), if_pos (by omega),
      if_pos (by omega), ofNat_add_toNat p rfl]
  | spc r =>
    simp only [Need.fits, Bool.and_eq_true] at fits
    obtain ⟨-, assigned⟩ := fits
    have code : (Operand.spc r).code = 0x900 + r.toNat := rfl
    rw [Operand.parse, code, if_neg (by omega), if_neg (by omega), if_neg (by omega), if_neg (by omega),
      if_pos (by omega), show (0x900 + r.toNat) % 0x100 = r.toNat by omega, if_pos assigned, ofNat_add_toNat r rfl]
  | imm v =>
    have code : (Operand.imm v).code = 0xC00 + v.toNat := rfl
    rw [Operand.parse, code, if_neg (by omega), if_neg (by omega), if_pos (by omega), ofNat_add_toNat v rfl]

/-- A field that an operand is read from is the code of the operand. -/
theorem Operand.code_of_parse {f : Nat} {x : Operand} (small : f < 4096) (h : Operand.parse f = some x)
    (named : x ≠ .none) : x.code = f := by
  unfold Operand.parse at h
  split_ifs at h <;> cases h
  all_goals simp only [ne_eq, not_true_eq_false] at named
  all_goals simp only [Operand.code, BitVec.toNat_ofNat]; omega

/-- An operand that a used field accepts is read from it. -/
theorem Need.read_code {need : Need} {x : Operand} (fits : need.fits x) (run : 1 ≤ need.n) {f : Nat}
    (field : need.used → f = x.code) : need.read f = some x := by
  unfold Need.read
  split_ifs with used
  · rw [field used, Operand.parse_code fits used run, Option.filter_some, if_pos fits]
  · cases x <;> simp_all [Need.fits]

/-- What a used field gives is what its bits name, and the entry accepts it. -/
theorem Need.parse_of_read {need : Need} {x : Operand} {f : Nat} (h : need.read f = some x) (used : need.used) :
    Operand.parse f = some x ∧ need.fits x := by
  rw [Need.read, if_pos used] at h
  exact Option.filter_eq_some_iff.1 h

/-- What is read from a field has the field as its code, where an unused field is zero. -/
theorem Need.code_of_read {need : Need} {x : Operand} {f : Nat} (small : f < 4096) (h : need.read f = some x)
    (unused : need.used = false → f = 0) : x.code = f := by
  by_cases used : need.used
  · obtain ⟨parsed, fits⟩ := Need.parse_of_read h used
    refine Operand.code_of_parse small parsed ?_
    rintro rfl
    simp [Need.fits, used] at fits
  · rw [Need.read, if_neg used] at h
    cases h
    exact (unused (by simpa using used)).symm

/-- An operand of an unused field is absent, and its code is zero (R37). -/
theorem Need.code_of_unused {need : Need} {x : Operand} (fits : need.fits x) (unused : need.used = false) : x.code = 0 := by
  cases x <;> simp_all [Need.fits, Operand.code]

/-! ### The whole word -/

theorem Slot.gh_lt (o : Slot) : o.gh < 2 ^ 11 := by
  have := bitNat_lt o.neg (n := 2) (by omega)
  have := bitNat_lt o.yield (n := 2) (by omega)
  have := bitNat_lt o.rel (n := 2) (by omega)
  have := bitNat_lt o.sel (n := 2) (by omega)
  unfold Slot.gh
  omega

/-- The fields of a word, as numbers: OP, guard with hints, D, A, B, M and X (R36). -/
structure IsWord (w op gh d a b m x : Nat) : Prop where
  sum : w = op + 2 ^ 10 * gh + 2 ^ 21 * d + 2 ^ 33 * a + 2 ^ 45 * b + 2 ^ 57 * m + 2 ^ 64 * x
  op_lt : op < 2 ^ 10
  gh_lt : gh < 2 ^ 11
  d_lt : d < 2 ^ 12
  a_lt : a < 2 ^ 12
  b_lt : b < 2 ^ 12
  m_lt : m < 2 ^ 7
  x_lt : x < 2 ^ 32

theorem natField_of_sum {w low v rest hi lo : Nat} (sum : w = low + 2 ^ lo * (v + 2 ^ (hi + 1 - lo) * rest))
    (hlow : low < 2 ^ lo) (hv : v < 2 ^ (hi + 1 - lo)) : natField w hi lo = v := by
  rw [natField, sum, div_top hlow, Nat.add_mul_mod_self_left, Nat.mod_eq_of_lt hv]

/-- A number above bit `lo` is its field `[hi:lo]` and what lies above the field. -/
theorem div_eq_natField_add (w : Nat) {hi lo : Nat} (h : lo ≤ hi + 1) :
    w / 2 ^ lo = natField w hi lo + 2 ^ (hi + 1 - lo) * (w / 2 ^ (hi + 1)) := by
  conv_rhs => rw [natField, show hi + 1 = lo + (hi + 1 - lo) by omega, Nat.pow_add, ← Nat.div_div_eq_div_mul,
    Nat.add_sub_cancel_left, Nat.mod_add_div]

theorem natField_lt (w hi lo : Nat) : natField w hi lo < 2 ^ (hi + 1 - lo) := Nat.mod_lt _ (Nat.two_pow_pos _)

section
variable {w op gh d a b m x : Nat} (h : IsWord w op gh d a b m x)
include h

theorem IsWord.lt : w < 2 ^ 96 := by
  obtain ⟨sum, _, _, _, _, _, _, _⟩ := h
  omega

theorem IsWord.fields : natField w 9 0 = op ∧ natField w 20 10 = gh ∧ natField w 32 21 = d ∧ natField w 44 33 = a
    ∧ natField w 56 45 = b ∧ natField w 63 57 = m ∧ natField w 95 64 = x := by
  obtain ⟨sum, hop, hgh, hd, ha, hb, hm, hx⟩ := h
  refine ⟨natField_of_sum (low := 0) (rest := gh + 2 ^ 11 * d + 2 ^ 23 * a + 2 ^ 35 * b + 2 ^ 47 * m + 2 ^ 54 * x) ?_ ?_ hop,
    natField_of_sum (low := op) (rest := d + 2 ^ 12 * a + 2 ^ 24 * b + 2 ^ 36 * m + 2 ^ 43 * x) ?_ ?_ hgh,
    natField_of_sum (low := op + 2 ^ 10 * gh) (rest := a + 2 ^ 12 * b + 2 ^ 24 * m + 2 ^ 31 * x) ?_ ?_ hd,
    natField_of_sum (low := op + 2 ^ 10 * gh + 2 ^ 21 * d) (rest := b + 2 ^ 12 * m + 2 ^ 19 * x) ?_ ?_ ha,
    natField_of_sum (low := op + 2 ^ 10 * gh + 2 ^ 21 * d + 2 ^ 33 * a) (rest := m + 2 ^ 7 * x) ?_ ?_ hb,
    natField_of_sum (low := op + 2 ^ 10 * gh + 2 ^ 21 * d + 2 ^ 33 * a + 2 ^ 45 * b) (rest := x) ?_ ?_ hm,
    natField_of_sum (low := op + 2 ^ 10 * gh + 2 ^ 21 * d + 2 ^ 33 * a + 2 ^ 45 * b + 2 ^ 57 * m) (rest := 0) ?_ ?_ hx⟩
  all_goals omega

end

/-- Every number of 96 bits is the word of its fields. -/
theorem isWord_fields {w : Nat} (h : w < 2 ^ 96) : IsWord w (natField w 9 0) (natField w 20 10) (natField w 32 21)
    (natField w 44 33) (natField w 56 45) (natField w 63 57) (natField w 95 64) := by
  refine ⟨?_, natField_lt w 9 0, natField_lt w 20 10, natField_lt w 32 21, natField_lt w 44 33, natField_lt w 56 45,
    natField_lt w 63 57, natField_lt w 95 64⟩
  have op := div_eq_natField_add w (hi := 9) (lo := 0) (by omega)
  have gh := div_eq_natField_add w (hi := 20) (lo := 10) (by omega)
  have d := div_eq_natField_add w (hi := 32) (lo := 21) (by omega)
  have a := div_eq_natField_add w (hi := 44) (lo := 33) (by omega)
  have b := div_eq_natField_add w (hi := 56) (lo := 45) (by omega)
  have m := div_eq_natField_add w (hi := 63) (lo := 57) (by omega)
  have x := div_eq_natField_add w (hi := 95) (lo := 64) (by omega)
  rw [Nat.div_eq_of_lt h] at x
  rw [Nat.pow_zero, Nat.div_one] at op
  simp only [Nat.reduceAdd, Nat.reduceSub] at op gh d a b m x
  linarith

end Sys2Proof
end
section
/-!
SUPPORT. The limits of the encoding table: every form fits the fields of a word (R36, R51).
-/

namespace Sys2Proof

/-- Every form stands under one of the assigned opcodes (R51). -/
theorem Instr.form_op {i : Instr} {f : Form} (h : i.form = some f) : f.op < 0x380 ∧ isOperation f.op = true := by
  cases i <;> cases h <;> exact ⟨of_decide_eq_true rfl, rfl⟩

/-- The modifiers of a form fit the field M. -/
theorem Instr.form_m_lt {i : Instr} {f : Form} (h : i.form = some f) : f.m < 2 ^ 7 := by
  cases i <;> cases h
  case mscl.refl o clus => cases clus <;> exact of_decide_eq_true rfl
  all_goals simp (disch := simp [toNat_lt]) [scaled_lt, radix_lt, radix_lt2, radix_lt3, radix_lt4, toNat_lt]

/-- The modifiers of a form fit the field E, or its immediate the field X. -/
theorem Instr.form_e_lt {i : Instr} {f : Form} (h : i.form = some f) : f.e < 2 ^ 20 := by
  cases i <;> cases h
  all_goals simp (disch := simp [toNat_lt, radix_lt]) [scaled_lt, radix_lt, radix_lt2, toNat_lt, optScopeCode_lt]

theorem Instr.form_imm_lt {i : Instr} {f : Form} (h : i.form = some f) {v : Nat} (hv : f.imm = some v) : v < 2 ^ 32 := by
  cases i <;> cases h <;> cases hv
  all_goals exact toNat_lt _ (by decide)

/-- Where X holds an immediate it holds no C and no N, and where E holds N it holds no modifiers (R36, R187). -/
theorem Instr.form_x {i : Instr} {f : Form} (h : i.form = some f) :
    (f.imm.isSome → f.c.used = false ∧ f.eN = false) ∧ (f.eN = true → f.e = 0) ∧ (f.eN = false → f.n.used = false) := by
  cases i <;> cases h <;> simp [Need.no]

@[simp] theorem Need.ite_pos {c : Prop} [Decidable c] {x y : Need} (hx : 1 ≤ x.n) (hy : 1 ≤ y.n) :
    1 ≤ (if c then x else y).n := by
  split_ifs <;> assumption

@[simp] theorem Need.tagged_pos (need : Need) (tag : Bool) (h : 1 ≤ need.n) : 1 ≤ (need.tagged tag).n := by
  cases tag <;> simp [Need.tagged, h]

@[simp] theorem Need.floatD_pos (t : Fmt) : 1 ≤ (Need.floatD t).n := by cases t <;> decide
@[simp] theorem Need.floatA_pos (t : Fmt) : 1 ≤ (Need.floatA t).n := by cases t <;> decide
@[simp] theorem Need.ldData_pos (size : LdSize) (tag : Bool) : 1 ≤ (Need.ldData size tag).n := by
  cases size <;> cases tag <;> decide
@[simp] theorem Need.stData_pos (size : StSize) : 1 ≤ (Need.stData size).n := by cases size <;> decide
@[simp] theorem Need.casReg_pos (w : AtomcW) : 1 ≤ (Need.casReg w).n := by cases w <;> decide
@[simp] theorem Need.casData_pos (w : AtomcW) : 1 ≤ (Need.casData w).n := by cases w <;> decide

/-- Every operand of a form names at least one register. -/
theorem Instr.form_run {i : Instr} {f : Form} (h : i.form = some f) :
    1 ≤ f.d.n ∧ 1 ≤ f.a.n ∧ 1 ≤ f.b.n ∧ 1 ≤ f.c.n ∧ 1 ≤ f.n.n := by
  cases i <;> cases h
  all_goals
    simp (disch := simp [Need.vs, Need.vsPair]) [Need.no, Need.vec, Need.scl, Need.vs, Need.si, Need.vsi, Need.prd, Need.sp,
      Need.vsPair, Need.vsiPair, Need.vPair, Need.sPair, Need.vrun, Need.srun, Need.vsrun, Need.sRunOrImm, Need.mreg, Need.mimm]

end Sys2Proof
end
section
/-!
SUPPORT. The guard and hints of a word, and the parts of X.
-/

namespace Sys2Proof

theorem natBit_eq_iff {n i : Nat} {b : Bool} : natBit n i = b ↔ n / 2 ^ i % 2 = bitNat b := by
  have two := Nat.mod_two_eq_zero_or_one (n / 2 ^ i)
  cases b <;> simp [natBit, bitNat]

theorem bitNat_natBit (n i : Nat) : bitNat (natBit n i) = n / 2 ^ i % 2 := (natBit_eq_iff.1 rfl).symm

/-- The guard and the hints of a word are its bits `[20:10]` (R36). -/
theorem wordSlot_gh (w : Nat) : (wordSlot w).gh = natField w 20 10 := by
  simp only [Slot.gh, wordSlot, bitNat_natBit, BitVec.toNat_ofNat, natField]
  omega

/-- A slot is what the decoder reads from a word with the slot's guard and hints, once it has the operands. -/
theorem wordSlot_operands {w : Nat} {o : Slot} (h : natField w 20 10 = o.gh) :
    { wordSlot w with d := o.d, a := o.a, b := o.b, c := o.c, n := o.n } = o := by
  obtain ⟨neg, p, stall, yield, rel, sel, d, a, b, c, n⟩ := o
  have := bitNat_lt neg (n := 2) (by omega)
  have := bitNat_lt yield (n := 2) (by omega)
  have := bitNat_lt rel (n := 2) (by omega)
  have := bitNat_lt sel (n := 2) (by omega)
  simp only [Slot.gh, natField] at h
  simp only [wordSlot, Slot.mk.injEq, natBit_eq_iff, and_true]
  refine ⟨by omega, BitVec.eq_of_toNat_eq ?_, BitVec.eq_of_toNat_eq ?_, by omega, by omega, by omega⟩
  · rw [BitVec.toNat_ofNat]; omega
  · rw [BitVec.toNat_ofNat]; omega

/-- E and C as parts of X (R36). -/
theorem natField_x (w : Nat) : natField w 75 64 = natField w 95 64 % 4096 ∧ natField w 95 76 = natField w 95 64 / 4096
    ∧ natField w 87 76 = natField w 95 64 / 4096 % 4096 ∧ natField w 95 88 = natField w 95 64 / 4096 / 4096 := by
  simp only [natField]
  omega

end Sys2Proof
end
section
/-!
SUPPORT. What makes a word decode, said once, and the two directions of the encoding from it (R35 to R39, R50 to R55).
-/

namespace Sys2Proof

/-- The check of a word's fields, part by part (R37). -/
theorem Form.fieldsOk_iff (f : Form) (w : Nat) : f.fieldsOk w = true ↔
    f.legal = true ∧ f.m = natField w 63 57
      ∧ (f.d.used = false → natField w 32 21 = 0) ∧ (f.a.used = false → natField w 44 33 = 0)
      ∧ (f.b.used = false → natField w 56 45 = 0)
      ∧ (∀ v, f.imm = some v → v = natField w 95 64)
      ∧ (f.imm = none → (f.c.used = false → natField w 75 64 = 0)
        ∧ (f.eN = true → natField w 95 88 = 0 ∧ (f.n.used = false → natField w 87 76 = 0))
        ∧ (f.eN = false → f.e = natField w 95 76)) := by
  have absent : ∀ (u : Bool) (k : Nat), (u || k == 0) = true ↔ (u = false → k = 0) := by
    intro u k
    cases u <;> simp
  unfold Form.fieldsOk
  simp only [Bool.and_eq_true, absent, beq_iff_eq, and_assoc]
  cases f.imm <;> cases f.eN <;> simp [absent]

/-- The operands that a form's entry accepts, field by field (R38, R39). -/
theorem Form.fits_of_operandsOk {f : Form} (h : f.operandsOk = true) :
    f.d.fits f.slot.d ∧ f.a.fits f.slot.a ∧ f.b.fits f.slot.b ∧ f.c.fits f.slot.c ∧ f.n.fits f.slot.n := by
  simp only [Form.operandsOk, Bool.and_eq_true] at h
  obtain ⟨⟨⟨⟨⟨⟨hd, ha⟩, hb⟩, hc⟩, hn⟩, -⟩, -⟩ := h
  exact ⟨hd, ha, hb, hc, hn⟩

/-- A word decodes as an instruction where its fields name an operation, the form of that operation accepts the fields, each
operand is read, and the form accepts the operands together. -/
theorem decodeAs_eq_ok_iff {opid w : Nat} {i : Instr} : decodeAs opid w = .ok i ↔
    ∃ mk f o g, instrParts opid (natField w 63 57) (natField w 95 76) (natField w 95 64) = some mk
      ∧ (mk (wordSlot w)).form = some f ∧ f.fieldsOk w = true
      ∧ f.d.read (natField w 32 21) = some o.d ∧ f.a.read (natField w 44 33) = some o.a
      ∧ f.b.read (natField w 56 45) = some o.b ∧ f.c.read (natField w 75 64) = some o.c
      ∧ f.n.read (natField w 87 76) = some o.n
      ∧ { wordSlot w with d := o.d, a := o.a, b := o.b, c := o.c, n := o.n } = o
      ∧ (mk o).form = some g ∧ g.operandsOk = true ∧ mk o = i := by
  unfold decodeAs
  constructor
  · intro h
    split at h
    · cases h
    rename_i mk parts
    split at h
    · cases h
    rename_i f form
    split_ifs at h with fields
    split at h
    · rename_i d a b c n hd ha hb hc hn
      split_ifs at h with operands
      cases h
      cases hg : (mk { wordSlot w with d := d, a := a, b := b, c := c, n := n }).form with
      | none => simp [hg] at operands
      | some g => exact ⟨mk, f, _, g, parts, form, fields, hd, ha, hb, hc, hn, rfl, hg, by simpa [hg] using operands, rfl⟩
    · cases h
  · rintro ⟨mk, f, o, g, parts, form, fields, hd, ha, hb, hc, hn, slot, hg, operands, rfl⟩
    simp only [parts, form, fields, hd, ha, hb, hc, hn, slot, hg, if_true, Option.map_some, Option.getD_some, operands]

/-! ### From the instruction to its word and back -/

/-- X of a form fits 32 bits. -/
theorem Form.x_lt {i : Instr} {f : Form} (h : i.form = some f) : f.x < 2 ^ 32 := by
  obtain ⟨-, noE, -⟩ := Instr.form_x h
  have e := Instr.form_e_lt h
  have c := f.slot.c.code_lt
  have n := f.slot.n.code_lt
  unfold Form.x Form.eField
  cases imm : f.imm with
  | some v => exact Instr.form_imm_lt h imm
  | none =>
    cases eN : f.eN with
    | true => simp [noE eN]; omega
    | false => simp; omega

theorem Form.isWord {i : Instr} {f : Form} (h : i.form = some f) :
    IsWord f.word f.op f.slot.gh f.slot.d.code f.slot.a.code f.slot.b.code f.m f.x :=
  ⟨rfl, (Instr.form_op h).1.trans (by omega), f.slot.gh_lt, f.slot.d.code_lt, f.slot.a.code_lt, f.slot.b.code_lt,
    Instr.form_m_lt h, Form.x_lt h⟩

/-- What the fields C, E and N of a form's word hold (R36, R187). -/
theorem Form.word_x {i : Instr} {f : Form} (h : i.form = some f) (plain : f.imm = none) :
    natField f.word 75 64 = f.slot.c.code ∧ (f.eN = false → natField f.word 95 76 = f.e)
      ∧ (f.eN = true → natField f.word 87 76 = f.slot.n.code ∧ natField f.word 95 88 = 0) := by
  obtain ⟨-, -, -, -, -, -, hx⟩ := (Form.isWord h).fields
  obtain ⟨xc, xe, xn, x0⟩ := natField_x f.word
  obtain ⟨-, noE, -⟩ := Instr.form_x h
  have c := f.slot.c.code_lt
  have n := f.slot.n.code_lt
  rw [xc, xe, xn, x0, hx]
  simp only [Form.x, Form.eField, plain]
  refine ⟨by omega, fun eN => ?_, fun eN => ?_⟩
  · simp only [eN, Bool.false_eq_true, if_false]; omega
  · simp only [eN, if_true, noE eN]; omega

/-- The word of a form carries the modifiers and the immediate of the form. -/
theorem Form.word_carries {i : Instr} {f : Form} (h : i.form = some f) :
    f.Carries (natField f.word 95 76) (natField f.word 95 64) := by
  obtain ⟨-, -, -, -, -, -, hx⟩ := (Form.isWord h).fields
  refine ⟨fun plain eN => (Form.word_x h plain).2.1 eN, fun v imm => ?_⟩
  rw [hx, Form.x, imm]

/-- The word of a legal form with accepted operands passes the check of its fields. -/
theorem Form.fieldsOk_word {i : Instr} {f : Form} (h : i.form = some f) (legal : f.legal = true)
    (operands : f.operandsOk = true) : f.fieldsOk f.word = true := by
  obtain ⟨-, -, hd, ha, hb, hm, hx⟩ := (Form.isWord h).fields
  obtain ⟨fd, fa, fb, fc, fn⟩ := Form.fits_of_operandsOk operands
  rw [Form.fieldsOk_iff, hd, ha, hb, hm, hx]
  refine ⟨legal, rfl, Need.code_of_unused fd, Need.code_of_unused fa, Need.code_of_unused fb, fun v imm => ?_,
    fun plain => ?_⟩
  · rw [Form.x, imm]
  · obtain ⟨c, e, n⟩ := Form.word_x h plain
    refine ⟨fun unused => c.trans (Need.code_of_unused fc unused),
      fun eN => ⟨(n eN).2, fun unused => (n eN).1.trans (Need.code_of_unused fn unused)⟩, fun eN => (e eN).symm⟩

/-- The fields that a form checks, and what it reads, turn on no more than `Form.fields`. -/
theorem Form.fieldsOk_congr {f g : Form} (h : f.fields = g.fields) (w : Nat) : f.fieldsOk w = g.fieldsOk w :=
  (congrArg (fun k : Form => k.fieldsOk w) h :)

theorem Form.needs_congr {f g : Form} (h : f.fields = g.fields) :
    f.d = g.d ∧ f.a = g.a ∧ f.b = g.b ∧ f.c = g.c ∧ f.n = g.n :=
  ⟨(congrArg Form.d h :), (congrArg Form.a h :), (congrArg Form.b h :), (congrArg Form.c h :), (congrArg Form.n h :)⟩

/-- The word of a well-formed form decodes as the form's instruction. -/
theorem decodeAs_word {i : Instr} {f : Form} (h : i.form = some f) (wf : f.wf = true) : decodeAs f.op f.word = .ok i := by
  obtain ⟨legal, operands⟩ : f.legal = true ∧ f.operandsOk = true := by simpa [Form.wf] using wf
  obtain ⟨-, hgh, hd, ha, hb, hm, -⟩ := (Form.isWord h).fields
  obtain ⟨fd, fa, fb, fc, fn⟩ := Form.fits_of_operandsOk operands
  obtain ⟨rd, ra, rb, rc, rn⟩ := Instr.form_run h
  obtain ⟨immAlone, -, noN⟩ := Instr.form_x h
  obtain ⟨mk, parts, made⟩ := instrParts_of_form h (Instr.form_op h).1 (Form.word_carries h)
  -- the form under the decoder's first reading of D and A has the fields of `f`
  obtain ⟨f', hf', -, slot', alike⟩ := instrParts_lists _ _ _ _ mk parts f.slot
  obtain rfl : f' = f := Option.some.inj (hf'.symm.trans (made ▸ h))
  have first : ((mk (wordSlot f'.word)).form).map Form.fields = some f'.fields :=
    alike _ (fun used => by simp [wordSlot, hd, Operand.parse_code fd used rd])
      (fun used => by simp [wordSlot, ha, Operand.parse_code fa used ra])
  obtain ⟨f₀, hf₀, same⟩ := Option.map_eq_some_iff.1 first
  obtain ⟨ed, ea, eb, ec, en⟩ := Form.needs_congr same
  refine decodeAs_eq_ok_iff.2 ⟨mk, f₀, f'.slot, f', hm ▸ parts, hf₀, ?_, ?_, ?_, ?_, ?_, ?_, wordSlot_operands hgh,
    hf', operands, made⟩
  · rw [Form.fieldsOk_congr same, Form.fieldsOk_word h legal operands]
  · exact ed ▸ Need.read_code fd rd fun _ => hd
  · exact ea ▸ Need.read_code fa ra fun _ => ha
  · exact eb ▸ Need.read_code fb rb fun _ => hb
  · refine ec ▸ Need.read_code fc rc fun used => (Form.word_x h ?_).1
    cases imm : f'.imm with
    | none => rfl
    | some v => simp [(immAlone (by simp [imm])).1] at used
  · refine en ▸ Need.read_code fn rn fun used => ?_
    have eN : f'.eN = true := by
      by_contra off
      simp [noN (by simpa using off)] at used
    refine ((Form.word_x h ?_).2.2 eN).1
    cases imm : f'.imm with
    | none => rfl
    | some v => simp [(immAlone (by simp [imm])).2] at eN

/-- A word under an opcode that map 1 assigns. -/
theorem decodeWord_mapOne {w : Nat} (listed : isOperation (natField w 9 0) = true) (op : natField w 9 0 < 0x380) :
    decodeWord mapOne w = decodeAs (natField w 9 0) w := by
  rw [decodeWord, if_neg (by omega), mapOne, if_pos listed]

/-! ### From the word to its instruction and back -/

/-- An instruction with a word names no unit. -/
theorem Instr.unitsOk_of_form {i : Instr} {f : Form} (h : i.form = some f) : i.unitsOk = true := by
  cases i <;> cases h <;> rfl

theorem Instr.wf_of_form {i : Instr} {f : Form} (h : i.form = some f) : i.wf = f.wf := by
  simp [Instr.wf, Instr.unitsOk_of_form h, h]

/-- A form that accepts the fields of a word and the operands read from them has that word. -/
theorem Form.word_of_reads {i : Instr} {f : Form} {w : Nat} (h : i.form = some f) (hw : w < 2 ^ 96) (op : f.op = natField w 9 0)
    (gh : f.slot.gh = natField w 20 10) (fields : f.fieldsOk w = true)
    (hd : f.d.read (natField w 32 21) = some f.slot.d) (ha : f.a.read (natField w 44 33) = some f.slot.a)
    (hb : f.b.read (natField w 56 45) = some f.slot.b) (hc : f.c.read (natField w 75 64) = some f.slot.c)
    (hn : f.n.read (natField w 87 76) = some f.slot.n) : f.word = w := by
  obtain ⟨-, m, ud, ua, ub, immediate, plain⟩ := (Form.fieldsOk_iff f w).1 fields
  obtain ⟨xc, xe, xn, x0⟩ := natField_x w
  have word := isWord_fields hw
  have x : f.x = natField w 95 64 := by
    cases imm : f.imm with
    | some v => rw [Form.x, imm]; exact immediate v imm
    | none =>
      obtain ⟨uc, withN, withoutN⟩ := plain imm
      have c := Need.code_of_read (natField_lt w 75 64) hc uc
      cases eN : f.eN with
      | true =>
        have n := Need.code_of_read (natField_lt w 87 76) hn (withN eN).2
        have zero := (withN eN).1
        simp only [Form.x, imm, Form.eField, eN, if_true, (Instr.form_x h).2.1 eN, c, n]
        omega
      | false =>
        have e := withoutN eN
        simp only [Form.x, imm, Form.eField, eN, Bool.false_eq_true, if_false, c]
        omega
  have d := Need.code_of_read word.d_lt hd ud
  have a := Need.code_of_read word.a_lt ha ua
  have b := Need.code_of_read word.b_lt hb ub
  rw [Form.word, op, gh, d, a, b, m, x]
  exact word.sum.symm

/-- What a word decodes to is well formed, and the word is its encoding. -/
theorem wf_and_form_of_decodeAs {w : Nat} {i : Instr} (hw : w < 2 ^ 96) (h : decodeAs (natField w 9 0) w = .ok i) :
    ∃ g, i.form = some g ∧ g.wf = true ∧ g.word = w := by
  obtain ⟨mk, f, o, g, parts, hf, fields, hd, ha, hb, hc, hn, slot, hg, operands, rfl⟩ := decodeAs_eq_ok_iff.1 h
  have row := instrParts_lists _ _ _ _ mk parts
  obtain ⟨g', hg', op, rfl, -⟩ := row o
  obtain rfl : g' = g := Option.some.inj (hg'.symm.trans hg)
  obtain ⟨f', hf', -, -, alike⟩ := row (wordSlot w)
  obtain rfl : f' = f := Option.some.inj (hf'.symm.trans hf)
  have same : g'.fields = f'.fields := by
    have alike := alike g'.slot (fun used => by simp [wordSlot, (Need.parse_of_read hd used).1])
      (fun used => by simp [wordSlot, (Need.parse_of_read ha used).1])
    rwa [hg, Option.map_some, Option.some.injEq] at alike
  obtain ⟨ed, ea, eb, ec, en⟩ := Form.needs_congr same
  have checked : g'.fieldsOk w = true := (Form.fieldsOk_congr same w).trans fields
  have gh : g'.slot.gh = natField w 20 10 := by
    rw [← wordSlot_gh w]
    exact (congrArg Slot.gh slot :).symm
  refine ⟨g', hg, by rw [Form.wf, ((Form.fieldsOk_iff g' w).1 checked).1, operands, Bool.and_self], ?_⟩
  exact Form.word_of_reads hg hw op gh checked (ed ▸ hd) (ea ▸ ha) (eb ▸ hb) (ec ▸ hc) (en ▸ hn)

end Sys2Proof

open Sys2Proof

/-- Settles O17: the word of an instruction is the sum of its form's fields, each of which the decoder reads back. -/
theorem encodedInstructionsDecode : Obligations.EncodedInstructionsDecode := by
  unfold Obligations.EncodedInstructionsDecode
  intro i wf program
  obtain ⟨f, hf⟩ := Option.isSome_iff_exists.1 program
  have word := Form.isWord hf
  obtain ⟨hop, -⟩ := word.fields
  obtain ⟨op, listed⟩ := Instr.form_op hf
  refine ⟨BitVec.ofNat 96 f.word, by rw [encode, hf, Option.map_some], ?_⟩
  rw [BitVec.toNat_ofNat, Nat.mod_eq_of_lt word.lt, decodeBytes_leBytes _ word.lt,
    decodeWord_mapOne (hop ▸ listed) (hop ▸ op), hop]
  exact decodeAs_word hf (Instr.wf_of_form hf ▸ wf)

/-- Settles O18: the decoder accepts a word only where every field is what the form of the decoded instruction puts there; the
other two parts are the decoder's first two tests. -/
theorem onlyListedWordsDecode : Obligations.OnlyListedWordsDecode := by
  unfold Obligations.OnlyListedWordsDecode
  have op (w : Nat) : natField w 9 0 = w % 1024 := by simp [natField]
  refine ⟨fun w i hw decoded => ?_, fun map w header => ?_, fun w code unlisted => ?_⟩
  · unfold decodeWord mapOne at decoded
    split_ifs at decoded with _ listed
    obtain ⟨g, hg, wf, word⟩ := wf_and_form_of_decodeAs hw decoded
    exact ⟨Instr.wf_of_form hg ▸ wf, Option.isSome_iff_exists.2 ⟨g, hg⟩, by rw [encode, hg, Option.map_some, word]⟩
  · rw [decodeWord, if_pos (op w ▸ header)]
  · rw [decodeWord, if_neg (op w ▸ code), mapOne, op, unlisted, if_neg Bool.false_ne_true]

/-- Settles O16: each word is a closed list of bytes, which the decoder evaluates to the instruction. -/
theorem specWordsDecode : Obligations.SpecWordsDecode := by
  unfold Obligations.SpecWordsDecode
  exact ⟨rfl, rfl, rfl, rfl, rfl, rfl, rfl, rfl, rfl⟩
end

section
/-!
SUPPORT. A step that is a group's turn, and the fates of a slot before an instruction's own effect (R40 to R54, R131, R133).
-/

namespace Sys2Proof.Machine

open Sys2Proof.Safety Sys2Proof.Claims

/-! ### The turn of a group -/

/-- Before a turn that brings nothing but its act, nothing passes. -/
theorem State.begin_act (s : State) (a : Act) : s.begin { act := a } = s := by
  simp [State.begin, State.elapse, State.setKeys]

theorem step_of_nextIs {s : State} {a : Act} {ts : List Turn} (next : NextIs s a ts) :
    step s = ({ s with agenda := ts } : State).act a := by
  rw [NextIs] at next
  simp only [step, State.turn, State.nextTurn, next, State.begin_act]

theorem turnOver_eq_afterTurn (o : Host.Outcome State Fault Refusal) : turnOver o = afterTurn o := by
  cases o <;> rfl

/-- The step of a group that may issue, and does not run ahead, runs what the group stands at. -/
theorem step_group {s : State} {id : Nat} {ts : List Turn} {g : Group} (next : NextIs s (.group id) ts)
    (running : s.running = true) (may : s.mayIssue id = true) (real : Tab.get? s.spec id = none)
    (here : Tab.get? s.groups id = some g) :
    step s = afterTurn (exec (s.groupInstr id g) { s with agenda := ts, cur := .group id }) := by
  have admitted : (({ s with agenda := ts } : State).running && ({ s with agenda := ts } : State).mayIssue id) = true := by
    rw [Bool.and_eq_true]
    exact ⟨running, may⟩
  have issuer : ({ s with agenda := ts } : State).issuer id = .group id := by simp [State.issuer, real]
  rw [step_of_nextIs next, State.act, State.groupTurn, admitted, Bool.not_true, if_neg Bool.false_ne_true, issuer,
    ← turnOver_eq_afterTurn]
  simp only [State.curGroup?, here]
  rfl

/-- A group in a clause runs the instruction that the word of its slot decodes to. -/
theorem State.groupInstr_decoded {s : State} {id w : Nat} {g : Group} {c : Clause} {i : Instr} (clause : g.clause = some c)
    (word : s.codeWord? g c.handler c.slotPc = some w)
    (decoded : decodeBytes (s.contextMap g.part g.ctx) (leBytes 12 w) = .ok i) : s.groupInstr id g = i := by
  simp only [State.groupInstr, clause, word, Option.getD_some, fetched, decoded]

theorem State.groupInstr_between {s : State} {id : Nat} {g : Group} (clause : g.clause = none) :
    s.groupInstr id g = .clauseStart id := by
  simp only [State.groupInstr, clause]

/-! ### Every instruction of a group is issued

The instructions of a group share one path: their meanings are `issueWith`, which makes the checks of R40 to R54, with an
effect of their own. -/

theorem exec_eq_issueWith {i : Instr} {f : Form} (h : i.form = some f) (group : f.pool ≠ .stream)
    (straight : isTransferOp f.op = false) (s : State) : ∃ pages body, exec i s = issueWith i s pages body := by
  unfold exec
  cases i <;> cases h
  all_goals try exact absurd rfl group
  all_goals try exact absurd straight (of_decide_eq_false rfl)
  all_goals
    simp only [execNop, execYield, execTrap, execSwiWake, execSwiClear, execSwiMgmt, execBkpt, execGetsr, execSetsr,
      execSleepc, execWaitc, execPlop, execPmovGet, execPmovSet, execIadd, execIsub, execIadd3, execIaddc,
      execImul, execImulh, execImad, execIsad, execImin, execImax, execIabs, execIneg, execIcmp, execIsel,
      execMov, execMovi, execAnd, execOr, execXor, execNot, execLop3, execShl, execShr, execSar, execShf, execBfe,
      execBfi, execBrev, execPopc, execClz, execCtz, execPrmt, execLea, execCvti, execIaddw, execIsubw, execImulw,
      execImadx, execIcmpw, execShlw, execShrw, execSarw, execMovw, execFadd, execFmul, execFfma, execFmin,
      execFmax, execFcmp, execFrnd, execFclass, execFdiv, execFrcp, execFrsq, execFsqrt, execFexp2, execFlog2,
      execFsin, execFcos, execDadd, execDmul, execDfma, execDcmp, execHadd2, execHmul2, execHfma2, execHmnx2,
      execFdp4, execCvt, execCvtfi, execCvtif, execPack, execXadd, execXrnd, execXcmb, execXchk, execShfl,
      execRdlane, execWrlane, execBallot, execVote, execMatch, execPscan, execRedux, execCompact, execLd, execSt,
      execAtom, execAtomc, execAtomx, execAtomv, execLdfut, execStfut, execFutrst, execLds, execSts, execAtoms,
      execTmov, execBufdec, execBufdecDrop, execBufsetFill, execBufsetDrain, execBufsetReset, execBufqry,
      execMapr, execUnmapr, execFlushr, execFeset, execFeqry, execMsub, execMrd, execMwm, execEmitPrim,
      execEmitOpen, execEmitClose, execVbldLat, execVbldSet, execClassify, execSample, execChartxf, execTileout,
      execRaybatOpen, execRaybatClose, execRaygen, execRayput, execRayqryCnt, execRayqryWait, execSpawn,
      execLaunchQ, execLaunchWg, execRecalloc, execReccommit, execRinv, execPut, execWcnt, execFence, execBarinit,
      execBararr, execBarwait, execBarrel, execNbarSet, execWaitm, issue, issueRegs, intTern, intBin, wordUn,
      wordBin, wordTern, pairShift, floatOp, floatRaw, fminmax, floatCompare, approxOp, packedOp, accumOp,
      swiQueue, bufEvent, writeBackRegion, vbld, rayqry, Machine.global]
    exact ⟨_, _, rfl⟩

/-! ### The fate of a slot -/

/-- The first cause of R54, in its order, for an instruction that is no control transfer. -/
theorem slotFate_eq {f : Form} (g : Group) (c : Clause) (straight : isTransferOp f.op = false) : slotFate f g c =
    if f.long = true ∧ c.flag f.slot.sel = none then some .illclause
    else if ¬(f.legal = true ∧ poolOk f.pool g.core = true) then some .undef
    else if ¬(f.operandsOk = true ∧ ∀ r ∈ formNames f, g.inBudget r = true) then some .illopnd
    else if ¬(f.slot.p = 0 ∨ g.isPending (.p f.slot.p.toNat) = false) then some .hazard
    else none := by
  have budget : (!(formNames f).all g.inBudget) = true ↔ ¬∀ r ∈ formNames f, g.inBudget r = true := by
    rw [Bool.not_eq_true', ← Bool.not_eq_true, List.all_eq_true]
  unfold slotFate
  simp only [straight, Bool.false_and, Bool.false_eq_true, if_false, Bool.and_eq_true, Option.isNone_iff_eq_none, budget]
  by_cases fits : ∀ r ∈ formNames f, g.inBudget r = true
  · split_ifs <;> simp_all
  · simp only [fits, and_false, not_false_eq_true, if_true, ite_self, Bool.or_eq_true, Bool.not_eq_true', not_and_or,
      Bool.not_eq_true]

/-- A slot none of whose lanes has a true guard is over without an effect (R40). -/
theorem finishSlot_slotOver {s : State} {id : Nat} {g : Group} {c : Clause} (cur : s.cur = .group id)
    (here : Tab.get? s.groups id = some g) (clause : g.clause = some c) (yields : Bool) :
    SlotOver s (s.finishSlot yields) id c := by
  obtain ⟨only, ended⟩ := State.finishSlot_spec s id g c yields cur here clause
  obtain ⟨fr, cl, hd, dr, same⟩ := ended.same
  have group : s.group id = g := State.group_of_get? here
  exact ⟨group ▸ ended.passed, only.rest, only.others, only.cycles, g.checks, (0, 0), fr, cl, hd, dr, by rw [group, same]⟩

section
variable {i : Instr} {s : State} {id : Nat} {g : Group} {c : Clause} {f : Form} (cur : s.cur = .group id)
  (here : Tab.get? s.groups id = some g) (form : i.form = some f) (clause : g.clause = some c)
  (buffers : g.number = 0 → (s.team g.team).badBuf = none)
  (pages : Group → List Nat → State → Option (List PageRec)) (body : Group → List Nat → State → Eff)
include cur here form clause buffers

/-- A slot with a cause of R54 faults by it. -/
theorem issueWith_of_fate {cause : Cause} (fate : slotFate f g c = some cause) :
    issueWith i s pages body = .next (s.raiseFault id c.slotPc cause 0 0 0) := by
  have current : s.curGroup? = some g := by simp only [State.curGroup?, cur, here]
  have noBad : (if g.number = 0 then (s.team g.team).badBuf else none) = none := ite_eq_right_iff.2 buffers
  simp only [issueWith, cur, current, form, clause, noBad, fate]

/-- A slot without a cause of R54 comes to what holds it, then to its guard and its registers. -/
theorem issueWith_of_noFate (fate : slotFate f g c = none) : issueWith i s pages body = .next (
    if s.gate g f.op ≠ [] then s.beginWait id { why := .ops (s.gate g f.op) }
    else if g.guarded f.slot = [] then s.finishSlot (f.slot.yield || f.op == 7)
    else if (formNames f).any g.isPending then s.raiseFault id c.slotPc .hazard 0 0 0
    else s.applyEff id c.slotPc f (body g (g.guarded f.slot) s)) := by
  have current : s.curGroup? = some g := by simp only [State.curGroup?, cur, here]
  have noBad : (if g.number = 0 then (s.team g.team).badBuf else none) = none := ite_eq_right_iff.2 buffers
  simp only [issueWith, cur, current, form, clause, noBad, fate, Bool.not_eq_true', List.isEmpty_eq_false_iff,
    List.isEmpty_iff]
  split_ifs <;> rfl

end

end Sys2Proof.Machine

namespace Sys2Proof.Claims

open Sys2Proof.Machine

/-- Settles O19: the turn's issuer is the group, and what it fetches is the decoded instruction, or the start of a clause. -/
theorem stepRunsGroupInstruction : Obligations.StepRunsGroupInstruction := by
  unfold Obligations.StepRunsGroupInstruction
  intro s ts id g next s1 running may real here
  have run := step_group next running may real here
  refine ⟨fun c w i clause word decoded => ?_, fun clause => ?_⟩
  · rw [run, State.groupInstr_decoded clause word decoded]
  · rw [run, State.groupInstr_between clause]

/-- Settles O27: every instruction of a group is issued by `issueWith`, whose branches are the fates in this order. -/
theorem slotFates : Obligations.SlotFates := by
  unfold Obligations.SlotFates
  intro i s id g c f cur here form group transfer clause buffers pc flag listed named guardFree
  have straight : isTransferOp f.op = false := by simpa [isTransferOp] using transfer
  obtain ⟨pages, body, run⟩ := exec_eq_issueWith form group straight s
  have flagOf : flag = c.flag f.slot.sel := by simp only [flag, Clause.flag]
  have fate := slotFate_eq g c straight
  rw [← flagOf] at fate
  rw [run]
  refine ⟨fun long noFlag => ?_, fun hasFlag unlisted => ?_, fun hasFlag isListed unnamed => ?_,
    fun hasFlag isListed isNamed pending => ?_, fun hasFlag isListed isNamed free => ?_⟩
  · rw [if_pos ⟨long, noFlag⟩] at fate
    exact issueWith_of_fate cur here form clause buffers pages body fate
  · rw [if_neg (fun h => hasFlag h.1 h.2), if_pos unlisted] at fate
    exact issueWith_of_fate cur here form clause buffers pages body fate
  · rw [if_neg (fun h => hasFlag h.1 h.2), if_neg (not_not.2 isListed), if_pos unnamed] at fate
    exact issueWith_of_fate cur here form clause buffers pages body fate
  · rw [if_neg (fun h => hasFlag h.1 h.2), if_neg (not_not.2 isListed), if_neg (not_not.2 isNamed), if_pos pending] at fate
    exact issueWith_of_fate cur here form clause buffers pages body fate
  · rw [if_neg (fun h => hasFlag h.1 h.2), if_neg (not_not.2 isListed), if_neg (not_not.2 isNamed),
      if_neg (not_not.2 free)] at fate
    rw [issueWith_of_noFate cur here form clause buffers pages body fate]
    refine ⟨fun held => ?_, fun open_ lanes => ⟨_, ?_, finishSlot_slotOver cur here clause (f.slot.yield || f.op == 7)⟩,
      fun open_ lanes pending => ?_⟩
    · rw [if_pos held]
    · rw [if_neg (not_not.2 open_), if_pos lanes]
    · rw [if_neg (not_not.2 open_), if_neg lanes, if_pos (List.any_eq_true.2 pending)]

end Sys2Proof.Claims
end

section
/-!
SUPPORT. The events of issue: the start of a clause, the ends of waits, the turns of the active set, words that are no
instruction and the comparisons of silent checking (R43 to R47, R53, R54, R138, R139, R143, R412).
-/

namespace Sys2Proof.Machine

open Sys2Proof.Safety Sys2Proof.Claims

theorem natBit_eq_true_iff (n i : Nat) : natBit n i = true ↔ n / 2 ^ i % 2 = 1 := by rw [natBit, beq_iff_eq]

/-! ### The start of a clause -/

section
variable {s : State} {id : Nat} {g : Group} {e : Entry} {w : Nat}

theorem State.codeWord?_fits (word : s.codeWord? g e.handler e.pc = some w) : e.pc + 12 ≤ s.codeSize g e.handler := by
  by_contra short
  simp only [State.codeWord?, if_neg short, reduceCtorEq] at word

theorem headerFine_iff : HeaderFine w ↔ w % 2 ^ 10 = 0x3FF ∧ 1 ≤ w / 2 ^ 15 % 16
    ∧ (w / 2 ^ 10 % 32 = 0 ∧ w / 2 ^ 41 % 8 = 0 ∧ w / 2 ^ 52 % 2 ^ 44 = 0)
    ∧ (if natBit w 35 = true then w / 2 ^ 31 % 16 ≤ 11 else w / 2 ^ 31 % 16 = 0)
    ∧ (if natBit w 40 = true then w / 2 ^ 36 % 16 ≤ 11 else w / 2 ^ 36 % 16 = 0)
    ∧ (natBit w 35 = true → natBit w 40 = true → w / 2 ^ 31 % 16 ≠ w / 2 ^ 36 % 16) := by
  simp only [natBit_eq_true_iff]
  exact ⟨fun ⟨marker, len, reserved, fa, fb, apart⟩ => ⟨marker, len, reserved, fa, fb, apart⟩,
    fun ⟨marker, len, reserved, fa, fb, apart⟩ => ⟨marker, len, reserved, fa, fb, apart⟩⟩

/-- R44's tests refuse the words with the marker that are not well formed; each flag is present or not. -/
theorem headerBad_eq_false_iff (marker : w % 2 ^ 10 = 0x3FF) : headerBad w = false ↔ HeaderFine w := by
  rw [headerFine_iff, and_iff_right marker, headerBad]
  cases natBit w 35 <;> cases natBit w 40 <;> simp [Nat.one_le_iff_ne_zero, and_assoc] <;>
    simp [natField, and_comm, and_left_comm]

theorem State.headerAt_range (past : s.codeSize g e.handler ≤ e.pc) : s.headerAt g e.handler e.pc = .error .codeRange := by
  rw [State.headerAt, if_pos past]

theorem State.headerAt_misaligned (inside : e.pc < s.codeSize g e.handler) (off : e.pc % 12 ≠ 0) :
    s.headerAt g e.handler e.pc = .error .illclause := by
  rw [State.headerAt, if_neg (Nat.not_le.2 inside), if_pos off]

/-- What the header at an aligned offset inside the code comes to, by its word. -/
theorem State.headerAt_word (inside : e.pc < s.codeSize g e.handler) (aligned : e.pc % 12 = 0)
    (word : s.codeWord? g e.handler e.pc = some w) : s.headerAt g e.handler e.pc =
      if w % 2 ^ 10 ≠ 0x3FF then .error .illclause
      else if s.codeSize g e.handler < e.pc + 12 * (w / 2 ^ 15 % 16 + 1) then .error .codeRange
      else if headerBad w then .error .illclause else .ok w := by
  rw [State.headerAt, if_neg (Nat.not_le.2 inside), if_neg (not_not.2 aligned)]
  have marker : natField w 9 0 = w % 2 ^ 10 := by simp [natField]
  simp only [word, marker]
  rfl

section
variable (inside : e.pc < s.codeSize g e.handler) (aligned : e.pc % 12 = 0) (word : s.codeWord? g e.handler e.pc = some w)
include inside aligned word

theorem State.headerAt_unmarked (unmarked : w % 2 ^ 10 ≠ 0x3FF) : s.headerAt g e.handler e.pc = .error .illclause := by
  rw [State.headerAt_word inside aligned word, if_pos unmarked]

theorem State.headerAt_long (marker : w % 2 ^ 10 = 0x3FF) (long : s.codeSize g e.handler < e.pc + 12 * (w / 2 ^ 15 % 16 + 1)) :
    s.headerAt g e.handler e.pc = .error .codeRange := by
  rw [State.headerAt_word inside aligned word, if_neg (not_not.2 marker), if_pos long]

variable (marker : w % 2 ^ 10 = 0x3FF) (fits : e.pc + 12 * (w / 2 ^ 15 % 16 + 1) ≤ s.codeSize g e.handler)
include marker fits

theorem State.headerAt_bad (bad : ¬HeaderFine w) : s.headerAt g e.handler e.pc = .error .illclause := by
  rw [State.headerAt_word inside aligned word, if_neg (not_not.2 marker), if_neg (Nat.not_lt.2 fits), if_pos]
  rwa [← Bool.not_eq_false, headerBad_eq_false_iff marker]

theorem State.headerAt_ok (fine : HeaderFine w) : s.headerAt g e.handler e.pc = .ok w := by
  rw [State.headerAt_word inside aligned word, if_neg (not_not.2 marker), if_neg (Nat.not_lt.2 fits),
    (headerBad_eq_false_iff marker).2 fine, if_neg Bool.false_ne_true]

end

/-- A group before a clause starts it, or faults, as its next entry's header says. -/
theorem execClauseStart_before (b : Before s id g e) :
    execClauseStart id s = .next ({ s with cur := .group id }.startClause id g e) := by
  have issuer : s.issuer id = .group id := by simp [State.issuer, b.real]
  simp only [execClauseStart, b.may, Bool.not_true, Bool.false_eq_true, if_false, issuer, State.curGroup?, b.here, b.outside,
    b.next]

theorem execClauseStart_fault {c : Cause} (b : Before s id g e) (header : s.headerAt g e.handler e.pc = .error c) :
    execClauseStart id s = .next ({ s with cur := .group id }.raiseFault id e.pc c 0 0 0) := by
  have header : State.headerAt { s with cur := .group id } g e.handler e.pc = .error c := header
  rw [execClauseStart_before b]
  simp only [State.startClause, header]

theorem execClauseStart_ok (b : Before s id g e) (header : s.headerAt g e.handler e.pc = .ok w) :
    execClauseStart id s = .next
      (if (headerWaits w).all (fun f => (g.flagOps f).isEmpty) then
        ({ s with cur := .group id } : State).putGroup id (g.enterClause e w)
      else { s with cur := .group id }.beginWait id { why := .flags (headerWaits w) }) := by
  have header : State.headerAt { s with cur := .group id } g e.handler e.pc = .ok w := header
  rw [execClauseStart_before b]
  simp only [State.startClause, header, State.putCur]

theorem mem_headerWaits (w f : Nat) : f ∈ headerWaits w ↔ f < 12 ∧ w / 2 ^ (19 + f) % 2 = 1 := by
  simp only [headerWaits, List.mem_filter, List.mem_range, natBit_eq_true_iff]

theorem headerWaits_clear_iff : ((headerWaits w).all (fun f => (g.flagOps f).isEmpty) = true)
    ↔ ∀ f, f < 12 ∧ w / 2 ^ (19 + f) % 2 = 1 → g.flagOps f = [] := by
  simp only [List.all_eq_true, mem_headerWaits, List.isEmpty_iff]

theorem Group.enterClause_eq (g : Group) (e : Entry) (w : Nat) : g.enterClause e w = { g with
    clause := some { pc := e.pc, len := w / 2 ^ 15 % 16, slot := 0, handler := e.handler
                     fa := if w / 2 ^ 35 % 2 = 1 then some (w / 2 ^ 31 % 16) else none
                     fb := if w / 2 ^ 40 % 2 = 1 then some (w / 2 ^ 36 % 16) else none }
    frontier := g.frontier.map (fun x =>
      if x.pc = e.pc ∧ x.handler = e.handler then { x with prio := w / 2 ^ 44 % 256 } else x) } := by
  simp [Group.enterClause, headerClause, natField, natBit_eq_true_iff]

/-- A wait that begins is the group's, and nothing else but schedulers changes. -/
theorem State.beginWait_spec (here : Tab.get? s.groups id = some g) (x : Wait) :
    OnlyGroup s (s.beginWait id x) id ∧ (s.beginWait id x).group id = { g with wait := some x } := by
  have changed : Tab.get? (s.modGroup id (fun y => { y with wait := some x })).groups id = some { g with wait := some x } := by
    rw [State.get?_modGroup, if_pos rfl, here]
    rfl
  have only := OnlyGroup.modGroup s id (fun y => { y with wait := some x })
  exact ⟨only.trans (OnlyGroup.settle _ id (s.group id).core), State.group_of_get? changed⟩

end

/-! ### The ends of waits -/

section
variable {s : State} {id : Nat} {g : Group} {w : Wait}

theorem OnlyGroup.becomeReady (s : State) (id g : Nat) : OnlyGroup s (s.becomeReady g) id := by
  unfold State.becomeReady
  split_ifs
  · exact OnlyGroup.refl s id
  · exact OnlyGroup.trans (t := s.putCore (s.group g).core
      { s.core (s.group g).core with ready := (s.core (s.group g).core).ready ++ [g] })
      (OnlyGroup.putCore s id (s.group g).core _ rfl) (OnlyGroup.settle _ id _)

theorem State.becomeReady_groups (s : State) (g : Nat) : (s.becomeReady g).groups = s.groups := by
  rw [State.becomeReady_frame]

theorem State.endWait_spec (here : Tab.get? s.groups id = some g) :
    OnlyGroup s (s.endWait id) id ∧ Tab.get? (s.endWait id).groups id = some { g with wait := none } := by
  have only := OnlyGroup.modGroup s id (fun y => { y with wait := none })
  refine ⟨only.trans (OnlyGroup.becomeReady _ id id), ?_⟩
  rw [State.endWait, State.becomeReady_groups, State.get?_modGroup, if_pos rfl, here]
  rfl

theorem State.resume_resumes (here : Tab.get? s.groups id = some g) : Resumes s (s.resume id w) id g w := by
  obtain ⟨only, ended⟩ := State.endWait_spec here
  have group := State.group_of_get? ended
  refine ⟨fun acted => ?_, fun acted c clause => ⟨s.endWait id, only, group, ?_⟩⟩
  · rw [State.resume, acted, if_neg Bool.false_ne_true]
    exact ⟨only, group⟩
  · rw [State.resume, acted, if_pos rfl]
    exact finishSlot_slotOver (s := { s.endWait id with cur := .group id }) rfl ended clause _

theorem State.waitOver_of_ended (expired : w.ended = true ∨ endedWait s id g w) : s.waitOver id g w = true := by
  rw [State.waitOver, Bool.or_eq_true]
  refine expired.imp_right fun expired => ?_
  obtain ⟨why, acted, ended⟩ := w
  cases why with
  | flags fs => simpa [endedWait] using expired
  | counter k n => simpa [endedWait] using expired
  | sleep n mask => simpa [endedWait] using expired
  | granule key full =>
    simp only [endedWait, List.contains_eq_mem, beq_iff_eq] at expired ⊢
    exact Bool.eq_iff_iff.2 (by simpa using expired)
  | nbar nb p => simpa [endedWait] using expired
  | obj h p => simpa [endedWait] using expired
  | matrix kind tile n => simpa [endedWait] using expired
  | ops ids => simpa [endedWait, State.pendingOps] using expired
  | page k => exact expired.elim
  | region => rfl
  | room => rfl
  | clock => simpa [endedWait] using expired

theorem State.recorded_of_not_page (other : ∀ k, w.why ≠ .page k) : s.recorded id w = none := by
  unfold State.recorded
  split
  · rename_i k why
    exact absurd why (other k)
  · rfl

theorem execIssueWaitEnd_over (here : Tab.get? s.groups id = some g) (wait : g.wait = some w) (attends : s.attends id = true)
    (free : g.trapping = none) (expired : w.ended = true ∨ endedWait s id g w) (other : ∀ k, w.why ≠ .page k) :
    execIssueWaitEnd id s = .next (s.resume id w) := by
  simp only [execIssueWaitEnd, State.group_of_get? here, wait, Option.bind_some, State.recorded_of_not_page other, attends,
    free, Option.isNone_none, State.waitOver_of_ended expired, Bool.and_self, if_true]

theorem execSleepcExpiry_over {n : Nat} {mask : Word} {acted ended : Bool} (here : Tab.get? s.groups id = some g)
    (wait : g.wait = some ⟨.sleep n mask, acted, ended⟩) (attends : s.attends id = true)
    (expired : n ≤ (s.core g.core).cycles) : execSleepcExpiry id s = .next (s.resume id ⟨.sleep n mask, acted, ended⟩) := by
  simp only [execSleepcExpiry, State.group_of_get? here, wait, attends, expired, decide_true, Bool.and_self, if_true]

end

/-! ### The turns of the active set -/

theorem execActiveTimeExpiry_over {s : State} {id h : Nat} {g : Group} {rest : List Nat}
    (here : Tab.get? s.groups id = some g) (running : g.waiting = false) (active : id ∈ (s.core g.core).active)
    (ready : (s.core g.core).ready = h :: rest)
    (time : Tab.getD (s.core g.core).entered id 0 + 512 ≤ (s.core g.core).cycles) :
    execActiveTimeExpiry id s = .next (s.offerPlace id) := by
  simp [execActiveTimeExpiry, State.group_of_get? here, running, active, ready, time]

/-- A group that gives up its place changes places with the first ready one (R139). -/
theorem CoreSt.swap_eq {k : CoreSt} {id h : Nat} {rest : List Nat} (active : id ∈ k.active) (ready : k.ready = h :: rest) :
    k.swap id true = { k with
      active := k.active.map (fun x => if x = id then h else x)
      ready := rest ++ [id], entered := Tab.put (Tab.erase k.entered id) h k.cycles } := by
  simp [CoreSt.swap, CoreSt.enter, ready, active]

/-! ### Words that are no instruction -/

theorem natBit_toNat (w : BitVec 96) (i : Nat) : natBit w.toNat i = w.getLsbD i := by
  rw [BitVec.getLsbD, Nat.testBit_eq_decide_div_mod_eq, natBit]
  rfl

section
variable {map : Nat → Option Nat} {core : Nat} {c : Clause} {w : Nat}

/-- A word with a fault of its place: a transfer not in the last slot, or a long-latency form without its flag (R53). -/
def Misplaced (map : Nat → Option Nat) (c : Clause) (w : Nat) : Prop := ∃ k, map (w % 1024) = some k
  ∧ (isTransferOp k = true ∧ c.last = false ∨ wordLong k w = true ∧ c.flag (natBit w 20) = none)

/-- A word of an operation of another kind of core (R52). -/
def OtherPool (map : Nat → Option Nat) (core w : Nat) : Prop := ∃ k, map (w % 1024) = some k
  ∧ poolOk (opPool k w) core = false

theorem misplaced_iff : ((map (natField w 9 0)).any (fun op =>
    (isTransferOp op && !c.last) || (wordLong op w && (c.flag (natBit w 20)).isNone))) = true ↔ Misplaced map c w := by
  simp [Misplaced, Option.any_eq_true, natField]

theorem otherPool_iff : ((map (natField w 9 0)).all (fun op => poolOk (opPool op w) core)) = false
    ↔ OtherPool map core w := by
  simp [OtherPool, Option.all_eq_false, natField]

/-- The fate of a word that is no instruction (R53, R54). -/
theorem nonInstructionFate_header (word : decodeWord map w = .header) : nonInstructionFate map core c w = .illclause := by
  simp only [nonInstructionFate, word]

theorem nonInstructionFate_misplaced (place : Misplaced map c w) : nonInstructionFate map core c w = .illclause := by
  simp only [nonInstructionFate, misplaced_iff.2 place, if_true]
  cases decodeWord map w <;> rfl

theorem nonInstructionFate_illopnd (word : decodeWord map w = .illopnd) (place : ¬Misplaced map c w) :
    nonInstructionFate map core c w
      = if (map (natField w 9 0)).all (fun op => poolOk (opPool op w) core) then .illopnd else .undef := by
  simp only [nonInstructionFate, word, (Bool.not_eq_true _).mp (mt misplaced_iff.1 place), Bool.false_eq_true, if_false]

theorem nonInstructionFate_undef (word : decodeWord map w = .undef) (place : ¬Misplaced map c w) :
    nonInstructionFate map core c w = .undef := by
  simp only [nonInstructionFate, word, (Bool.not_eq_true _).mp (mt misplaced_iff.1 place), Bool.false_eq_true, if_false]

end

section
variable {s : State} {id : Nat} {g : Group} {c : Clause} (cur : s.cur = .group id) (here : Tab.get? s.groups id = some g)
  (clause : g.clause = some c) (w : BitVec 96)
include cur here clause

theorem execNonInstructionIssue_buffers {k : Nat} (first : g.number = 0) (bad : (s.team g.team).badBuf = some k) :
    execNonInstructionIssue w s
      = .next (s.raiseFault id c.slotPc .bufstate (BitVec.ofNat 32 (1 + 65536 * k)) 0 0) := by
  have current : s.curGroup? = some g := by simp only [State.curGroup?, cur, here]
  simp only [execNonInstructionIssue, cur, current, clause, first, bad, if_true]

theorem execNonInstructionIssue_group (good : g.number ≠ 0 ∨ (s.team g.team).badBuf = none) :
    execNonInstructionIssue w s = .next (s.raiseFault id c.slotPc
      (nonInstructionFate (opcodeMap (s.context g.part g.ctx).table) g.core c w.toNat) 0 0 0) := by
  have current : s.curGroup? = some g := by simp only [State.curGroup?, cur, here]
  have noBad : (if g.number = 0 then (s.team g.team).badBuf else none) = none :=
    ite_eq_right_iff.2 fun first => good.resolve_left (not_not.2 first)
  simp only [execNonInstructionIssue, cur, current, clause, noBad]

end

/-- A stream word whose operand alone is wrong: the OP is a stream operation, and the fields of a group's slot are zero
(R277). -/
def StreamOperand (map : Nat → Option Nat) (w : Nat) : Prop := decodeWord map w = .illopnd ∧ w / 2 ^ 10 % 2 ^ 11 = 0
  ∧ ∃ k, map (w % 1024) = some k ∧ opPool k w = .stream

theorem streamWordFate_operand {map : Nat → Option Nat} {w : Nat} (operand : StreamOperand map w) :
    streamWordFate map w = .illopnd := by
  obtain ⟨word, low, k, op, pool⟩ := operand
  have low : natField w 20 10 = 0 := low
  have op : map (natField w 9 0) = some k := by simpa [natField] using op
  simp [streamWordFate, word, low, op, pool]

theorem streamWordFate_other {map : Nat → Option Nat} {w : Nat} (other : ¬StreamOperand map w) :
    streamWordFate map w = .undef := by
  unfold streamWordFate
  split
  · rename_i word
    refine if_neg fun both => other ⟨word, ?_⟩
    simp only [Bool.and_eq_true, decide_eq_true_eq, Option.any_eq_true, beq_iff_eq] at both
    simpa [natField] using both
  all_goals rfl

theorem execNonInstructionIssue_stream {s : State} {t : Nat} (cur : s.cur = .stream t) (w : BitVec 96) :
    execNonInstructionIssue w s = .next (s.streamFault t
      (streamWordFate (opcodeMap (s.context (s.team t).part (s.team t).ctx).table) w.toNat) 0) := by
  simp only [execNonInstructionIssue, cur]

/-! ### The comparisons of silent checking -/

section
variable {s : State} {id pc : Nat} {g : Group} {lanes : Mask}

/-- The state after a disagreement is counted, logged and charged to its core, before a quarantine is logged (R412). -/
def State.charged (s : State) (g : Group) (pc : Nat) (lanes : Mask) : State :=
  ((s.modFunc g.part (fun f => { f with sechkDis := f.sechkDis + 1 })).logEntry
    (.disagreement g.core g.ctx pc lanes)).putCore g.core (s.core g.core).disagree

theorem State.core_charged (s : State) (g : Group) (pc : Nat) (lanes : Mask) (j : Nat) :
    (s.charged g pc lanes).core j = if j = g.core then (s.core g.core).disagree else s.core j :=
  State.core_putCore _ g.core j _

theorem State.func_charged (s : State) (g : Group) (pc : Nat) (lanes : Mask) (j : Nat) :
    (s.charged g pc lanes).func j = if j = g.part then
      { s.func g.part with sechkDis := (s.func g.part).sechkDis + 1 } else s.func j :=
  State.func_modFunc s g.part j (fun f => { f with sechkDis := f.sechkDis + 1 })

theorem CoreSt.mem_disagreements (k : CoreSt) (x : Nat) :
    x ∈ k.disagree.disagreements ↔ x = k.cycles ∨ x ∈ k.disagreements ∧ k.cycles < x + 2 ^ 30 := by
  simp only [CoreSt.disagree, List.mem_append, List.mem_filter, decide_eq_true_eq, List.mem_singleton]
  rw [or_comm, show k.cycles - x < 2 ^ 30 ↔ k.cycles < x + 2 ^ 30 by omega]

section
variable (part : (s.group id).part = g.part) (core : (s.group id).core = g.core) (ctx : (s.group id).ctx = g.ctx)
include part core ctx

theorem State.disagree_eq : s.disagree id pc lanes =
    if (s.core g.core).quarantined = false ∧ (s.core g.core).disagree.quarantined = true then
      (s.charged g pc lanes).logEntry (.quarantine g.core)
    else s.charged g pc lanes := by
  have charged : (s.charged g pc lanes).core g.core = (s.core g.core).disagree := by rw [State.core_charged, if_pos rfl]
  rw [State.disagree]
  simp only [part, core, ctx]
  change (if (!(s.core g.core).quarantined && ((s.charged g pc lanes).core g.core).quarantined) = true then
    (s.charged g pc lanes).logEntry (.quarantine g.core) else s.charged g pc lanes) = _
  simp only [charged, Bool.and_eq_true, Bool.not_eq_true']

theorem State.disagree_rest : s.disagree id pc lanes =
    { s with funcs := (s.disagree id pc lanes).funcs, mgmt := (s.disagree id pc lanes).mgmt
             cores := (s.disagree id pc lanes).cores } := by
  obtain ⟨fs, m, cs, charged⟩ : ∃ fs m cs, s.charged g pc lanes = { s with funcs := fs, mgmt := m, cores := cs } :=
    ⟨_, _, _, rfl⟩
  rw [State.disagree_eq part core ctx, charged]
  split_ifs
  · rfl
  · rfl

theorem State.disagree_disagreed : Disagreed s (s.disagree id pc lanes) g pc lanes := by
  have funcs : ∀ j, (s.disagree id pc lanes).func j = if j = g.part then
      { s.func g.part with sechkDis := (s.func g.part).sechkDis + 1 } else s.func j := by
    intro j
    rw [State.disagree_eq part core ctx, ← State.func_charged s g pc lanes j]
    split_ifs <;> rfl
  have cores : ∀ j, (s.disagree id pc lanes).core j = if j = g.core then (s.core g.core).disagree else s.core j := by
    intro j
    rw [State.disagree_eq part core ctx, ← State.core_charged s g pc lanes j]
    split_ifs <;> rfl
  refine ⟨State.disagree_rest part core ctx, ?_, fun j other => ?_, fun j other => ?_, fun x => ?_, ?_, ?_⟩
  · rw [funcs, if_pos rfl]
  · rw [funcs, if_neg other]
  · rw [cores, if_neg other]
  · rw [cores, if_pos rfl]
    exact CoreSt.mem_disagreements _ x
  · rw [cores, if_pos rfl]
    rfl
  · rw [cores, if_pos rfl, State.disagree_eq part core ctx]
    refine ⟨_, ?_, rfl⟩
    split_ifs
    · exact List.append_assoc _ _ _
    · rfl

end

end

end Sys2Proof.Machine

namespace Sys2Proof.Claims

open Sys2Proof.Machine

/-- Settles O51: each event's branch is the one that its hypotheses name. -/
theorem issueEvents : Obligations.IssueEvents := by
  unfold Obligations.IssueEvents
  refine ⟨fun s id g e w before aligned word fine fits => ⟨fun clear => ?starts, fun ⟨f, named, busy⟩ => ?waits⟩,
    fun s id g e before => ⟨fun past => execClauseStart_fault before (State.headerAt_range past),
      fun inside off => execClauseStart_fault before (State.headerAt_misaligned inside off),
      fun w inside aligned word => ⟨fun unmarked => ?unmarked, fun marker long => ?long, fun marker fits bad => ?malformed⟩⟩,
    fun s id g w here wait attends free expired other =>
      ⟨_, execIssueWaitEnd_over here wait attends free expired other, State.resume_resumes here⟩,
    fun s id g n mask acted ended here wait attends _ due =>
      ⟨_, execSleepcExpiry_over here wait attends due, State.resume_resumes here⟩,
    fun s id g h rest here running active ready other time => ?place,
    fun s id g c w cur here clause => ⟨fun k first bad => ?buffers, fun good => ⟨?misplaced, ?operand, ?pool, ?undefined⟩⟩,
    fun s t w cur => ⟨fun operand => ?streamOperand, fun other => ?streamOther⟩,
    fun s id g pc lanes rest here checks => ?checks⟩
  case starts =>
    have inside := State.codeWord?_fits word
    have header := State.headerAt_ok (by omega) aligned word fine.marker fits fine
    have run := execClauseStart_ok before header
    rw [if_pos (headerWaits_clear_iff.2 clear), Group.enterClause_eq] at run
    refine ⟨_, run, rfl, fun j other => ?_, State.group_of_get? ?_⟩
    · rw [State.putGroup_groups, Tab.get?_put, if_neg other]
    · rw [State.putGroup_groups, Tab.get?_put, if_pos rfl]
  case waits =>
    have inside := State.codeWord?_fits word
    have header := State.headerAt_ok (by omega) aligned word fine.marker fits fine
    have run := execClauseStart_ok before header
    rw [if_neg (fun clear => busy (headerWaits_clear_iff.1 clear f named))] at run
    obtain ⟨only, group⟩ := State.beginWait_spec (s := { s with cur := .group id }) before.here
      { why := .flags (headerWaits w) }
    refine ⟨_, run, only, group.trans ?_⟩
    rfl
  case unmarked => exact execClauseStart_fault before (State.headerAt_unmarked inside aligned word unmarked)
  case long => exact execClauseStart_fault before (State.headerAt_long inside aligned word marker long)
  case malformed => exact execClauseStart_fault before (State.headerAt_bad inside aligned word marker fits bad)
  case place =>
    have group := State.group_of_get? here
    have run := execActiveTimeExpiry_over here running active ready time
    rw [State.offerPlace, group, CoreSt.swap_eq active ready] at run
    refine ⟨_, run, rfl, fun j elsewhere => ?_, ?_, ?_, ?_⟩
    · rw [State.core_putCore, if_neg elsewhere]
    · rw [State.core_putCore, if_pos rfl]
    · rw [State.core_putCore, if_pos rfl, Tab.get?_put, if_pos rfl]
    · rw [State.core_putCore, if_pos rfl, Tab.get?_put, if_neg (Ne.symm other), Tab.get?_erase, if_pos rfl]
  case buffers => exact execNonInstructionIssue_buffers cur here clause w first bad
  case misplaced =>
    simp only [← natBit_toNat]
    intro faulty
    have fate := faulty.elim (nonInstructionFate_header (core := g.core)) nonInstructionFate_misplaced
    exact fate ▸ execNonInstructionIssue_group cur here clause w good
  case operand =>
    simp only [← natBit_toNat]
    intro word place pool
    have fate := nonInstructionFate_illopnd (core := g.core) word place
    rw [if_pos ((Bool.not_eq_false _).mp (mt otherPool_iff.1 pool))] at fate
    exact fate ▸ execNonInstructionIssue_group cur here clause w good
  case pool =>
    simp only [← natBit_toNat]
    intro word place pool
    have fate := nonInstructionFate_illopnd (core := g.core) word place
    rw [otherPool_iff.2 pool, if_neg Bool.false_ne_true] at fate
    exact fate ▸ execNonInstructionIssue_group cur here clause w good
  case undefined =>
    simp only [← natBit_toNat]
    intro word place
    exact nonInstructionFate_undef (core := g.core) word place ▸ execNonInstructionIssue_group cur here clause w good
  case streamOperand => exact streamWordFate_operand operand ▸ execNonInstructionIssue_stream cur w
  case streamOther => exact streamWordFate_other other ▸ execNonInstructionIssue_stream cur w
  case checks =>
    have group := State.group_of_get? here
    have entry : oneEntry s.groups (s.modGroup id (fun x => { x with checks := rest })).groups id
        (some { g with checks := rest }) := by
      refine ⟨by rw [State.get?_modGroup, if_pos rfl, here]; rfl, fun j other => ?_⟩
      rw [State.get?_modGroup, if_neg other]
    have changed := State.group_of_get? entry.1
    have differ := State.disagree_disagreed (g := g) (pc := pc) (lanes := lanes)
      (by rw [changed]) (by rw [changed]) (by rw [changed])
    have run : ∀ a, exec (.silentCheckReplay id a) s = execSilentCheckReplay id a s := fun _ => rfl
    simp only [run, execSilentCheckReplay, group, checks]
    exact ⟨s.modGroup id (fun x => { x with checks := rest }), rfl, entry, rfl, ⟨_, rfl, differ⟩, ⟨_, rfl, differ⟩⟩

end Sys2Proof.Claims
end

section
/-!
SUPPORT. The commands that create and destroy contexts and queues (R56, R68 to R71, R98, R274, R372).
-/

namespace Sys2Proof.Machine

open Sys2Proof.Claims

/-! ### The steps of a command -/

@[simp] theorem Cmd.andThen_ok {α β : Type} (a : α) (f : α → Cmd β) : (Cmd.ok a).andThen f = f a := rfl

@[simp] theorem Cmd.andThen_refused {α β : Type} (r : Nat) (f : α → Cmd β) : (Cmd.refused r : Cmd α).andThen f = .refused r :=
  rfl

@[simp] theorem Got.cmd_ok {α : Type} (a : α) (r : Nat) : (Got.ok a).cmd r = .ok a := rfl

/-- A condition that holds is passed. -/
theorem demand_pass {α : Type} {b : Bool} {r : Nat} {f : Unit → Cmd α} (holds : b = true) :
    (demand b r).andThen f = f () := by rw [holds]; rfl

/-- A condition that fails is its RESULT. -/
theorem demand_fail {α : Type} {b : Bool} {r : Nat} {f : Unit → Cmd α} (fails : b ≠ true) :
    (demand b r).andThen f = .refused r := by rw [(Bool.not_eq_true b).mp fails]; rfl

theorem State.queueCommand_idle {s : State} {part n : Nat} {cmd : Word} (opcode : cmd.toNat % 16 = n)
    (idle : (s.func part).qCmd = none) :
    s.queueCommand part n cmd = s.modFunc part (fun f => { f with qCmd := some (cmd, f.qArg) }) := by
  have named : natField cmd.toNat 3 0 = n := by simpa [natField] using opcode
  rw [State.queueCommand, if_neg]
  simp [named, idle]

theorem State.queueCommand_busy {s : State} {part n : Nat} {cmd : Word} (busy : (s.func part).qCmd ≠ none) :
    s.queueCommand part n cmd = s := by
  rw [State.queueCommand, if_pos (.inr (Option.isSome_iff_ne_none.2 busy))]

/-! ### Descriptors -/

section
variable {s : State} {part arg : Nat} {d : List Byte}

theorem State.descriptor_ok (read : Descriptor s part arg d) : s.descriptor part arg = .ok d := by
  obtain ⟨aligned, k, target, clean, rfl⟩ := read
  rcases target with target | target
  all_goals
    simp only [State.descriptor, target, aligned, ne_eq, not_true_eq_false, if_false, clean, Bool.false_eq_true]
    rfl

theorem State.descriptor_refused (bad : arg % 64 ≠ 0 ∨ s.rangeTarget part arg 64 = .nothing) :
    s.descriptor part arg = .refused 4 := by
  rcases bad with off | nowhere
  · unfold State.descriptor
    split <;> simp [off]
  · simp only [State.descriptor, nowhere]

/-! ### The creation of a context -/

theorem State.createContext_unfit (read : Descriptor s part arg d) (unfit : ¬ContextFine s part d) :
    s.createContext part arg = .refused 4 := by
  simp only [State.createContext, State.descriptor_ok read, Cmd.andThen_ok]
  refine demand_fail fun fit => unfit ?_
  simp only [Bool.and_eq_true, beq_iff_eq, decide_eq_true_eq] at fit
  obtain ⟨⟨reserved, root⟩, target⟩ := fit
  split at target
  · rename_i k mem
    exact ⟨reserved, root, .inl ⟨k, mem⟩⟩
  · rename_i k host
    exact ⟨reserved, root, .inr ⟨k, host⟩⟩
  · cases target
  · cases target
  · cases target

/-- The tables of a new context: read from its descriptor's addresses, or those of its template (R56, R70, R108). -/
def State.madeContext (s : State) (part n : Nat) (d : List Byte) (c : Context) : Cmd Context :=
  if field d 40 8 = 0 then
    ({ s with contexts := Tab.put s.contexts (64 * part + n) c }.readTable (s.commandEng part n 2) (field d 8 8)).andThen
      fun t => ({ s with contexts := Tab.put s.contexts (64 * part + n) c }.readHandlers (s.commandEng part n 2)
        (field d 16 8)).andThen fun h => .ok { c with table := t, handlers := h.1, inq := h.2.1, windows := h.2.2 }
  else
    (((s.contexts.map Prod.snd).find?
      (fun x => x.live && x.part == part && x.isTemplate && x.desc == field d 40 8)).elim (.refused 2)
        fun t => .ok { c with table := t.table, handlers := t.handlers, inq := t.inq, windows := t.windows })

/-- A context as its descriptor gives it, without tables (R68). -/
def bareContext (part arg : Nat) (d : List Byte) : Context :=
  { part := part, desc := arg, ptroot := field d 0 8, traph := field d 24 8, seed := BitVec.ofNat 64 (field d 32 8)
    isTemplate := decide (field d 48 1 % 2 = 1), sechk := decide (field d 48 1 / 2 % 2 = 1) }

section
variable (read : Descriptor s part arg d) (fine : ContextFine s part d)
include read fine

theorem State.createContext_fine : s.createContext part arg =
    ((List.range 64).find? (fun c => !(s.context part c).live)).elim (.refused 3) fun n =>
      (s.madeContext part n d (bareContext part arg d)).andThen fun c => (demand (field d 24 8 % 256 == 0) 4).andThen fun _ =>
        ((if field d 24 8 = 0 then Got.ok ()
          else { s with contexts := Tab.put s.contexts (64 * part + n) (bareContext part arg d) }.mapped
            (s.commandEng part n 2) (field d 24 8) 64 false).cmd 4).andThen fun _ =>
              .ok ({ s.engDone (s.commandEng part n 2) with
                contexts := Tab.put s.contexts (64 * part + n) { c with live := true } }, n) := by
  obtain ⟨⟨zero, flags⟩, root, target⟩ := fine
  simp only [State.createContext, State.descriptor_ok read, Cmd.andThen_ok]
  refine (demand_pass ?_).trans ?_
  · simp only [Bool.and_eq_true, beq_iff_eq, decide_eq_true_eq]
    refine ⟨⟨⟨zero, flags⟩, root⟩, ?_⟩
    obtain ⟨k, target⟩ | ⟨k, target⟩ := target
    all_goals
      have target : s.rangeTarget part (objNat d 0 8) 4096 = _ := target
      rw [target]
  · cases (List.range 64).find? (fun c => !(s.context part c).live) with
    | none => rfl
    | some n =>
      have template : natBit (objNat d 48 1) 0 = decide (field d 48 1 % 2 = 1) := by
        simp only [natBit, Nat.pow_zero, Nat.div_one]
        rfl
      have checked : natBit (objNat d 48 1) 1 = decide (field d 48 1 / 2 % 2 = 1) := rfl
      simp only [template, checked, State.madeContext, Option.elim_some]
      by_cases own : field d 40 8 = 0
      · have own' : objNat d 40 8 = 0 := own
        rw [if_pos own, if_pos own']
        rfl
      · have own' : ¬objNat d 40 8 = 0 := own
        rw [if_neg own, if_neg own']
        have same : objNat d 40 8 = field d 40 8 := rfl
        rw [same]
        cases (s.contexts.map Prod.snd).find?
          (fun x => x.live && x.part == part && x.isTemplate && x.desc == field d 40 8) with
        | none => rfl
        | some t => rfl

theorem State.createContext_full (full : ∀ n, ¬(n < 64 ∧ (s.context part n).live = false)) :
    s.createContext part arg = .refused 3 := by
  have none_ : (List.range 64).find? (fun c => !(s.context part c).live) = none := by simpa using full
  rw [State.createContext_fine read fine, none_, Option.elim_none]

theorem State.createContext_free {n : Nat} (free : n < 64 ∧ (s.context part n).live = false)
    (lowest : ∀ m, m < n → ¬(m < 64 ∧ (s.context part m).live = false)) (noTrap : field d 24 8 = 0) :
    s.createContext part arg = (s.madeContext part n d (bareContext part arg d)).andThen fun c =>
      .ok ({ s.engDone (s.commandEng part n 2) with
        contexts := Tab.put s.contexts (64 * part + n) { c with live := true } }, n) := by
  have some_ : (List.range 64).find? (fun c => !(s.context part c).live) = some n := by
    refine List.find?_range_eq_some.2 ⟨by simp [free.2], List.mem_range.2 free.1, fun m below => ?_⟩
    have live := lowest m below
    rw [not_and, Bool.not_eq_false] at live
    simp [live (below.trans free.1)]
  rw [State.createContext_fine read fine, some_, Option.elim_some]
  simp only [noTrap, Nat.zero_mod, if_true]
  rfl

end

/-! ### The tables of a new context -/

section
variable {n : Nat} {c : Context}

theorem State.madeContext_empty (own : field d 40 8 = 0) (noTable : field d 8 8 = 0) (noHandlers : field d 16 8 = 0) :
    s.madeContext part n d c = .ok { c with table := none, handlers := [], inq := 0, windows := [] } := by
  rw [State.madeContext, if_pos own, noTable, noHandlers]
  rfl

theorem State.madeContext_table (own : field d 40 8 = 0) (off : field d 8 8 % 4096 ≠ 0) :
    s.madeContext part n d c = .refused 1 := by
  have some_ : field d 8 8 ≠ 0 := fun zero => off (by rw [zero])
  rw [State.madeContext, if_pos own, State.readTable, if_neg some_, demand_fail (by simpa using off)]
  rfl

theorem State.madeContext_handlers (own : field d 40 8 = 0) (noTable : field d 8 8 = 0) (off : field d 16 8 % 64 ≠ 0) :
    s.madeContext part n d c = .refused 4 := by
  have some_ : field d 16 8 ≠ 0 := fun zero => off (by rw [zero])
  rw [State.madeContext, if_pos own, State.readTable, if_pos noTable, Cmd.andThen_ok, State.readHandlers, if_neg some_,
    demand_fail (by simpa using off)]
  rfl

theorem State.madeContext_unknown (other : field d 40 8 ≠ 0) (unknown : ∀ x ∈ s.contexts,
    ¬(x.2.live = true ∧ x.2.part = part ∧ x.2.isTemplate = true ∧ x.2.desc = field d 40 8)) :
    s.madeContext part n d c = .refused 2 := by
  have none_ : (s.contexts.map Prod.snd).find?
      (fun x => x.live && x.part == part && x.isTemplate && x.desc == field d 40 8) = none := by
    rw [List.find?_map, Option.map_eq_none_iff, List.find?_eq_none]
    intro x listed
    simpa [and_assoc] using unknown x listed
  rw [State.madeContext, if_neg other, none_, Option.elim_none]

theorem State.madeContext_template {x : Nat × Context} (other : field d 40 8 ≠ 0)
    (found : s.contexts.find? (fun x => x.2.live && x.2.part == part && x.2.isTemplate && x.2.desc == field d 40 8) = some x) :
    s.madeContext part n d c = .ok { c with
      table := x.2.table, handlers := x.2.handlers, inq := x.2.inq, windows := x.2.windows } := by
  have some_ : (s.contexts.map Prod.snd).find?
      (fun x => x.live && x.part == part && x.isTemplate && x.desc == field d 40 8) = some x.2 := by
    rw [List.find?_map]
    exact congrArg (Option.map Prod.snd) found
  rw [State.madeContext, if_neg other, some_, Option.elim_some]

end

/-! ### The creation of a queue -/

theorem State.createQueue_noContext {ctx : Nat}
    (absent : (s.context part ctx).live = false ∨ (s.context part ctx).isTemplate = true) :
    s.createQueue part arg ctx = .refused 4 :=
  demand_fail (by rcases absent with h | h <;> simp [h])

/-- The sizes of a ring: 16 to 65,536 (R71). -/
theorem ringSize_iff (size : Nat) :
    (∃ k ∈ List.range 13, size = 2 ^ (k + 4)) ↔ ∃ k, 4 ≤ k ∧ k ≤ 16 ∧ size = 2 ^ k := by
  constructor
  · rintro ⟨k, below, eq⟩
    have below := List.mem_range.1 below
    exact ⟨k + 4, by omega, by omega, eq⟩
  · rintro ⟨k, low, high, eq⟩
    exact ⟨k - 4, List.mem_range.2 (by omega), by rwa [Nat.sub_add_cancel low]⟩

section
variable {ctx : Nat} (read : Descriptor s part arg d) (live : (s.context part ctx).live = true)
  (own : (s.context part ctx).isTemplate = false)
include read live own

theorem State.createQueue_unfit (unfit : ¬QueueFine s part d) : s.createQueue part arg ctx = .refused 4 := by
  rw [State.createQueue]
  refine (demand_pass (by simp [live, own])).trans ?_
  simp only [State.descriptor_ok read, Cmd.andThen_ok]
  refine demand_fail fun fit => unfit ?_
  simp only [Bool.and_eq_true, beq_iff_eq, decide_eq_true_eq, ringSize_iff, List.any_eq_true] at fit
  obtain ⟨⟨⟨⟨⟨⟨⟨⟨⟨zero, page⟩, size⟩, prio⟩, det⟩, trapen⟩, die⟩, unit⟩, head⟩, err⟩ := fit
  exact ⟨zero, ⟨page, size⟩, ⟨prio, det, trapen⟩, ⟨die, unit⟩, head, err⟩

/-- A queue as its descriptor gives it, with the inbound settings read (R71, R109). -/
theorem State.createQueue_fine (fine : QueueFine s part d)
    (mapped : ∀ r ∈ [(field d 0 8, 16 * field d 8 4, false), (field d 0 8, 16 * field d 8 4, true), (field d 16 8, 8, true),
      (field d 24 8, 32, true)], s.mapped (s.commandEng part ctx (field d 15 1)) r.1 r.2.1 r.2.2 = .ok ()) :
    s.createQueue part arg ctx =
      (pickIndex s.fresh ((List.range 1024).filter (fun q => !(s.queue part q).live))).elim (.refused 3) fun q =>
        (s.readInbound (s.commandEng part ctx (field d 15 1)) (s.context part ctx).inq q).andThen fun inb =>
          .ok ({ (s.engDone (s.commandEng part ctx (field d 15 1))).tick with
            queues := Tab.put s.queues (1024 * part + q) { newQueue d
              (if (s.queue part q).gen = 0xFFFF then 1 else (s.queue part q).gen + 1) ctx with inb := inb } }, q) := by
  obtain ⟨zero, ⟨page, size⟩, ⟨prio, det, trapen⟩, ⟨die, unit⟩, head, err⟩ := fine
  simp only [List.forall_mem_cons, List.not_mem_nil, false_imp_iff, implies_true, and_true] at mapped
  obtain ⟨ringRead, ringWrite, headWrite, errWrite⟩ := mapped
  rw [State.createQueue]
  refine (demand_pass (by simp [live, own])).trans ?_
  simp only [State.descriptor_ok read, Cmd.andThen_ok]
  refine (demand_pass ?_).trans ?_
  · simp only [Bool.and_eq_true, beq_iff_eq, decide_eq_true_eq, ringSize_iff, List.any_eq_true]
    exact ⟨⟨⟨⟨⟨⟨⟨⟨⟨zero, page⟩, size⟩, prio⟩, det⟩, trapen⟩, die⟩, unit⟩, head⟩, err⟩
  · have ringRead : (s.mapped (s.commandEng part ctx (objNat d 15 1)) (objNat d 0 8) (16 * objNat d 8 4) false) = .ok () :=
      ringRead
    have ringWrite : (s.mapped (s.commandEng part ctx (objNat d 15 1)) (objNat d 0 8) (16 * objNat d 8 4) true) = .ok () :=
      ringWrite
    have headWrite : s.mapped (s.commandEng part ctx (objNat d 15 1)) (objNat d 16 8) 8 true = .ok () := headWrite
    have errWrite : s.mapped (s.commandEng part ctx (objNat d 15 1)) (objNat d 24 8) 32 true = .ok () := errWrite
    have rank : (if objNat d 12 1 = 4 then 0 else objNat d 12 1) = field d 12 1 % 4 := by
      have same : objNat d 12 1 = field d 12 1 := rfl
      rw [same]
      split_ifs <;> omega
    simp only [ringRead, ringWrite, headWrite, errWrite, rank, Got.cmd_ok, Cmd.andThen_ok]
    cases pickIndex s.fresh ((List.range 1024).filter (fun q => !(s.queue part q).live)) with
    | none => rfl
    | some q => rfl

end

/-- The index of a new queue is one of those that are free. -/
theorem pickIndex_mem {fresh : Nat} {l : List Nat} (some_ : l ≠ []) : ∃ q ∈ l, pickIndex fresh l = some q := by
  unfold pickIndex
  split_ifs with chosen
  · exact ⟨_, by simpa using chosen, rfl⟩
  · exact ⟨l.head some_, List.head_mem some_, List.head?_eq_some_head some_⟩

/-! ### The destruction of queues and contexts -/

theorem State.destroyQueue_absent {q : Nat} (absent : 1024 ≤ q ∨ (s.queue part q).live = false) :
    s.destroyQueue part q = .refused 4 :=
  demand_fail (by rcases absent with h | h <;> simp [h])

theorem State.destroyQueue_busy {q : Nat} (below : q < 1024) (live : (s.queue part q).live = true)
    (busy : ¬((s.queue part q).state = .idle ∨ (s.queue part q).state = .error) ∨ (s.queue part q).inb.busy = true) :
    s.destroyQueue part q = .refused 5 := by
  rw [State.destroyQueue]
  refine (demand_pass (by simp [below, live])).trans (demand_fail ?_)
  rcases busy with h | h
  · simp [not_or.1 h]
  · simp [h]

theorem State.destroyQueue_idle {q : Nat} (below : q < 1024) (live : (s.queue part q).live = true)
    (idle : (s.queue part q).state = .idle ∨ (s.queue part q).state = .error) (free : (s.queue part q).inb.busy = false) :
    s.destroyQueue part q = .ok (s.dropQueue part q) := by
  rw [State.destroyQueue]
  refine (demand_pass (by simp [below, live])).trans (demand_pass ?_)
  simpa [free] using idle

/-- A queue that holds no entries ceases to be live, and keeps its generation (R71). -/
theorem State.dropQueue_empty {q : Nat} (live : (s.queue part q).live = true) (empty : (s.queue part q).held = []) :
    QueueOnly s (s.dropQueue part q) part q { gen := (s.queue part q).gen } := by
  have dropped : s.dropEntries part q = s := by simp only [State.dropEntries, empty, List.foldl_nil]
  rw [State.dropQueue, dropped]
  refine ⟨rfl, ?_⟩
  have listed : Tab.get? s.queues (1024 * part + q) = some (s.queue part q) := by
    cases found : Tab.get? s.queues (1024 * part + q) with
    | none => simp [State.queue, Tab.getD, found] at live
    | some x => simp [State.queue, Tab.getD, found]
  have changed : (s.modQueue part q (fun x => { gen := x.gen })).queues
      = Tab.put s.queues (1024 * part + q) { gen := (s.queue part q).gen } := by
    simp only [State.modQueue, Tab.modify, listed]
  exact changed ▸ oneEntry_put _ _ _

theorem State.destroyContext_absent {ctx : Nat} (absent : (s.context part ctx).live = false) :
    s.destroyContext part ctx = .refused 4 :=
  demand_fail (by simp [absent])

theorem State.destroyContext_busy {ctx : Nat} (live : (s.context part ctx).live = true)
    (busy : ∃ q ∈ s.contextQueues part ctx, (s.queue part q).state ≠ .idle ∨ (s.queue part q).inb.busy = true) :
    s.destroyContext part ctx = .refused 5 := by
  rw [State.destroyContext]
  refine (demand_pass live).trans (demand_fail fun all => ?_)
  obtain ⟨q, own, busy⟩ := busy
  have idle := List.all_eq_true.1 all q own
  simp only [Bool.and_eq_true, beq_iff_eq, Bool.not_eq_true'] at idle
  rcases busy with h | h
  · exact h idle.1
  · rw [idle.2] at h
    cases h

/-- A barrier object's entry after the destruction of a context: those that the context held are freed (R372). -/
def BarObj.without (b : BarObj) (part ctx : Nat) : BarObj := if b.held && b.part == part && b.ctx == ctx then b.freed else b

theorem State.destroyContext_noQueues {ctx : Nat} (live : (s.context part ctx).live = true)
    (noQueues : s.contextQueues part ctx = []) : s.destroyContext part ctx = .ok { s with
      contexts := Tab.erase s.contexts (64 * part + ctx)
      barObjs := s.barObjs.map (fun b => (b.1, b.2.without part ctx))
      grants := s.grants.filter (fun g => !(g.1 % 64 == ctx && g.1 / 4096 == part)) } := by
  rw [State.destroyContext, noQueues]
  refine (demand_pass live).trans ((demand_pass rfl).trans ?_)
  have freed : ∀ b : Nat × BarObj, (if b.2.held && b.2.part == part && b.2.ctx == ctx then (b.1, b.2.freed) else b)
      = (b.1, b.2.without part ctx) := fun b => by
    unfold BarObj.without
    split_ifs <;> rfl
  simp only [List.foldl_nil, freed]

theorem Tab.get?_mapValues {α β : Type} (f : α → β) (k : Nat) : ∀ t : Tab α,
    Tab.get? (t.map (fun x => (x.1, f x.2))) k = (Tab.get? t k).map f
  | [] => rfl
  | (j, v) :: t => by
    simp only [List.map_cons, Tab.get?, Tab.get?_mapValues f k t]
    split_ifs <;> rfl

theorem BarObj.without_of_not {b : BarObj} {ctx : Nat} (other : ¬(b.held = true ∧ b.part = part ∧ b.ctx = ctx)) :
    b.without part ctx = b := by
  rw [BarObj.without, if_neg]
  simpa [and_assoc] using other

theorem BarObj.without_held {b : BarObj} {ctx : Nat} (held : b.held = true) (of : b.part = part) (own : b.ctx = ctx) :
    (b.without part ctx).held = false := by
  rw [BarObj.without, if_pos (by simp [held, of, own])]
  rfl

/-- The entry of a barrier object, where the table's default is freed to itself. -/
theorem State.barObj_without {t : State} {ctx : Nat} (objs : t.barObjs = s.barObjs.map (fun b => (b.1, b.2.without part ctx)))
    (h : Nat) : t.barObj h = (s.barObj h).without part ctx := by
  rw [State.barObj, State.barObj, Tab.getD, Tab.getD, objs,
    Tab.get?_mapValues (fun b : BarObj => b.without part ctx)]
  cases Tab.get? s.barObjs h with
  | none => rfl
  | some b => rfl

end

/-! ### The end of a command -/

section
variable {s : State} {part arg : Nat} {cmd : Word} (running : (s.func part).qCmd = some (cmd, arg))
  (stays : (s.func part).dropCmd = none)
include running stays

theorem execQueueCommandDone_ok {u : State} {n : Option Nat} (run : s.runCommand part cmd arg = .ok (u, n)) :
    execQueueCommandDone part s
      = .next (u.modFunc part (fun f => { f with qCmd := none, qResult := 0, qNumber := n.getD f.qNumber })) := by
  simp only [execQueueCommandDone, stays, running, Option.isSome_none, Bool.false_eq_true, if_false, run]

theorem execQueueCommandDone_refused {r : Nat} (run : s.runCommand part cmd arg = .refused r) :
    execQueueCommandDone part s
      = .next ((s.clearRequests (2 ^ 43 + part) 0).modFunc part (fun f => { f with qCmd := none, qResult := r })) := by
  simp only [execQueueCommandDone, stays, running, Option.isSome_none, Bool.false_eq_true, if_false, run]

end

/-- Each create or destroy command begins the command of its opcode (R69). -/
theorem exec_queueCommand {part n : Nat} {cmd : Word} {i : Instr} (command : (n, i) ∈ [(1, Instr.createContext part cmd),
    (2, .destroyContext part cmd), (3, .createQueue part cmd), (4, .destroyQueue part cmd)]) (s : State) :
    exec i s = .next (s.queueCommand part n cmd) := by
  simp only [List.mem_cons, Prod.mk.injEq, List.not_mem_nil, or_false] at command
  obtain ⟨rfl, rfl⟩ | ⟨rfl, rfl⟩ | ⟨rfl, rfl⟩ | ⟨rfl, rfl⟩ := command <;> rfl

end Sys2Proof.Machine

namespace Sys2Proof.Claims

open Sys2Proof.Machine

/-- Settles O53: each command comes to what the lemma of its case says. -/
theorem contextsAndQueues : Obligations.ContextsAndQueues := by
  unfold Obligations.ContextsAndQueues
  refine ⟨fun s part cmd n i command => ⟨fun opcode idle => ?begins, fun busy => ?waits⟩,
    fun s part cmd arg running stays => ⟨fun u n run => ⟨_, execQueueCommandDone_ok running stays run, funcOnly_modFunc u part _⟩,
      fun r run => ⟨_, execQueueCommandDone_refused running stays run, funcOnly_modFunc _ part _⟩⟩,
    fun s part arg bad => ⟨?noDescriptor, fun ctx live own => ?noQueueDescriptor⟩,
    fun s part arg d read => ⟨State.createContext_unfit read, State.createContext_full read,
      fun n fine free lowest noTrap => ?context⟩,
    fun s part arg ctx d read live own => ⟨State.createQueue_unfit read live own, fun fine mapped => ⟨fun full => ?fullQueues,
      fun ⟨q, below, gap⟩ plain => ?queue⟩⟩,
    fun s part arg ctx absent => State.createQueue_noContext absent,
    fun s part q => ⟨State.destroyQueue_absent, State.destroyQueue_busy, fun below live idle free empty =>
      ⟨_, State.destroyQueue_idle below live idle free, State.dropQueue_empty live empty⟩⟩,
    fun s part q x graph seq op this held => ?entries,
    fun s part ctx => ⟨State.destroyContext_absent, State.destroyContext_busy, fun live noQueues => ?destroyed⟩⟩
  case begins =>
    rw [exec_queueCommand command, State.queueCommand_idle opcode idle]
    exact ⟨_, rfl, funcOnly_modFunc s part _⟩
  case waits => rw [exec_queueCommand command, State.queueCommand_busy busy]
  case noDescriptor => rw [State.createContext, State.descriptor_refused bad, Cmd.andThen_refused]
  case noQueueDescriptor =>
    rw [State.createQueue]
    refine (demand_pass (by simp [live, own])).trans ?_
    rw [State.descriptor_refused bad, Cmd.andThen_refused]
  case context =>
    have created := State.createContext_free read fine free lowest noTrap
    refine ⟨fun own noTable noHandlers => ?bare, fun own off => ?table, fun own noTable off => ?handlers,
      fun other unknown => ?unknown, fun c other found => ?template⟩
    case bare =>
      rw [State.madeContext_empty own noTable noHandlers, Cmd.andThen_ok] at created
      exact ⟨_, created, rfl, oneEntry_put s.contexts _ _⟩
    case table => rw [created, State.madeContext_table own off, Cmd.andThen_refused]
    case handlers => rw [created, State.madeContext_handlers own noTable off, Cmd.andThen_refused]
    case unknown => rw [created, State.madeContext_unknown other unknown, Cmd.andThen_refused]
    case template =>
      rw [State.madeContext_template other found, Cmd.andThen_ok] at created
      exact ⟨_, created, rfl, oneEntry_put s.contexts _ _⟩
  case fullQueues =>
    have none_ : (List.range 1024).filter (fun q => !(s.queue part q).live) = [] := by simpa using full
    rw [State.createQueue_fine read live own fine mapped, none_]
    rfl
  case queue =>
    have some_ : (List.range 1024).filter (fun q => !(s.queue part q).live) ≠ [] :=
      List.ne_nil_of_mem (List.mem_filter.2 ⟨List.mem_range.2 below, by simp [gap]⟩)
    obtain ⟨k, listed, picked⟩ := pickIndex_mem (fresh := s.fresh) some_
    obtain ⟨range, dead⟩ := List.mem_filter.1 listed
    have created := State.createQueue_fine read live own fine mapped
    rw [picked, Option.elim_some, State.readInbound, if_pos plain, Cmd.andThen_ok] at created
    exact ⟨k, _, _, List.mem_range.1 range, by simpa using dead, created, rfl, rfl, oneEntry_put s.queues _ _⟩
  case entries =>
    subst this
    simp only [State.dropEntries, held, List.foldl_cons, List.foldl_nil]
  case destroyed =>
    refine ⟨_, State.destroyContext_noQueues live noQueues, rfl, fun h kept => ?_, fun h held of own => ?_, fun g => ?_⟩
    · rw [State.barObj_without (s := s) rfl]
      exact kept.elim (fun none_ => by rw [none_]; rfl) BarObj.without_of_not
    · rw [State.barObj_without (s := s) rfl]
      exact BarObj.without_held held of own
    · simp [List.mem_filter, imp_iff_not_or]

end Sys2Proof.Claims
end

section
/-!
SUPPORT. The ends of operations: results written, flags and counters left (R46, R166).
-/

namespace Sys2Proof.Machine

open Sys2Proof.Claims

/-! ### The results of an operation -/

/-- The lanes that have a result, in order. -/
def Op.resLanes (o : Op) : List Nat := (List.range 128).filter (fun l => o.res.any (fun r => r.lane == l))

/-- The result of a lane. -/
def Op.resOf (o : Op) (l : Nat) : LaneRes := (o.res.find? (fun r => r.lane == l)).getD {}

theorem Op.mem_resLanes (o : Op) (l : Nat) : l ∈ o.resLanes ↔ l < 128 ∧ ∃ r ∈ o.res, r.lane = l := by
  simp [Op.resLanes]

theorem Op.resLanes_lt (o : Op) : ∀ l ∈ o.resLanes, l < 128 := fun l h => ((o.mem_resLanes l).1 h).1

section
variable {o : Op} {l : Nat} {r : LaneRes} (found : o.res.find? (fun r => r.lane == l) = some r)
include found

theorem Op.resOf_eq : o.resOf l = r := by rw [Op.resOf, found, Option.getD_some]

theorem Op.mem_resLanes_of_find (below : l < 128) : l ∈ o.resLanes :=
  (o.mem_resLanes l).2 ⟨below, r, List.mem_of_find?_eq_some found, by simpa using List.find?_some found⟩

/-- The lowest lane that has a result is the first of them. -/
theorem Op.resLanes_head (below : l < 128) (lowest : ∀ x ∈ o.res, l ≤ x.lane) : o.resLanes.headD 0 = l := by
  have sorted : o.resLanes.Pairwise (· < ·) := List.Pairwise.filter _ List.pairwise_lt_range
  have mem := Op.mem_resLanes_of_find found below
  cases lanes : o.resLanes with
  | nil => simp [lanes] at mem
  | cons k ks =>
    obtain ⟨x, listed, lane⟩ := ((o.mem_resLanes k).1 (lanes ▸ List.mem_cons_self)).2
    have above := lowest x listed
    rw [lanes] at mem sorted
    rcases List.mem_cons.1 mem with rfl | later
    · rfl
    · have := (List.pairwise_cons.1 sorted).1 l later
      omega

end

@[simp] theorem natWords_length : ∀ n v, (natWords n v).length = n
  | 0, _ => rfl
  | n + 1, v => congrArg (· + 1) (natWords_length n (v / 2 ^ 32))

theorem getElem?_natWords : ∀ {n j : Nat} (v : Nat), j < n → (natWords n v)[j]? = some (BitVec.ofNat 32 (v / 2 ^ (32 * j)))
  | n + 1, 0, v, _ => by simp [natWords]
  | n + 1, j + 1, v, below => by
    rw [natWords, List.getElem?_cons_succ, getElem?_natWords (v / 2 ^ 32) (Nat.lt_of_succ_lt_succ below), Nat.div_div_eq_div_mul,
      ← Nat.pow_add, Nat.mul_succ, Nat.add_comm]

theorem LaneRes.words_length (n : Nat) (tag : Bool) (r : LaneRes) : (r.words n tag).length = n + tag.toNat := by
  cases tag <;> simp [LaneRes.words, bytesWords]

theorem LaneRes.words_data {n j : Nat} (tag : Bool) (r : LaneRes) (below : j < n) :
    (r.words n tag).getD j 0 = BitVec.ofNat 32 (leNat r.bytes / 2 ^ (32 * j)) := by
  have word := getElem?_natWords (leNat r.bytes) below
  rw [List.getD_eq_getElem?_getD, LaneRes.words, List.getElem?_append_left (by simpa [bytesWords] using below), bytesWords, word,
    Option.getD_some]

theorem LaneRes.words_tag (n : Nat) (r : LaneRes) : (r.words n true).getD n 0 = BitVec.ofNat 32 r.tag := by
  rw [List.getD_eq_getElem?_getD, LaneRes.words, List.getElem?_append_right (by simp [bytesWords])]
  simp [bytesWords]

/-! ### Results written -/

theorem Group.writeResults_eq (g : Group) (o : Op) : g.writeResults o =
    (g.writeRuns o.dest o.resLanes (fun l => (o.resOf l).words o.destN o.tag)).writeOptPred o.pq o.resLanes
      (fun l => (o.resOf l).ok) := rfl

theorem Group.writeOptPred_same (g : Group) (q : Option (BitVec 4)) (ls : List Nat) (f : Nat → Bool) :
    ∃ ps, g.writeOptPred q ls f = { g with preds := ps } := by
  cases q with
  | none => exact ⟨_, rfl⟩
  | some p => exact Group.writePreds_same g (.prd p) ls f

theorem Group.writeResults_same (g : Group) (o : Op) :
    ∃ vs ss ps, g.writeResults o = { g with vec := vs, scl := ss, preds := ps } := by
  obtain ⟨vs, ss, runs⟩ := Group.writeRuns_same g o.dest o.resLanes (fun l => (o.resOf l).words o.destN o.tag)
  obtain ⟨ps, preds⟩ := Group.writeOptPred_same { g with vec := vs, scl := ss } o.pq o.resLanes (fun l => (o.resOf l).ok)
  exact ⟨vs, ss, ps, by rw [Group.writeResults_eq, runs, preds]⟩

theorem Group.readV_writeResults (g : Group) (o : Op) (r l : Nat) : (g.writeResults o).readV r l
    = (g.writeRuns o.dest o.resLanes (fun l => (o.resOf l).words o.destN o.tag)).readV r l := by
  obtain ⟨ps, preds⟩ := Group.writeOptPred_same (g.writeRuns o.dest o.resLanes (fun l => (o.resOf l).words o.destN o.tag))
    o.pq o.resLanes (fun l => (o.resOf l).ok)
  rw [Group.writeResults_eq, preds]
  rfl

theorem Group.readS_writeResults (g : Group) (o : Op) (r : Nat) : (g.writeResults o).readS r
    = (g.writeRuns o.dest o.resLanes (fun l => (o.resOf l).words o.destN o.tag)).readS r := by
  obtain ⟨ps, preds⟩ := Group.writeOptPred_same (g.writeRuns o.dest o.resLanes (fun l => (o.resOf l).words o.destN o.tag))
    o.pq o.resLanes (fun l => (o.resOf l).ok)
  rw [Group.writeResults_eq, preds]
  rfl

theorem Group.pred_writeRuns (g : Group) (d : Operand) (ls : List Nat) (f : Nat → List Word) (q l : Nat) :
    (g.writeRuns d ls f).pred q l = g.pred q l := by
  obtain ⟨vs, ss, runs⟩ := Group.writeRuns_same g d ls f
  rw [runs]
  rfl

theorem Group.pred_writeResults (g : Group) (o : Op) (q l : Nat) : (g.writeResults o).pred q l =
    if ∃ p, o.pq = some p ∧ q = p.toNat ∧ l ∈ o.resLanes then q == 0 || (o.resOf l).ok else g.pred q l := by
  rw [Group.writeResults_eq]
  cases pq : o.pq with
  | none => simp [Group.writeOptPred, Group.pred_writeRuns]
  | some p =>
    have zero : (p.toNat == 0) = (p == 0) := by
      rw [Bool.eq_iff_iff]
      simp [BitVec.toNat_eq]
    rw [Group.writeOptPred, Group.pred_writePreds p _ _ _ _ _ o.resLanes_lt, Group.pred_writeRuns]
    by_cases hit : q = p.toNat ∧ l ∈ o.resLanes
    · rw [if_pos hit, if_pos ⟨p, rfl, hit⟩, hit.1, zero]
    · rw [if_neg hit, if_neg]
      rintro ⟨p', same, hit'⟩
      obtain rfl := Option.some.inj same
      exact hit hit'

/-- A register keeps its word where it is no destination of the operation. -/
theorem Group.readV_writeResults_keep (g : Group) (o : Op) {r l : Nat} (below : l < 128)
    (keep : l ∉ o.resLanes ∨ ∀ k, o.dest = .vec k → r < k.toNat ∨ k.toNat + o.destN + o.tag.toNat ≤ r) :
    (g.writeResults o).readV r l = g.readV r l := by
  rw [Group.readV_writeResults]
  cases dest : o.dest with
  | vec k =>
    rw [Group.readV_writeRuns_vec k _ _ _ _ _ o.resLanes_lt below, LaneRes.words_length, if_neg]
    rintro ⟨mem, low, high⟩
    rcases keep with h | h
    · exact h mem
    · have := h k dest
      omega
  | scl k => exact Group.readV_writeRuns_scl k _ _ _ _ _
  | _ => rfl

theorem Group.readS_writeResults_keep (g : Group) (o : Op) {r : Nat}
    (keep : ∀ k, o.dest = .scl k → r < k.toNat ∨ k.toNat + o.destN + o.tag.toNat ≤ r) :
    (g.writeResults o).readS r = g.readS r := by
  rw [Group.readS_writeResults]
  cases dest : o.dest with
  | vec k => exact Group.readS_writeRuns_vec k _ _ _ _
  | scl k =>
    by_cases some_ : o.resLanes = []
    · rw [some_]
      rfl
    · rw [Group.readS_writeRuns_scl k _ _ _ _ some_, LaneRes.words_length, if_neg]
      have := keep k dest
      omega
  | _ => rfl

section
variable {o : Op} {l : Nat} {r : LaneRes} (g : Group) (below : l < 128)
  (found : o.res.find? (fun r => r.lane == l) = some r)
include below found

theorem Group.readV_writeResults_dest {k : BitVec 10} {j : Nat} (dest : o.dest = .vec k) (word : j < o.destN + o.tag.toNat) :
    (g.writeResults o).readV (k.toNat + j) l = (r.words o.destN o.tag).getD j 0 := by
  rw [Group.readV_writeResults, dest, Group.readV_writeRuns_vec k _ _ _ _ _ o.resLanes_lt below, LaneRes.words_length,
    if_pos ⟨Op.mem_resLanes_of_find found below, by omega, by omega⟩, Op.resOf_eq found, Nat.add_sub_cancel_left]

theorem Group.readS_writeResults_dest {k : BitVec 10} {j : Nat} (dest : o.dest = .scl k) (lowest : ∀ x ∈ o.res, l ≤ x.lane)
    (word : j < o.destN + o.tag.toNat) : (g.writeResults o).readS (k.toNat + j) = (r.words o.destN o.tag).getD j 0 := by
  have some_ : o.resLanes ≠ [] := List.ne_nil_of_mem (Op.mem_resLanes_of_find found below)
  rw [Group.readS_writeResults, dest, Group.readS_writeRuns_scl k _ _ _ _ some_, Op.resLanes_head found below lowest,
    Op.resOf_eq found, LaneRes.words_length, if_pos ⟨by omega, by omega⟩, Nat.add_sub_cancel_left]

end

/-- A group after the end of a long-latency operation (R46). -/
theorem Group.written_endOp (g : Group) (o : Op) (id : Nat) : Written g ((g.writeResults o).endOp o id) id o := by
  obtain ⟨vs, ss, ps, same⟩ := Group.writeResults_same g o
  refine ⟨?same, fun y => ?flag, fun k l r dest below found => ⟨fun j word => ?data, fun tag => ?tag⟩,
    fun k l r dest below found lowest => ⟨fun j word => ?sdata, fun tag => ?stag⟩, fun q l r pq below found => ?pred,
    fun r l below other => ?keepV, fun r l below other => ?keepVec, fun r other => ?keepScl, fun q l other => ?keepPred⟩
  case same =>
    rw [same]
    rfl
  case flag =>
    rw [Group.flagOps_endOp, same]
    rfl
  case data =>
    exact (Group.readV_writeResults_dest g below found dest (by omega)).trans (LaneRes.words_data _ _ word)
  case tag =>
    have read := Group.readV_writeResults_dest g below found dest (j := o.destN) (by simp [tag])
    rw [tag, LaneRes.words_tag] at read
    exact read
  case sdata =>
    exact (Group.readS_writeResults_dest g below found dest lowest (by omega)).trans (LaneRes.words_data _ _ word)
  case stag =>
    have read := Group.readS_writeResults_dest g below found dest lowest (j := o.destN) (by simp [tag])
    rw [tag, LaneRes.words_tag] at read
    exact read
  case pred =>
    have zero : (q.toNat == 0) = (q == 0) := by
      rw [Bool.eq_iff_iff]
      simp [BitVec.toNat_eq]
    refine (Group.pred_writeResults g o q.toNat l).trans ?_
    rw [if_pos ⟨q, pq, rfl, Op.mem_resLanes_of_find found below⟩, Op.resOf_eq found, zero]
  case keepV =>
    refine Group.readV_writeResults_keep g o below (.inl fun mem => ?_)
    obtain ⟨_, x, listed, lane⟩ := (o.mem_resLanes l).1 mem
    exact other x listed lane
  case keepVec => exact Group.readV_writeResults_keep g o below (.inr other)
  case keepScl => exact Group.readS_writeResults_keep g o other
  case keepPred =>
    refine (Group.pred_writeResults g o q l).trans (if_neg ?_)
    rintro ⟨p, pq, rfl, _⟩
    exact other p pq rfl

/-! ### The end of an operation -/

theorem dropDone_eq : ∀ l : List (Nat × Bool), dropDone l = l.dropWhile Prod.snd
  | [] => rfl
  | (_, true) :: l => by simpa [dropDone] using dropDone_eq l
  | (_, false) :: _ => by simp [dropDone]

theorem Group.counterOps_endOp (g : Group) (o : Op) (id y : Nat) : (g.endOp o id).counterOps y = if o.counter = some y then
    ((g.counterOps y).map (fun x => if x.1 = id then (id, true) else x)).dropWhile Prod.snd else g.counterOps y := by
  have ended : ∀ x : Nat × Bool, (if x.1 = id then (x.1, true) else x) = if x.1 = id then (id, true) else x := fun x => by
    split_ifs with same
    · rw [same]
    · rfl
  cases counter : o.counter with
  | none => simp [Group.endOp, Group.counterOps, counter]
  | some k =>
    simp only [Group.endOp, Group.counterOps, counter, Tab.getD_set, Option.some.injEq, eq_comm (a := y), dropDone_eq,
      beq_iff_eq, ended]
    split
    case isTrue same => rw [same]
    case isFalse => rfl

/-- An operation without a flag leaves its counter, and its registers are no longer pending. -/
theorem Group.endOp_noFlag (g : Group) {o : Op} (id : Nat) (noFlag : o.flag = none) : g.endOp o id =
    { g with counters := (g.endOp o id).counters, pending := g.pending.filter (fun x => x.2 != id) } := by
  rw [Group.endOp, noFlag]

/-- A global write of which every action is performed, and an engine's work, are acknowledged. -/
theorem Op.acknowledged_of {o : Op}
    (done : o.body.isGlobalWrite = true ∧ o.lines.all LineAct.done = true ∨ o.body = .engine) : o.acknowledged = true := by
  rcases done with ⟨write, done⟩ | engine
  · unfold OpBody.isGlobalWrite at write
    split at write
    case h_8 => cases write
    all_goals
      rename_i body
      rw [Op.acknowledged, body, done]
  · rw [Op.acknowledged, engine]

/-- Every lane of an operation has its result. -/
theorem Op.lanes_answered {o : Op} (answered : ∀ la ∈ o.lines, ∀ a ∈ la.accs, ∃ r ∈ o.res, r.lane = a.lane) :
    o.lanes.all (fun l => o.res.any (fun r => r.lane == l)) = true := by
  simp only [List.all_eq_true, Op.lanes, List.mem_eraseDups, List.mem_flatten, List.mem_map, List.any_eq_true, beq_iff_eq]
  rintro l ⟨_, ⟨la, line, rfl⟩, mem⟩
  obtain ⟨a, acc, rfl⟩ := List.mem_map.1 mem
  exact answered la line a acc

section
variable {s : State} {id : Nat} {o : Op} {g : Group} (listed : Tab.get? s.ops id = some o)
  (here : Tab.get? s.groups o.group = some g)
include listed

theorem State.finishOp_eq :
    s.finishOp id = { s.modGroup o.group (fun g => g.endOp o id) with ops := Tab.erase s.ops id } := by
  rw [State.finishOp, listed]

theorem State.finishOp_rest :
    s.finishOp id = { s with ops := Tab.erase s.ops id, groups := (s.finishOp id).groups } := by
  rw [State.finishOp_eq listed]
  rfl

theorem State.get?_finishOp (j : Nat) : Tab.get? (s.finishOp id).groups j =
    if j = o.group then (Tab.get? s.groups o.group).map (fun g => g.endOp o id) else Tab.get? s.groups j := by
  rw [State.finishOp_eq listed]
  exact State.get?_modGroup s o.group j _

include here

theorem State.finishOp_here : Tab.get? (s.finishOp id).groups o.group = some (g.endOp o id) := by
  rw [State.get?_finishOp listed, if_pos rfl, here, Option.map_some]

/-- What FLAG_COMPLETION makes of an operation whose results stand as they returned (R46). -/
theorem execFlagCompletion_returned (flag : o.flag.isSome = true) (resident : (s.team g.team).saved = false)
    (noError : o.ue = false) (returned : o.returned = true) (formed : s.formResults o = (s, o))
    (noFailure : o.rinvFailure = none) :
    execFlagCompletion id s = .next ((s.modGroup o.group (fun g => g.writeResults o)).finishOp id) := by
  have noFlag : o.flag.isNone = false := by rw [Option.isNone_eq_false_iff, flag]
  simp only [execFlagCompletion, listed, noFlag, returned, State.group_of_get? here, resident, noError, formed, noFailure,
    Bool.not_true, Bool.or_self, Bool.false_eq_true, if_false]

/-- The state after the results are written and the operation has ended. -/
theorem State.written_finishOp : let t := (s.modGroup o.group (fun g => g.writeResults o)).finishOp id
    t = { s with ops := Tab.erase s.ops id, groups := t.groups }
      ∧ (∀ j, j ≠ o.group → Tab.get? t.groups j = Tab.get? s.groups j) ∧ Written g (t.group o.group) id o := by
  have changed : Tab.get? (s.modGroup o.group (fun g => g.writeResults o)).groups o.group = some (g.writeResults o) := by
    rw [State.get?_modGroup, if_pos rfl, here, Option.map_some]
  have listed' : Tab.get? (s.modGroup o.group (fun g => g.writeResults o)).ops id = some o := listed
  refine ⟨?_, fun j other => ?_, ?_⟩
  · rw [State.finishOp_eq listed']
    rfl
  · rw [State.get?_finishOp listed', if_neg other, State.get?_modGroup, if_neg other]
  · rw [State.group_of_get? (State.finishOp_here listed' changed)]
    exact Group.written_endOp g o id

/-- What WRITE_ACKNOWLEDGED makes of an acknowledged write (R166, R264). -/
theorem execWriteAcknowledged_done {k : Nat} (noFlag : o.flag = none) (counter : o.counter = some k)
    (resident : (s.team g.team).saved = false)
    (acknowledged : o.body.isGlobalWrite = true ∧ o.lines.all LineAct.done = true ∨ o.body = .engine)
    (noError : o.ue = false) : execWriteAcknowledged id s = .next (if o.refused = [] then s.finishOp id
      else (s.finishOp id).lateTrap o.group o.pc .detXovf (BitVec.ofNat 32 (lowest o.refused))) := by
  have all := Op.acknowledged_of acknowledged
  have free : (o.counter.isNone || o.flag.isSome || (s.team (s.group o.group).team).saved) = false := by
    simp [counter, noFlag, State.group_of_get? here, resident]
  simp only [execWriteAcknowledged, listed, free, Bool.false_eq_true, if_false]
  split
  case h_4 =>
    simp only [all, noError, Bool.not_true, Bool.false_eq_true, if_false, List.isEmpty_iff]
    split_ifs <;> rfl
  all_goals
    rename_i body
    rw [Op.acknowledged, body] at all
    cases all

end

theorem lowest_eq {ls : List Nat} {l : Nat} (mem : l ∈ ls) (below : l < 128) (least : ∀ j ∈ ls, l ≤ j) : lowest ls = l := by
  have found : (List.range 128).find? (fun l => ls.contains l) = some l := by
    refine List.find?_range_eq_some.2 ⟨by simpa using mem, List.mem_range.2 below, fun j lower => ?_⟩
    have absent : j ∉ ls := fun h => Nat.not_lt.2 (least j h) lower
    simpa using absent
  rw [lowest, found, Option.getD_some]

end Sys2Proof.Machine
end
section
/-!
SUPPORT. Futures at their slices: slots in memory, the service of reads, fills and resets, and walks (R265 to R269).
-/

namespace Sys2Proof.Machine

open Sys2Proof.Claims

/-! ### Numbers in memory -/

theorem leNat_leBytes_mod : ∀ n v, leNat (leBytes n v) = v % 256 ^ n
  | 0, v => by simp [leBytes, leNat, Nat.mod_one]
  | n + 1, v => by
    rw [leBytes, leNat, leNat_leBytes_mod n, BitVec.toNat_ofNat, show 256 ^ (n + 1) = 256 * 256 ^ n from Nat.pow_succ',
      Nat.mod_mul]

theorem Memory.bytes_eq_map (m : List Host.Cell) : ∀ n k, Memory.bytes m k n = (List.range n).map (fun i => Memory.get m (k + i))
  | 0, _ => rfl
  | n + 1, k => by
    rw [Memory.bytes, Memory.bytes_eq_map m n (k + 1), List.range_succ_eq_map, List.map_cons, List.map_map]
    congr 2
    funext i
    exact congrArg (Memory.get m) (by omega)

section
variable (s : State) {k j n : Nat}

theorem State.nat_congr {t u : State} (same : t.mem = u.mem) (k n : Nat) : t.nat k n = u.nat k n := by
  rw [State.nat, State.nat, State.bytes, State.bytes, same]

theorem State.nat_setBytes_same (bs : List Byte) : (s.setBytes k bs).nat k bs.length = leNat bs := by
  have read : Memory.bytes (Memory.setBytes s.mem k bs) k bs.length = bs := by
    rw [Memory.bytes_eq_map]
    refine List.ext_getElem (by simp) fun i low high => ?_
    rw [List.getElem_map, List.getElem_range, Memory.get_setBytes, if_pos ⟨by omega, by omega⟩, Nat.add_sub_cancel_left,
      List.getD_eq_getElem _ _ high]
  exact congrArg leNat read

theorem State.nat_setBytes_apart (bs : List Byte) (apart : k + bs.length ≤ j ∨ j + n ≤ k) :
    (s.setBytes k bs).nat j n = s.nat j n := by
  have read : Memory.bytes (Memory.setBytes s.mem k bs) j n = Memory.bytes s.mem j n := by
    rw [Memory.bytes_eq_map, Memory.bytes_eq_map]
    refine List.map_congr_left fun i below => ?_
    have := List.mem_range.1 below
    rw [Memory.get_setBytes, if_neg (by omega)]
  exact congrArg leNat read

theorem State.nat_setNat_same (v : Nat) : (s.setNat k n v).nat k n = v % 256 ^ n := by
  have read := s.nat_setBytes_same (k := k) (leBytes n v)
  rwa [leBytes_length, leNat_leBytes_mod] at read

theorem State.nat_setNat_apart (v : Nat) {m : Nat} (apart : k + n ≤ j ∨ j + m ≤ k) : (s.setNat k n v).nat j m = s.nat j m :=
  s.nat_setBytes_apart _ (by rwa [leBytes_length])

theorem State.get_setNat_apart (v : Nat) (apart : j < k ∨ k + n ≤ j) :
    Memory.get (s.setNat k n v).mem j = Memory.get s.mem j :=
  (Memory.get_setBytes _ _ _ _).trans (if_neg (by rw [leBytes_length]; omega))

theorem State.get_setBytes_apart (bs : List Byte) (apart : j < k ∨ k + bs.length ≤ j) :
    Memory.get (s.setBytes k bs).mem j = Memory.get s.mem j :=
  (Memory.get_setBytes _ _ _ _).trans (if_neg (by omega))

end

/-! ### Slots -/

theorem State.slotBad_iff (s : State) (slot : Nat) : s.slotBad slot = true ↔ malformed s slot := by
  have ctrl : s.slotCtrl slot = ctrlOf s slot := rfl
  have readers : s.readers slot = linkedTo s slot := rfl
  simp only [State.slotBad, malformed, ctrl, readers, Bool.or_eq_true, bne_iff_ne, beq_iff_eq, Bool.and_eq_true,
    List.isEmpty_iff, or_assoc]
  have four : ctrlOf s slot / 4 ≠ 0 ↔ ctrlOf s slot ≥ 4 := by omega
  rw [four]

theorem State.slotFull_iff {s : State} {slot : Nat} (good : ¬malformed s slot) : s.slotFull slot = true ↔ ctrlOf s slot = 1 := by
  have ctrl : s.slotCtrl slot = ctrlOf s slot := rfl
  rw [malformed, not_or, not_or] at good
  rw [State.slotFull, ctrl, beq_iff_eq]
  omega

theorem State.mem_freeRecs (s : State) (slice i : Nat) : i ∈ s.freeRecs slice ↔ freeIn s slice i := by
  simp only [State.freeRecs, freeIn, List.mem_filter, List.mem_range, Bool.not_eq_true', List.contains_eq_mem,
    decide_eq_false_iff_not, List.mem_map, beq_iff_eq, List.mem_append, List.mem_flatten, not_exists, not_and]
  refine and_congr_right fun below => ⟨fun free => ⟨fun r linked of => free r ⟨.inl linked, of⟩, fun w walk r rec of => ?_⟩,
    fun ⟨linked, walked⟩ r ⟨listed, of⟩ => ?_⟩
  · exact free r ⟨.inr ⟨w.recs, ⟨w, walk, rfl⟩, rec⟩, of⟩
  · rcases listed with here | ⟨_, ⟨w, walk, rfl⟩, rec⟩
    · exact linked r here of
    · exact walked w walk r rec of

/-! ### Line actions that are ready -/

section
variable {s : State} {id line k : Nat} {o : Op} {la : LineAct} (ready : LineReady s id line o k la)
include ready

theorem Op.nextAction_of_ready : o.nextAction line = some (k, la) := by
  rw [Op.nextAction, List.find?_eq_some_iff_getElem]
  obtain ⟨below, this⟩ := List.getElem?_eq_some_iff.1 ready.this
  refine ⟨by simp [ready.onLine, ready.todo], k, by simpa using below, by simp [this], fun j lower => ?_⟩
  have before := ready.first j _ lower (List.getElem?_eq_getElem (by omega))
  rcases before with other | done
  · simp [other]
  · simp [done]

theorem State.actionFree_of_ready : s.actionFree id o k la = true := by
  simp only [State.actionFree, Bool.and_eq_true, Bool.not_eq_true', List.all_eq_true, Bool.or_eq_true, decide_eq_true_eq,
    bne_iff_ne, Bool.and_eq_false_imp, List.isEmpty_iff, ready.onLine]
  refine ⟨⟨⟨?release, ready.resident⟩, fun x listed => ?order⟩, ?strong⟩
  case release =>
    refine List.filter_eq_nil_iff.2 fun n waits => ?_
    simp [ready.release n waits]
  case order =>
    by_cases own : x.2.group = o.group
    · by_cases older : x.1 < id
      · refine .inr fun lb act => (ready.order x listed own older lb act).imp_right fun ⟨elsewhere, weak⟩ => ⟨elsewhere, ?_⟩
        intro strong
        simpa [strong] using weak
      · exact .inl (.inr (Nat.not_lt.1 older))
    · exact .inl (.inl own)
  case strong =>
    cases so : la.so with
    | false => exact .inl rfl
    | true =>
      refine .inr fun lb act => ?_
      obtain ⟨j, below, rfl⟩ := List.mem_take_iff_getElem.1 act
      have strong := ready.strong so j _ (by omega) (List.getElem?_eq_getElem (by omega))
      cases so' : (o.lines[j]).so with
      | false => exact .inr rfl
      | true => exact .inl (strong so')

/-- A line action that is ready is performed. -/
theorem execHomeSliceLineAction_ready : execHomeSliceLineAction id line s
    = .next ((s.modOp id (fun o => { o with lines := o.lines.set k { la with done := true } })).lineAction id o la) := by
  simp only [execHomeSliceLineAction, ready.listed, Op.nextAction_of_ready ready, State.actionFree_of_ready ready, Bool.not_true,
    Bool.false_eq_true, if_false]

end

/-! ### One lane's access of a slot -/

section
variable {s : State} {id : Nat} {o : Op} {la : LineAct} {a : LaneAcc} (one : la.accs = [a])

theorem State.readsPoison_clean {body : OpBody} (spans : body.span = spans body) (fine : clean s body la) :
    s.readsPoison (la.keys body) = false := by
  rw [← Bool.not_eq_true, State.readsPoison, List.any_eq_true]
  rintro ⟨x, mem, bad⟩
  simp only [LineAct.keys, List.mem_flatten, List.mem_map] at mem
  obtain ⟨_, ⟨b, acc, rfl⟩, key⟩ := mem
  obtain ⟨i, below, rfl⟩ := List.mem_map.1 key
  rw [fine b acc i (spans ▸ List.mem_range.1 below)] at bad
  cases bad

variable (reach : a.reach = .memory) (fine : s.readsPoison (la.keys o.body) = false)
include one reach fine

theorem State.lineAction_ldfut {w : Bool} (body : o.body = .ldfut w) (unanswered : ∀ r ∈ o.res, r.lane ≠ a.lane) :
    s.lineAction id o la = s.readFuture id o a.key a.va [a.lane] := by
  have asks : [a].filter (fun b => b.key == a.key && !o.res.any (fun r => r.lane == b.lane)) = [a] := by
    have fresh : o.res.any (fun r => r.lane == a.lane) = false := by simpa using unanswered
    rw [List.filter_cons_of_pos (by rw [fresh, beq_self_eq_true]; rfl), List.filter_nil]
  have memory : (a.reach != .memory) = false := by rw [reach]; rfl
  rw [body] at fine
  simp only [State.lineAction, State.futureAction, LineAct.slots, one, memory, body, fine, Bool.false_eq_true, if_false,
    List.foldl_cons, List.foldl_nil, List.any_nil, List.nil_append, asks, List.map_cons, List.map_nil, List.isEmpty_cons]

theorem State.lineAction_stfut {w : Bool} (body : o.body = .stfut w) : s.lineAction id o la =
    if (s.fillFuture id o a.key a.va a.data).2 then (s.fillFuture id o a.key a.va a.data).1.bumpTag la.line
    else (s.fillFuture id o a.key a.va a.data).1 := by
  rw [body] at fine
  simp [State.lineAction, State.futureAction, one, reach, body, fine]

theorem State.lineAction_futrst (body : o.body = .futrst) : s.lineAction id o la =
    if (s.resetFuture o a.key a.va).2 then (s.resetFuture o a.key a.va).1.bumpTag la.line
    else (s.resetFuture o a.key a.va).1 := by
  rw [body] at fine
  simp [State.lineAction, State.futureAction, one, reach, body, fine]

end

/-! ### What a slot comes to -/

section
variable {s : State} {id : Nat} {o : Op} {slot va : Nat}

theorem State.readFuture_bad (bad : malformed s slot) (lanes : List Nat) : s.readFuture id o slot va lanes =
    (s.addRes id (lanes.map (fun l => { lane := l, va := va, bytes := o.futBytes (2 ^ 64 - 1) }))).ctxEvent o.part o.ctx 3 0
      va := by
  rw [State.readFuture, if_pos ((s.slotBad_iff slot).2 bad)]

variable (good : ¬malformed s slot)
include good

theorem State.slotBad_good : ¬s.slotBad slot = true := mt (s.slotBad_iff slot).1 good

theorem State.readFuture_full (full : ctrlOf s slot = 1) (lanes : List Nat) : s.readFuture id o slot va lanes =
    s.addRes id (lanes.map (fun l => { lane := l, va := va, bytes := o.futBytes (valueOf s slot) })) := by
  rw [State.readFuture, if_neg (State.slotBad_good good), if_pos ((State.slotFull_iff good).2 full)]
  rfl

theorem State.readFuture_link (empty : ctrlOf s slot ≠ 1) (lanes : List Nat) (free : ∃ i, freeIn s (sliceOf s o slot) i) :
    ∃ i, freeIn s (sliceOf s o slot) i
      ∧ s.readFuture id o slot va lanes = (s.linkReader (sliceOf s o slot) slot id lanes i).tick := by
  rw [State.readFuture, if_neg (State.slotBad_good good), if_neg (mt (State.slotFull_iff good).1 empty)]
  obtain ⟨j, free⟩ := free
  have mem := (s.mem_freeRecs _ j).2 free
  rw [sliceOf] at mem
  split
  · rename_i none_
    rw [none_] at mem
    cases mem
  · refine ⟨_, (s.mem_freeRecs _ _).1 ?_, rfl⟩
    rw [sliceOf]
    split_ifs with chosen
    · simpa using chosen
    · rw [List.headD_eq_head?_getD, List.head?_eq_some_head (List.ne_nil_of_mem mem), Option.getD_some]
      exact List.head_mem _

theorem State.readFuture_hold (empty : ctrlOf s slot ≠ 1) (lanes : List Nat) (full : ∀ i, ¬freeIn s (sliceOf s o slot) i) :
    s.readFuture id o slot va lanes = { s with futHeld := s.futHeld ++ [⟨sliceOf s o slot, 0, slot, id, lanes⟩] } := by
  have none_ : s.freeRecs (sliceOf s o slot) = [] :=
    List.eq_nil_iff_forall_not_mem.2 fun i mem => full i ((s.mem_freeRecs _ i).1 mem)
  rw [sliceOf] at none_
  rw [State.readFuture, if_neg (State.slotBad_good good), if_neg (mt (State.slotFull_iff good).1 empty)]
  simp only [none_]
  rfl

theorem State.fillFuture_full (full : ctrlOf s slot = 1) (data : List Byte) :
    s.fillFuture id o slot va data = (s.ctxEvent o.part o.ctx 4 0 va, false) := by
  rw [State.fillFuture, if_neg (State.slotBad_good good), if_pos ((State.slotFull_iff good).2 full)]

theorem State.fillFuture_empty (empty : ctrlOf s slot ≠ 1) (data : List Byte) : s.fillFuture id o slot va data =
    ({ (s.setBytes slot data).setNat (slot + 8) 4 1 with
        futs := s.futs.filter (fun r => r.slot != slot)
        walks := s.walks ++ if linkedTo s slot = [] then [] else [⟨id, data, linkedTo s slot⟩] }, true) := by
  rw [State.fillFuture, if_neg (State.slotBad_good good), if_neg (mt (State.slotFull_iff good).1 empty)]
  have readers : s.readers slot = linkedTo s slot := rfl
  by_cases none_ : linkedTo s slot = []
  · simp only [readers, none_, List.isEmpty_nil, if_true, List.append_nil]
    rfl
  · simp only [readers, List.isEmpty_iff, if_neg none_]
    rfl

theorem State.resetFuture_linked (linked : linkedTo s slot ≠ []) : s.resetFuture o slot va = (s, false) := by
  have some_ : (!(s.readers slot).isEmpty) = true := by simpa [State.readers, linkedTo] using linked
  rw [State.resetFuture, if_neg (State.slotBad_good good), if_pos some_]

/-- A slot without readers is set to 16 zero bytes. -/
theorem State.resetFuture_free (free : linkedTo s slot = []) : ∃ zeros : List Byte, zeros.length = 16 ∧ leNat zeros = 0
    ∧ s.resetFuture o slot va = (s.setBytes slot zeros, true) := by
  have none_ : s.readers slot = [] := free
  refine ⟨leBytes 16 0, leBytes_length 16 0, (leNat_leBytes_mod 16 0).trans (Nat.zero_mod _), ?_⟩
  rw [State.resetFuture, if_neg (State.slotBad_good good), none_]
  rfl

end

/-! ### A reader linked -/

theorem State.mirrorSlot_linked {s : State} {slot : Nat} {r : FutRec} {rs : List FutRec} (readers : s.readers slot = r :: rs) :
    s.mirrorSlot slot = (s.setNat slot 8 (r.index + 65536 * (rs.length + 1))).setNat (slot + 8) 4 2 := by
  rw [State.mirrorSlot, readers]

/-- A record linked at the tail of a slot: the slot in memory shows its readers, and nothing else changes (R265, R267). -/
theorem State.linkReader_spec (s : State) (slice slot op : Nat) (lanes : List Nat) (i : Nat) :
    let u := s.linkReader slice slot op lanes i
    u = { s with mem := u.mem, futs := s.futs ++ [⟨slice, i, slot, op, lanes⟩] } ∧ ctrlOf u slot = 2
      ∧ valueOf u slot = (((linkedTo u slot).headD {}).index + 2 ^ 16 * (linkedTo u slot).length) % 2 ^ 64
      ∧ ∀ x, (x < slot ∨ slot + 12 ≤ x) → Memory.get u.mem x = Memory.get s.mem x := by
  let base : State := { s with futs := s.futs ++ [⟨slice, i, slot, op, lanes⟩] }
  have some_ : base.readers slot ≠ [] := by
    refine List.ne_nil_of_mem (a := ⟨slice, i, slot, op, lanes⟩) (List.mem_filter.2 ⟨?_, beq_self_eq_true slot⟩)
    exact List.mem_append_right _ (List.mem_singleton.2 rfl)
  obtain ⟨r, rs, readers⟩ := List.exists_cons_of_ne_nil some_
  have mirror : s.linkReader slice slot op lanes i
      = (base.setNat slot 8 (r.index + 65536 * (rs.length + 1))).setNat (slot + 8) 4 2 := State.mirrorSlot_linked readers
  simp only [mirror]
  refine ⟨rfl, (State.nat_setNat_same _ 2).trans rfl, ?value, fun x away => ?memory⟩
  case value =>
    have linked : linkedTo ((base.setNat slot 8 (r.index + 65536 * (rs.length + 1))).setNat (slot + 8) 4 2) slot = r :: rs :=
      readers
    rw [linked]
    refine (State.nat_setNat_apart _ 2 (.inr (by omega))).trans ((State.nat_setNat_same _ _).trans ?_)
    rfl
  case memory =>
    rw [State.get_setNat_apart _ 2 (by omega), State.get_setNat_apart _ _ (by omega)]

/-! ### An action marked as performed -/

/-- The state with an operation's action marked as performed. -/
def State.marked (s : State) (id k : Nat) (la : LineAct) : State :=
  s.modOp id (fun o => { o with lines := o.lines.set k { la with done := true } })

theorem State.modOp_oneEntry {s : State} {id : Nat} {o : Op} (listed : Tab.get? s.ops id = some o) (f : Op → Op) :
    oneEntry s.ops (s.modOp id f).ops id (some (f o)) := by
  refine ⟨?_, fun j other => ?_⟩
  · rw [State.modOp_ops, Tab.get?_modify, if_pos rfl, listed, Option.map_some]
  · rw [State.modOp_ops, Tab.get?_modify, if_neg other]

section
variable {s : State} {id k : Nat} {o : Op} {la : LineAct} (listed : Tab.get? s.ops id = some o)
include listed

theorem State.marked_ops : oneEntry s.ops (s.marked id k la).ops id (some (performed o k la [])) := by
  have entry := State.modOp_oneEntry listed (fun o => { o with lines := o.lines.set k { la with done := true } })
  rw [performed, List.append_nil]
  exact entry

theorem State.marked_addRes_ops (rs : List LaneRes) :
    oneEntry s.ops ((s.marked id k la).addRes id rs).ops id (some (performed o k la rs)) := by
  obtain ⟨here, others⟩ := State.marked_ops (k := k) (la := la) listed
  obtain ⟨added, kept⟩ := State.modOp_oneEntry here (fun o => { o with res := o.res ++ rs })
  refine ⟨added.trans ?_, fun j other => (kept j other).trans (others j other)⟩
  simp only [performed, List.append_nil]

end

/-- Tables that agree change in the same entry. -/
theorem oneEntry_of_eq {α : Type} {t u v : Tab α} {k : Nat} {x : Option α} (same : u = v) (entry : oneEntry t v k x) :
    oneEntry t u k x := same ▸ entry

theorem Op.futBytes_eq {o : Op} {w : Bool} (body : o.body = .ldfut w ∨ o.body = .stfut w) (v : Nat) :
    o.futBytes v = leBytes (if w then 8 else 4) v := by
  rcases body with body | body <;> simp only [Op.futBytes, Op.fut64, body]

/-! ### Context events -/

/-- A context event leaves every table but the function blocks, and memory. -/
theorem State.ctxEvent_rest (s : State) (part ctx code info addr : Nat) (data : List Byte) :
    s.ctxEvent part ctx code info addr data = { s with
      mem := (s.ctxEvent part ctx code info addr data).mem, funcs := (s.ctxEvent part ctx code info addr data).funcs } := by
  unfold State.ctxEvent
  simp only
  split_ifs
  · rfl
  · rfl

/-- A context event does not depend on the operations in flight. -/
theorem State.ctxEvent_modOp (s : State) (id : Nat) (f : Op → Op) (part ctx code info addr : Nat) (data : List Byte) :
    (s.modOp id f).ctxEvent part ctx code info addr data = (s.ctxEvent part ctx code info addr data).modOp id f := by
  unfold State.ctxEvent
  have func : (s.modOp id f).func part = s.func part := rfl
  simp only [func]
  split_ifs
  · rfl
  · rfl

/-! ### Walks -/

/-- The walks once the first record of one is answered: `rs` are those that it still has. -/
def walksAfter (walks : List FutWalk) (w : FutWalk) (rs : List FutRec) : List FutWalk :=
  if rs.isEmpty then walks.filter (· != w) else walks.map (fun x => if x = w then { w with recs := rs } else x)

/-- The results that a walk gives the lanes of a reader. -/
def FutRec.answers (r : FutRec) (o : Op) (value : List Byte) : List LaneRes :=
  r.lanes.map (fun l => { lane := l, bytes := o.futBytes (leNat value) })

theorem execFutureWalk_next {s : State} {op : Nat} {w : FutWalk} {r : FutRec} {rs : List FutRec} {o : Op}
    (found : s.walks.find? (fun w => w.op == op) = some w) (recs : w.recs = r :: rs) (listed : Tab.get? s.ops r.op = some o) :
    execFutureWalk op s
      = .next ({ s with walks := walksAfter s.walks w rs }.addRes r.op (r.answers o w.value)) := by
  simp only [execFutureWalk, found, recs, listed, Option.getD_some]
  rfl

theorem execDeferredRecordGrant_head {s : State} {op : Nat} {h : FutRec} {hs : List FutRec} {o : Op}
    (listed : Tab.get? s.ops op = some o) (held : s.futHeld = h :: hs) (owner : h.op = op)
    (free : ∃ i, freeIn s h.slice i) : execDeferredRecordGrant op s = .next ({ s with futHeld := hs }.readFuture op o h.slot
      ((((o.lines.map LineAct.accs).flatten.find? (fun a : LaneAcc => a.key == h.slot)).map LaneAcc.va).getD 0) h.lanes) := by
  have some_ : (s.freeRecs h.slice).isEmpty = false := by
    obtain ⟨i, free⟩ := free
    exact List.isEmpty_eq_false_iff.2 (List.ne_nil_of_mem ((s.mem_freeRecs _ i).2 free))
  have found : s.futHeld.find? (fun r => r.op == op && s.futHeld.find? (fun x => x.slice == r.slice) == some r
      && !(s.freeRecs r.slice).isEmpty) = some h := by
    have first : s.futHeld.find? (fun x => x.slice == h.slice) = some h := by
      rw [held]
      exact List.find?_cons_of_pos (beq_self_eq_true _)
    have serves : (h.op == op && s.futHeld.find? (fun x => x.slice == h.slice) == some h
        && !(s.freeRecs h.slice).isEmpty) = true := by
      rw [first, some_, owner]
      simp
    conv_lhs => arg 2; rw [held]
    exact List.find?_cons_of_pos serves
  have erased : s.futHeld.erase h = hs := by rw [held, List.erase_cons_head]
  simp only [execDeferredRecordGrant, found, listed, erased]
  cases (o.lines.map LineAct.accs).flatten.find? (fun a => a.key == h.slot) with
  | none => rfl
  | some a => rfl

end Sys2Proof.Machine

namespace Sys2Proof.Claims

open Sys2Proof.Machine

section
variable {s : State} {id line k : Nat} {o : Op} {la : LineAct} {a : LaneAcc} {w : Bool}
  (ready : LineReady s id line o k la) (one : la.accs = [a]) (reach : a.reach = .memory) (fine : clean s o.body la)
include ready one reach fine

/-- An LDFUT's action reads its slot. -/
theorem exec_ldfut (body : o.body = .ldfut w) (unanswered : ∀ r ∈ o.res, r.lane ≠ a.lane) :
    exec (.homeSliceLineAction id line) s = .next ((s.marked id k la).readFuture id o a.key a.va [a.lane]) := by
  have poison : (s.marked id k la).readsPoison (la.keys o.body) = false :=
    State.readsPoison_clean (by rw [body]; rfl) fine
  exact (execHomeSliceLineAction_ready ready).trans
    (congrArg _ (State.lineAction_ldfut (s := s.marked id k la) one reach poison body unanswered))

theorem exec_stfut (body : o.body = .stfut w) : exec (.homeSliceLineAction id line) s = .next
    (if ((s.marked id k la).fillFuture id o a.key a.va a.data).2 then
      ((s.marked id k la).fillFuture id o a.key a.va a.data).1.bumpTag line
    else ((s.marked id k la).fillFuture id o a.key a.va a.data).1) := by
  have poison : (s.marked id k la).readsPoison (la.keys o.body) = false :=
    State.readsPoison_clean (by rw [body]; rfl) fine
  obtain rfl := ready.onLine
  exact (execHomeSliceLineAction_ready ready).trans
    (congrArg _ (State.lineAction_stfut (s := s.marked id k la) one reach poison body))

theorem exec_futrst (body : o.body = .futrst) : exec (.homeSliceLineAction id line) s = .next
    (if ((s.marked id k la).resetFuture o a.key a.va).2 then ((s.marked id k la).resetFuture o a.key a.va).1.bumpTag line
    else ((s.marked id k la).resetFuture o a.key a.va).1) := by
  have poison : (s.marked id k la).readsPoison (la.keys o.body) = false :=
    State.readsPoison_clean (by rw [body]; rfl) fine
  obtain rfl := ready.onLine
  exact (execHomeSliceLineAction_ready ready).trans
    (congrArg _ (State.lineAction_futrst (s := s.marked id k la) one reach poison body))

end

/-- Settles O37: an action comes to what its slot says, and the end of an operation to what its form says. -/
theorem futuresAndCompletions : Obligations.FuturesAndCompletions := by
  unfold Obligations.FuturesAndCompletions
  refine ⟨fun s id line o k la a w ready body one reach fine unanswered => ?loads,
    fun s id line o k la a w ready body one reach fine length small => ⟨fun good empty => ?fills, fun good full => ?filled⟩,
    fun s id line o k la a ready body one reach fine small good => ?resets,
    fun s op w r rs o found recs listed => ?walks,
    fun s op o h hs va listed held owner free this => ?grants,
    fun s id o g listed here flag resident noError results => ?completes,
    fun s id o g k listed here noFlag counter resident acknowledged noError => ?acknowledges⟩
  case loads =>
    have run := exec_ldfut ready one reach fine body unanswered
    have answer := Op.futBytes_eq (.inl body)
    refine ⟨fun good full => ?full, fun good empty free => ?link, fun good empty none_ => ?hold, fun bad => ?bad⟩
    case full =>
      rw [State.readFuture_full (s := s.marked id k la) good full, answer] at run
      exact ⟨_, run, rfl, State.marked_addRes_ops ready.listed _⟩
    case link =>
      obtain ⟨i, free, linked⟩ := State.readFuture_link (s := s.marked id k la) good empty [a.lane] free
      rw [linked] at run
      obtain ⟨rest, ctrl, value, memory⟩ := (s.marked id k la).linkReader_spec (sliceOf s o a.key) a.key id [a.lane] i
      obtain ⟨m, fs, same⟩ : ∃ m fs, (s.marked id k la).linkReader (sliceOf s o a.key) a.key id [a.lane] i
          = { s.marked id k la with mem := m, futs := fs } := ⟨_, _, rest⟩
      refine ⟨_, i, run, ?_, free, ?_, ?_, ctrl, value, memory⟩
      · have ops : ((s.marked id k la).linkReader (sliceOf s o a.key) a.key id [a.lane] i).ops = (s.marked id k la).ops := by
          rw [rest]
        exact oneEntry_of_eq ops (State.marked_ops ready.listed)
      · exact same ▸ rfl
      · have futs : ((s.marked id k la).linkReader (sliceOf s o a.key) a.key id [a.lane] i).futs
            = s.futs ++ [⟨sliceOf s o a.key, i, a.key, id, [a.lane]⟩] := by rw [rest]; rfl
        exact futs
    case hold =>
      rw [State.readFuture_hold (s := s.marked id k la) good empty _ none_] at run
      exact ⟨_, run, State.marked_ops ready.listed, rfl⟩
    case bad =>
      rw [State.readFuture_bad (s := s.marked id k la) bad, answer] at run
      refine ⟨_, run, ?_, ?_, ?_⟩
      · exact oneEntry_of_eq (State.ctxEvent_ops _ _ _ _ _ _ _) (State.marked_addRes_ops ready.listed _)
      · rw [State.addRes, State.ctxEvent_modOp, State.marked, State.ctxEvent_modOp]
        rfl
      · rw [State.ctxEvent_rest]
        rfl
  case fills =>
    have run := exec_stfut ready one reach fine body
    rw [State.fillFuture_empty (s := s.marked id k la) good empty, if_pos rfl, State.bumpTag, if_pos small] at run
    refine ⟨_, run, rfl, (State.marked_ops ready.listed).1, ?value, State.nat_setNat_same _ 1, fun x away => ?memory, ?tag, rfl, rfl⟩
    case value =>
      have read := (s.marked id k la).nat_setBytes_same (k := a.key) a.data
      rw [length] at read
      exact (State.nat_setNat_apart _ 1 (.inr (by omega))).trans read
    case memory =>
      exact (State.get_setNat_apart _ 1 (by omega)).trans (State.get_setBytes_apart _ _ (by omega))
    case tag => exact (Tab.getD_set _ _ _ _ _).trans (if_pos rfl)
  case filled =>
    have run := exec_stfut ready one reach fine body
    rw [State.fillFuture_full (s := s.marked id k la) good full, if_neg Bool.false_ne_true] at run
    refine ⟨_, run, ?_, ?_, ?_, ?_⟩
    · rw [State.ctxEvent_ops]
      exact (State.marked_ops ready.listed).1
    · rw [State.ctxEvent_rest]
      rfl
    · rw [State.ctxEvent_rest]
      rfl
    · rw [State.marked, State.ctxEvent_modOp]
      rfl
  case resets =>
    have run := exec_futrst ready one reach fine body
    by_cases free : linkedTo s a.key = []
    · obtain ⟨zeros, length, value, reset⟩ := State.resetFuture_free (s := s.marked id k la) (o := o) (va := a.va) good free
      rw [reset, if_pos rfl, State.bumpTag, if_pos small] at run
      refine ⟨_, run, rfl, (State.marked_ops ready.listed).1, fun _ => ⟨?zero, fun x away => ?memory, ?tag⟩,
        fun linked => absurd free linked⟩
      case zero =>
        have read := (s.marked id k la).nat_setBytes_same (k := a.key) zeros
        rw [length, value] at read
        exact read
      case memory => exact State.get_setBytes_apart _ zeros (by omega)
      case tag => exact (Tab.getD_set _ _ _ _ _).trans (if_pos rfl)
    · rw [State.resetFuture_linked (s := s.marked id k la) good free, if_neg Bool.false_ne_true] at run
      exact ⟨_, run, rfl, (State.marked_ops ready.listed).1, fun none_ => absurd none_ free, fun _ => ⟨rfl, rfl⟩⟩
  case walks =>
    have run := execFutureWalk_next found recs listed
    obtain ⟨added, others⟩ := State.modOp_oneEntry listed (fun x => { x with res := x.res ++ r.answers o w.value })
    have size : ∀ v, o.futBytes v = leBytes (match o.body with | .ldfut true => 8 | .stfut true => 8 | _ => 4) v := by
      intro v
      rw [Op.futBytes, Op.fut64]
      cases o.body with
      | ldfut wide => cases wide <;> rfl
      | stfut wide => cases wide <;> rfl
      | _ => rfl
    refine ⟨_, run, rfl, added.trans ?_, others, fun last => ?_, fun more => ?_⟩
    · exact congrArg (fun rs => some { o with res := o.res ++ rs })
        (List.map_congr_left fun l _ => congrArg (fun b => ({ lane := l, bytes := b } : LaneRes)) (size _))
    · exact if_pos (List.isEmpty_iff.2 last)
    · exact if_neg (mt List.isEmpty_iff.1 more)
  case grants =>
    subst this
    exact ⟨_, execDeferredRecordGrant_head listed held owner free, rfl⟩
  case completes =>
    have plain : o.returned = true ∧ s.formResults o = (s, o) ∧ o.rinvFailure = none := by
      split at results
      case h_5 =>
        rename_i body
        simp only [Op.returned, State.formResults, Op.rinvFailure, body, Op.lanes_answered results, Bool.or_true, and_self]
      case h_8 => exact results.elim
      all_goals
        rename_i body
        simp only [Op.returned, State.formResults, Op.rinvFailure, body, results, and_self]
    obtain ⟨returned, formed, noFailure⟩ := plain
    exact ⟨_, execFlagCompletion_returned listed here flag resident noError returned formed noFailure,
      State.written_finishOp listed here⟩
  case acknowledges =>
    have run := execWriteAcknowledged_done listed here noFlag counter resident acknowledged noError
    have others : ∀ j, j ≠ o.group → Tab.get? (s.finishOp id).groups j = Tab.get? s.groups j := fun j other => by
      rw [State.get?_finishOp listed, if_neg other]
    have own := State.finishOp_here listed here
    refine ⟨fun none_ => ?_, fun l mem below least => ?_⟩
    · rw [if_pos none_] at run
      refine ⟨_, run, State.finishOp_rest listed, others, ?_⟩
      rw [State.group_of_get? own]
      refine ⟨g.endOp_noFlag id noFlag, fun y other => ?_, ?_⟩
      · rw [Group.counterOps_endOp, counter, if_neg (fun same => other (Option.some.inj same).symm)]
      · rw [Group.counterOps_endOp, counter, if_pos rfl]
    · rw [if_neg (List.ne_nil_of_mem mem), lowest_eq mem below least] at run
      refine ⟨_, ?_, fun j other => ?_, ?_, run⟩
      · rw [State.finishOp_eq listed]
        rfl
      · rw [State.get?_modGroup, if_neg other, others j other]
      · rw [State.group_of_get? (by rw [State.get?_modGroup, if_pos rfl, own]; rfl)]

end Sys2Proof.Claims
end
section
/-!
SUPPORT. The issue of an instruction by its own effect, and the effects that its shared operations have: a start of an
operation, a change of the group's team, and the room of a flag or counter (R46, R138, R166).
-/

namespace Sys2Proof.Machine

open Sys2Proof.Safety Sys2Proof.Claims

/-! ### A group at its slot -/

/-- A group issues, at the slot of a clause. -/
structure State.AtSlot (s : State) (id : Nat) (c : Clause) : Prop where
  cur : s.cur = .group id
  clause : ∃ g, Tab.get? s.groups id = some g ∧ g.clause = some c

end Sys2Proof.Machine

namespace Sys2Proof.Safety

open Sys2Proof.Machine

theorem Issues.atSlot {i : Instr} {s : State} {id : Nat} {g : Group} {c : Clause} {f : Form} (h : Issues i s id g c f) :
    s.AtSlot id c := ⟨h.cur, g, h.here, h.clause⟩

end Sys2Proof.Safety

namespace Sys2Proof.Machine

open Sys2Proof.Safety Sys2Proof.Claims

theorem State.AtSlot.congr {s t : State} {id : Nat} {c : Clause} (h : s.AtSlot id c) (cur : t.cur = s.cur)
    (groups : t.groups = s.groups) : t.AtSlot id c := by
  obtain ⟨issuer, g, here, clause⟩ := h
  exact ⟨cur.trans issuer, g, groups ▸ here, clause⟩

theorem State.curId_of_cur {s : State} {id : Nat} (cur : s.cur = .group id) : s.curId = id := by
  rw [State.curId, cur]

theorem State.putCur_of_cur {s : State} {id : Nat} (cur : s.cur = .group id) (g : Group) : s.putCur g = s.putGroup id g := by
  rw [State.putCur, cur]

theorem State.AtSlot.putGroup {s : State} {id : Nat} {c : Clause} {g : Group} (h : s.AtSlot id c)
    (clause : g.clause = some c) : (s.putGroup id g).AtSlot id c :=
  ⟨h.cur, g, by rw [State.putGroup_groups, Tab.get?_put, if_pos rfl], clause⟩

/-! ### What an instruction does, raises and waits for, by the effect of its body -/

section
variable {i : Instr} {body : Group → List Nat → State → Eff} (run : ∀ s, exec i s = issue i s body)
include run

theorem does_of_body {ok : State → Nat → Group → List Nat → Prop} {eff : State → Nat → Group → List Nat → State → Prop}
    (effect : ∀ s id g c f, Issues i s id g c f → ok s id g (g.guarded f.slot) →
      ∃ u, body g (g.guarded f.slot) s = .done u ∧ eff s id g (g.guarded f.slot) u ∧ u.AtSlot id c) : Does i ok eff := by
  intro s id g c f issues holds
  obtain ⟨u, done, out, cur, g', here, clause⟩ := effect s id g c f issues holds
  obtain ⟨t, ran, ended⟩ := issueWith_done issues (fun _ _ _ => some []) body done cur here clause
  exact ⟨u, t, (run s).trans ran, out, ended⟩

theorem raises_of_body {ok : State → Group → List Nat → Prop} {cause : Cause} {info : Group → List Nat → Word}
    (effect : ∀ s id g c f, Issues i s id g c f → ok s g (g.guarded f.slot) →
      ∃ va, body g (g.guarded f.slot) s = .raise cause (info g (g.guarded f.slot)) va) : Raises i ok cause info := by
  intro s id g c f issues holds
  obtain ⟨va, raised⟩ := effect s id g c f issues holds
  exact ⟨va, 0, (run s).trans (issueWith_raise issues (fun _ _ _ => some []) body raised)⟩

theorem waits_of_body {ok : State → Nat → Group → List Nat → Prop} {why : WaitWhy}
    (effect : ∀ s id g c f, Issues i s id g c f → ok s id g (g.guarded f.slot) →
      body g (g.guarded f.slot) s = .hold why) : Waits i ok (fun _ _ _ => ⟨why, false, false⟩) := by
  intro s id g c f issues holds
  obtain ⟨only, group⟩ := State.beginWait_spec issues.here { why := why }
  exact ⟨_, (run s).trans (issueWith_hold issues (fun _ _ _ => some []) body (effect s id g c f issues holds)), only, group⟩

end

/-! ### Room -/

theorem withRoom_counter {g : Group} {k : Nat} (room : counterRoom g k) (e : Eff) : withRoom g none (some k) e = e :=
  if_pos (by simpa [Group.roomFor, counterRoom] using room)

theorem withRoom_flag {g : Group} {o : Slot} (room : flagRoom g o) (e : Eff) : withRoom g (g.slotFlag o) none e = e := by
  refine if_pos ?_
  simp only [Group.roomFor, Option.all_none, Bool.and_true]
  cases flag : g.slotFlag o with
  | none => rfl
  | some x => exact decide_eq_true (room x flag)

/-! ### An operation starts -/

theorem Group.flagOps_addFlag (g : Group) (f : Option Nat) (op x : Nat) :
    (g.addFlag f op).flagOps x = g.flagOps x ++ if f = some x then [op] else [] := by
  cases f with
  | none => simp [Group.addFlag]
  | some y =>
    by_cases same : x = y
    · simp [Group.addFlag, Group.flagOps, Tab.getD, same]
    · simp [Group.addFlag, Group.flagOps, Tab.getD, same, Ne.symm same]

theorem Group.counterOps_addCounter (g : Group) (k : Option Nat) (op x : Nat) :
    (g.addCounter k op).counterOps x = g.counterOps x ++ if k = some x then [(op, false)] else [] := by
  cases k with
  | none => simp [Group.addCounter]
  | some y =>
    by_cases same : x = y
    · simp [Group.addCounter, Group.counterOps, Tab.getD, same]
    · simp [Group.addCounter, Group.counterOps, Tab.getD, same, Ne.symm same]

theorem Group.addFlag_same (g : Group) (f : Option Nat) (op : Nat) :
    g.addFlag f op = { g with flags := (g.addFlag f op).flags } := by cases f <;> rfl

theorem Group.addCounter_same (g : Group) (k : Option Nat) (op : Nat) :
    g.addCounter k op = { g with counters := (g.addCounter k op).counters } := by cases k <;> rfl

theorem Group.flagOps_beginOp (g : Group) (op : Op) (id : Nat) (dests : List RegName) (x : Nat) :
    (g.beginOp op id dests).flagOps x = g.flagOps x ++ if op.flag = some x then [id] else [] := by
  rw [← Group.flagOps_addFlag, Group.beginOp, Group.addCounter_same]
  rfl

theorem Group.counterOps_beginOp (g : Group) (op : Op) (id : Nat) (dests : List RegName) (x : Nat) :
    (g.beginOp op id dests).counterOps x = g.counterOps x ++ if op.counter = some x then [(id, false)] else [] := by
  have flags : (g.addFlag op.flag id).counterOps x = g.counterOps x := by rw [Group.addFlag_same]; rfl
  rw [← flags, ← Group.counterOps_addCounter]
  rfl

theorem Group.beginOp_same (g : Group) (op : Op) (id : Nat) (dests : List RegName) : g.beginOp op id dests =
    { g with flags := (g.beginOp op id dests).flags, counters := (g.beginOp op id dests).counters
             pending := g.pending ++ dests.map (fun r => (r, id)) } := by
  rw [Group.beginOp, Group.addCounter_same, Group.addFlag_same]

section
variable {s : State} {id : Nat} {c : Clause} (h : s.AtSlot id c) (op : Op) (dests : List RegName)
include h

theorem State.startOp_eq : s.startOp op dests = { s with
    ops := Tab.put s.ops s.fresh op, groups := Tab.put s.groups id ((s.group id).beginOp op s.fresh dests)
    fresh := s.fresh + 1 } := by
  obtain ⟨cur, g, here, -⟩ := h
  have current : s.curGroup? = some g := by simp only [State.curGroup?, cur, here]
  rw [State.startOp, current, State.group_of_get? here]
  simp only [State.putCur, cur]
  rfl

theorem State.startOp_started : Started s (s.startOp op dests) id op dests := by
  have group : (s.startOp op dests).group id = (s.group id).beginOp op s.fresh dests :=
    State.group_of_get? (by rw [State.startOp_eq h, Tab.get?_put, if_pos rfl])
  refine ⟨?_, fun j other => ?_, ?_, fun x => ?_, fun x => ?_⟩
  · rw [State.startOp_eq h]
  · rw [State.startOp_eq h, Tab.get?_put, if_neg other]
  · rw [group]
    exact Group.beginOp_same _ op s.fresh dests
  · rw [group, Group.flagOps_beginOp]
  · rw [group, Group.counterOps_beginOp]

theorem State.AtSlot.startOp : (s.startOp op dests).AtSlot id c := by
  obtain ⟨cur, g, here, clause⟩ := h
  rw [State.startOp_eq ⟨cur, g, here, clause⟩]
  refine ⟨cur, (s.group id).beginOp op s.fresh dests, ?_, ?_⟩
  · rw [Tab.get?_put, if_pos rfl]
  · rw [Group.beginOp_same, State.group_of_get? here]
    exact clause

end

/-! ### The team of a group changes -/

theorem State.modTeam_teamOnly {s : State} {t : Nat} (listed : Tab.get? s.teams t ≠ none) (f : Team → Team) :
    TeamOnly s (s.modTeam t f) t (fun x y => y = f x) := by
  obtain ⟨x, team⟩ := Option.ne_none_iff_exists'.1 listed
  refine ⟨rfl, fun k other => (Tab.get?_modify s.teams t k f).trans (if_neg other), x, f x, team, ?_, rfl⟩
  exact (Tab.get?_modify s.teams t t f).trans (by rw [if_pos rfl, team, Option.map_some])

end Sys2Proof.Machine

namespace Sys2Proof.Claims

open Sys2Proof.Machine

theorem TeamOnly.trans {s m u : State} {t : Nat} {f h : Team → Team} (first : TeamOnly s m t (fun x y => y = f x))
    (then_ : TeamOnly m u t (fun x y => y = h x)) : TeamOnly s u t (fun x y => y = h (f x)) := by
  obtain ⟨rest, others, x, _, team, changed, rfl⟩ := first
  obtain ⟨rest', others', y, _, team', changed', rfl⟩ := then_
  obtain rfl : f x = y := Option.some.inj (changed.symm.trans team')
  exact ⟨by rw [rest', rest], fun k other => (others' k other).trans (others k other), x, _, team, changed', rfl⟩

end Sys2Proof.Claims
end
section
/-!
SUPPORT. Records: the positions that reservations take in the blocks of a work graph (R90, R91, R94, R99).
-/

namespace Sys2Proof.Machine

open Sys2Proof.Safety Sys2Proof.Claims

/-! ### Work on one block of a work graph -/

theorem State.inst_modInst {s : State} {i : Nat} {w : WInst} (h : Tab.get? s.insts i = some w) (f : WInst → WInst) :
    (s.modInst i f).inst i = f w :=
  State.inst_of_get? (by rw [State.modInst_insts, Tab.get?_modify, if_pos rfl, h, Option.map_some])

/-- From a state to another, the scheduler of a work graph has worked on one of its blocks: launches may have been accepted,
and every other block and every other work graph is as before. -/
structure BlockWork (i b : Nat) (s u : State) : Prop where
  rest : u = { s with insts := u.insts, fresh := u.fresh, launches := u.launches, gangs := u.gangs }
  others : ∀ j, j ≠ i → Tab.get? u.insts j = Tab.get? s.insts j
  listed : Tab.get? s.insts i ≠ none → Tab.get? u.insts i ≠ none
  blocks : ∀ c, c ≠ b → (u.inst i).block c = (s.inst i).block c

theorem BlockWork.refl (i b : Nat) (s : State) : BlockWork i b s s := ⟨rfl, fun _ _ => rfl, id, fun _ _ => rfl⟩

theorem BlockWork.trans {i b : Nat} {s m u : State} (h : BlockWork i b s m) (k : BlockWork i b m u) : BlockWork i b s u where
  rest := by
    have hm := h.rest
    have hu := k.rest
    rw [hu]
    rw [hm]
  others := fun j other => (k.others j other).trans (h.others j other)
  listed := k.listed ∘ h.listed
  blocks := fun c other => (k.blocks c other).trans (h.blocks c other)

theorem BlockWork.modInst (i b : Nat) (s : State) {f : WInst → WInst} (kept : ∀ w c, c ≠ b → (f w).block c = w.block c) :
    BlockWork i b s (s.modInst i f) where
  rest := rfl
  others := fun j other => by rw [State.modInst_insts, Tab.get?_modify, if_neg other]
  listed := fun h => by
    rw [State.modInst_insts, Tab.get?_modify, if_pos rfl]
    exact mt Option.map_eq_none_iff.1 h
  blocks := fun c other => by
    cases h : Tab.get? s.insts i with
    | none => rw [State.modInst, Tab.modify, h]
    | some w => rw [State.inst_modInst h, State.inst_of_get? h, kept w c other]

theorem BlockWork.addLaunch (i b : Nat) (s : State) (x : Launch) : BlockWork i b s (s.addLaunch x) := by
  rw [State.addLaunch]
  rcases State.nextGang_cases ({ s with launches := Tab.put s.launches s.fresh x } : State).tick s.fresh with h | ⟨g, ls, h⟩ <;>
    rw [h]
  · exact ⟨rfl, fun _ _ => rfl, id, fun _ _ => rfl⟩
  · exact ⟨rfl, fun _ _ => rfl, id, fun _ _ => rfl⟩

theorem BlockWork.putBlock (i b : Nat) (s : State) (x : WInst → Block) :
    BlockWork i b s (s.modInst i (fun w => w.putBlock b (x w))) :=
  BlockWork.modInst i b s (fun w c other => by rw [WInst.block_putBlock, if_neg other])

theorem BlockWork.checkReady (i b : Nat) (s : State) : BlockWork i b s (s.checkReady i b) := by
  unfold State.checkReady
  split
  · exact (BlockWork.putBlock i b s _).trans (BlockWork.addLaunch i b _ _)
  · exact BlockWork.refl i b s

theorem BlockWork.tick (i b : Nat) (s : State) : BlockWork i b s s.tick := ⟨rfl, fun _ _ => rfl, id, fun _ _ => rfl⟩

theorem BlockWork.sealBlock {s : State} {i : Nat} {w : WInst} (listed : Tab.get? s.insts i = some w) (b : Nat) :
    BlockWork i b s (s.sealBlock i b) := by
  have eq : s.sealBlock i b = ((s.modInst i (fun w => w.sealed b s.fresh)).tick).checkReady i b := by
    rw [State.sealBlock, State.inst_of_get? listed, State.modInst_eq listed, State.modInst_eq listed]
    rfl
  rw [eq]
  exact ((BlockWork.modInst i b s fun w c other => (w.block_sealed b s.fresh c).trans (if_neg other)).trans
    (BlockWork.tick i b _)).trans (BlockWork.checkReady i b _)

/-! ### A position taken (R90, R91) -/

/-- The block that takes a record, as it stands before: an open one, or a new one of the node. -/
def WInst.filling (w : WInst) (node : Nat) (prod : Option Nat) (b : Nat) : Block :=
  if (w.block b).state = .opened then w.block b else { state := .opened, node := node, producer := prod }

/-- The work graph with one record more allocated in a block. -/
def WInst.filled (w : WInst) (node : Nat) (prod : Option Nat) (b : Nat) : WInst :=
  w.putBlock b { w.filling node prod b with count := (w.filling node prod b).count + 1 }

theorem WInst.block_filled (w : WInst) (node : Nat) (prod : Option Nat) (b : Nat) : (w.filled node prod b).block b =
    { w.filling node prod b with count := (w.filling node prod b).count + 1 } :=
  (w.block_putBlock b b _).trans (if_pos rfl)

theorem WInst.sealedBlock_filled (w : WInst) (node : Nat) (prod : Option Nat) (b order : Nat) :
    (w.filled node prod b).sealedBlock b order = { w.filling node prod b with
      count := (w.filling node prod b).count + 1, state := .sealed, order := order
      seq := (w.node (w.filling node prod b).node).seq } := by
  rw [WInst.sealedBlock, WInst.block_filled]
  rfl

/-- Sealing a block changes the work graph's blocks and the batch number of the block's node. -/
theorem WInst.sealed_rest (w : WInst) (b order : Nat) : w.sealed b order = { w with
    blocks := (w.sealed b order).blocks
    nodes := w.nodes.modify (w.block b).node (fun y => { y with seq := y.seq + 1 }) } := rfl

theorem WInst.sealed_filled (w : WInst) (node : Nat) (prod : Option Nat) (b order : Nat) :
    (w.filled node prod b).sealed b order = { w with
      blocks := ((w.filled node prod b).sealed b order).blocks
      nodes := w.nodes.modify (w.filling node prod b).node (fun y => { y with seq := y.seq + 1 }) } := by
  have filled : w.filled node prod b = { w with blocks := (w.filled node prod b).blocks } := rfl
  have rest := (w.filled node prod b).sealed_rest b order
  rw [WInst.block_filled] at rest
  generalize (w.filled node prod b).sealed b order = v at rest ⊢
  rw [rest]
  generalize w.filled node prod b = u at filled ⊢
  rw [filled]

section
variable {s : State} {i node b : Nat} {prod : Option Nat} {w : WInst} (listed : Tab.get? s.insts i = some w)
include listed

theorem State.takeSlot_position : (s.takeSlot i node prod b).2 =
    w.pool + b * 2 ^ w.blklog + (w.filling node prod b).count * (w.node node).recBytes := by
  simp only [State.takeSlot, State.inst_of_get? listed, beq_iff_eq]
  rfl

/-- A position that leaves room in its block. -/
theorem State.takeSlot_few (few : (w.filling node prod b).count + 1 < (w.node node).batch) :
    (s.takeSlot i node prod b).1 = { s with insts := Tab.put s.insts i (w.filled node prod b) } := by
  simp only [State.takeSlot, State.inst_of_get? listed, State.modInst_eq listed, beq_iff_eq]
  exact if_neg (Nat.not_le.2 few)

/-- The last position of a block. -/
theorem State.takeSlot_many (many : (w.node node).batch ≤ (w.filling node prod b).count + 1) :
    (s.takeSlot i node prod b).1
      = ({ s with insts := Tab.put s.insts i (w.filled node prod b) } : State).sealBlock i b := by
  simp only [State.takeSlot, State.inst_of_get? listed, State.modInst_eq listed, beq_iff_eq]
  exact if_pos many

theorem State.takeSlot_work : BlockWork i b s (s.takeSlot i node prod b).1 := by
  have eq := State.modInst_eq listed (fun w' => w'.putBlock b ((w.filled node prod b).block b))
  rw [WInst.block_filled] at eq
  have put : BlockWork i b s { s with insts := Tab.put s.insts i (w.filled node prod b) } :=
    eq ▸ BlockWork.putBlock i b s _
  rcases Nat.lt_or_ge ((w.filling node prod b).count + 1) (w.node node).batch with few | many
  · rw [State.takeSlot_few listed few]
    exact put
  · rw [State.takeSlot_many listed many]
    have here : Tab.get? (Tab.put s.insts i (w.filled node prod b)) i = some (w.filled node prod b) := by
      rw [Tab.get?_put, if_pos rfl]
    exact put.trans (BlockWork.sealBlock (s := { s with insts := Tab.put s.insts i (w.filled node prod b) }) here b)

/-- The position that a reservation takes in a block. -/
theorem State.takeSlot_took
    (block : w.openBlock node prod = some b ∨ (w.openBlock node prod = none ∧ w.nextBlock prod = some b)) :
    Took i node prod (s.takeSlot i node prod b).2 s (s.takeSlot i node prod b).1 := by
  have work := State.takeSlot_work (node := node) (b := b) (prod := prod) listed
  refine ⟨w, b, listed, block, State.takeSlot_position listed, work.rest, work.others, fun c other => ?others,
    fun few => ?few, fun many outstanding => ?many⟩
  case others => rw [work.blocks c other, State.inst_of_get? listed]
  case few =>
    rw [State.takeSlot_few listed few, State.inst_put]
    exact ⟨rfl, rfl, w.block_filled node prod b⟩
  case many =>
    have waits : ((w.filled node prod b).block b).commits.length < ((w.filled node prod b).block b).count := by
      rw [WInst.block_filled]
      exact Nat.lt_succ_of_le outstanding
    have sealed := State.sealBlock_outstanding (s := { s with insts := Tab.put s.insts i (w.filled node prod b) })
      ((Tab.get?_put s.insts i i _).trans (if_pos rfl)) waits
    rw [State.takeSlot_many listed many, sealed, State.inst_put]
    refine ⟨rfl, ?_, WInst.sealed_filled w node prod b s.fresh⟩
    rw [WInst.block_sealed, if_pos rfl]
    exact WInst.sealedBlock_filled w node prod b s.fresh

end

end Sys2Proof.Machine

namespace Sys2Proof.Claims

open Sys2Proof.Machine

/-! ### Runs of positions (R90, R94, R99) -/

theorem Reserved.append {i : Nat} {prod : Option Nat} : ∀ {xs ys : List (Nat × Nat)} {s m u : State},
    Reserved i prod xs s m → Reserved i prod ys m u → Reserved i prod (xs ++ ys) s u
  | [], _, _, _, _, h, k => h ▸ k
  | _ :: _, _, _, _, _, ⟨n, took, h⟩, k => ⟨n, took, h.append k⟩

/-- Positions change nothing but their work graph and the launches that they seal. -/
theorem Reserved.rest {i : Nat} {prod : Option Nat} : ∀ {xs : List (Nat × Nat)} {s u : State}, Reserved i prod xs s u →
    u = { s with insts := u.insts, fresh := u.fresh, launches := u.launches, gangs := u.gangs }
  | [], _, _, h => by rw [Reserved] at h; rw [h]
  | _ :: _, _, _, ⟨m, ⟨_, _, _, _, _, took, _⟩, h⟩ => by
    have rest := h.rest
    rw [rest]
    rw [took]

/-- A reservation leaves the issuer, the groups and the teams as they were. -/
theorem Reserved.kept {i : Nat} {prod : Option Nat} {xs : List (Nat × Nat)} {s u : State} (h : Reserved i prod xs s u) :
    u.cur = s.cur ∧ u.groups = s.groups ∧ u.teams = s.teams := by
  rw [h.rest]
  exact ⟨rfl, rfl, rfl⟩

end Sys2Proof.Claims

namespace Sys2Proof.Machine

open Sys2Proof.Safety Sys2Proof.Claims

theorem State.reserveRun_reserved {i node : Nat} {prod : Option Nat} : ∀ {k : Nat} {s u : State} {as : List Nat},
    Tab.get? s.insts i ≠ none → State.reserveRun i node prod k s = some (u, as) →
    as.length = k ∧ Reserved i prod (as.map (fun a => (node, a))) s u ∧ Tab.get? u.insts i ≠ none
  | 0, s, u, as, listed, run => by
    obtain ⟨rfl, rfl⟩ := Prod.mk.inj (Option.some.inj run)
    exact ⟨rfl, rfl, listed⟩
  | k + 1, s, u, as, listed, run => by
    obtain ⟨w, here⟩ := Option.ne_none_iff_exists'.1 listed
    rw [State.reserveRun, State.inst_of_get? here] at run
    split at run
    case h_1 => cases run
    case h_2 b block =>
      obtain ⟨⟨u', as'⟩, rest, same⟩ := Option.map_eq_some_iff.1 run
      obtain ⟨rfl, rfl⟩ := Prod.mk.inj same
      have taken := (State.takeSlot_work (node := node) (b := b) (prod := prod) here).listed listed
      obtain ⟨length, reserved, kept⟩ := State.reserveRun_reserved taken rest
      exact ⟨congrArg (· + 1) length,
        ⟨_, State.takeSlot_took here ((Option.orElse_eq_some _ _ _).1 block), reserved⟩, kept⟩

/-- The positions that RECALLOC reserves for its lanes, each in the node that its lane names. -/
theorem recallocRun_reserved {i : Nat} {prod : Option Nat} {node : Nat → Nat} : ∀ {ls : List Nat} {s u : State}
    {as : List (Nat × Nat)}, Tab.get? s.insts i ≠ none → recallocRun i prod node ls s = some (u, as) →
    as.map Prod.fst = ls ∧ Reserved i prod (as.map (fun x => (node x.1, x.2))) s u
  | [], s, u, as, _, run => by
    obtain ⟨rfl, rfl⟩ := Prod.mk.inj (Option.some.inj run)
    exact ⟨rfl, rfl⟩
  | l :: ls, s, u, as, listed, run => by
    rw [recallocRun] at run
    split at run
    case h_1 m a one =>
      obtain ⟨⟨u', as'⟩, rest, same⟩ := Option.map_eq_some_iff.1 run
      obtain ⟨rfl, rfl⟩ := Prod.mk.inj same
      obtain ⟨-, first, kept⟩ := State.reserveRun_reserved listed one
      obtain ⟨lanes, reserved⟩ := recallocRun_reserved kept rest
      exact ⟨congrArg (l :: ·) lanes, first.append reserved⟩
    case h_2 => cases run

end Sys2Proof.Machine
end
section
/-!
SUPPORT. The record instructions' shared parts, and what a commit does (R91, R94, R97, R100).
-/

namespace Sys2Proof.Machine

open Sys2Proof.Safety Sys2Proof.Claims

/-! ### Bytes of a record (R1, R97) -/

theorem leBytes_zero : ∀ n, leBytes n 0 = List.replicate n 0
  | 0 => rfl
  | n + 1 => by rw [leBytes, Nat.zero_div, leBytes_zero n]; rfl

theorem leBytes_add : ∀ a b v, leBytes (a + b) v = leBytes a v ++ leBytes b (v / 256 ^ a)
  | 0, b, v => by simp [leBytes]
  | a + 1, b, v => by
    rw [Nat.add_right_comm, leBytes, leBytes_add a b (v / 256), leBytes, Nat.div_div_eq_div_mul, ← Nat.pow_succ']
    rfl

/-- The low bytes of a number do not depend on what stands above them. -/
theorem leBytes_add_mul : ∀ n v k, leBytes n (v + 256 ^ n * k) = leBytes n v
  | 0, _, _ => rfl
  | n + 1, v, k => by
    have above : v + 256 ^ (n + 1) * k = v + 256 * (256 ^ n * k) := by rw [Nat.pow_succ', Nat.mul_assoc]
    have low : BitVec.ofNat 8 (v + 256 * (256 ^ n * k)) = BitVec.ofNat 8 v :=
      BitVec.eq_of_toNat_eq (by simp only [BitVec.toNat_ofNat]; omega)
    rw [above, leBytes, low, Nat.add_mul_div_left _ _ (by decide), leBytes_add_mul n (v / 256) k, leBytes]

/-- The bytes of a run of words: each word's, lowest first, and zeros above. -/
theorem leBytes_wordsNat : ∀ (ws : List Word) (n : Nat), 4 * ws.length ≤ n →
    leBytes n (wordsNat ws) = ws.flatMap (fun w => leBytes 4 w.toNat) ++ List.replicate (n - 4 * ws.length) 0
  | [], n, _ => leBytes_zero n
  | w :: ws, n, fits => by
    obtain ⟨m, rfl⟩ := Nat.exists_eq_add_of_le' (Nat.le_of_add_left_le fits : 4 ≤ n)
    have rest := leBytes_wordsNat ws m (by rw [List.length_cons] at fits; omega)
    have high : (w.toNat + 2 ^ 32 * wordsNat ws) / 256 ^ 4 = wordsNat ws := by have := w.isLt; omega
    have low : leBytes 4 (w.toNat + 2 ^ 32 * wordsNat ws) = leBytes 4 w.toNat := leBytes_add_mul 4 w.toNat _
    rw [wordsNat, Nat.add_comm m 4, leBytes_add, high, rest, low, List.flatMap_cons,
      List.append_assoc, List.length_cons, show 4 + m - 4 * (ws.length + 1) = m - 4 * ws.length by omega]

/-- The bytes of a record that SPAWN fills. -/
theorem leBytes_valueRun (g : Group) (o : Operand) (l : Nat) {n k : Nat} (fits : 4 * n ≤ k) :
    leBytes k (wordsNat (g.valueRun o n l)) =
      (List.range n).flatMap (fun j => leBytes 4 (g.valueAt o j l).toNat) ++ List.replicate (k - 4 * n) 0 := by
  have length : (g.valueRun o n l).length = n := by rw [Group.valueRun, List.length_map, List.length_range]
  rw [leBytes_wordsNat _ k (by rwa [length]), length, Group.valueRun, List.flatMap_map]

/-! ### The checks of the record instructions -/

theorem WInst.targetOk_iff (s : State) (i own n : Nat) : (s.inst i).targetOk own n = true ↔ aims s i own n := by
  rw [WInst.targetOk, Bool.and_eq_true, decide_eq_true_eq]

/-- A work graph with a node is listed. -/
theorem listed_of_aims {s : State} {i own n : Nat} (aim : aims s i own n) : Tab.get? s.insts i ≠ none := by
  intro absent
  have empty : s.inst i = {} := by rw [State.inst, Tab.getD, absent, Option.getD_none]
  have below := aim.1
  rw [empty] at below
  exact absurd below (Nat.not_lt_zero n)

section
variable {s : State} {id i : Nat} {g : Group} (may : mayReserve s id g i)
include may

theorem clockLeast_of_mayReserve : ¬(decide (1 ≤ g.detlevel) && !s.clockLeast id) = true := by
  rw [Bool.and_eq_true, decide_eq_true_eq, Bool.not_eq_true']
  rintro ⟨level, later⟩
  rw [may.1 level] at later
  exact Bool.noConfusion later

theorem behind_of_mayReserve : ¬s.behind i id = true := by
  obtain ⟨-, first⟩ := may
  rw [State.behind]
  cases waiting : (s.inst i).waiting with
  | nil => exact Bool.false_ne_true
  | cons h t => simpa using first h (by rw [waiting, List.head?_cons])

end

theorem recInfo_eq (sub l : Nat) : laneInfo sub l = recInfo sub l := by
  rw [laneInfo, recInfo, Nat.mul_comm]

theorem State.served_served (s : State) (i id : Nat) : Served i id s (s.served i id) := by
  refine ⟨rfl, fun j other => ?_, ?_⟩
  · rw [State.served, State.modInst_insts, Tab.get?_modify, if_neg other]
  · rw [State.served, State.modInst_insts, Tab.get?_modify, if_pos rfl]

/-! ### A commit begins -/

/-- The commit of records by a group whose team is listed. -/
theorem State.startCommit_commits {s : State} {id : Nat} {c : Clause} (at_ : s.AtSlot id c) {g : Group}
    (team : Tab.get? s.teams g.team ≠ none) (i : Nat) (recs : List (Nat × List Byte)) :
    Commits s (s.startCommit_ g i recs) id g i recs ∧ (s.startCommit_ g i recs).AtSlot id c := by
  have wrote := State.modTeam_teamOnly team (fun t => { t with wrote := true })
  have still : Tab.get? (s.markWrote g.team).teams g.team ≠ none := by
    obtain ⟨-, -, _, y, -, changed, -⟩ := wrote
    exact fun absent => Option.some_ne_none y (changed.symm.trans absent)
  have slot : ((s.markWrote g.team).modTeam g.team (fun t => { t with committed := true })).AtSlot id c := at_.congr rfl rfl
  rw [State.startCommit_, State.curId_of_cur at_.cur]
  exact ⟨⟨_, wrote.trans (State.modTeam_teamOnly still _), State.startOp_started slot _ []⟩, slot.startOp _ []⟩

/-! ### The lowest lane that RECCOMMIT refuses (R100, R101) -/

/-- Lanes of which each names a record of the group, no two the same, refuse nothing. -/
theorem commitFate_skip {recs : List Nat} (rec_ : Nat → Nat) : ∀ (a rest seen : List Nat), (a.map rec_).Nodup →
    (∀ k ∈ a, rec_ k ∈ recs) → (∀ k ∈ a, rec_ k ∉ seen) →
    ∃ seen', commitFate recs ((a ++ rest).map (fun l => (l, rec_ l))) seen
        = commitFate recs (rest.map (fun l => (l, rec_ l))) seen'
      ∧ ∀ x, x ∈ seen' ↔ x ∈ a.map rec_ ∨ x ∈ seen
  | [], rest, seen, _, _, _ => ⟨seen, rfl, fun x => by simp⟩
  | k :: a, rest, seen, nodup, mine, new => by
    rw [List.map_cons, List.nodup_cons] at nodup
    obtain ⟨seen', fate, mem⟩ := commitFate_skip rec_ a rest (rec_ k :: seen) nodup.2
      (fun j h => mine j (List.mem_cons_of_mem k h)) (fun j h => by
        rw [List.mem_cons, not_or]
        exact ⟨fun same => nodup.1 (same ▸ List.mem_map_of_mem h), new j (List.mem_cons_of_mem k h)⟩)
    refine ⟨seen', ?_, fun x => ?_⟩
    · rw [← fate, List.cons_append, List.map_cons, commitFate, if_neg (by simpa using new k List.mem_cons_self),
        if_neg (by simpa using mine k List.mem_cons_self)]
    · rw [mem, List.map_cons, List.mem_cons, List.mem_cons, or_left_comm, or_assoc]

section
variable {recs : List Nat} {rec_ : Nat → Nat} {a : List Nat} (nodup : (a.map rec_).Nodup) (mine : ∀ k ∈ a, rec_ k ∈ recs)
include nodup mine

theorem commitFate_none : commitFate recs (a.map (fun l => (l, rec_ l))) [] = none := by
  obtain ⟨seen, fate, -⟩ := commitFate_skip rec_ a [] [] nodup mine (fun _ _ => List.not_mem_nil)
  rw [List.append_nil] at fate
  exact fate

/-- A record that a lower lane names. -/
theorem commitFate_named {l : Nat} (b : List Nat) (named : rec_ l ∈ a.map rec_) :
    commitFate recs ((a ++ l :: b).map (fun l => (l, rec_ l))) [] = some (5, l) := by
  obtain ⟨seen, fate, mem⟩ := commitFate_skip rec_ a (l :: b) [] nodup mine (fun _ _ => List.not_mem_nil)
  rw [fate, List.map_cons, commitFate, if_pos (by simpa using (mem _).2 (.inl named))]

/-- A record that is not the group's. -/
theorem commitFate_foreign {l : Nat} (b : List Nat) (new : rec_ l ∉ a.map rec_) (foreign : rec_ l ∉ recs) :
    commitFate recs ((a ++ l :: b).map (fun l => (l, rec_ l))) [] = some (4, l) := by
  obtain ⟨seen, fate, mem⟩ := commitFate_skip rec_ a (l :: b) [] nodup mine (fun _ _ => List.not_mem_nil)
  have unseen : rec_ l ∉ seen := by
    rw [mem, not_or]
    exact ⟨new, List.not_mem_nil⟩
  rw [fate, List.map_cons, commitFate, if_neg (by simpa using unseen), if_pos (by simpa using foreign)]

end

/-! ### A record committed (R91, R100) -/

theorem NatSet.insert_length {xs : List Nat} {k : Nat} (new : k ∉ xs) : (NatSet.insert xs k).length = xs.length + 1 := by
  have split : ∀ ys : List Nat, k ∉ ys → (ys.filter (· < k)).length + (ys.filter (k < ·)).length = ys.length := by
    intro ys absent
    have other : ys.filter (k < ·) = ys.filter (fun y => !decide (y < k)) := List.filter_congr fun y mem => by
      have : y ≠ k := fun same => absent (same ▸ mem)
      simp only [← decide_not, decide_eq_decide]
      omega
    rw [other]
    exact (List.length_eq_length_filter_add _).symm
  rw [NatSet.insert, if_neg (by simpa using new), List.length_append, List.length_cons, ← Nat.add_assoc, split xs new]

theorem BlockWork.commitRec (i : Nat) (s : State) (addr : Nat) :
    BlockWork i ((addr - (s.inst i).pool) / 2 ^ (s.inst i).blklog) s (s.commitRec i addr) :=
  (BlockWork.putBlock i _ s _).trans (BlockWork.checkReady i _ _)

theorem State.commitRec_ops (s : State) (i addr : Nat) : (s.commitRec i addr).ops = s.ops := by
  rw [(BlockWork.commitRec i s addr).rest]

/-- A block that is not SEALED does not become READY. -/
theorem State.checkReady_unsealed {s : State} {i b : Nat} (h : ((s.inst i).block b).state ≠ .sealed) : s.checkReady i b = s := by
  rw [State.checkReady, beq_eq_false_iff_ne.2 h]
  rfl

/-- A record committed in an OPEN block. -/
theorem State.commitRec_opened {s : State} {i addr b : Nat} {w : WInst} (listed : Tab.get? s.insts i = some w)
    (at_ : b = (addr - w.pool) / 2 ^ w.blklog) (opened : (w.block b).state = .opened) :
    s.commitRec i addr = { s with insts := Tab.put s.insts i (w.putBlock b { w.block b with
      commits := NatSet.insert (w.block b).commits ((addr - w.blockBase b) / (w.node (w.block b).node).recBytes)
      first := some ((w.block b).first.getD s.now) }) } := by
  subst at_
  simp only [State.commitRec, State.inst_of_get? listed, State.modInst_eq listed]
  refine State.checkReady_unsealed ?_
  rw [State.inst_of_get? ((Tab.get?_put s.insts i i _).trans (if_pos rfl)), WInst.block_putBlock, if_pos rfl, opened]
  exact BState.noConfusion

/-! ### WRITE_ACKNOWLEDGED of a commit -/

theorem State.setKeys_ops : ∀ (bs : List (Nat × Byte)) (s : State), (s.setKeys bs).ops = s.ops
  | [], _ => rfl
  | _ :: bs, s => State.setKeys_ops bs { s with mem := _ }

theorem State.writeLine_ops (s : State) (part ctx va line : Nat) (bs : List (Nat × Byte)) :
    (s.writeLine part ctx va line bs).ops = s.ops := by
  have cleared : (s.clearPoison (bs.map Prod.fst)).ops = s.ops := by
    unfold State.clearPoison
    split <;> rfl
  have bumped : ∀ t : State, (t.bumpTag line).ops = t.ops := fun t => by
    unfold State.bumpTag
    split <;> rfl
  unfold State.writeLine
  split
  · exact State.ctxEvent_ops s _ _ _ _ _ _
  · rw [bumped, State.setKeys_ops, cleared]

/-- Bytes written by an engine leave the operations in flight as they are. -/
theorem State.writeRange_ops {s t : State} {unit part ctx va : Nat} {bs : List Byte}
    (written : s.writeRange unit part ctx va bs = .ok t) : t.ops = s.ops := by
  have lines : ∀ (ls : List (Nat × List (Nat × Nat × Byte))) (f : Nat × List (Nat × Nat × Byte) → Nat)
      (h : Nat × List (Nat × Nat × Byte) → List (Nat × Byte)) (s : State),
      (ls.foldl (fun s l => s.writeLine part ctx (f l) l.1 (h l)) s).ops = s.ops := by
    intro ls f h
    induction ls with
    | nil => exact fun _ => rfl
    | cons l ls ih => exact fun s => (ih _).trans (State.writeLine_ops s _ _ _ _ _)
  rw [State.writeRange] at written
  cases places : s.range unit part ctx va bs.length true with
  | error e =>
    rw [places] at written
    cases written
  | ok ps =>
    rw [places] at written
    obtain rfl := Except.ok.inj written
    exact lines _ _ _ s

theorem State.clearRequests_of_none {s : State} {who sub : Nat} (none_ : s.requestsOf who sub = []) :
    s.clearRequests who sub = s := by
  rw [State.requestsOf, List.filter_eq_nil_iff] at none_
  have all : s.preqs.filter (fun x => !(x.2.who == who && x.2.sub == sub && x.2.kind != 1)) = s.preqs :=
    List.filter_eq_self.2 fun x mem => by rw [Bool.not_eq_true', ← Bool.not_eq_true]; exact none_ x mem
  rw [State.clearRequests, all]

theorem State.answerOf_of_none {s : State} {who sub : Nat} (none_ : s.requestsOf who sub = []) : s.answerOf who sub = .go := by
  rw [State.answerOf, none_]

end Sys2Proof.Machine
end
section
/-!
O48. What SPAWN, RECALLOC, RECCOMMIT and LAUNCH do, raise and wait for, and what a commit comes to.
-/

namespace Sys2Proof.Machine

open Sys2Proof.Safety Sys2Proof.Claims

/-! ### SPAWN (R94 to R97) -/

section
variable (o : Slot) (n : BitVec 3)

/-- SPAWN where its node takes the records, it may reserve, and blocks are left. -/
theorem spawn_does (i own : Nat) : Does (.spawn o n)
    (fun s id g ls => teamed s g ∧ inNode s g i own ∧ aims s i own (onceOf o.b g ls)
      ∧ 4 * (n.toNat + 1) ≤ ((s.inst i).node (onceOf o.b g ls)).recBytes ∧ mayReserve s id g i
      ∧ (State.reserveRun i (onceOf o.b g ls) g.producer ls.length s).isSome = true ∧ counterRoom g 0)
    (fun s id g ls u => ∃ (as : List Nat) (m m2 : State), as.length = ls.length
      ∧ Reserved i g.producer (as.map (fun a => (onceOf o.b g ls, a))) s m ∧ Served i id m m2
      ∧ Commits m2 u id g i ((as.zip ls).map (fun x => (x.1,
          (List.range (n.toNat + 1)).flatMap (fun j => leBytes 4 (g.valueAt o.a j x.2).toNat)
            ++ List.replicate (((s.inst i).node (onceOf o.b g ls)).recBytes - 4 * (n.toNat + 1)) 0)))) := by
  refine does_of_body (fun s => (exec_spawn s o n).trans rfl) fun s id g c f issues ⟨team, node, aim, fits, may, free, room⟩ => ?_
  obtain ⟨⟨s1, as⟩, run⟩ := Option.isSome_iff_exists.1 free
  obtain ⟨length, reserved, -⟩ := State.reserveRun_reserved (listed_of_aims aim) run
  obtain ⟨cur, groups, teams⟩ := reserved.kept
  have slot : (s1.served i id).AtSlot id c := issues.atSlot.congr cur groups
  rw [teamed, ← teams] at team
  have target := (WInst.targetOk_iff s i own _).2 aim
  refine ⟨_, ?_, ⟨as, s1, s1.served i id, length, reserved, State.served_served s1 i id,
    (State.startCommit_commits slot team i _).1⟩, (State.startCommit_commits slot team i _).2⟩
  rw [inNode] at node
  rw [onceOf] at target fits run
  simp only [node, target, Bool.not_true, Bool.false_eq_true, if_false, Nat.not_lt.2 fits, State.curId_of_cur issues.cur,
    clockLeast_of_mayReserve may, behind_of_mayReserve may, run, withRoom_counter room, fun l => leBytes_valueRun g o.a l fits]
  rfl

theorem spawn_outside : Raises (.spawn o n) (fun s g _ => s.groupNode g = none) .recpool
    (fun _ ls => recInfo 1 (ls.headD 0)) :=
  raises_of_body (fun s => (exec_spawn s o n).trans rfl) fun s id g c f _ node => ⟨0, by simp only [node, recInfo_eq]⟩

theorem spawn_noTarget (i own : Nat) : Raises (.spawn o n)
    (fun s g ls => inNode s g i own ∧ ¬aims s i own (onceOf o.b g ls)) .recpool (fun _ ls => recInfo 2 (ls.headD 0)) := by
  refine raises_of_body (fun s => (exec_spawn s o n).trans rfl) fun s id g c f _ ⟨node, stray⟩ => ⟨0, ?_⟩
  rw [inNode] at node
  rw [← WInst.targetOk_iff, onceOf, Bool.not_eq_true] at stray
  simp only [node, stray, Bool.not_false, if_true, recInfo_eq]

theorem spawn_tooLong (i own : Nat) : Raises (.spawn o n)
    (fun s g ls => inNode s g i own ∧ aims s i own (onceOf o.b g ls)
      ∧ ((s.inst i).node (onceOf o.b g ls)).recBytes < 4 * (n.toNat + 1)) .recpool
    (fun _ ls => recInfo 3 (ls.headD 0)) := by
  refine raises_of_body (fun s => (exec_spawn s o n).trans rfl) fun s id g c f _ ⟨node, aim, long⟩ => ⟨0, ?_⟩
  rw [inNode] at node
  rw [← WInst.targetOk_iff, onceOf] at aim
  rw [onceOf] at long
  simp only [node, aim, Bool.not_true, Bool.false_eq_true, if_false, long, if_true, recInfo_eq]

end

/-! ### RECALLOC (R99) -/

/-- A reservation's lanes and positions, told apart and joined again. -/
theorem zip_lanes {ls : List Nat} {as : List (Nat × Nat)} (lanes : as.map Prod.fst = ls) (node : Nat → Nat) :
    (as.map Prod.snd).length = ls.length ∧ ls.zip (as.map Prod.snd) = as
      ∧ (ls.map node).zip (as.map Prod.snd) = as.map (fun x => (node x.1, x.2)) := by
  subst lanes
  refine ⟨by simp only [List.length_map], ?_, ?_⟩
  · rw [List.zip_map', List.map_id']
  · rw [List.map_map, List.zip_map']
    rfl

section
variable (o : Slot)

/-- RECALLOC where every lane's node takes records, the group may reserve, and blocks are left. -/
theorem recalloc_does (i own : Nat) : Does (.recalloc o)
    (fun s id g ls => inNode s g i own ∧ (∀ l ∈ ls, aims s i own (g.value o.a l).toNat) ∧ mayReserve s id g i
      ∧ (recallocRun i g.producer (fun l => (g.value o.a l).toNat) ls s).isSome = true ∧ flagRoom g o)
    (fun s id g ls u => ∃ (as : List Nat) (m m2 m3 : State) (f : Form), as.length = ls.length
      ∧ Reserved i g.producer ((ls.map (fun l => (g.value o.a l).toNat)).zip as) s m ∧ Served i id m m2
      ∧ m3 = { m2 with groups := m3.groups } ∧ (∀ j, j ≠ id → Tab.get? m3.groups j = Tab.get? m2.groups j)
      ∧ m3.group id = { g with recs := g.recs ++ (ls.map (fun l => (g.value o.a l).toNat)).zip as }
      ∧ (Instr.recalloc o).form = some f
      ∧ Started m3 u id { opOf g id .engine with
          flag := g.slotFlag o, dest := o.d, destN := 2
          res := (ls.zip as).map (fun x => { lane := x.1, bytes := leBytes 8 x.2 }) } (formDests f)) := by
  refine does_of_body (fun s => (exec_recalloc s o).trans rfl) fun s id g c f issues ⟨node, aim, may, free, room⟩ => ?_
  obtain ⟨⟨s1, as⟩, run⟩ := Option.isSome_iff_exists.1 free
  obtain ⟨l, lane⟩ := List.exists_mem_of_ne_nil _ issues.lane
  obtain ⟨lanes, reserved⟩ := recallocRun_reserved (listed_of_aims (aim l lane)) run
  obtain ⟨cur, groups, -⟩ := reserved.kept
  obtain ⟨length, zip, zipNode⟩ := zip_lanes lanes (fun l => (g.value o.a l).toNat)
  have slot : (s1.served i id).AtSlot id c := issues.atSlot.congr cur groups
  have noStray : (g.guarded f.slot).find? (fun l => !(s.inst i).targetOk own (g.value o.a l).toNat) = none :=
    List.find?_eq_none.2 fun l mem => by simp [(WInst.targetOk_iff s i own _).2 (aim l mem)]
  rw [inNode] at node
  have slot' := slot.putGroup (g := { g with recs := g.recs ++ as.map (fun x => ((g.value o.a x.1).toNat, x.2)) })
    issues.clause
  refine ⟨_, ?_, ⟨as.map Prod.snd, s1, s1.served i id, _, f, length, zipNode ▸ reserved, State.served_served s1 i id, rfl,
    fun j other => ?_, ?_, issues.form, State.startOp_started slot' _ _⟩, slot'.startOp _ _⟩
  · simp only [node, issues.form, noStray, State.curId_of_cur issues.cur, clockLeast_of_mayReserve may,
      behind_of_mayReserve may, run, withRoom_flag room, zip, Bool.false_eq_true, if_false, State.startResults,
      State.putCur_of_cur slot.cur, State.curId_of_cur slot'.cur]
    rfl
  · rw [State.putGroup_groups, Tab.get?_put, if_neg other]
  · rw [State.group_putGroup, if_pos rfl, zipNode]

theorem recalloc_noTarget (i own l : Nat) : Raises (.recalloc o) (fun s g ls => inNode s g i own
    ∧ ls.find? (fun l => decide (¬aims s i own (g.value o.a l).toNat)) = some l) .recpool (fun _ _ => recInfo 2 l) := by
  refine raises_of_body (fun s => (exec_recalloc s o).trans rfl) fun s id g c f issues ⟨node, stray⟩ => ⟨0, ?_⟩
  have same : (fun l => !(s.inst i).targetOk own (g.value o.a l).toNat)
      = fun l => decide (¬aims s i own (g.value o.a l).toNat) :=
    funext fun l => by rw [decide_not, ← Bool.decide_congr (WInst.targetOk_iff s i own _), Bool.decide_eq_true]
  rw [inNode] at node
  simp only [node, issues.form, same, stray, recInfo_eq]

theorem recalloc_outside : Raises (.recalloc o) (fun s g _ => s.groupNode g = none) .recpool
    (fun _ ls => recInfo 1 (ls.headD 0)) :=
  raises_of_body (fun s => (exec_recalloc s o).trans rfl) fun s id g c f _ node => ⟨0, by simp only [node, recInfo_eq]⟩

/-! ### RECCOMMIT (R100, R101) -/

/-- The group once records are no longer its own. -/
def Group.without (g : Group) (as : List Nat) : Group := { g with recs := g.recs.filter (fun r => !as.contains r.2) }

/-- RECCOMMIT where each lane names a record of the group, no two the same. -/
theorem reccommit_does (i own : Nat) : Does (.reccommit o)
    (fun s _ g ls => teamed s g ∧ inNode s g i own ∧ (ls.map (fun l => (g.value64 o.a l).toNat)).Nodup
      ∧ (∀ l ∈ ls, (g.value64 o.a l).toNat ∈ g.recs.map Prod.snd) ∧ counterRoom g 0)
    (fun s id g ls u => ∃ m, m = { s with groups := m.groups } ∧ (∀ j, j ≠ id → Tab.get? m.groups j = Tab.get? s.groups j)
      ∧ m.group id = { g with recs := g.recs.filter (fun r => !(ls.map (fun l => (g.value64 o.a l).toNat)).contains r.2) }
      ∧ Commits m u id g i (ls.map (fun l => ((g.value64 o.a l).toNat, [])))) := by
  refine does_of_body (fun s => (exec_reccommit s o).trans rfl)
    fun s id g c f issues ⟨team, node, nodup, mine, room⟩ => ?_
  have fate := commitFate_none nodup mine
  rw [inNode] at node
  have slot := issues.atSlot.putGroup
    (g := g.without ((g.guarded f.slot).map (fun l => (g.value64 o.a l).toNat))) issues.clause
  obtain ⟨commits, done⟩ := State.startCommit_commits slot
    (g := g.without ((g.guarded f.slot).map (fun l => (g.value64 o.a l).toNat))) team i
    ((g.guarded f.slot).map (fun l => ((g.value64 o.a l).toNat, [])))
  refine ⟨_, ?_, ⟨_, rfl, fun j other => ?_, ?_, commits⟩, done⟩
  · simp only [node, fate, State.putCur_of_cur issues.cur, List.map_map]
    exact withRoom_counter room _
  · rw [State.putGroup_groups, Tab.get?_put, if_neg other]
  · exact (State.group_putGroup s id id _).trans (if_pos rfl)

section
variable (i own : Nat) (a : List Nat) (l : Nat) (b : List Nat)

theorem reccommit_twice : Raises (.reccommit o) (fun s g ls => inNode s g i own ∧ ls = a ++ l :: b
      ∧ (a.map (fun l => (g.value64 o.a l).toNat)).Nodup ∧ (∀ k ∈ a, (g.value64 o.a k).toNat ∈ g.recs.map Prod.snd)
      ∧ (g.value64 o.a l).toNat ∈ a.map (fun l => (g.value64 o.a l).toNat)) .recpool (fun _ _ => recInfo 5 l) := by
  refine raises_of_body (fun s => (exec_reccommit s o).trans rfl)
    fun s id g c f _ ⟨node, lanes, nodup, mine, named⟩ => ⟨0, ?_⟩
  rw [inNode] at node
  simp only [node, lanes, commitFate_named nodup mine b named, recInfo_eq]

theorem reccommit_foreign : Raises (.reccommit o) (fun s g ls => inNode s g i own ∧ ls = a ++ l :: b
      ∧ (a.map (fun l => (g.value64 o.a l).toNat)).Nodup ∧ (∀ k ∈ a, (g.value64 o.a k).toNat ∈ g.recs.map Prod.snd)
      ∧ (g.value64 o.a l).toNat ∉ a.map (fun l => (g.value64 o.a l).toNat)
      ∧ ¬(g.value64 o.a l).toNat ∈ g.recs.map Prod.snd) .recpool (fun _ _ => recInfo 4 l) := by
  refine raises_of_body (fun s => (exec_reccommit s o).trans rfl)
    fun s id g c f _ ⟨node, lanes, nodup, mine, new, foreign⟩ => ⟨0, ?_⟩
  rw [inNode] at node
  simp only [node, lanes, commitFate_foreign nodup mine b new foreign, recInfo_eq]

end

theorem reccommit_outside : Raises (.reccommit o) (fun s g _ => s.groupNode g = none) .recpool
    (fun _ ls => recInfo 1 (ls.headD 0)) :=
  raises_of_body (fun s => (exec_reccommit s o).trans rfl) fun s id g c f _ node => ⟨0, by simp only [node, recInfo_eq]⟩

end

/-! ### LAUNCH of a queue (R98) -/

section
variable (o : Slot) (seq : Word)

/-- The queue that LAUNCH names takes entries of the group's context: it is live, and of the generation of its handle. -/
def State.takesEntries (s : State) (g : Group) (h : Nat) : Prop :=
  h % 65536 < 1024 ∧ (s.queue g.part (h % 65536)).live = true ∧ (s.queue g.part (h % 65536)).ctx = g.ctx
    ∧ (s.queue g.part (h % 65536)).gen = h / 65536

theorem State.takesEntries_iff (s : State) (g : Group) (h : Nat) : s.takesEntries g h ↔
    ¬(1024 ≤ h % 65536 ∨ (!(s.queue g.part (h % 65536)).live) = true ∨ (s.queue g.part (h % 65536)).ctx ≠ g.ctx
      ∨ (s.queue g.part (h % 65536)).gen ≠ h / 65536) := by
  simp only [State.takesEntries, not_or, Nat.not_le, Bool.not_eq_true', Bool.not_eq_false, ne_eq, not_not]

/-- The state after a group's entry for a queue is sent. -/
def State.sendEntry (s : State) (id : Nat) (g : Group) (q graph : Nat) (seq : Word) : State :=
  ((s.markWrote g.team).startOp { opOf g id (.launchQ q (s.queue g.part q).gen graph seq) with
    counter := some 0, after := s.releaseOps id .dev } []).modQueue g.part q
    (fun x => { x with held := x.held ++ [(graph, seq, s.fresh)] })

theorem State.sendEntry_queues {s : State} {id : Nat} {c : Clause} (slot : s.AtSlot id c) {g : Group} {q : Nat}
    (listed : Tab.get? s.queues (1024 * g.part + q) ≠ none) (graph : Nat) (seq : Word) :
    oneEntry s.queues (s.sendEntry id g q graph seq).queues (1024 * g.part + q) (some { s.queue g.part q with
      held := (s.queue g.part q).held ++ [(graph, seq, s.fresh)] }) := by
  obtain ⟨x, queue⟩ := Option.ne_none_iff_exists'.1 listed
  have here : s.queue g.part q = x := by rw [State.queue, Tab.getD, queue, Option.getD_some]
  rw [State.sendEntry, State.modQueue_queues, State.startOp_eq (slot.congr rfl rfl : (s.markWrote g.team).AtSlot id c)]
  refine ⟨?_, fun j other => (Tab.get?_modify s.queues _ j _).trans (if_neg other)⟩
  exact (Tab.get?_modify s.queues _ _ _).trans (by rw [if_pos rfl, queue, here, Option.map_some])

theorem launchQ_does : Does (.launchQ o seq)
    (fun s id g ls => teamed s g ∧ g.detlevel = 0 ∧ s.takesEntries g (onceOf o.b g ls) ∧ s.launchesOf id < 4
      ∧ counterRoom g 0 ∧ Tab.get? s.queues (1024 * g.part + onceOf o.b g ls % 65536) ≠ none)
    (fun s id g ls u => let q := onceOf o.b g ls % 65536
      let graph := (g.value64 o.a (ls.headD 0)).toNat
      ∃ m m2, TeamOnly s m g.team (fun x y => y = { x with wrote := true })
        ∧ Started m m2 id { opOf g id (.launchQ q (s.queue g.part q).gen graph seq) with
            counter := some 0, after := s.releaseOps id .dev } []
        ∧ u = { m2 with queues := u.queues }
        ∧ oneEntry s.queues u.queues (1024 * g.part + q) (some { s.queue g.part q with
            held := (s.queue g.part q).held ++ [(graph, seq, s.fresh)] })) := by
  refine does_of_body (fun s => (exec_launchQ s o seq).trans rfl)
    fun s id g c f issues ⟨team, level, here, few, room, listed⟩ => ?_
  have slot : (s.markWrote g.team).AtSlot id c := issues.atSlot.congr rfl rfl
  refine ⟨s.sendEntry id g (onceOf o.b g (g.guarded f.slot) % 65536) (g.value64 o.a ((g.guarded f.slot).headD 0)).toNat seq,
    ?_, ⟨_, _, State.modTeam_teamOnly team _, State.startOp_started slot _ _, rfl,
      State.sendEntry_queues issues.atSlot listed _ seq⟩, (slot.startOp _ _).congr rfl rfl⟩
  have low : ¬1 ≤ g.detlevel := by omega
  have fits := (s.takesEntries_iff g _).1 here
  rw [onceOf] at fits
  simp only [low, fits, State.curId_of_cur issues.cur, Nat.not_le.2 few, if_false]
  exact withRoom_counter room _

theorem launchQ_full : Waits (.launchQ o seq)
    (fun s id g ls => g.detlevel = 0 ∧ s.takesEntries g (onceOf o.b g ls) ∧ 4 ≤ s.launchesOf id)
    (fun _ _ _ => ⟨.room, false, false⟩) := by
  refine waits_of_body (fun s => (exec_launchQ s o seq).trans rfl) fun s id g c f issues ⟨level, here, full⟩ => ?_
  have low : ¬1 ≤ g.detlevel := by omega
  have fits := (s.takesEntries_iff g _).1 here
  rw [onceOf] at fits
  simp only [low, fits, State.curId_of_cur issues.cur, full, if_false, if_true]

theorem launchQ_level : Raises (.launchQ o seq) (fun _ g _ => 1 ≤ g.detlevel) .detViol (fun _ _ => 0x301) :=
  raises_of_body (fun s => (exec_launchQ s o seq).trans rfl) fun _ _ _ _ _ _ level => ⟨0, if_pos level⟩

theorem launchQ_refused : Raises (.launchQ o seq)
    (fun s g ls => g.detlevel = 0 ∧ ¬s.takesEntries g (onceOf o.b g ls)) .prot (fun _ _ => 1) := by
  refine raises_of_body (fun s => (exec_launchQ s o seq).trans rfl) fun s id g c f _ ⟨level, stray⟩ => ⟨0, ?_⟩
  have low : ¬1 ≤ g.detlevel := by omega
  rw [State.takesEntries_iff, not_not, onceOf] at stray
  simp only [low, stray, if_false, if_true]
  rfl

end

/-! ### LAUNCH of a work graph (R85, R87) -/

section
variable (o : Slot) (bs : List Byte)

theorem launchWg_does : Does (.launchWg o)
    (fun s id g ls => teamed s g ∧ ((g.value64 o.a (ls.headD 0)).toNat % 64 = 0
        ∧ s.readRange g.unit g.part g.ctx (g.value64 o.a (ls.headD 0)).toNat 64 = .ok bs)
      ∧ ¬(4 ≤ s.launchesOf id ∨ 64 ≤ s.instCount g.part (coreDie g.core)) ∧ counterRoom g 0
      ∧ (s.team g.team).copyOf = none)
    (fun s id g _ u => ∃ m, TeamOnly s m g.team (fun x y => y = { x with wrote := true })
      ∧ Started m u id { opOf g id (.launchWg bs) with counter := some 0 } []) := by
  refine does_of_body (fun s => (exec_launchWg s o).trans rfl)
    fun s id g c f issues ⟨team, ⟨aligned, packet⟩, few, room, original⟩ => ?_
  have slot : (s.markWrote g.team).AtSlot id c := issues.atSlot.congr rfl rfl
  refine ⟨_, ?_, ⟨_, State.modTeam_teamOnly team _, State.startOp_started slot _ _⟩, slot.startOp _ _⟩
  simp only [aligned, packet, few, original, State.curId_of_cur issues.cur, ne_eq, not_true_eq_false, if_false,
    Option.isSome_none, Bool.false_eq_true, withRoom_counter room]
  rfl

theorem launchWg_full : Waits (.launchWg o)
    (fun s id g ls => ((g.value64 o.a (ls.headD 0)).toNat % 64 = 0
        ∧ s.readRange g.unit g.part g.ctx (g.value64 o.a (ls.headD 0)).toNat 64 = .ok bs)
      ∧ (4 ≤ s.launchesOf id ∨ 64 ≤ s.instCount g.part (coreDie g.core)))
    (fun _ _ _ => ⟨.room, false, false⟩) := by
  refine waits_of_body (fun s => (exec_launchWg s o).trans rfl) fun s id g c f issues ⟨⟨aligned, packet⟩, full⟩ => ?_
  simp only [aligned, packet, full, State.curId_of_cur issues.cur, ne_eq, not_true_eq_false, if_false, if_true]

theorem launchWg_misaligned : Raises (.launchWg o) (fun _ g ls => (g.value64 o.a (ls.headD 0)).toNat % 64 ≠ 0) .align
    (fun _ _ => 0x20) :=
  raises_of_body (fun s => (exec_launchWg s o).trans rfl) fun _ _ _ _ _ _ off => ⟨_, if_pos off⟩

end

/-! ### A commit that is acknowledged (R97, R100) -/

section
variable {s : State} {id : Nat} {op : Op} {i : Nat} {recs : List (Nat × List Byte)}
  (listed : Tab.get? s.ops id = some op) (body : op.body = .commit i recs) (counter : op.counter = some 0)
  (noFlag : op.flag = none) (resident : (s.team (s.group op.group).team).saved = false)
  (free : s.pendingOps op.after = [])
include listed body counter noFlag resident free

theorem execWriteAcknowledged_commit : execWriteAcknowledged id s = .next (s.commitDone id op i recs) := by
  simp only [execWriteAcknowledged, listed, body, counter, noFlag, resident, free, Option.isNone_some, Option.isSome_none,
    Bool.or_self, Bool.false_eq_true, if_false, List.isEmpty_nil, if_true]

/-- The end of a commit whose records stand in memory. -/
theorem commit_ends {u : State} (kept : u.ops = s.ops) (done : s.commitDone id op i recs = (u.finishOp id).settleInst i) :
    ∃ t m, exec (.writeAcknowledged id) s = .next t ∧ t = m.settleInst i
      ∧ m = { u with ops := m.ops, groups := m.groups } ∧ Ended u m id op := by
  refine ⟨_, u.finishOp id, ?_, rfl, u.finishOp_frame id, State.finishOp_ended (by rw [kept]; exact listed)⟩
  rw [exec_writeAcknowledged, execWriteAcknowledged_commit listed body counter noFlag resident free, done]

end

section
variable {s : State} {id : Nat} (op : Op) (i : Nat) (unasked : s.requestsOf id 0 = [])
include unasked

/-- A commit of records that are written by other means. -/
theorem State.commitDone_empty {recs : List (Nat × List Byte)} (empty : ∀ r ∈ recs, r.2 = []) :
    s.commitDone id op i recs = ((recs.foldl (fun u r => u.commitRec i r.1) s).finishOp id).settleInst i := by
  have noPage : ∀ (f : Nat × List Byte → Option PageRec), recs.findSome? (fun r => if r.2.isEmpty then none else f r) = none :=
    fun f => List.findSome?_eq_none_iff.2 fun r mem => by rw [empty r mem]; rfl
  have fold : ∀ (f : State → Nat × List Byte → State),
      recs.foldl (fun u r => (if r.2.isEmpty then u else f u r).commitRec i r.1) s
        = recs.foldl (fun u r => u.commitRec i r.1) s :=
    fun f => List.foldl_ext _ _ s fun u r mem => by rw [empty r mem]; rfl
  simp only [State.commitDone, State.answerOf_of_none unasked, State.clearRequests_of_none unasked]
  rw [noPage]
  dsimp only
  rw [fold]

/-- A commit that writes one record. -/
theorem State.commitDone_one {va : Nat} {bs : List Byte} {t : State} (some_ : bs ≠ [])
    (written : s.writeRange (s.group op.group).unit (s.group op.group).part (s.group op.group).ctx va bs = .ok t) :
    s.commitDone id op i [(va, bs)] = ((t.commitRec i va).finishOp id).settleInst i := by
  have filled : bs.isEmpty = false := by rwa [List.isEmpty_eq_false_iff]
  simp only [State.commitDone, State.answerOf_of_none unasked, State.clearRequests_of_none unasked, List.findSome?_cons,
    List.findSome?_nil, List.foldl_cons, List.foldl_nil, filled, written, Bool.false_eq_true, if_false]

end

theorem State.commitRecs_ops (i : Nat) : ∀ (recs : List (Nat × List Byte)) (s : State),
    (recs.foldl (fun u r => u.commitRec i r.1) s).ops = s.ops
  | [], _ => rfl
  | r :: recs, s => (State.commitRecs_ops i recs _).trans (s.commitRec_ops i r.1)

end Sys2Proof.Machine

namespace Sys2Proof.Claims

open Sys2Proof.Machine

/-- Settles O48: each instruction by what it does, raises and waits for, a reservation by the positions it takes, and a commit
by its acknowledgement and by the slot that it adds to its block. -/
theorem recordsAndLaunches : Obligations.RecordsAndLaunches := by
  unfold Obligations.RecordsAndLaunches
  refine ⟨fun s u i node prod k as listed run => ?reserved, fun o n i own => spawn_does o n i own, spawn_outside,
    spawn_noTarget, spawn_tooLong, fun o i own => ⟨recalloc_does o i own, recalloc_noTarget o i own⟩, recalloc_outside,
    fun o i own => ⟨reccommit_does o i own, reccommit_twice o i own, reccommit_foreign o i own⟩, reccommit_outside,
    fun o seq => ⟨launchQ_does o seq, launchQ_full o seq, launchQ_level o seq, launchQ_refused o seq⟩,
    fun o bs => ⟨launchWg_does o bs, launchWg_full o bs⟩, launchWg_misaligned,
    fun s id op i recs listed body counter noFlag resident free unasked empty => ?empty,
    fun s id op i va bs s1 listed body counter noFlag resident free unasked some_ written => ?one,
    fun s i w addr => ?slot⟩
  case reserved =>
    obtain ⟨length, reserved, -⟩ := State.reserveRun_reserved listed run
    exact ⟨length, reserved⟩
  case empty =>
    exact commit_ends listed body counter noFlag resident free (State.commitRecs_ops i recs s)
      (State.commitDone_empty op i unasked empty)
  case one =>
    exact commit_ends listed body counter noFlag resident free
      ((s1.commitRec_ops i va).trans (State.writeRange_ops written)) (State.commitDone_one op i unasked some_ written)
  case slot =>
    intro b x slot listed opened new
    have inst : (s.commitRec i addr).inst i = w.putBlock b
        { x with commits := NatSet.insert x.commits slot, first := some (x.first.getD s.now) } := by
      rw [State.commitRec_opened listed rfl opened]
      exact State.inst_put s i s.fresh _
    have work := BlockWork.commitRec i s addr
    rw [State.inst_of_get? listed] at work
    refine ⟨_, rfl, ?rest, work.others, ?inst, fun c other => ?others, ?_⟩
    case rest => rw [State.commitRec_opened listed rfl opened]
    case inst => rw [inst]; rfl
    case others => rw [work.blocks c other, State.inst_of_get? listed]
    rw [inst, WInst.block_putBlock, if_pos rfl]
    exact ⟨rfl, NatSet.insert_length new, fun k => NatSet.mem_insert x.commits slot k⟩

end Sys2Proof.Claims
end
section
/-!
SUPPORT. Packets on their way: the pairs, links and routes by which they leave, and the window counters (R103, R105, R107,
R111, R428).
-/

namespace Sys2Proof.Machine

open Sys2Proof.Safety Sys2Proof.Claims

/-! ### Links, pairs and routes -/

theorem State.link_modLink (s : State) (l j : Nat) (f : Link → Link) :
    (s.modLink l f).link j = if j = l then f (s.link l) else s.link j := Tab.getD_set _ s.links l j _

theorem State.pair_modPair (s : State) (k j : Nat) (f : Pair → Pair) :
    (s.modPair k f).pair j = if j = k then f (s.pair k) else s.pair j := Tab.getD_set _ s.pairs k j _

section
variable {s : State} {part chip : Nat} (bs : List Byte)

/-- A packet for this chip arrives at its own receiver (R120). -/
theorem State.transmit_here (here : chip = s.pt.chipid) : s.transmit part chip bs
    = { s with packets := Tab.put s.packets s.fresh { bytes := bs }, fresh := s.fresh + 1 } := if_pos here

/-- A packet for another chip leaves on the link of its route. -/
theorem State.transmit_away {l : Nat} (away : chip ≠ s.pt.chipid) (route : s.routeLink part chip = some l) :
    s.transmit part chip bs = s.modLink l (fun k => { k with out := k.out ++ [bs] }) := by
  rw [State.transmit, if_neg away, route]

/-- A packet for another chip to which there is no route is lost. -/
theorem State.transmit_lost (away : chip ≠ s.pt.chipid) (noRoute : s.routeLink part chip = none) :
    s.transmit part chip bs = s := by
  rw [State.transmit, if_neg away, noRoute]

/-- A packet that leaves for another chip does not come to this chip's receiver. -/
theorem State.transmit_links (away : chip ≠ s.pt.chipid) :
    s.transmit part chip bs = { s with links := (s.transmit part chip bs).links } := by
  cases route : s.routeLink part chip with
  | none => rw [State.transmit_lost bs away route]
  | some l => rw [State.transmit_away bs away route, State.modLink]

theorem State.transmit_rest : s.transmit part chip bs = { s with
    packets := (s.transmit part chip bs).packets, links := (s.transmit part chip bs).links
    fresh := (s.transmit part chip bs).fresh } := by
  by_cases here : chip = s.pt.chipid
  · rw [State.transmit_here bs here]
  · rw [State.transmit_links bs here]

end

/-! ### Packets sent (R105) -/

/-- The state once a pair has numbered a new packet and kept it (R105). -/
def State.keepNew (s : State) (part chip dpart : Nat) (x : Sent) (bs : List Byte) : State :=
  s.modPair (pairKey part chip dpart) (fun p => { p with
    next := p.next + 1, link := s.routeLink part chip
    sent := p.sent ++ [{ x with seq := (s.pair (pairKey part chip dpart)).next, bytes := bs, at_ := s.now }] })

/-- A new packet of a pair: it takes the pair's next number, is kept until it is answered, and is on its way. -/
theorem State.sendNew_sends (s : State) (part chip dpart : Nat) (x : Sent) (mk : Word → List Byte) :
    let k := pairKey part chip dpart
    let bs := mk (s.pair k).next
    ∃ u, s.sendNew part chip dpart x mk = u
      ∧ u = { s with pairs := u.pairs, packets := u.packets, links := u.links, fresh := u.fresh }
      ∧ u.pair k = { s.pair k with
          next := (s.pair k).next + 1, link := s.routeLink part chip
          sent := (s.pair k).sent ++ [{ x with seq := (s.pair k).next, bytes := bs, at_ := s.now }] }
      ∧ (∀ j, j ≠ k → u.pair j = s.pair j)
      ∧ (chip = s.pt.chipid → u.links = s.links ∧ oneEntry s.packets u.packets s.fresh (some { bytes := bs }))
      ∧ (chip ≠ s.pt.chipid → u.packets = s.packets ∧ ∀ l, s.routeLink part chip = some l →
          u.link l = { s.link l with out := (s.link l).out ++ [bs] } ∧ ∀ j, j ≠ l → u.link j = s.link j) := by
  intro k bs
  have kept := State.pair_modPair s k
  have rest := State.transmit_rest (s := s.keepNew part chip dpart x bs) (part := part) (chip := chip) bs
  have pair : ∀ j, ((s.keepNew part chip dpart x bs).transmit part chip bs).pair j
      = (s.keepNew part chip dpart x bs).pair j := fun j => by rw [rest]; rfl
  refine ⟨(s.keepNew part chip dpart x bs).transmit part chip bs, rfl, by rw [rest]; rfl,
    (pair k).trans ((kept k _).trans (if_pos rfl)),
    fun j other => (pair j).trans ((kept j _).trans (if_neg other)), fun here => ?_, fun away => ⟨?_, fun l route => ?_⟩⟩
  · rw [State.transmit_here (s := s.keepNew part chip dpart x bs) bs here]
    exact ⟨rfl, oneEntry_put s.packets s.fresh _⟩
  · rw [State.transmit_links (s := s.keepNew part chip dpart x bs) bs away]
    rfl
  · have link := State.link_modLink (s.keepNew part chip dpart x bs) l
    rw [State.transmit_away (s := s.keepNew part chip dpart x bs) bs away route]
    exact ⟨(link l _).trans (if_pos rfl), fun j other => (link j _).trans (if_neg other)⟩

section
variable {s : State} {id : Nat} {c : Clause} (at_ : s.AtSlot id c) (g : Group)
include at_

theorem State.sendCounted_sends (w : Word) (x : Sent) (mk : Word → List Byte) :
    OnePacket id g w x mk s (s.sendCounted g w x mk) ∧ (s.sendCounted g w x mk).AtSlot id c := by
  have started := State.startOp_started at_ { opOf g id .packet with counter := some 3 } []
  have same := State.startOp_eq at_ { opOf g id .packet with counter := some 3 } []
  have slot := at_.startOp { opOf g id .packet with counter := some 3 } []
  have eq : s.sendCounted g w x mk = (s.startOp { opOf g id .packet with counter := some 3 } []).sendNew g.part
      (w.toNat % 2 ^ 12) (w.toNat / 2 ^ 12 % 8) { x with op := s.fresh, ctx := g.ctx } mk := by
    rw [State.sendCounted, State.curId_of_cur at_.cur, routeChip, natField, Nat.pow_zero, Nat.div_one]
    rfl
  rw [eq]
  generalize s.startOp { opOf g id .packet with counter := some 3 } [] = m at started same slot ⊢
  obtain ⟨u, sends, rest, pair, others, here, away⟩ := m.sendNew_sends g.part (w.toNat % 2 ^ 12) (w.toNat / 2 ^ 12 % 8)
    { x with op := s.fresh, ctx := g.ctx } mk
  rw [sends]
  have pairs : ∀ j, m.pair j = s.pair j := fun j => by rw [same]; rfl
  have links : ∀ j, m.link j = s.link j := fun j => by rw [same]; rfl
  have route : ∀ chip, m.routeLink g.part chip = s.routeLink g.part chip := fun _ => by rw [same]; rfl
  have frame : m.now = s.now ∧ m.pt = s.pt ∧ m.links = s.links ∧ m.packets = s.packets := by
    rw [same]
    exact ⟨rfl, rfl, rfl, rfl⟩
  obtain ⟨now, pt, linksEq, packets⟩ := frame
  simp only [pairs, links, route, now, pt, linksEq, packets] at pair others here away
  exact ⟨⟨m, started, rest, pair, others, here, away⟩, slot.congr (by rw [rest]) (by rw [rest])⟩

end

theorem pt_of_onePacket {id : Nat} {g : Group} {w : Word} {x : Sent} {mk : Word → List Byte} {s u : State}
    (h : OnePacket id g w x mk s u) : u.pt = s.pt := by
  obtain ⟨m, started, rest, -⟩ := h
  rw [rest]
  change m.pt = s.pt
  rw [started.rest]

/-- One packet for each lane, in their order; what a packet holds of the state is this chip's number. -/
theorem State.sendAll_packets {id : Nat} {c : Clause} (g : Group) (w : Nat → Word) (x : Nat → Sent)
    {mk : State → Nat → Word → List Byte} {s₀ : State} (same : ∀ u, u.pt = s₀.pt → mk u = mk s₀) :
    ∀ (ls : List Nat) {s : State}, s.AtSlot id c → s.pt = s₀.pt →
    Packets id g w x (mk s₀) ls s (ls.foldl (fun s l => s.sendCounted g (w l) (x l) (mk s l)) s)
      ∧ (ls.foldl (fun s l => s.sendCounted g (w l) (x l) (mk s l)) s).AtSlot id c
  | [], _, at_, _ => ⟨rfl, at_⟩
  | l :: ls, s, at_, chip => by
    obtain ⟨one, slot⟩ := State.sendCounted_sends at_ g (w l) (x l) (mk s l)
    obtain ⟨rest, done⟩ := State.sendAll_packets g w x same ls slot ((pt_of_onePacket one).trans chip)
    rw [List.foldl_cons]
    rw [same s chip] at one rest done ⊢
    exact ⟨⟨_, one, rest⟩, done⟩

theorem State.remoteRoom_iff (s : State) (g : Group) (w : Nat → Word) (ls : List Nat) :
    s.remoteRoom g (ls.map w) = true ↔ packetRoom s g w ls := by
  have chip : ∀ v : Word, routeChip v = v.toNat % 2 ^ 12 := fun v => by simp [routeChip, natField]
  have pair : ∀ v : Word, pairKey g.part (routeChip v) (routePart v) = pairOf g v := fun v => by rw [chip]; rfl
  simp [State.remoteRoom, packetRoom, pair, List.filter_map, Function.comp_def, beq_eq_decide]

/-! ### The bytes of a packet (R103) -/

theorem padTo_eq_filled {n : Nat} {bs : List Byte} (fits : bs.length ≤ n) : padTo n bs = filled n bs := by
  rw [padTo, filled, List.take_of_length_le]
  rw [List.length_append, List.length_replicate]
  omega

theorem length_flatMap_leBytes (f : Nat → Nat) (n : Nat) :
    ((List.range n).flatMap (fun j => leBytes 4 (f j))).length = 4 * n := by
  simp [List.length_flatMap, leBytes_length, Nat.mul_comm]

/-- The header of a packet of a group for the destination of a route word. -/
theorem packetHeader_eq_headOf (s : State) (g : Group) (type pri : Nat) (w seq tgt : Word) :
    packetHeader type pri (w.toNat % 2 ^ 12) s.pt.chipid (routePart w) g.part seq tgt = headOf s g type pri w seq tgt := by
  simp [packetHeader, headOf, routePart, natField]

/-- The 32 bytes of a run of at most eight words. -/
theorem padTo_valueRun (g : Group) (o : Operand) (l : Nat) {n : Nat} (few : n ≤ 8) :
    padTo 32 (leBytes (4 * n) (wordsNat (g.valueRun o n l)))
      = filled 32 ((List.range n).flatMap (fun j => leBytes 4 (g.valueAt o j l).toNat)) := by
  rw [padTo_eq_filled (by rw [leBytes_length]; omega), leBytes_valueRun g o l (Nat.le_refl _), Nat.sub_self,
    List.replicate_zero, List.append_nil]

/-- The 64 bytes of the scalar registers that an invocation shares. -/
theorem padTo_shared (g : Group) (r : Nat) {k : Nat} (few : k ≤ 8) :
    padTo 64 ((List.range (2 * k)).map (fun j => leBytes 4 (g.readS (r + j)).toNat)).flatten
      = filled 64 ((List.range (2 * k)).flatMap (fun j => leBytes 4 (g.readS (r + j)).toNat)) := by
  rw [← List.flatMap_def, padTo_eq_filled]
  rw [length_flatMap_leBytes]
  omega

/-! ### Refused PUTs (R111) -/

theorem State.refusePut_kept (s : State) (part ctx win reason : Nat) :
    (s.refusePut part ctx win reason).cur = s.cur ∧ (s.refusePut part ctx win reason).groups = s.groups := by
  rw [State.refusePut, State.ctxEvent_rest]
  exact ⟨rfl, rfl⟩

theorem State.AtSlot.refusePuts {id : Nat} {c : Clause} (part ctx win : Nat) (reason : Nat → Nat) : ∀ (ls : List Nat)
    {s : State}, s.AtSlot id c → (ls.foldl (fun s l => s.refusePut part ctx win (reason l)) s).AtSlot id c
  | [], _, at_ => at_
  | l :: ls, s, at_ =>
    have kept := s.refusePut_kept part ctx win (reason l)
    State.AtSlot.refusePuts part ctx win reason ls (at_.congr kept.1 kept.2)

end Sys2Proof.Machine
end
section
/-!
O49. What RINV, PUT and WCNT send, read, raise and wait for (R103 to R105, R111, R119 to R123).
-/

namespace Sys2Proof.Machine

open Sys2Proof.Safety Sys2Proof.Claims

/-! ### Waits that the state decides, and waits after an effect -/

section
variable {i : Instr} {body : Group → List Nat → State → Eff} (run : ∀ s, exec i s = issue i s body)
include run

theorem waitsFor_of_body {ok : State → Nat → Group → List Nat → Prop} {why : State → Group → List Nat → WaitWhy}
    (effect : ∀ s id g c f, Issues i s id g c f → ok s id g (g.guarded f.slot) →
      body g (g.guarded f.slot) s = .hold (why s g (g.guarded f.slot))) :
    Waits i ok (fun s g ls => ⟨why s g ls, false, false⟩) := by
  intro s id g c f issues holds
  obtain ⟨only, group⟩ := State.beginWait_spec issues.here { why := why s g (g.guarded f.slot) }
  exact ⟨_, (run s).trans (issueWith_hold issues (fun _ _ _ => some []) body (effect s id g c f issues holds)), only, group⟩

/-- An instruction that has acted, and whose group waits for the end of what it has begun. -/
theorem acted_of_body {s u : State} {id : Nat} {g : Group} {c : Clause} {f : Form} {w : WaitWhy} (issues : Issues i s id g c f)
    (effect : body g (g.guarded f.slot) s = .acted u w) : exec i s = .next (u.beginWait id ⟨w, true, false⟩) := by
  rw [run, issue, issueWith_of_issues issues, effect]
  rfl

end

theorem routeChip_eq (w : Word) : routeChip w = w.toNat % 2 ^ 12 := by simp [routeChip, natField]

theorem not_natBit_top (w : Word) : (!natBit w.toNat 31) = decide (w.toNat < 2 ^ 31) := by
  have below := w.isLt
  rw [Bool.eq_iff_iff, Bool.not_eq_true', ← Bool.not_eq_true, natBit_eq_true_iff, decide_eq_true_eq]
  omega

/-- The writes of a group that a packet follows are at the end of their way (R119). -/
theorem stored_iff {s : State} {id : Nat} (cur : s.cur = .group id) :
    (!(s.pendingOps (s.releaseWrites s.curId .sys)).isEmpty) = true ↔ ¬s.pendingOps (s.releaseWrites id .sys) = [] := by
  rw [State.curId_of_cur cur, Bool.not_eq_true', List.isEmpty_eq_false_iff]

theorem noRoom_iff (s : State) (g : Group) (w : Nat → Word) (ls : List Nat) :
    (!s.remoteRoom g (ls.map w)) = true ↔ ¬packetRoom s g w ls := by
  rw [← State.remoteRoom_iff, Bool.not_eq_true', Bool.not_eq_true]

/-! ### RINV (R119 to R121) -/

section
variable (o : Slot) (n : BitVec 3) (pri : BitVec 2) (trp : Bool) (sr : BitVec 10) (k8 : BitVec 4)

/-- The lanes of RINV whose packets are sent. -/
def rinvSending (s : State) (g : Group) (ls : List Nat) : List Nat :=
  ls.filter (fun l => decide ((g.value o.b l).toNat < 2 ^ 31) && s.hasRoute g.part ((g.value o.b l).toNat % 2 ^ 12))

/-- The other lanes of RINV, answered at once. -/
def rinvRefused (s : State) (g : Group) (ls : List Nat) : List Nat :=
  ls.filter (fun l => !(decide ((g.value o.b l).toNat < 2 ^ 31) && s.hasRoute g.part ((g.value o.b l).toNat % 2 ^ 12)))

/-- The operation of RINV, with the answers of the lanes that send nothing. -/
def rinvOp (s : State) (id : Nat) (g : Group) (ls : List Nat) : Op :=
  { opOf g id (.rinv trp (rinvSending o s g ls).length) with
    flag := g.slotFlag o, dest := o.d, destN := 1
    res := (rinvRefused o s g ls).map (fun l =>
      { lane := l, bytes := leBytes 4 (if 2 ^ 31 ≤ (g.value o.b l).toNat then 0x904 else 0x804), tag := 4 }) }

/-- The INV packet of a lane (R103). -/
def rinvPacket (s : State) (g : Group) (l : Nat) (seq : Word) : List Byte :=
  headOf s g 1 pri.toNat (g.value o.b l) seq (g.value o.c l) ++ leBytes 2 ((g.value o.b l).toNat / 2 ^ 15 % 2 ^ 16)
    ++ leBytes 1 (n.toNat + 1) ++ leBytes 1 k8.toNat ++ List.replicate 12 0
    ++ filled 64 ((List.range (2 * k8.toNat)).flatMap (fun j => leBytes 4 (g.readS (sr.toNat + j)).toNat))
    ++ filled 32 ((List.range (n.toNat + 1)).flatMap (fun j => leBytes 4 (g.valueAt o.a j l).toNat))

/-- RINV may send: its level is 0, the stores before it have ended, and there is room. -/
def RinvFree (s : State) (id : Nat) (g : Group) (ls : List Nat) : Prop :=
  teamed s g ∧ g.detlevel = 0 ∧ s.pendingOps (s.releaseWrites id .sys) = []
    ∧ packetRoom s g (fun l => g.value o.b l) (rinvSending o s g ls) ∧ flagRoom g o

/-- RINV has begun its operation and sent its packets. -/
def RinvSends (s : State) (id : Nat) (g : Group) (ls : List Nat) (u : State) : Prop :=
  ∃ m m2 f, (Instr.rinv o n pri trp sr k8).form = some f ∧ TeamOnly s m g.team (fun x y => y = { x with wrote := true })
    ∧ Started m m2 id (rinvOp o trp s id g ls) (formDests f)
    ∧ Packets id g (fun l => g.value o.b l) (fun l => { main := some (s.fresh, l) }) (rinvPacket o n pri sr k8 s g)
      (rinvSending o s g ls) m2 u

/-- What RINV does where it may send: with TRP its group waits for the flag, else the slot is over. -/
theorem rinv_sends (few : k8.toNat ≤ 8) : ∃ body,
    (∀ s, exec (.rinv o n pri trp sr k8) s = issue (.rinv o n pri trp sr k8) s body)
    ∧ ∀ s id g c f, Issues (.rinv o n pri trp sr k8) s id g c f → RinvFree o s id g (g.guarded f.slot) →
      ∃ u, body g (g.guarded f.slot) s = (if trp then .acted u (.flags (g.slotFlag o).toList) else .done u)
        ∧ RinvSends o n pri trp sr k8 s id g (g.guarded f.slot) u ∧ u.AtSlot id c := by
  refine ⟨_, fun s => (exec_rinv s o n pri trp sr k8).trans rfl, fun s id g c f issues free => ?_⟩
  obtain ⟨team, level, stored, room, flag⟩ := free
  have slot : (s.markWrote g.team).AtSlot id c := issues.atSlot.congr rfl rfl
  obtain ⟨packets, done⟩ := State.sendAll_packets g (fun l => g.value o.b l) (fun l => { main := some (s.fresh, l) })
    (mk := fun u => rinvPacket o n pri sr k8 u g) (s₀ := s) (fun u chip => by unfold rinvPacket headOf; rw [chip])
    (rinvSending o s g (g.guarded f.slot))
    (slot.startOp (rinvOp o trp s id g (g.guarded f.slot)) (formDests f)) (by rw [State.startOp_eq slot]; rfl)
  refine ⟨_, ?_, ⟨_, _, f, issues.form, State.modTeam_teamOnly team _, State.startOp_started slot _ _, packets⟩, done⟩
  have low : ¬1 ≤ g.detlevel := by omega
  have words : n.toNat + 1 ≤ 8 := n.isLt
  have bit : ∀ l, natBit (g.value o.b l).toNat 31 = true ↔ 2 ^ 31 ≤ (g.value o.b l).toNat := fun l => by
    rw [← Bool.not_eq_false', not_natBit_top, decide_eq_false_iff_not, Nat.not_lt]
  simp only [low, if_false, stored_iff issues.cur, stored, not_true_eq_false, routeChip_eq, not_natBit_top]
  have fits := (noRoom_iff s g (fun l => g.value o.b l) (rinvSending o s g (g.guarded f.slot))).not.2 (not_not.2 room)
  refine (if_neg fits).trans ((withRoom_flag flag _).trans ?_)
  simp only [issues.form, packetHeader_eq_headOf, padTo_shared _ _ few, padTo_valueRun _ _ _ words, leBytes_zero, bit,
    State.curId_of_cur issues.cur]
  rfl

theorem rinv_stores : Waits (.rinv o n pri trp sr k8)
    (fun s id g _ => g.detlevel = 0 ∧ ¬s.pendingOps (s.releaseWrites id .sys) = [])
    (fun s _ _ => ⟨.ops (s.pendingOps (s.releaseWrites s.curId .sys)), false, false⟩) := by
  refine waitsFor_of_body (why := fun s _ _ => .ops (s.pendingOps (s.releaseWrites s.curId .sys)))
    (fun s => (exec_rinv s o n pri trp sr k8).trans rfl) fun s id g c f issues ⟨level, busy⟩ => ?_
  have low : ¬1 ≤ g.detlevel := by omega
  exact (if_neg low).trans (if_pos ((stored_iff issues.cur).2 busy))

theorem rinv_full : Waits (.rinv o n pri trp sr k8)
    (fun s id g ls => g.detlevel = 0 ∧ s.pendingOps (s.releaseWrites id .sys) = []
      ∧ ¬packetRoom s g (fun l => g.value o.b l) (rinvSending o s g ls))
    (fun _ _ _ => ⟨.room, false, false⟩) := by
  refine waits_of_body (fun s => (exec_rinv s o n pri trp sr k8).trans rfl) fun s id g c f issues ⟨level, stored, full⟩ => ?_
  have low : ¬1 ≤ g.detlevel := by omega
  simp only [low, if_false, stored_iff issues.cur, stored, not_true_eq_false, routeChip_eq, not_natBit_top]
  exact if_pos ((noRoom_iff s g _ (rinvSending o s g (g.guarded f.slot))).2 full)

theorem rinv_level : Raises (.rinv o n pri trp sr k8) (fun _ g _ => 1 ≤ g.detlevel) .detViol (fun _ _ => 0x310) :=
  raises_of_body (fun s => (exec_rinv s o n pri trp sr k8).trans rfl) fun _ _ _ _ _ _ level => ⟨0, if_pos level⟩

end

/-! ### PUT (R121 to R123) -/

section
variable (o : Slot) (n : BitVec 3) (win : BitVec 8)

/-- A route word of PUT reaches its chip. -/
def putRouted (s : State) (g : Group) (l : Nat) : Bool :=
  decide ((g.value o.c l).toNat < 2 ^ 29) && s.hasRoute g.part ((g.value o.c l).toNat % 2 ^ 12)

/-- The PUT packet of a lane (R103). -/
def putPacket (s : State) (g : Group) (l : Nat) (seq : Word) : List Byte :=
  headOf s g 2 0 (g.value o.c l) seq (BitVec.ofNat 32 ((g.value o.c l).toNat / 2 ^ 21 % 256
      + 256 * ((g.value o.c l).toNat / 2 ^ 15 % 64))) ++ leBytes 4 (g.value o.b l).toNat ++ leBytes 1 (4 * (n.toNat + 1))
    ++ List.replicate 11 0
    ++ filled 32 ((List.range (n.toNat + 1)).flatMap (fun j => leBytes 4 (g.valueAt o.a j l).toNat))

/-- The window of PUT is one of its context's source windows. -/
def sourceWindow (s : State) (g : Group) : Prop :=
  win.toNat < (s.context g.part g.ctx).windows.length ∧ ((s.context g.part g.ctx).windows.getD win.toNat {}).src = true

theorem sourceWindow_iff (s : State) (g : Group) : sourceWindow win s g ↔
    ¬((s.context g.part g.ctx).windows.length ≤ win.toNat
      ∨ (!((s.context g.part g.ctx).windows.getD win.toNat {}).src) = true) := by
  rw [sourceWindow, not_or, Nat.not_le, Bool.not_eq_true', Bool.not_eq_false]

/-- The state that PUT leaves in a group that may send: the lanes without a route are refused, then the others send. -/
def putSent (s : State) (g : Group) (ls : List Nat) : State :=
  (ls.filter (putRouted o s g)).foldl
    (fun u l => u.sendCounted g (g.value o.c l) { win := win.toNat } (putPacket o n u g l))
    ((ls.filter (fun l => !putRouted o s g l)).foldl
      (fun u l => u.refusePut g.part g.ctx win.toNat (if (g.value o.c l).toNat < 2 ^ 29 then 8 else 9)) (s.markWrote g.team))

/-- What PUT comes to, case by case: `body` is its effect. -/
structure PutCases (body : Group → List Nat → State → Eff) (s : State) (id : Nat) (g : Group) (ls : List Nat) : Prop where
  noWindow : ¬sourceWindow win s g → body g ls s = .raise .prot 2
  copy : sourceWindow win s g → (s.team g.team).copyOf ≠ none → body g ls s = .done s
  stores : sourceWindow win s g → (s.team g.team).copyOf = none → ¬s.pendingOps (s.releaseWrites id .sys) = [] →
    body g ls s = .hold (.ops (s.pendingOps (s.releaseWrites s.curId .sys)))
  full : sourceWindow win s g → (s.team g.team).copyOf = none → s.pendingOps (s.releaseWrites id .sys) = [] →
    ¬packetRoom s g (fun l => g.value o.c l) (ls.filter (putRouted o s g)) → body g ls s = .hold .room
  sends : sourceWindow win s g → (s.team g.team).copyOf = none → s.pendingOps (s.releaseWrites id .sys) = [] →
    packetRoom s g (fun l => g.value o.c l) (ls.filter (putRouted o s g)) → body g ls s = .done (putSent o n win s g ls)

theorem put_cases : ∃ body, (∀ s, exec (.put o n win) s = issue (.put o n win) s body)
    ∧ ∀ s id g ls, s.cur = .group id → PutCases o n win body s id g ls := by
  refine ⟨_, fun s => (exec_put s o n win).trans rfl, fun s id g ls cur => ⟨fun stray => ?_, fun source copy => ?_,
    fun source original busy => ?_, fun source original stored full => ?_, fun source original stored room => ?_⟩⟩
  · exact if_pos (not_not.1 ((sourceWindow_iff win s g).not.1 stray))
  all_goals refine (if_neg ((sourceWindow_iff win s g).1 source)).trans ?_
  · exact if_pos (Option.isSome_iff_ne_none.2 copy)
  all_goals simp only [original, Option.isSome_none, Bool.false_eq_true, if_false, stored_iff cur, routeChip_eq]
  · exact if_pos busy
  all_goals refine (if_neg (not_not.2 stored)).trans ?_
  · exact if_pos ((noRoom_iff s g _ (ls.filter (putRouted o s g))).2 full)
  · refine (if_neg ((noRoom_iff s g _ (ls.filter (putRouted o s g))).not.2 (not_not.2 room))).trans ?_
    have words : n.toNat + 1 ≤ 8 := n.isLt
    simp only [packetHeader_eq_headOf, padTo_valueRun _ _ _ words, leBytes_zero, decide_eq_true_eq]
    rfl

/-- PUT where every lane has a route. -/
theorem put_sends : Does (.put o n win)
    (fun s id g ls => teamed s g ∧ sourceWindow win s g ∧ (s.team g.team).copyOf = none
      ∧ s.pendingOps (s.releaseWrites id .sys) = []
      ∧ packetRoom s g (fun l => g.value o.c l) (ls.filter (putRouted o s g)) ∧ ∀ l ∈ ls, putRouted o s g l = true)
    (fun s id g ls u => ∃ m, TeamOnly s m g.team (fun x y => y = { x with wrote := true })
      ∧ Packets id g (fun l => g.value o.c l) (fun _ => { win := win.toNat }) (putPacket o n s g) ls m u) := by
  obtain ⟨body, run, cases_⟩ := put_cases o n win
  refine does_of_body run fun s id g c f issues ⟨team, source, original, stored, room, routed⟩ => ?_
  have done := (cases_ s id g (g.guarded f.slot) issues.cur).sends source original stored room
  have slot : (s.markWrote g.team).AtSlot id c := issues.atSlot.congr rfl rfl
  obtain ⟨packets, end_⟩ := State.sendAll_packets g (fun l => g.value o.c l) (fun _ => { win := win.toNat })
    (mk := fun u => putPacket o n u g) (s₀ := s) (fun u chip => by unfold putPacket headOf; rw [chip])
    (g.guarded f.slot) slot rfl
  have all : (g.guarded f.slot).filter (putRouted o s g) = g.guarded f.slot := List.filter_eq_self.2 routed
  have none_ : (g.guarded f.slot).filter (fun l => !putRouted o s g l) = [] :=
    List.filter_eq_nil_iff.2 fun l mem => by rw [routed l mem]; exact Bool.false_ne_true
  rw [putSent, all, none_] at done
  exact ⟨_, done, ⟨_, State.modTeam_teamOnly team _, packets⟩, end_⟩

/-- PUT where no lane has a route. -/
theorem put_refuses : Does (.put o n win)
    (fun s id g ls => teamed s g ∧ sourceWindow win s g ∧ (s.team g.team).copyOf = none
      ∧ s.pendingOps (s.releaseWrites id .sys) = [] ∧ g.counter 3 ≤ 0xFFFF ∧ ∀ l ∈ ls, putRouted o s g l = false)
    (fun s _ g ls u => ∃ m, TeamOnly s m g.team (fun x y => y = { x with wrote := true })
      ∧ u = ls.foldl (fun u l => u.refusePut g.part g.ctx win.toNat (if (g.value o.c l).toNat < 2 ^ 29 then 8 else 9)) m) := by
  obtain ⟨body, run, cases_⟩ := put_cases o n win
  refine does_of_body run fun s id g c f issues ⟨team, source, original, stored, few, stray⟩ => ?_
  have none_ : (g.guarded f.slot).filter (putRouted o s g) = [] :=
    List.filter_eq_nil_iff.2 fun l mem => by rw [stray l mem]; exact Bool.false_ne_true
  have all : (g.guarded f.slot).filter (fun l => !putRouted o s g l) = g.guarded f.slot :=
    List.filter_eq_self.2 fun l mem => by rw [stray l mem]; rfl
  have room : packetRoom s g (fun l => g.value o.c l) [] := ⟨few, fun _ mem => absurd mem List.not_mem_nil⟩
  have done := (cases_ s id g (g.guarded f.slot) issues.cur).sends source original stored (none_ ▸ room)
  have slot : (s.markWrote g.team).AtSlot id c := issues.atSlot.congr rfl rfl
  rw [putSent, all, none_] at done
  exact ⟨_, done, ⟨_, State.modTeam_teamOnly team _, rfl⟩, slot.refusePuts g.part g.ctx win.toNat _ (g.guarded f.slot)⟩

/-- A copy of a team sends no PUT (R411). -/
theorem put_copy : Does (.put o n win) (fun s _ g _ => sourceWindow win s g ∧ (s.team g.team).copyOf ≠ none)
    (fun s _ _ _ u => u = s) := by
  obtain ⟨body, run, cases_⟩ := put_cases o n win
  exact does_of_body run fun s id g c f issues ⟨source, copy⟩ =>
    ⟨s, (cases_ s id g _ issues.cur).copy source copy, rfl, issues.atSlot⟩

theorem put_stores : Waits (.put o n win)
    (fun s id g _ => sourceWindow win s g ∧ (s.team g.team).copyOf = none ∧ ¬s.pendingOps (s.releaseWrites id .sys) = [])
    (fun s _ _ => ⟨.ops (s.pendingOps (s.releaseWrites s.curId .sys)), false, false⟩) := by
  obtain ⟨body, run, cases_⟩ := put_cases o n win
  exact waitsFor_of_body (why := fun s _ _ => .ops (s.pendingOps (s.releaseWrites s.curId .sys))) run
    fun s id g c f issues ⟨source, original, busy⟩ => (cases_ s id g _ issues.cur).stores source original busy

theorem put_full : Waits (.put o n win)
    (fun s id g ls => sourceWindow win s g ∧ (s.team g.team).copyOf = none ∧ s.pendingOps (s.releaseWrites id .sys) = []
      ∧ ¬packetRoom s g (fun l => g.value o.c l) (ls.filter (putRouted o s g)))
    (fun _ _ _ => ⟨.room, false, false⟩) := by
  obtain ⟨body, run, cases_⟩ := put_cases o n win
  exact waits_of_body run fun s id g c f issues ⟨source, original, stored, full⟩ =>
    (cases_ s id g _ issues.cur).full source original stored full

theorem put_noWindow : Raises (.put o n win) (fun s g _ => ¬sourceWindow win s g) .prot (fun _ _ => 2) := by
  obtain ⟨body, run, cases_⟩ := put_cases o n win
  exact raises_of_body run fun s id g c f issues stray => ⟨0, (cases_ s id g _ issues.cur).noWindow stray⟩

end

/-! ### WCNT (R111) -/

section
variable (o : Slot) (kind : WcntKind)

/-- The counter that WCNT reads, and the threshold that it waits for. -/
def windowCount (s : State) (g : Group) (ls : List Nat) : Word := s.wcount g.part g.ctx (onceOf o.a g ls) (wcntKind kind)
def wcntLeast (g : Group) (ls : List Nat) : Word := g.value o.b (ls.headD 0)

/-- The counter has reached its threshold, as numbers modulo 2^32 are compared. -/
def wcntMet (s : State) (g : Group) (ls : List Nat) : Prop := (windowCount o kind s g ls - wcntLeast o g ls).toNat < 2 ^ 31

theorem wcntMet_iff (s : State) (g : Group) (ls : List Nat) :
    wcntMet o kind s g ls ↔ ¬(windowCount o kind s g ls - wcntLeast o g ls).msb = true := by
  rw [BitVec.msb_eq_decide, decide_eq_true_eq, Nat.not_le]
  rfl

theorem wcnt_returns : Does (.wcnt o kind)
    (fun s _ g ls => onceOf o.a g ls < (s.context g.part g.ctx).windows.length ∧ wcntMet o kind s g ls ∧ flagRoom g o)
    (fun s id g ls u => ∃ f, (Instr.wcnt o kind).form = some f ∧ Started s u id { opOf g id .engine with
      flag := g.slotFlag o, dest := o.d, destN := 1
      res := ls.map (fun l =>
        { lane := l, bytes := leBytes 4 (if g.detlevel = 0 then windowCount o kind s g ls else wcntLeast o g ls).toNat }) }
      (formDests f)) := by
  refine does_of_body (fun s => (exec_wcnt s o kind).trans rfl) fun s id g c f issues ⟨window, met, flag⟩ => ?_
  refine ⟨_, ?_, ⟨f, issues.form, State.startOp_started issues.atSlot _ _⟩, issues.atSlot.startOp _ _⟩
  refine (if_neg (Nat.not_le.2 window)).trans ((if_neg ((wcntMet_iff o kind s g _).1 met)).trans ?_)
  simp only [issues.form, withRoom_flag flag, State.startResults, State.curId_of_cur issues.cur]
  rfl

theorem wcnt_early : Waits (.wcnt o kind)
    (fun s _ g ls => onceOf o.a g ls < (s.context g.part g.ctx).windows.length ∧ ¬wcntMet o kind s g ls)
    (fun _ _ _ => ⟨.room, false, false⟩) := by
  refine waits_of_body (fun s => (exec_wcnt s o kind).trans rfl) fun s id g c f _ ⟨window, early⟩ => ?_
  rw [wcntMet_iff, not_not] at early
  exact (if_neg (Nat.not_le.2 window)).trans (if_pos early)

theorem wcnt_noWindow : Raises (.wcnt o kind)
    (fun s g ls => (s.context g.part g.ctx).windows.length ≤ onceOf o.a g ls) .prot (fun _ _ => 3) :=
  raises_of_body (fun s => (exec_wcnt s o kind).trans rfl) fun _ _ _ _ _ _ beyond => ⟨0, if_pos beyond⟩

end

end Sys2Proof.Machine

namespace Sys2Proof.Claims

open Sys2Proof.Machine

/-- Settles O49: RINV, PUT and WCNT, each by what it does, waits for and raises. -/
theorem remoteInstructions : Obligations.RemoteInstructions := by
  unfold Obligations.RemoteInstructions
  refine ⟨fun o n pri trp sr k8 => ?rinv, fun o n win => ⟨put_sends o n win, put_refuses o n win,
    put_copy o n win, put_stores o n win, put_full o n win, put_noWindow o n win⟩,
    fun o kind => ?wcnt⟩
  case rinv =>
    intro _ _ _ _ _ few
    obtain ⟨body, run, sends⟩ := rinv_sends o n pri trp sr k8 few
    refine ⟨fun off => does_of_body run fun s id g c f issues free => ?goesOn, fun on s id g c f issues free => ?waits,
      rinv_stores o n pri trp sr k8, rinv_full o n pri trp sr k8, rinv_level o n pri trp sr k8⟩
    case goesOn =>
      obtain ⟨u, done, sent, slot⟩ := sends s id g c f issues free
      rw [off, if_neg Bool.false_ne_true] at done
      exact ⟨u, done, sent, slot⟩
    case waits =>
      obtain ⟨u, acted, sent, -⟩ := sends s id g c f issues free
      rw [on, if_pos rfl] at acted
      exact ⟨u, sent, acted_of_body run issues acted⟩
  case wcnt =>
    cases kind
    all_goals exact ⟨wcnt_returns o _, wcnt_early o _, wcnt_noWindow o _⟩

end Sys2Proof.Claims
end
section
/-!
SUPPORT. The receiver: the numbers of packets, the replies, the decision on an INV and the fate of a PUT (R103, R104, R106,
R112, R113, R116).
-/

namespace Sys2Proof.Machine

open Sys2Proof.Safety Sys2Proof.Claims

/-! ### Fields and reads -/

theorem leNat_lt : ∀ bs : List Byte, leNat bs < 256 ^ bs.length
  | [] => by decide
  | b :: bs => by
    have rest := leNat_lt bs
    have low := b.isLt
    rw [leNat, List.length_cons, Nat.pow_succ]
    omega

theorem field_lt (bs : List Byte) (off n : Nat) : field bs off n < 256 ^ n :=
  (leNat_lt _).trans_le (Nat.pow_le_pow_right (by decide) (List.length_take_le n _))

theorem natField_zero (n hi : Nat) : natField n hi 0 = n % 2 ^ (hi + 1) := by simp [natField]

theorem objNat_eq_field (bs : List Byte) (off n : Nat) : objNat bs off n = field bs off n := rfl

theorem field_toPart (bs : List Byte) : field bs 6 1 % 2 ^ (2 + 1) = toPart bs := rfl

theorem field_window (bs : List Byte) : field bs 12 4 % 2 ^ (7 + 1) = field bs 12 4 % 256 := rfl

theorem natField_context (bs : List Byte) : natField (field bs 12 4) 13 8 = field bs 12 4 / 256 % 64 := rfl

theorem State.physRead_length (s : State) (part pa n : Nat) : (s.physRead part pa n).length = n := by
  unfold State.physRead
  split
  · rw [State.bytes, Memory.bytes_eq_map, List.length_map, List.length_range]
  · exact leBytes_length n 0

theorem State.leNat_physRead_lt (s : State) (part pa n : Nat) : leNat (s.physRead part pa n) < 256 ^ n := by
  simpa only [State.physRead_length] using leNat_lt (s.physRead part pa n)

/-! ### Replies (R103, R104, R106) -/

theorem State.dropPacket_dropped (s : State) (pkt : Nat) : Dropped s (s.dropPacket pkt) pkt :=
  ⟨rfl, (Tab.get?_erase s.packets pkt pkt).trans (if_pos rfl),
    fun j other => (Tab.get?_erase s.packets pkt j).trans (if_neg other)⟩

theorem State.physWrite_packets (s : State) (part pa : Nat) (bs : List Byte) :
    (s.physWrite part pa bs).packets = s.packets := by
  unfold State.physWrite
  split
  · rfl
  · rfl

theorem State.storeReply_packets (s : State) (bs : List Byte) (code reason : Nat) :
    (s.storeReply bs code reason).packets = s.packets := by
  rw [State.storeReply, State.physWrite_packets, State.physWrite_packets]

theorem State.storeReply_stored (s : State) (bs : List Byte) (code reason : Nat) :
    Stored s (s.storeReply bs code reason) bs code reason := by
  rw [State.storeReply, natField_zero, natField_zero, natField_zero]
  rfl

/-- The four bytes in which a reply gives its code and its reason. -/
theorem leBytes_codeReason {code reason : Nat} (codeFits : code < 256) (reasonFits : reason < 256) :
    leBytes 4 (BitVec.ofNat 32 (code + 256 * reason)).toNat = leBytes 1 code ++ leBytes 1 reason ++ leBytes 2 0 := by
  have small : (BitVec.ofNat 32 (code + 256 * reason)).toNat = code + 256 ^ 1 * reason :=
    Nat.mod_eq_of_lt (by omega)
  have high : (code + 256 ^ 1 * reason) / 256 ^ 1 = reason := by omega
  have zero : reason / 256 ^ 1 = 0 := by omega
  rw [small, leBytes_add 1 3, leBytes_add_mul, high, leBytes_add 1 2, zero, List.append_assoc]

theorem State.reply_replied (s : State) (bs : List Byte) {code reason : Nat} (codeFits : code < 256)
    (reasonFits : reason < 256) : Replied s (s.reply bs code reason) bs code reason := by
  have number : (BitVec.ofNat 32 (objNat bs 8 4)).toNat = numberOf bs := Nat.mod_eq_of_lt (field_lt bs 8 4)
  rw [State.reply, replyBytes, padTo_eq_filled (by simp [packetHeader, leBytes_length]), packetHeader, number,
    leBytes_codeReason codeFits reasonFits, natField_zero, natField_zero]
  simp only [← List.append_assoc]
  rfl

/-! ### The number of a packet (R106) -/

theorem State.seqCase_eq (s : State) (bs : List Byte) : s.seqCase bs =
    if behindBy s bs = 0 then .expected
    else if behindBy s bs ≤ 256 then
      .behind (leNat (s.physRead (toPart bs) (seqBaseOf s bs + 256 + 2 * (numberOf bs % 256)) 1))
        (leNat (s.physRead (toPart bs) (seqBaseOf s bs + 256 + 2 * (numberOf bs % 256) + 1) 1))
    else .other := by
  have number : numberOf bs < 2 ^ 32 := field_lt bs 8 4
  have expected : expectedOf s bs < 2 ^ 32 := State.leNat_physRead_lt s _ _ 4
  have behind : (BitVec.ofNat 32 (expectedOf s bs) - BitVec.ofNat 32 (numberOf bs)).toNat = behindBy s bs := by
    rw [BitVec.toNat_sub, BitVec.toNat_ofNat, BitVec.toNat_ofNat, Nat.mod_eq_of_lt number, Nat.mod_eq_of_lt expected, behindBy]
    omega
  have second : seqBaseOf s bs + 256 + 2 * (numberOf bs % 256) + 1 = seqBaseOf s bs + 257 + 2 * (numberOf bs % 256) := by omega
  rw [State.seqCase, natField_zero, natField_zero, natField_zero, ← behind, second]
  rfl

section
variable {s : State} {pkt ty : Nat} {bs : List Byte} (arrived : Arrived s pkt ty bs) (f : State → List Byte → State)
include arrived

/-- A packet that has arrived comes to what its number says. -/
theorem State.receive_cases : (s.seqCase bs = .expected → s.receive pkt ty f = f s bs)
    ∧ (∀ code reason, s.seqCase bs = .behind code reason → s.stillLanding bs = false →
      s.receive pkt ty f = (s.dropPacket pkt).reply bs code reason)
    ∧ (s.seqCase bs = .other → s.receive pkt ty f = s.dropPacket pkt) := by
  obtain ⟨⟨p, listed, rfl, landing⟩, type, chip, on, free⟩ := arrived
  have chip : field p.bytes 2 2 % 2 ^ (11 + 1) = s.pt.chipid := chip
  have free : ¬(ty = 2 ∧ (s.func (toPart p.bytes)).dropCmd.isSome = true) := fun ⟨put, busy⟩ =>
    Option.isSome_iff_ne_none.1 busy (free put)
  unfold State.receive
  simp only [listed, landing, objNat_eq_field, natField_zero, field_toPart, type, chip, on, free, bne_self_eq_false,
    Bool.or_self, Bool.not_true, Bool.false_eq_true, if_false]
  refine ⟨fun number => ?_, fun code reason number ended => ?_, fun number => ?_⟩
  · simp only [number]
  · simp only [number, ended, Bool.false_eq_true, if_false]
  · simp only [number]

theorem State.receive_expected (expected : behindBy s bs = 0) : s.receive pkt ty f = f s bs := by
  obtain ⟨case_, -, -⟩ := State.receive_cases arrived f
  exact case_ (by rw [State.seqCase_eq, if_pos expected])

theorem State.receive_far (far : 256 < behindBy s bs) : s.receive pkt ty f = s.dropPacket pkt := by
  obtain ⟨-, -, case_⟩ := State.receive_cases arrived f
  exact case_ (by rw [State.seqCase_eq, if_neg (Nat.ne_of_gt (Nat.zero_lt_of_lt far)), if_neg (Nat.not_le.2 far)])

theorem State.receive_behind (behind : 1 ≤ behindBy s bs) (near : behindBy s bs ≤ 256) (ended : s.stillLanding bs = false) :
    s.receive pkt ty f = (s.dropPacket pkt).reply bs
      (leNat (s.physRead (toPart bs) (seqBaseOf s bs + 256 + 2 * (numberOf bs % 256)) 1))
      (leNat (s.physRead (toPart bs) (seqBaseOf s bs + 256 + 2 * (numberOf bs % 256) + 1) 1)) := by
  obtain ⟨-, case_, -⟩ := State.receive_cases arrived f
  exact case_ _ _ (by rw [State.seqCase_eq, if_neg (Nat.ne_of_gt behind), if_pos near]) ended

end

/-! ### The decision on an INV (R112) -/

/-- The queue that an INV is for. -/
def invQueue (s : State) (bs : List Byte) : Queue := s.queue (toPart bs) (field bs 12 4 % 65536)

/-- The handlers of that queue's context. -/
def invHandlers (s : State) (bs : List Byte) : List Handler := (s.context (toPart bs) (invQueue s bs).ctx).handlers

/-- The refusals of the table of R112 that stand before the check of the handler's object. -/
def earlyRefusal (s : State) (bs : List Byte) : Option (Nat × Nat) :=
  if 1024 ≤ field bs 12 4 % 65536 ∨ (!(invQueue s bs).live) = true ∨ (s.liveContexts (toPart bs)).isEmpty = true then
    some (4, 1)
  else if (!(invQueue s bs).inb.recv) = true then some (4, 2)
  else if field bs 12 4 / 65536 ≠ (invQueue s bs).gen then some (3, 3)
  else if (invHandlers s bs).length ≤ field bs 16 2
      ∨ (!((invHandlers s bs).getD (field bs 16 2) {}).valid) = true then some (4, 4)
  else if ((invHandlers s bs).getD (field bs 16 2) {}).maxPw < field bs 18 1
      ∨ ((invHandlers s bs).getD (field bs 16 2) {}).maxSb < field bs 19 1 then some (4, 5)
  else none

/-- The refusals after them: by the check, and by the room of the overflow ring. -/
def lateRefusal (s : State) (bs : List Byte) (verdict : Bool) : Option (Nat × Nat) :=
  if verdict = false then some (4, 6)
  else if (invQueue s bs).inb.rsize ≤ (invQueue s bs).inb.waiting.length then some (2, 7) else none

theorem refusalOf_eq (s : State) (bs : List Byte) (verdict : Bool) :
    refusalOf s bs verdict = (earlyRefusal s bs).or (lateRefusal s bs verdict) := by
  unfold refusalOf earlyRefusal lateRefusal invHandlers invQueue
  simp only [Bool.not_eq_true', List.isEmpty_iff]
  split_ifs
  all_goals rfl

theorem earlyRefusal_small {s : State} {bs : List Byte} {code reason : Nat} (early : earlyRefusal s bs = some (code, reason)) :
    code < 256 ∧ reason < 6 := by
  unfold earlyRefusal at early
  split_ifs at early
  all_goals
    obtain ⟨rfl, rfl⟩ := Prod.mk.inj (Option.some.inj early)
    decide

theorem lateRefusal_late {s : State} {bs : List Byte} {verdict : Bool} {code reason : Nat}
    (late : lateRefusal s bs verdict = some (code, reason)) : 5 < reason := by
  unfold lateRefusal at late
  split_ifs at late
  all_goals
    obtain ⟨rfl, rfl⟩ := Prod.mk.inj (Option.some.inj late)
    decide

/-- The receiver that lands an INV. -/
def invEng (s : State) (bs : List Byte) : Eng := receiverEng (toPart bs) (invQueue s bs).ctx (invQueue s bs).die

/-- An INV whose image joins the overflow ring. -/
def State.ringInv (m s : State) (bs : List Byte) : Nat × Nat × State :=
  match m.landImage (invEng s bs) ((invQueue s bs).inb.ring
      + 128 * (((invQueue s bs).inb.head + (invQueue s bs).inb.waiting.length) % (invQueue s bs).inb.rsize)) bs with
  | none => (4, 13, m)
  | some w => (1, 0, (w.modQueue (toPart bs) (field bs 12 4 % 65536) (fun x =>
      { x with inb := { x.inb with waiting := x.inb.waiting ++ [m.fresh] } })).tick)

/-- An INV whose image takes a FREE slot. -/
def State.slotInv (m s : State) (bs : List Byte) (k : Nat) : Nat × Nat × State :=
  match m.landImage (invEng s bs) ((invQueue s bs).inb.land + 128 * k) bs with
  | none => (4, 13, m)
  | some w => (0, 0, (w.modQueue (toPart bs) (field bs 12 4 % 65536) (fun x =>
      { x with inb := { x.inb with slots := Tab.put x.inb.slots k ⟨.held, m.fresh⟩, last := k } })).tick)

section
variable {m : State} (s : State) (bs : List Byte)

theorem State.ringInv_written {w : State} (wrote : m.engWrite (invEng s bs) ((invQueue s bs).inb.ring
      + 128 * (((invQueue s bs).inb.head + (invQueue s bs).inb.waiting.length) % (invQueue s bs).inb.rsize)) bs = .ok w) :
    m.ringInv s bs = (1, 0, (w.modQueue (toPart bs) (field bs 12 4 % 65536) (fun x =>
      { x with inb := { x.inb with waiting := x.inb.waiting ++ [m.fresh] } })).tick) := by
  rw [State.ringInv, State.landImage, wrote]

theorem State.ringInv_bad {r va : Nat} (bad : m.engWrite (invEng s bs) ((invQueue s bs).inb.ring
      + 128 * (((invQueue s bs).inb.head + (invQueue s bs).inb.waiting.length) % (invQueue s bs).inb.rsize)) bs = .bad r va) :
    m.ringInv s bs = (4, 13, m) := by
  rw [State.ringInv, State.landImage, bad]

variable (k : Nat)

theorem State.slotInv_written {w : State} (wrote : m.engWrite (invEng s bs) ((invQueue s bs).inb.land + 128 * k) bs = .ok w) :
    m.slotInv s bs k = (0, 0, (w.modQueue (toPart bs) (field bs 12 4 % 65536) (fun x =>
      { x with inb := { x.inb with slots := Tab.put x.inb.slots k ⟨.held, m.fresh⟩, last := k } })).tick) := by
  rw [State.slotInv, State.landImage, wrote]

theorem State.slotInv_bad {r va : Nat} (bad : m.engWrite (invEng s bs) ((invQueue s bs).inb.land + 128 * k) bs = .bad r va) :
    m.slotInv s bs k = (4, 13, m) := by
  rw [State.slotInv, State.landImage, bad]

end

/-- An INV whose handler has been checked, from the state that remembers the check. -/
def State.checkedInv (m s : State) (bs : List Byte) (ver : Option (CodeObj × Option CodeObj)) : Nat × Nat × State :=
  if ver.isNone then (4, 6, m)
  else if (invQueue s bs).inb.rsize ≤ (invQueue s bs).inb.waiting.length then (2, 7, m)
  else match (invQueue s bs).inb.freeSlot with
    | none => m.ringInv s bs
    | some k =>
      if !(invQueue s bs).inb.waiting.isEmpty || s.asSaved (toPart bs) (invQueue s bs).ctx then m.ringInv s bs
      else m.slotInv s bs k

section
variable {s : State} {bs : List Byte}

theorem State.decideInv_early {code reason : Nat} (early : earlyRefusal s bs = some (code, reason)) :
    s.decideInv bs = (code, reason, s) := by
  rw [State.decideInv, natField_zero]
  unfold earlyRefusal at early
  split_ifs at early with noQueue closed stale noHandler tooLong
  all_goals obtain ⟨rfl, rfl⟩ := Prod.mk.inj (Option.some.inj early)
  · exact if_pos noQueue
  all_goals refine (if_neg noQueue).trans ?_
  · exact if_pos closed
  all_goals refine (if_neg closed).trans ?_
  · exact if_pos stale
  all_goals refine (if_neg stale).trans ?_
  · exact if_pos noHandler
  · exact (if_neg noHandler).trans (if_pos tooLong)

theorem State.decideInv_late (late : earlyRefusal s bs = none) : s.decideInv bs =
    (verdictOf s bs).elim (4, 6, s) (fun ver => (remembered s bs ver).checkedInv s bs ver) := by
  rw [State.decideInv, natField_zero]
  unfold earlyRefusal at late
  split_ifs at late with noQueue closed stale noHandler tooLong
  refine (if_neg noQueue).trans ((if_neg closed).trans ((if_neg stale).trans ((if_neg noHandler).trans
    ((if_neg tooLong).trans ?_))))
  unfold verdictOf
  simp only [objNat_eq_field, field_toPart]
  cases s.handlerObjs (toPart bs) (field bs 12 4 % 65536) (field bs 16 2)
  all_goals rfl

/-- A ring without room for one image more. -/
theorem State.checkedInv_full {m : State} (ver : CodeObj × Option CodeObj)
    (full : (invQueue s bs).inb.rsize ≤ (invQueue s bs).inb.waiting.length) : m.checkedInv s bs (some ver) = (2, 7, m) :=
  if_pos full

section
variable {m : State} (ver : CodeObj × Option CodeObj)
  (room : ¬(invQueue s bs).inb.rsize ≤ (invQueue s bs).inb.waiting.length)
include room

/-- An image joins the ring where others wait there, no slot is FREE, or the queue takes none into its slots (R112, R117). -/
theorem State.checkedInv_ring (rung : (invQueue s bs).inb.waiting ≠ [] ∨ (invQueue s bs).inb.freeSlot = none
    ∨ s.asSaved (toPart bs) (invQueue s bs).ctx = true) : m.checkedInv s bs (some ver) = m.ringInv s bs := by
  refine (if_neg room).trans ?_
  cases free : (invQueue s bs).inb.freeSlot with
  | none => rfl
  | some k =>
    refine if_pos ?_
    rw [Bool.or_eq_true, Bool.not_eq_true', List.isEmpty_eq_false_iff]
    exact rung.imp_right fun other => other.resolve_left (by rw [free]; exact Option.some_ne_none k)

theorem State.checkedInv_slot {k : Nat} (free : (invQueue s bs).inb.freeSlot = some k)
    (direct : ¬((invQueue s bs).inb.waiting ≠ [] ∨ (invQueue s bs).inb.freeSlot = none
      ∨ s.asSaved (toPart bs) (invQueue s bs).ctx = true)) : m.checkedInv s bs (some ver) = m.slotInv s bs k := by
  rw [not_or, not_or, not_not] at direct
  obtain ⟨empty, -, resident⟩ := direct
  refine (if_neg room).trans ?_
  rw [free]
  refine if_neg ?_
  rw [empty, Bool.or_eq_true, not_or]
  exact ⟨Bool.false_ne_true, resident⟩

end

/-- The receiver answers an expected INV with what it has decided. -/
theorem execInvReceived_decided {pkt code reason : Nat} {m : State} (arrived : Arrived s pkt 1 bs)
    (expected : behindBy s bs = 0) (decision : s.decideInv bs = (code, reason, m)) (codeFits : code < 256)
    (reasonFits : reason < 256) :
    ∃ u v t : State, exec (.invReceived pkt) s = .next t ∧ Dropped m u pkt ∧ Stored u v bs code reason
      ∧ Replied v t bs code reason := by
  refine ⟨m.dropPacket pkt, _, _, ?_, m.dropPacket_dropped pkt, State.storeReply_stored _ bs code reason,
    State.reply_replied _ bs codeFits reasonFits⟩
  rw [exec_invReceived, execInvReceived, State.receive_expected arrived _ expected]
  simp only [decision]

end

/-! ### The fate of a PUT (R104, R116) -/

section
variable {s : State} {pkt : Nat} {bs : List Byte} (arrived : Arrived s pkt 2 bs) (expected : behindBy s bs = 0)
include arrived expected

theorem execPutReceived_refused {r : Nat} (decision : s.decidePut bs = .error r) (small : r < 256) :
    ∃ u v t : State, exec (.putReceived pkt) s = .next t ∧ Dropped s u pkt ∧ Stored u v bs 4 r ∧ Replied v t bs 4 r := by
  refine ⟨s.dropPacket pkt, _, _, ?_, s.dropPacket_dropped pkt, State.storeReply_stored _ bs 4 r,
    State.reply_replied _ bs (by decide) small⟩
  rw [exec_putReceived, execPutReceived, State.receive_expected arrived _ expected]
  simp only [decision]

theorem execPutReceived_written {m : State} (decision : s.decidePut bs = .ok m) :
    ∃ v t : State, exec (.putReceived pkt) s = .next t ∧ Stored m v bs 0 0
      ∧ t = { v with packets := t.packets } ∧ (∀ j, j ≠ pkt → Tab.get? t.packets j = Tab.get? v.packets j)
      ∧ Tab.get? t.packets pkt = (Tab.get? v.packets pkt).map (fun p => { p with landing := true }) := by
  have modified := fun j => Tab.get?_modify m.packets pkt j (fun p => { p with landing := true })
  refine ⟨m.storeReply bs 0 0, { m.storeReply bs 0 0 with
    packets := Tab.modify m.packets pkt (fun p => { p with landing := true }) }, ?_,
    State.storeReply_stored m bs 0 0, rfl, fun j other => ?_, ?_⟩
  · rw [exec_putReceived, execPutReceived, State.receive_expected arrived _ expected]
    simp only [decision]
  · rw [State.storeReply_packets]
    exact (modified j).trans (if_neg other)
  · rw [State.storeReply_packets]
    exact (modified pkt).trans (if_pos rfl)

end

/-- The context, the window and the range that a PUT names. -/
def putContext (s : State) (bs : List Byte) : Context := s.context (toPart bs) (field bs 12 4 / 256 % 64)
def putWindow (s : State) (bs : List Byte) : Window := (putContext s bs).windows.getD (field bs 12 4 % 256) {}

/-- The write of a PUT's data. -/
def putWrite (s : State) (bs : List Byte) : Got State :=
  s.engWrite (receiverEng (toPart bs) (field bs 12 4 / 256 % 64) ((s.clusters (toPart bs)).headD 0 / 32))
    ((putWindow s bs).base + field bs 16 4) ((bs.drop 32).take (field bs 20 1))

/-- A PUT is refused for its context, its window, its range or its write, or its data is written. -/
structure PutFates (s : State) (bs : List Byte) : Prop where
  dead : (putContext s bs).live = false → s.decidePut bs = .error 10
  noWindow : (putContext s bs).live = true →
    (putContext s bs).windows.length ≤ field bs 12 4 % 256 ∨ (putWindow s bs).dst = false → s.decidePut bs = .error 11
  outside : (putContext s bs).live = true →
    ¬((putContext s bs).windows.length ≤ field bs 12 4 % 256 ∨ (putWindow s bs).dst = false) →
    field bs 16 4 % 4 ≠ 0 ∨ (putWindow s bs).size < field bs 16 4 + field bs 20 1 → s.decidePut bs = .error 12
  inside : (putContext s bs).live = true →
    ¬((putContext s bs).windows.length ≤ field bs 12 4 % 256 ∨ (putWindow s bs).dst = false) →
    ¬(field bs 16 4 % 4 ≠ 0 ∨ (putWindow s bs).size < field bs 16 4 + field bs 20 1) →
    (∀ r va, putWrite s bs = .bad r va → s.decidePut bs = .error 13) ∧ ∀ m, putWrite s bs = .ok m → s.decidePut bs = .ok m

theorem State.decidePut_fates (s : State) (bs : List Byte) : PutFates s bs := by
  have alive : (putContext s bs).live = true → ¬(putContext s bs).live = false := (Bool.not_eq_false _).mpr
  refine ⟨?dead, ?noWindow, ?outside, ?inside⟩
  all_goals
    unfold State.decidePut
    simp only [objNat_eq_field, natField_zero, field_toPart, natField_context, field_window, Bool.not_eq_true']
  case dead => exact fun dead => if_pos dead
  case noWindow => exact fun live none_ => (if_neg (alive live)).trans (if_pos none_)
  case outside =>
    exact fun live window outside => (if_neg (alive live)).trans ((if_neg window).trans (if_pos outside))
  case inside =>
    intro live window inside
    refine ⟨fun r va bad => ?_, fun m wrote => ?_⟩
    all_goals refine (if_neg (alive live)).trans ((if_neg window).trans ((if_neg inside).trans ?_))
    · unfold putWrite putWindow putContext at bad
      rw [bad]
    · unfold putWrite putWindow putContext at wrote
      rw [wrote]

end Sys2Proof.Machine
end
section
/-!
SUPPORT. Window counters and replies at the source, context events, routes, links, landing slots and handler batches (R104,
R107, R111 to R114, R120, R425 to R428).
-/

namespace Sys2Proof.Machine

open Sys2Proof.Safety Sys2Proof.Claims

theorem oneEntry_erase {α : Type} (t : Tab α) (k : Nat) : oneEntry t (Tab.erase t k) k none :=
  ⟨(Tab.get?_erase t k k).trans (if_pos rfl), fun j other => (Tab.get?_erase t k j).trans (if_neg other)⟩

theorem oneEntry_modify {α : Type} {t : Tab α} {k : Nat} {v : α} (listed : Tab.get? t k = some v) (f : α → α) :
    oneEntry t (Tab.modify t k f) k (some (f v)) :=
  ⟨by rw [Tab.get?_modify, if_pos rfl, listed, Option.map_some], fun j other => by rw [Tab.get?_modify, if_neg other]⟩

/-! ### Window counters (R111) -/

theorem State.context_of_get? {s : State} {part ctx : Nat} {c : Context}
    (listed : Tab.get? s.contexts (64 * part + ctx) = some c) : s.context part ctx = c := by
  rw [State.context, Tab.getD, listed, Option.getD_some]

/-- A counter of a listed context rises by one. -/
theorem State.bumpCount_counts {s : State} {part ctx : Nat} {c : Context}
    (listed : Tab.get? s.contexts (64 * part + ctx) = some c) (win kind : Nat) :
    ∃ u : State, s.bumpCount part ctx win kind = u ∧ u = { s with contexts := u.contexts }
      ∧ (∀ j, j ≠ 64 * part + ctx → Tab.get? u.contexts j = Tab.get? s.contexts j)
      ∧ u.context part ctx = { c with wcounts := (u.context part ctx).wcounts }
      ∧ ∀ j, Tab.getD (u.context part ctx).wcounts j 0
        = Tab.getD c.wcounts j 0 + if j = 4 * win + kind then 1 else 0 := by
  have entry := oneEntry_modify listed (fun c =>
    { c with wcounts := Tab.set 0 c.wcounts (4 * win + kind) (s.wcount part ctx win kind + 1) })
  have after := State.context_of_get? (s := s.bumpCount part ctx win kind) entry.1
  refine ⟨_, rfl, rfl, entry.2, by rw [after], fun j => ?_⟩
  rw [after, Tab.getD_set, State.wcount, State.context_of_get? listed]
  split_ifs with same
  · rw [same]
  · rw [add_zero]

/-! ### A reply at its source (R107, R120, R122) -/

/-- The state once an answered packet is no longer kept. -/
def State.answered (s : State) (pkt k : Nat) (seq : Word) : State :=
  (s.dropPacket pkt).modPair k (fun p => { p with sent := p.sent.filter (fun y => y.seq != seq) })

/-- A reply to a packet that is kept for it. -/
theorem execReplyReceived_kept {s : State} {pkt : Nat} {p : Packet} {x : Sent} (listed : Tab.get? s.packets pkt = some p)
    (type : 3 ≤ field p.bytes 0 1) (chip : field p.bytes 2 2 % 4096 = s.pt.chipid)
    (on : (s.func (toPart p.bytes)).fabEn = true)
    (kept : (s.pair (pairKey (toPart p.bytes) (fromChip p.bytes) (fromPart p.bytes))).sent.find?
      (fun y => y.seq == BitVec.ofNat 32 (numberOf p.bytes)) = some x) :
    exec (.replyReceived pkt) s = .next ((s.answered pkt (pairKey (toPart p.bytes) (fromChip p.bytes) (fromPart p.bytes))
      (BitVec.ofNat 32 (numberOf p.bytes))).takeReply x (toPart p.bytes) (field p.bytes 0 1 == 4) (field p.bytes 12 1 % 8)
        (field p.bytes 13 1)) := by
  have source : field p.bytes 4 2 % 2 ^ (11 + 1) = fromChip p.bytes ∧ field p.bytes 7 1 % 2 ^ (2 + 1) = fromPart p.bytes
    ∧ field p.bytes 8 4 = numberOf p.bytes := ⟨rfl, rfl, rfl⟩
  obtain ⟨fromChip_, fromPart_, number⟩ := source
  have mine : ¬(field p.bytes 0 1 < 3 ∨ field p.bytes 2 2 % 2 ^ (11 + 1) ≠ s.pt.chipid) := by
    rw [not_or, Nat.not_lt, not_not]
    exact ⟨type, chip⟩
  simp only [exec_replyReceived, execReplyReceived, listed, objNat_eq_field, natField_zero, field_toPart, fromChip_,
    fromPart_, number, mine, if_false, kept, on]
  rfl

/-- A packet is no longer kept. -/
theorem State.answered_kept (s : State) (pkt k : Nat) (seq : Word) :
    s.answered pkt k seq = { s with packets := (s.answered pkt k seq).packets, pairs := (s.answered pkt k seq).pairs }
      ∧ oneEntry s.packets (s.answered pkt k seq).packets pkt none
      ∧ (∀ j, j ≠ k → (s.answered pkt k seq).pair j = s.pair j)
      ∧ (s.answered pkt k seq).pair k = { s.pair k with sent := (s.pair k).sent.filter (fun y => y.seq != seq) } := by
  have pair := State.pair_modPair (s.dropPacket pkt) k
  exact ⟨rfl, oneEntry_erase s.packets pkt, fun j other => (pair j _).trans (if_neg other), (pair k _).trans (if_pos rfl)⟩

/-! ### Context events (R425) -/

section
variable {s : State} {part : Nat} (ctx code info addr : Nat) {data : List Byte}

theorem State.ctxEvent_dropped (full : (s.func part).evBase = 0
      ∨ (s.func part).evHead - (s.func part).evTail = BitVec.ofNat 32 (ringSize (s.func part).evSize 4096)) :
    ∃ t : State, s.ctxEvent part ctx code info addr data = t ∧ t = { s with funcs := t.funcs }
      ∧ (∀ j, j ≠ part → t.func j = s.func j)
      ∧ t.func part = { s.func part with evDrop := (s.func part).evDrop + 1 } := by
  rw [State.ctxEvent, if_pos full]
  exact ⟨_, rfl, rfl, fun j other => (State.func_modFunc s part j _).trans (if_neg other),
    (State.func_modFunc s part part _).trans (if_pos rfl)⟩

/-- The 32 bytes of an event. -/
theorem eventBytes_eq (short : data.length ≤ 16) :
    (leBytes 2 code ++ leBytes 1 ctx ++ leBytes 1 0 ++ leBytes 4 info ++ leBytes 8 addr ++ (data ++ leBytes 16 0).take 16)
      = leBytes 2 code ++ leBytes 1 ctx ++ leBytes 1 0 ++ leBytes 4 info ++ leBytes 8 addr ++ filled 16 data
    ∧ (leBytes 2 code ++ leBytes 1 ctx ++ leBytes 1 0 ++ leBytes 4 info ++ leBytes 8 addr ++ filled 16 data).length = 32 := by
  have tail : (data ++ leBytes 16 0).take 16 = filled 16 data := by
    rw [leBytes_zero, List.take_append, List.take_of_length_le short, List.take_replicate, Nat.min_eq_left (Nat.sub_le _ _),
      filled]
  have length : (filled 16 data).length = 16 := by
    rw [filled, List.length_append, List.length_replicate, Nat.add_sub_cancel' short]
  exact ⟨by rw [tail], by simp only [List.length_append, leBytes_length, length]⟩

theorem State.ctxEvent_written (short : data.length ≤ 16) (room : ¬((s.func part).evBase = 0
      ∨ (s.func part).evHead - (s.func part).evTail = BitVec.ofNat 32 (ringSize (s.func part).evSize 4096))) :
    let f := s.func part
    let b := hostKey (f.evBase + 32 * (f.evHead.toNat % ringSize f.evSize 4096))
    let e := leBytes 2 code ++ leBytes 1 ctx ++ leBytes 1 0 ++ leBytes 4 info ++ leBytes 8 addr ++ filled 16 data
    ∃ t : State, s.ctxEvent part ctx code info addr data = t
      ∧ t = { s with mem := t.mem, funcs := t.funcs } ∧ (∀ j, j ≠ part → t.func j = s.func j)
      ∧ t.func part = { f with evHead := f.evHead + 1, vectors := f.vectors ++ [0] }
      ∧ ∀ y, Memory.get t.mem y = if b ≤ y ∧ y < b + 32 then e.getD (y - b) 0 else Memory.get s.mem y := by
  intro f b e
  obtain ⟨bytes, length⟩ := eventBytes_eq ctx code info addr short
  rw [State.ctxEvent, if_neg room, bytes]
  refine ⟨_, rfl, rfl, fun j other => ?_, ?_, fun y => ?_⟩
  · rw [State.signal, State.func_modFunc, if_neg other, State.func_modFunc, if_neg other]
    rfl
  · rw [State.signal, State.func_modFunc, if_pos rfl, State.func_modFunc, if_pos rfl]
    rfl
  · exact (State.get_setBytes s b y e).trans (by rw [length])

end

/-! ### Packets sent again, and routes (R107, R428) -/

theorem flitTimes_iff (n since now : Nat) : flitTimes n since now = true ↔ 128 * n ≤ 85 * (now - since) := decide_eq_true_iff

/-- The oldest packet of a pair has had no reply for 2^20 flit times: every unanswered packet is sent again. -/
theorem execRetransmitTimeout_due {s : State} {pair : Nat} {x : Sent} {rest : List Sent} (sent : (s.pair pair).sent = x :: rest)
    (due : 128 * 2 ^ 20 ≤ 85 * (s.now - x.at_)) :
    ∃ u : State, exec (.retransmitTimeout pair) s
        = .next ((x :: rest).foldl (fun v y => v.transmit (pair / 32768) (pair / 8 % 4096) y.bytes) u)
      ∧ u = { s with pairs := u.pairs } ∧ (∀ j, j ≠ pair → u.pair j = s.pair j)
      ∧ u.pair pair = { s.pair pair with
          link := s.routeLink (pair / 32768) (pair / 8 % 4096)
          sent := (x :: rest).map (fun y => { y with at_ := s.now }) } := by
  have late : flitTimes 1048576 x.at_ s.now = true := (flitTimes_iff _ _ _).2 due
  have changed := State.pair_modPair s pair
  have run : exec (.retransmitTimeout pair) s = .next (s.resend pair) := by
    simp only [exec_retransmitTimeout, execRetransmitTimeout, sent, late, if_true]
  rw [run, State.resend, sent]
  exact ⟨_, rfl, rfl, fun j other => (changed j _).trans (if_neg other), (changed pair _).trans (by rw [if_pos rfl, sent])⟩

/-- A partition's packets may leave on a link: the partition owns it, and it is up (R428). -/
def State.carries (s : State) (part l : Nat) : Prop := l < 12 ∧ Tab.getD s.pt.link l 0 = part ∧ (s.link l).up = true

/-- The route word of a chip: the primary link where it is valid and carries packets, else the alternate. -/
theorem State.routeLink_cases (s : State) (part chip : Nat) :
    let w := (Tab.getD (s.func part).routes chip 0).toNat
    (w / 2 ^ 8 % 2 = 1 → s.carries part (w % 16) → s.routeLink part chip = some (w % 16))
    ∧ (¬(w / 2 ^ 8 % 2 = 1 ∧ s.carries part (w % 16)) → w / 2 ^ 9 % 2 = 1 → s.carries part (w / 16 % 16) →
      s.routeLink part chip = some (w / 16 % 16))
    ∧ (¬(w / 2 ^ 8 % 2 = 1 ∧ s.carries part (w % 16)) → ¬(w / 2 ^ 9 % 2 = 1 ∧ s.carries part (w / 16 % 16)) →
      s.routeLink part chip = none) := by
  intro w
  have usable : ∀ i l, (natBit w i && (decide (l < 12) && Tab.getD s.pt.link l 0 == part && (s.link l).up)) = true
      ↔ w / 2 ^ i % 2 = 1 ∧ s.carries part l := fun i l => by
    rw [Bool.and_eq_true, Bool.and_eq_true, Bool.and_eq_true, natBit_eq_true_iff, decide_eq_true_eq, beq_iff_eq, and_assoc,
      State.carries]
  have low : natField w 3 0 = w % 16 := natField_zero w 3
  have primary := usable 8 (w % 16)
  have other := usable 9 (w / 16 % 16)
  rw [State.routeLink, low]
  refine ⟨fun valid carries => if_pos (primary.2 ⟨valid, carries⟩), fun no valid carries => ?_, fun no none_ => ?_⟩
  · exact (if_neg (primary.not.2 no)).trans (if_pos (other.2 ⟨valid, carries⟩))
  · exact (if_neg (primary.not.2 no)).trans (if_neg (other.not.2 none_))

/-! ### Packets for other chips (R428) -/

section
variable {s : State} {pkt l : Nat} {p : Packet} (listed : Tab.get? s.packets pkt = some p) (link : p.link = some l)
  (away : field p.bytes 2 2 % 4096 ≠ s.pt.chipid)
include listed link away

theorem execPacketForward_eq : exec (.packetForward pkt) s = .next (
    if (s.routeLink (Tab.getD s.pt.link l 0) (field p.bytes 2 2 % 4096)).isSome = true then
      (s.dropPacket pkt).transmit (Tab.getD s.pt.link l 0) (field p.bytes 2 2 % 4096) p.bytes
    else (s.dropPacket pkt).modLink l (fun k => { k with errors := k.errors + 1 })) := by
  have chip : natField (objNat p.bytes 2 2) 11 0 = field p.bytes 2 2 % 4096 := natField_zero _ 11
  simp only [exec_packetForward, execPacketForward, listed, link, chip, away, if_false]
  split_ifs
  · rfl
  · rfl

end

/-! ### Landing slots and batches (R113, R114) -/

/-- A live queue is listed. -/
theorem State.listed_of_live {s : State} {part q : Nat} (live : (s.queue part q).live = true) :
    Tab.get? s.queues (1024 * part + q) = some (s.queue part q) := by
  unfold State.queue Tab.getD at live ⊢
  cases entry : Tab.get? s.queues (1024 * part + q) with
  | none => rw [entry] at live; cases live
  | some x => rfl

/-- A FREE slot takes the head of the overflow ring. -/
theorem execLandSlotFill_fills {s s1 : State} {part q k order : Nat} {rest : List Nat} {bs : List Byte} {x : Queue}
    (queue : s.queue part q = x) (live : x.live = true) (resident : s.asSaved part x.ctx = false)
    (free : x.inb.freeSlot = some k) (waiting : x.inb.waiting = order :: rest)
    (image : s.engRead (receiverEng part x.ctx x.die) (x.inb.ring + 128 * (x.inb.head % x.inb.rsize)) 128 = .ok bs)
    (lands : s.engWrite (receiverEng part x.ctx x.die) (x.inb.land + 128 * k) bs = .ok s1) :
    exec (.landSlotFill part q) s = .next (s1.modQueue part q (fun x => { x with inb := { x.inb with
      slots := Tab.put x.inb.slots k ⟨.held, order⟩, last := k, head := x.inb.head + 1, waiting := rest } })) := by
  simp only [exec_landSlotFill, execLandSlotFill, queue, free, waiting, live, resident, image, lands, Got.andThen, Bool.not_true,
    Bool.or_self, Bool.false_eq_true, if_false]

/-- A ready batch that a unit takes, where no batch of its die that a unit takes comes before it. -/
theorem execHandlerBatchLaunch_first {s t : State} {part q pri order : Nat} {l : Launch}
    (ready : s.batch? part q = some (l, pri, order)) (placed : s.placeBatch part q l = some t)
    (first : ∀ j m p o, j ≠ 1024 * part + q → s.batch? (j / 1024) (j % 1024) = some (m, p, o) → m.die = l.die →
      pri < p ∨ (p = pri ∧ o < order) → s.placeBatch (j / 1024) (j % 1024) m = none) :
    exec (.handlerBatchLaunch part q) s = .next t := by
  simp only [exec_handlerBatchLaunch, execHandlerBatchLaunch, ready, placed]
  refine if_neg ?_
  rw [Bool.not_eq_true, List.any_eq_false]
  intro j _ before
  obtain ⟨other, rest⟩ := Bool.and_eq_true_iff.1 before
  rw [bne_iff_ne] at other
  cases batch : s.batch? (j / 1024) (j % 1024) with
  | none => simp [batch] at rest
  | some b =>
    obtain ⟨m, p, o⟩ := b
    simp only [batch, Bool.and_eq_true, Bool.or_eq_true, decide_eq_true_eq, beq_iff_eq] at rest
    obtain ⟨⟨die, better⟩, takes⟩ := rest
    rw [first j m p o other batch die better] at takes
    cases takes

/-! ### Routes, links and the fabric (R105, R426 to R428) -/

/-- The route register of a chip. -/
theorem execRouteWrite_routes (s : State) (part : Nat) {chip : Nat} (v : Word) (listed : chip < 4096) :
    ∃ u : State, exec (.routeWrite part chip v) s = .next u.reroute
      ∧ u = { s with funcs := u.funcs } ∧ (∀ j, j ≠ part → u.func j = s.func j)
      ∧ u.func part = { s.func part with routes := (u.func part).routes }
      ∧ ∀ c, Tab.getD (u.func part).routes c 0 = if c = chip then v &&& 0x3FF else Tab.getD (s.func part).routes c 0 := by
  have func := fun j => State.func_modFunc s part j (fun f => { f with routes := Tab.set 0 f.routes chip (v &&& 0x3FF) })
  have here := (func part).trans (if_pos rfl)
  refine ⟨_, ?_, rfl, fun j other => (func j).trans (if_neg other), ?_, fun c => ?_⟩
  · rw [exec_routeWrite, execRouteWrite, if_neg (Nat.not_le.2 listed)]
  · rw [here]
  · rw [here, Tab.getD_set]

theorem Tab.get?_mapEntries {α β : Type} (f : Nat → α → β) (k : Nat) : ∀ t : Tab α,
    Tab.get? (t.map (fun x => (x.1, f x.1 x.2))) k = (Tab.get? t k).map (f k)
  | [] => rfl
  | (j, v) :: t => by
    simp only [List.map_cons, Tab.get?, Tab.get?_mapEntries f k t]
    split_ifs with same
    · rw [same, Option.map_some]
    · rfl

/-- A pair whose numbers start again where it is one of a partition's. -/
def Pair.restarted (part k : Nat) (p : Pair) : Pair := if k / 32768 = part then { p with next := 0 } else p

/-- The pairs of a partition start again. -/
theorem State.pair_restarted (s : State) (part k : Nat) :
    ({ s with pairs := s.pairs.map (fun p => (p.1, p.2.restarted part p.1)) } : State).pair k = (s.pair k).restarted part k := by
  unfold State.pair Tab.getD
  simp only [Tab.get?_mapEntries (fun k p => Pair.restarted part k p) k s.pairs]
  cases Tab.get? s.pairs k with
  | none =>
    unfold Pair.restarted
    split_ifs
    · rfl
    · rfl
  | some p => rfl

/-- FABCTL.EN is written; where it rises, every number of the partition starts at 0. -/
theorem execFabricEnable_enables (s : State) (part : Nat) (v : Word) :
    ∃ t : State, exec (.fabricEnable part v) s = .next t ∧ t = { s with funcs := t.funcs, pairs := t.pairs }
      ∧ (∀ j, j ≠ part → t.func j = s.func j)
      ∧ t.func part = { s.func part with fabEn := v.getLsbD 0 }
      ∧ ∀ k, t.pair k = if v.getLsbD 0 = true ∧ (s.func part).fabEn = false ∧ k / 32768 = part
          then { s.pair k with next := 0 } else s.pair k := by
  have bit : natBit v.toNat 0 = v.getLsbD 0 := by
    rw [BitVec.getLsbD, Nat.testBit_eq_decide_div_mod_eq, natBit]
    rfl
  have func := fun j => State.func_modFunc s part j (fun f => { f with fabEn := v.getLsbD 0 })
  have restart : (fun p : Nat × Pair => if p.1 / 32768 = part then (p.1, { p.2 with next := 0 }) else p)
      = fun p => (p.1, p.2.restarted part p.1) := funext fun p => by
    unfold Pair.restarted
    split_ifs
    · rfl
    · rfl
  have run : exec (.fabricEnable part v) s = .next (if v.getLsbD 0 = true ∧ (s.func part).fabEn = false then
      { s.modFunc part (fun f => { f with fabEn := v.getLsbD 0 }) with
        pairs := s.pairs.map (fun p => (p.1, p.2.restarted part p.1)) }
      else s.modFunc part (fun f => { f with fabEn := v.getLsbD 0 })) := by
    simp only [exec_fabricEnable, execFabricEnable, bit, restart, Bool.and_eq_true, Bool.not_eq_true']
    rfl
  rw [run]
  refine ⟨_, rfl, ?_⟩
  by_cases rises : v.getLsbD 0 = true ∧ (s.func part).fabEn = false
  · rw [if_pos rises]
    refine ⟨rfl, fun j other => (func j).trans (if_neg other), (func part).trans (if_pos rfl), fun k => ?_⟩
    refine (s.pair_restarted part k).trans ?_
    simp only [rises, true_and, Pair.restarted]
  · rw [if_neg rises]
    refine ⟨rfl, fun j other => (func j).trans (if_neg other), (func part).trans (if_pos rfl), fun k => ?_⟩
    rw [if_neg fun all => rises ⟨all.1, all.2.1⟩]
    rfl

/-! ### Flits and the state of a link (R103, R426) -/

section
variable {s : State} {link : Nat} (below : link < 12)
include below

section
variable (up : (s.link link).up = true)
include up

theorem open_link : ¬(12 ≤ link ∨ (!(s.link link).up) = true) := by
  rw [up, not_or, Nat.not_le]
  exact ⟨below, Bool.false_ne_true⟩

/-- A packet of a known type arrives with a good flit. -/
theorem execFlitReceived_packet {bs : List Byte} {n : Nat} (type : packetSize bs = some n) (length : bs.length = n) :
    ∃ t : State, exec (.flitReceived link true [bs]) s = .next t
      ∧ t = { s with links := t.links, packets := t.packets, fresh := s.fresh + 1 }
      ∧ oneEntry s.packets t.packets s.fresh (some { bytes := bs, link := some link })
      ∧ (∀ j, j ≠ link → t.link j = s.link j) ∧ t.link link = { s.link link with fails := 0, lastGood := s.now } := by
  have changed := fun j => State.link_modLink s link j (fun l => { l with fails := 0, lastGood := s.now })
  have known : packetSize bs = some bs.length := by rw [type, length]
  simp only [exec_flitReceived, execFlitReceived, open_link below up, if_false, if_true, List.foldl_cons, List.foldl_nil, known]
  exact ⟨_, rfl, rfl, oneEntry_put s.packets s.fresh _, fun j other => (changed j).trans (if_neg other),
    (changed link).trans (if_pos rfl)⟩

/-- A packet of no type that arrives with a good flit is counted as an error. -/
theorem execFlitReceived_unknown {bs : List Byte} (type : packetSize bs = none) :
    ∃ t : State, exec (.flitReceived link true [bs]) s = .next t ∧ t = { s with links := t.links }
      ∧ (∀ j, j ≠ link → t.link j = s.link j)
      ∧ t.link link = { s.link link with fails := 0, lastGood := s.now, errors := (s.link link).errors + 1 } := by
  simp only [exec_flitReceived, execFlitReceived, open_link below up, if_false, if_true, List.foldl_cons, List.foldl_nil, type,
    reduceCtorEq]
  refine ⟨_, rfl, rfl, fun j other => ?_, ?_⟩
  · rw [State.link_modLink, if_neg other, State.link_modLink, if_neg other]
  · rw [State.link_modLink, if_pos rfl, State.link_modLink, if_pos rfl]

theorem execFlitReceived_failed (ps : List (List Byte)) :
    ∃ t : State, exec (.flitReceived link false ps) s = .next t ∧ t = { s with links := t.links }
      ∧ (∀ j, j ≠ link → t.link j = s.link j)
      ∧ t.link link = { s.link link with
          fails := (s.link link).fails + 1, errors := (s.link link).errors + 1, replays := (s.link link).replays + 1 } := by
  simp only [exec_flitReceived, execFlitReceived, open_link below up, if_false, Bool.false_eq_true]
  refine ⟨_, rfl, rfl, fun j other => ?_, ?_⟩
  · rw [State.link_modLink, if_neg other]
  · rw [State.link_modLink, if_pos rfl]

omit below in
/-- A link that has failed for too long goes down, and the pairs whose route it was send again. -/
theorem execLinkDown_fails (failed : 64 ≤ (s.link link).fails ∨ 128 * 2 ^ 16 ≤ 85 * (s.now - (s.link link).lastGood)) :
    ∃ u : State, exec (.linkDown link) s = .next u.reroute ∧ u = { s with links := u.links }
      ∧ (∀ j, j ≠ link → u.link j = s.link j) ∧ u.link link = { s.link link with up := false } := by
  have changed := fun j => State.link_modLink s link j (fun l => { l with up := false })
  have late : (decide (64 ≤ (s.link link).fails) || flitTimes 65536 (s.link link).lastGood s.now) = true := by
    rw [Bool.or_eq_true, decide_eq_true_eq, flitTimes_iff]
    exact failed
  simp only [exec_linkDown, execLinkDown, up, late, Bool.and_self, if_true]
  exact ⟨_, rfl, rfl, fun j other => (changed j).trans (if_neg other), (changed link).trans (if_pos rfl)⟩

end

theorem execLinkUp_rises (down : (s.link link).up = false) :
    ∃ u : State, exec (.linkUp link) s = .next u.reroute ∧ u = { s with links := u.links }
      ∧ (∀ j, j ≠ link → u.link j = s.link j)
      ∧ u.link link = { s.link link with up := true, fails := 0, lastGood := s.now } := by
  have changed := fun j => State.link_modLink s link j (fun l => { l with up := true, fails := 0, lastGood := s.now })
  have closed : ¬(12 ≤ link ∨ (s.link link).up = true) := by
    rw [down, not_or, Nat.not_le]
    exact ⟨below, Bool.false_ne_true⟩
  simp only [exec_linkUp, execLinkUp, closed, if_false]
  exact ⟨_, rfl, rfl, fun j other => (changed j).trans (if_neg other), (changed link).trans (if_pos rfl)⟩

end

end Sys2Proof.Machine
end
section
/-!
O50. Packets received, answered, forwarded and repeated over the links (R103, R104, R106, R107, R111 to R117, R120, R425 to
R428).
-/

namespace Sys2Proof.Claims

open Sys2Proof.Machine

/-! ### Packets that are not expected, and refusals (R106, R112) -/

/-- Every numbered packet goes through the receiver's test of its number. -/
theorem exec_receives (s : State) {pkt ty : Nat} {i : Instr}
    (kind : ty = 1 ∧ i = .invReceived pkt ∨ ty = 2 ∧ i = .putReceived pkt) : ∃ f, exec i s = .next (s.receive pkt ty f) := by
  obtain ⟨rfl, rfl⟩ | ⟨rfl, rfl⟩ := kind
  · exact ⟨_, exec_invReceived s pkt⟩
  · exact ⟨_, exec_putReceived s pkt⟩

theorem unexpected_packet {s : State} {pkt ty : Nat} {bs : List Byte} {i : Instr} (arrived : Arrived s pkt ty bs)
    (kind : ty = 1 ∧ i = .invReceived pkt ∨ ty = 2 ∧ i = .putReceived pkt) :
    (256 < behindBy s bs → ∃ t : State, exec i s = .next t ∧ Dropped s t pkt)
    ∧ (1 ≤ behindBy s bs → behindBy s bs ≤ 256 → s.stillLanding bs = false →
      let at_ := seqBaseOf s bs + 256 + 2 * (numberOf bs % 256)
      ∃ u t : State, exec i s = .next t ∧ Dropped s u pkt
        ∧ Replied u t bs (leNat (s.physRead (toPart bs) at_ 1)) (leNat (s.physRead (toPart bs) (at_ + 1) 1))) := by
  obtain ⟨f, run⟩ := exec_receives s kind
  refine ⟨fun far => ⟨_, run, ?_⟩, fun behind near ended => ⟨s.dropPacket pkt, _, run, s.dropPacket_dropped pkt, ?_⟩⟩
  · rw [State.receive_far arrived f far]
    exact s.dropPacket_dropped pkt
  · rw [State.receive_behind arrived f behind near ended]
    exact State.reply_replied _ bs (State.leNat_physRead_lt s _ _ 1) (State.leNat_physRead_lt s _ _ 1)

section
variable {s : State} {pkt code reason : Nat} {bs : List Byte} (arrived : Arrived s pkt 1 bs) (expected : behindBy s bs = 0)
include arrived expected

/-- An INV refused before its handler's check is remembered. -/
theorem refused_inv (refused : refusalOf s bs true = some (code, reason) ∧ reason < 6
      ∨ verdictOf s bs = none ∧ refusalOf s bs false = some (code, reason)) :
    ∃ u v t : State, exec (.invReceived pkt) s = .next t ∧ Dropped s u pkt ∧ Stored u v bs code reason
      ∧ Replied v t bs code reason := by
  simp only [refusalOf_eq] at refused
  cases early : earlyRefusal s bs with
  | some r =>
    rw [early] at refused
    obtain rfl : r = (code, reason) := Option.some.inj (refused.elim And.left And.right)
    obtain ⟨codeFits, small⟩ := earlyRefusal_small early
    exact execInvReceived_decided arrived expected (State.decideInv_early early) codeFits (by omega)
  | none =>
    rw [early] at refused
    obtain ⟨late, small⟩ | ⟨unchecked, same⟩ := refused
    · have := lateRefusal_late late
      omega
    · obtain ⟨rfl, rfl⟩ := Prod.mk.inj (Option.some.inj same)
      have decision := State.decideInv_late early
      rw [unchecked] at decision
      exact execInvReceived_decided arrived expected decision (by decide) (by decide)

/-- An INV refused by its handler's check, or for a full ring. -/
theorem refused_checkedInv {ver : Option (CodeObj × Option CodeObj)} (checked : verdictOf s bs = some ver) (later : 5 < reason)
    (refused : refusalOf s bs ver.isSome = some (code, reason)) :
    ∃ u v t : State, exec (.invReceived pkt) s = .next t ∧ Dropped (remembered s bs ver) u pkt ∧ Stored u v bs code reason
      ∧ Replied v t bs code reason := by
  rw [refusalOf_eq] at refused
  cases early : earlyRefusal s bs with
  | some r =>
    rw [early] at refused
    obtain rfl : r = (code, reason) := Option.some.inj refused
    have := (earlyRefusal_small early).2
    omega
  | none =>
    have decision := State.decideInv_late early
    rw [checked] at decision
    rw [early] at refused
    cases ver with
    | none =>
      obtain ⟨rfl, rfl⟩ := Prod.mk.inj (Option.some.inj refused)
      exact execInvReceived_decided arrived expected decision (by decide) (by decide)
    | some v =>
      have full : (invQueue s bs).inb.rsize ≤ (invQueue s bs).inb.waiting.length := by
        by_contra room
        exact Option.some_ne_none _ (refused.symm.trans (if_neg room))
      have refused : some (2, 7) = some (code, reason) := (if_pos full).symm.trans refused
      obtain ⟨rfl, rfl⟩ := Prod.mk.inj (Option.some.inj refused)
      exact execInvReceived_decided arrived expected (decision.trans (State.checkedInv_full v full)) (by decide) (by decide)

/-! ### Invocations taken (R112, R113) -/

section
variable {ver : CodeObj × Option CodeObj} (checked : verdictOf s bs = some (some ver)) (taken : refusalOf s bs true = none)
include checked taken

omit arrived expected in
/-- An INV that no row of the table refuses is placed. -/
theorem decideInv_taken : s.decideInv bs = (remembered s bs (some ver)).checkedInv s bs (some ver)
    ∧ ¬(invQueue s bs).inb.rsize ≤ (invQueue s bs).inb.waiting.length := by
  rw [refusalOf_eq] at taken
  obtain ⟨early, room⟩ := Option.or_eq_none_iff.1 taken
  have decision := State.decideInv_late early
  rw [checked] at decision
  exact ⟨decision, fun full => Option.some_ne_none _ ((if_pos full).symm.trans room)⟩

/-- What an INV that is placed comes to, by where its image goes. -/
theorem placed_inv :
    let q := field bs 12 4 % 65536
    let x := s.queue (toPart bs) q
    let m := remembered s bs (some ver)
    let e := receiverEng (toPart bs) x.ctx x.die
    let ring := x.inb.ring + 128 * ((x.inb.head + x.inb.waiting.length) % x.inb.rsize)
    let rung := x.inb.waiting ≠ [] ∨ x.inb.freeSlot = none ∨ s.asSaved (toPart bs) x.ctx = true
    let done := fun (m : State) (code reason : Nat) => ∃ u v t : State, exec (.invReceived pkt) s = .next t ∧ Dropped m u pkt
      ∧ Stored u v bs code reason ∧ Replied v t bs code reason
    (∀ w, rung → m.engWrite e ring bs = .ok w →
      done { w.modQueue (toPart bs) q (fun x => { x with inb := { x.inb with waiting := x.inb.waiting ++ [m.fresh] } }) with
        fresh := w.fresh + 1 } 1 0)
    ∧ (∀ w k, ¬rung → x.inb.freeSlot = some k → m.engWrite e (x.inb.land + 128 * k) bs = .ok w →
      done { w.modQueue (toPart bs) q (fun x =>
          { x with inb := { x.inb with slots := Tab.put x.inb.slots k ⟨.held, m.fresh⟩, last := k } }) with
        fresh := w.fresh + 1 } 0 0)
    ∧ (∀ r va, rung → m.engWrite e ring bs = .bad r va → done m 4 13)
    ∧ (∀ k r va, ¬rung → x.inb.freeSlot = some k → m.engWrite e (x.inb.land + 128 * k) bs = .bad r va → done m 4 13) := by
  intro q x m e ring rung done
  obtain ⟨decision, room⟩ := decideInv_taken checked taken
  have ringed : rung → s.decideInv bs = m.ringInv s bs := fun h => decision.trans (State.checkedInv_ring ver room h)
  have slotted : ∀ k, ¬rung → x.inb.freeSlot = some k → s.decideInv bs = m.slotInv s bs k := fun k h free =>
    decision.trans (State.checkedInv_slot ver room free h)
  refine ⟨fun w h wrote => ?_, fun w k h free wrote => ?_, fun r va h bad => ?_, fun k r va h free bad => ?_⟩
  · exact execInvReceived_decided arrived expected ((ringed h).trans (State.ringInv_written s bs wrote)) (by decide) (by decide)
  · exact execInvReceived_decided arrived expected ((slotted k h free).trans (State.slotInv_written s bs k wrote)) (by decide)
      (by decide)
  · exact execInvReceived_decided arrived expected ((ringed h).trans (State.ringInv_bad s bs bad)) (by decide) (by decide)
  · exact execInvReceived_decided arrived expected ((slotted k h free).trans (State.slotInv_bad s bs k bad)) (by decide)
      (by decide)

end

end

/-! ### PUTs received (R104, R116) -/

theorem put_received {s : State} {pkt : Nat} {bs : List Byte} (arrived : Arrived s pkt 2 bs) (expected : behindBy s bs = 0) :
    let refused := fun (r : Nat) => ∃ u v t : State, exec (.putReceived pkt) s = .next t ∧ Dropped s u pkt ∧ Stored u v bs 4 r
      ∧ Replied v t bs 4 r
    let c := putContext s bs
    let w := putWindow s bs
    let win := field bs 12 4 % 256
    let off := field bs 16 4
    let len := field bs 20 1
    (c.live = false → refused 10)
    ∧ (c.live = true → c.windows.length ≤ win ∨ w.dst = false → refused 11)
    ∧ (c.live = true → win < c.windows.length → w.dst = true → off % 4 ≠ 0 ∨ w.size < off + len → refused 12)
    ∧ (c.live = true → win < c.windows.length → w.dst = true → off % 4 = 0 → off + len ≤ w.size →
      (∀ r va, putWrite s bs = .bad r va → refused 13)
      ∧ ∀ m, putWrite s bs = .ok m → ∃ v t : State, exec (.putReceived pkt) s = .next t ∧ Stored m v bs 0 0
        ∧ t = { v with packets := t.packets } ∧ (∀ j, j ≠ pkt → Tab.get? t.packets j = Tab.get? v.packets j)
        ∧ Tab.get? t.packets pkt = (Tab.get? v.packets pkt).map (fun p => { p with landing := true })) := by
  intro refused c w win off len
  have fates := s.decidePut_fates bs
  refine ⟨fun dead => ?_, fun live noWindow => ?_, fun live window dst outside => ?_, fun live window dst aligned fits => ?_⟩
  · exact execPutReceived_refused arrived expected (fates.dead dead) (by decide)
  · exact execPutReceived_refused arrived expected (fates.noWindow live noWindow) (by decide)
  all_goals have open_ : ¬(c.windows.length ≤ win ∨ w.dst = false) := by simp [window, dst]
  · exact execPutReceived_refused arrived expected (fates.outside live open_ outside) (by decide)
  · have inside : ¬(off % 4 ≠ 0 ∨ w.size < off + len) := by omega
    obtain ⟨refused_, written⟩ := fates.inside live open_ inside
    exact ⟨fun r va bad => execPutReceived_refused arrived expected (refused_ r va bad) (by decide),
      fun m wrote => execPutReceived_written arrived expected (written m wrote)⟩

/-- The acknowledged writes of a PUT are counted and answered. -/
theorem put_landed {s : State} {pkt : Nat} {p : Packet} (listed : Tab.get? s.packets pkt = some p)
    (landing : p.landing = true) :
    ∃ u t : State, exec (.putLanded pkt) s = .next t ∧ Dropped s u pkt
      ∧ Replied (u.bumpCount (toPart p.bytes) (field p.bytes 12 4 / 256 % 64) (field p.bytes 12 4 % 256) 1) t p.bytes 0 0 := by
  refine ⟨s.dropPacket pkt, _, ?_, s.dropPacket_dropped pkt, State.reply_replied _ p.bytes (by decide) (by decide)⟩
  simp only [exec_putLanded, execPutLanded, listed, landing, if_true, objNat_eq_field, natField_context,
    natField_zero, field_toPart, field_window]

/-! ### Replies at their source (R107, R120, R122) -/

theorem reply_received {s : State} {pkt : Nat} {p : Packet} {x : Machine.Sent} (listed : Tab.get? s.packets pkt = some p)
    (type : 3 ≤ field p.bytes 0 1) (chip : field p.bytes 2 2 % 4096 = s.pt.chipid)
    (on : (s.func (toPart p.bytes)).fabEn = true) :
    let k := pairKey (toPart p.bytes) (fromChip p.bytes) (fromPart p.bytes)
    let seq := BitVec.ofNat 32 (numberOf p.bytes)
    (s.pair k).sent.find? (fun y => y.seq == seq) = some x →
    ∃ u t : State, exec (.replyReceived pkt) s = .next t ∧ u = { s with packets := u.packets, pairs := u.pairs }
      ∧ oneEntry s.packets u.packets pkt none ∧ (∀ j, j ≠ k → u.pair j = s.pair j)
      ∧ u.pair k = { s.pair k with sent := (s.pair k).sent.filter (fun y => y.seq != seq) }
      ∧ (∀ op lane o, x.main = some (op, lane) → Tab.get? u.ops op = some o →
        let code := field p.bytes 12 1 % 8
        ∃ v : State, v = { u with ops := v.ops }
          ∧ oneEntry u.ops v.ops op (some { o with
              res := o.res ++ [{ lane := lane, bytes := leBytes 4 (code + 256 * field p.bytes 13 1), tag := code }]
              body := match o.body with
                | .rinv trp n => .rinv trp (n - 1)
                | b => b })
          ∧ t = v.finishOp x.op)
      ∧ (x.main = none → field p.bytes 0 1 ≠ 4 → t = (u.bumpCount (toPart p.bytes) x.ctx x.win 0).finishOp x.op)
      ∧ (x.main = none → field p.bytes 0 1 = 4 →
        t = (u.refusePut (toPart p.bytes) x.ctx x.win (field p.bytes 13 1)).finishOp x.op) := by
  intro k seq kept
  obtain ⟨rest, packets, others, pair⟩ := s.answered_kept pkt k seq
  refine ⟨s.answered pkt k seq, _, execReplyReceived_kept listed type chip on kept, rest, packets, others, pair,
    fun op lane o main entry => ?_, fun main ack => ?_, fun main nack => ?_⟩
  · rw [State.takeReply, main]
    exact ⟨_, rfl, oneEntry_modify entry _, rfl⟩
  · rw [State.takeReply, main, beq_eq_false_iff_ne.2 ack]
    rfl
  · rw [State.takeReply, main, nack]
    rfl

/-- Settles O50: the receiver by its test of a packet's number and its decision, and every other event by the branch that its
hypotheses name. -/
theorem remoteEvents : Obligations.RemoteEvents := by
  unfold Obligations.RemoteEvents
  refine ⟨fun s pkt ty bs i arrived kind => unexpected_packet arrived kind,
    fun s pkt bs code reason arrived expected refused => refused_inv arrived expected refused,
    fun s pkt bs ver code reason arrived expected checked later refused =>
      refused_checkedInv arrived expected checked later refused,
    fun s pkt bs ver arrived expected checked taken => placed_inv arrived expected checked taken,
    fun s pkt bs arrived expected => put_received arrived expected,
    fun s pkt p listed landing => put_landed listed landing,
    fun s part ctx win kind c listed => State.bumpCount_counts listed win kind,
    fun s pkt p x listed type chip on => reply_received listed type chip on,
    fun s part ctx win r => rfl,
    fun s part ctx code info addr data => ?events,
    fun s pair x rest sent due => execRetransmitTimeout_due sent due,
    fun s part chip bs => ⟨fun here => ?arrives, fun l away route => ?leaves⟩,
    fun s part chip => s.routeLink_cases part chip,
    fun s pkt p l listed link => ?forward,
    fun s part q k order rest bs s1 => ?fill,
    fun s part q l pri order t ready placed first => execHandlerBatchLaunch_first ready placed first,
    fun s part chip v below => execRouteWrite_routes s part v below,
    fun s part v => execFabricEnable_enables s part v,
    fun s link below up => ⟨fun bs n type length => execFlitReceived_packet below up type length,
      fun bs type => execFlitReceived_unknown below up type, fun ps => execFlitReceived_failed below up ps,
      fun failed => execLinkDown_fails up failed⟩,
    fun s link below down => execLinkUp_rises below down⟩
  case events =>
    intro f b e short
    exact ⟨fun base room => State.ctxEvent_written ctx code info addr short (not_or.2 ⟨base, room⟩),
      fun full => State.ctxEvent_dropped ctx code info addr full⟩
  case arrives =>
    rw [State.transmit_here bs here]
    exact ⟨_, rfl, rfl, oneEntry_put s.packets s.fresh _⟩
  case leaves =>
    have changed := fun j => State.link_modLink s l j (fun k => { k with out := k.out ++ [bs] })
    rw [State.transmit_away bs away route]
    exact ⟨_, rfl, rfl, fun j other => (changed j).trans (if_neg other), (changed l).trans (if_pos rfl)⟩
  case forward =>
    intro chip owner away
    have run := execPacketForward_eq listed link away
    have changed := fun j => State.link_modLink (s.dropPacket pkt) l j (fun k => { k with errors := k.errors + 1 })
    refine ⟨s.dropPacket pkt, s.dropPacket_dropped pkt, fun routed => ?_, fun lost => ?_⟩
    · rw [run, if_pos (Option.isSome_iff_ne_none.2 routed)]
    · rw [if_neg fun some_ => Option.isSome_iff_ne_none.1 some_ lost] at run
      exact ⟨_, run, rfl, fun j other => (changed j).trans (if_neg other), (changed l).trans (if_pos rfl)⟩
  case fill =>
    intro x e live resident free waiting image lands same
    have listed := State.listed_of_live (s := s1) (part := part) (q := q) (by rw [same]; exact live)
    rw [same] at listed
    have entry := oneEntry_modify listed (fun x => { x with inb := { x.inb with
      slots := Tab.put x.inb.slots k ⟨.held, order⟩, last := k, head := x.inb.head + 1, waiting := rest } })
    refine ⟨_, execLandSlotFill_fills rfl live resident free waiting image lands, rfl, entry.2, ?_⟩
    rw [State.queue, Tab.getD]
    exact congrArg (fun y => Option.getD y {}) entry.1

end Sys2Proof.Claims
end
section
/-!
SUPPORT and O28. The WAKE registers and the sleeps that they end, SWI, SLEEPC and WAITC (R138, R164 to R167).
-/

namespace Sys2Proof.Machine

open Sys2Proof.Safety Sys2Proof.Claims

/-! ### Queue handles (R72, R164) -/

theorem handleIndex_eq (h : Word) : handleIndex h = h.toNat % 65536 := by simp [handleIndex, natField]

theorem handleGen_eq (h : Word) : handleGen h = h.toNat / 65536 := by
  have below := h.isLt
  simp only [handleGen, natField]
  omega

/-- A handle names a live queue of the group's context. -/
def State.handleNames (s : State) (g : Group) (h : Word) (q : Nat) : Prop :=
  h.toNat % 65536 = q ∧ q < 1024 ∧ (s.queue g.part q).live = true ∧ (s.queue g.part q).ctx = g.ctx
    ∧ (s.queue g.part q).gen = h.toNat / 65536

theorem State.handleLive_iff (s : State) (g : Group) (h : Word) :
    s.handleLive g.part g.ctx h = true ↔ s.handleNames g h (handleIndex h) := by
  simp only [State.handleLive, State.handleNames, Bool.and_eq_true, decide_eq_true_eq, beq_iff_eq, handleGen_eq, and_assoc,
    handleIndex_eq, true_and]

/-! ### A write of a WAKE register (R164, R165) -/

/-- A group after a write of a WAKE register: a sleep that the value ends is marked. -/
def Group.woken (g : Group) (part q : Nat) (wake : Word) : Group :=
  if g.wakesOn part q wake then { g with wait := g.wait.map (fun w => { w with ended := true }) } else g

theorem Group.woken_sleep {g : Group} {n : Nat} {m : Word} {acted ended : Bool}
    (sleeps : g.wait = some ⟨.sleep n m, acted, ended⟩) (part q : Nat) (wake : Word) :
    g.woken part q wake
      = { g with wait := some ⟨.sleep n m, acted, ended || (g.part == part && g.queue == q && wake &&& m != 0)⟩ } := by
  have on : g.wakesOn part q wake = (g.part == part && g.queue == q && wake &&& m != 0) := by rw [Group.wakesOn, sleeps]
  rw [Group.woken, on, sleeps]
  cases g.part == part && g.queue == q && wake &&& m != 0
  · rw [if_neg Bool.false_ne_true, Bool.or_false, ← sleeps]
  · rw [if_pos rfl, Bool.or_true]
    rfl

theorem Group.woken_of_awake {g : Group} (awake : ∀ n m acted ended, g.wait ≠ some ⟨.sleep n m, acted, ended⟩) (part q : Nat)
    (wake : Word) : g.woken part q wake = g := by
  unfold Group.woken Group.wakesOn
  split
  · rename_i sleeps
    exact absurd sleeps (awake _ _ _ _)
  · exact if_neg Bool.false_ne_true

theorem Group.woken_clause (g : Group) (part q : Nat) (wake : Word) : (g.woken part q wake).clause = g.clause := by
  unfold Group.woken
  split <;> rfl

theorem State.setWake_groups (s : State) (part q : Nat) (wake : Word) (j : Nat) :
    Tab.get? (s.setWake part q wake).groups j = (Tab.get? s.groups j).map (·.woken part q wake) := by
  rw [← Tab.get?_mapValues]
  refine congrArg (Tab.get? · j) (List.map_congr_left fun x _ => ?_)
  rw [Group.woken]
  split <;> rfl

theorem State.setWake_queue {s : State} {part q : Nat} (live : (s.queue part q).live = true) (wake : Word) :
    (s.setWake part q wake).queue part q = { s.queue part q with wake := wake } := by
  show Tab.getD (Tab.modify s.queues (1024 * part + q) _) _ _ = _
  rw [Tab.getD, Tab.get?_modify, if_pos rfl, State.listed_of_live live]
  rfl

theorem State.AtSlot.setWake {s : State} {id : Nat} {c : Clause} (h : s.AtSlot id c) (part q : Nat) (wake : Word) :
    (s.setWake part q wake).AtSlot id c := by
  obtain ⟨cur, g, here, clause⟩ := h
  exact ⟨cur, g.woken part q wake, by rw [State.setWake_groups, here]; rfl, (g.woken_clause part q wake).trans clause⟩

/-! ### SWI (R164) -/

/-- A cause that is raised with an address or a handle for the fault record. -/
theorem raisesWith_of_body {i : Instr} {body : Group → List Nat → State → Eff} (run : ∀ s, exec i s = issue i s body)
    {ok : State → Group → List Nat → Prop} {cause : Cause} {info : Group → List Nat → Word}
    (effect : ∀ s id g c f, Issues i s id g c f → ok s g (g.guarded f.slot) →
      ∃ va h, body g (g.guarded f.slot) s = .raise cause (info g (g.guarded f.slot)) va h) : Raises i ok cause info := by
  intro s id g c f issues holds
  obtain ⟨va, h, raised⟩ := effect s id g c f issues holds
  exact ⟨va, h, (run s).trans (issueWith_raise issues (fun _ _ _ => some []) body raised)⟩

/-- What SWI leaves: queue `q` has the new WAKE value, and the sleeps that this ends are marked. -/
def swiWakes (o : Slot) (f : Word → Word → Word) (s : State) (g : Group) (ls : List Nat) (q : Nat) (u : State) : Prop :=
  (u.queue g.part q).wake = f (s.queue g.part q).wake (g.value o.b (ls.headD 0))
    ∧ (∀ k, k ≠ 1024 * g.part + q → Tab.get? u.queues k = Tab.get? s.queues k)
    ∧ u = { s with queues := u.queues, groups := u.groups }
    ∧ ∀ j x, Tab.get? s.groups j = some x → Tab.get? u.groups j = some
        { x with wait := match x.wait with
          | some ⟨.sleep n m, a, e⟩ => some ⟨.sleep n m, a, e || (x.part == g.part && x.queue == q
              && f (s.queue g.part q).wake (g.value o.b (ls.headD 0)) &&& m != 0)⟩
          | w => w }

theorem State.setWake_wakes (o : Slot) (f : Word → Word → Word) {s : State} {g : Group} {q : Nat}
    (live : (s.queue g.part q).live = true) (ls : List Nat) :
    swiWakes o f s g ls q (s.setWake g.part q (f (s.queue g.part q).wake (g.value o.b (ls.headD 0)))) := by
  refine ⟨by rw [State.setWake_queue live], fun k other => (Tab.get?_modify _ _ k _).trans (if_neg other), rfl,
    fun j x listed => ?_⟩
  rw [State.setWake_groups, listed, Option.map_some]
  split
  · rename_i sleeps
    rw [Group.woken_sleep sleeps]
  · rename_i awake
    rw [Group.woken_of_awake awake]

section
variable {i : Instr} {o : Slot} {f : Word → Word → Word} (run : ∀ s, exec i s = swiQueue i s o f)
include run

theorem swi_does (q : Nat) : Does i
    (fun s _ g ls => (s.team g.team).copyOf = none ∧ s.handleNames g (g.value o.a (ls.headD 0)) q)
    (fun s _ g ls u => swiWakes o f s g ls q u) := by
  refine does_of_body (fun s => (run s).trans rfl) fun s _ g c _ issues ⟨single, named⟩ => ?_
  have ⟨index, _, live, _, _⟩ := named
  have names := (s.handleLive_iff g _).2 (by rwa [handleIndex_eq, index])
  refine ⟨s.setWake g.part q _, ?_, State.setWake_wakes o f live _, issues.atSlot.setWake _ _ _⟩
  simp only [names, single, handleIndex_eq, index, Option.isSome_none, if_true, Bool.false_eq_true, if_false]

theorem swi_raises : Raises i (fun s g ls => ∀ q, ¬s.handleNames g (g.value o.a (ls.headD 0)) q) .prot (fun _ _ => 6) :=
  raisesWith_of_body (fun s => (run s).trans rfl) fun s _ g _ _ _ unnamed =>
    ⟨0, _, if_neg fun live => unnamed _ ((s.handleLive_iff g _).1 live)⟩

end

theorem swiMgmt_does (o : Slot) : Does (.swiMgmt o)
    (fun s _ g _ => (s.team g.team).copyOf = none ∧ s.mgmt.softQ.length < 64)
    (fun s _ g ls u => u = { s with mgmt :=
      { s.mgmt with softQ := s.mgmt.softQ ++ [(g.value o.b (ls.headD 0), g.part, g.ctx)] } }) := by
  refine does_of_body (fun s => (exec_swiMgmt s o).trans rfl) fun s id g c f issues ⟨single, room⟩ => ⟨_, ?_, rfl, ?_⟩
  · simp only [single, Option.isSome_none, Bool.false_eq_true, if_false, State.softWrite, room, if_true]
  · exact issues.atSlot.congr rfl rfl

/-! ### SLEEPC and WAITC (R165 to R167) -/

section
variable (o : Slot)

theorem sleepc_passes : Does (.sleepc o)
    (fun s _ g ls => g.value o.a (ls.headD 0) = 0 ∨ (s.queue g.part g.queue).wake &&& g.value o.b (ls.headD 0) ≠ 0)
    (fun s _ _ _ u => u = s) :=
  does_of_body (fun s => (exec_sleepc s o).trans rfl) fun s _ _ _ _ issues met =>
    ⟨s, if_pos (met.imp_left (congrArg BitVec.toNat)), rfl, issues.atSlot⟩

theorem sleepc_sleeps : Waits (.sleepc o)
    (fun s _ g ls => g.value o.a (ls.headD 0) ≠ 0 ∧ (s.queue g.part g.queue).wake &&& g.value o.b (ls.headD 0) = 0)
    (fun s g ls => ⟨.sleep ((s.core g.core).cycles + (g.value o.a (ls.headD 0)).toNat) (g.value o.b (ls.headD 0)),
      true, false⟩) := by
  intro s id g c f issues ⟨counts, asleep⟩
  have waits : ¬((g.value o.a ((g.guarded f.slot).headD 0)).toNat = 0
      ∨ (s.queue g.part g.queue).wake &&& g.value o.b ((g.guarded f.slot).headD 0) ≠ 0) :=
    not_or.2 ⟨fun zero => counts (BitVec.eq_of_toNat_eq zero), not_not.2 asleep⟩
  obtain ⟨only, group⟩ := State.beginWait_spec issues.here _
  exact ⟨_, acted_of_body (fun s => (exec_sleepc s o).trans rfl) issues (if_neg waits), only, group⟩

variable (k : Counter)

theorem waitc_passes : Does (.waitc o k)
    (fun _ _ g ls => g.counter k.code ≤ min (g.value o.a (ls.headD 0)).toNat 0xFFFF) (fun s _ _ _ u => u = s) :=
  does_of_body (fun s => (exec_waitc s o k).trans rfl) fun s _ _ _ _ issues reached =>
    ⟨s, if_pos reached, rfl, issues.atSlot⟩

theorem waitc_waits : Waits (.waitc o k)
    (fun _ _ g ls => min (g.value o.a (ls.headD 0)).toNat 0xFFFF < g.counter k.code)
    (fun _ g ls => ⟨.counter k.code (min (g.value o.a (ls.headD 0)).toNat 0xFFFF), false, false⟩) :=
  waitsFor_of_body (fun s => (exec_waitc s o k).trans rfl) fun _ _ _ _ _ _ above => if_neg (Nat.not_le.2 above)

end

end Sys2Proof.Machine

namespace Sys2Proof.Claims

open Sys2Proof.Machine

/-- Settles O28: SWI by the handle that it names and the sleeps that the new WAKE value ends, SLEEPC and WAITC by the
condition that each tests at issue. -/
theorem wakesAndWaits : Obligations.WakesAndWaits := by
  unfold Obligations.WakesAndWaits
  exact ⟨fun o q => swi_does (exec_swiWake · o) q, fun o q => swi_does (exec_swiClear · o) q,
    fun o => swi_raises (exec_swiWake · o), fun o => swi_raises (exec_swiClear · o), swiMgmt_does,
    sleepc_passes, sleepc_sleeps, waitc_passes, waitc_waits⟩

end Sys2Proof.Claims
end
section
/-!
SUPPORT. The ends of clauses: the frontier that an entry's lanes leave behind, what a group is after its clause, and the
turn of the schedulers after a slot (R42, R132, R134, R139).
-/

namespace Sys2Proof.Machine

open Sys2Proof.Safety Sys2Proof.Claims

/-! ### Lanes handed to their next offsets (R134) -/

/-- A lane stands at an offset in one of these entries. -/
def laneIn (fr : List Entry) (handler : Bool) (l pc : Nat) : Prop :=
  ∃ x ∈ fr, x.pc = pc ∧ x.handler = handler ∧ x.mask.getLsbD l = true

section
variable (fr : List Entry) (hd : Bool)

theorem laneIn_addLane {l : Nat} (lane : l < 128) (pc prio : Nat) (hd' : Bool) (m pc' : Nat) :
    laneIn (addLane fr hd pc prio l) hd' m pc' ↔ laneIn fr hd' m pc' ∨ (hd' = hd ∧ m = l ∧ pc' = pc) := by
  unfold addLane laneIn
  split_ifs with there
  · obtain ⟨y, listed, at_⟩ := List.any_eq_true.1 there
    obtain ⟨rfl, rfl⟩ : y.pc = pc ∧ y.handler = hd := by simpa using at_
    simp only [List.mem_map, exists_exists_and_eq_and]
    constructor
    · rintro ⟨x, hx, hpc, hhd, hm⟩
      split_ifs at hpc hhd hm with same
      · simp only [Bool.and_eq_true, beq_iff_eq] at same
        rw [maskSet_getLsbD _ _ _ _ lane] at hm
        by_cases hml : m = l
        · exact .inr ⟨hhd ▸ same.2, hml, hpc ▸ same.1⟩
        · exact .inl ⟨x, hx, hpc, hhd, by rwa [if_neg hml] at hm⟩
      · exact .inl ⟨x, hx, hpc, hhd, hm⟩
    · rintro (⟨x, hx, hpc, hhd, hm⟩ | ⟨rfl, rfl, rfl⟩)
      · refine ⟨x, hx, ?_⟩
        split_ifs
        · refine ⟨hpc, hhd, ?_⟩
          rw [maskSet_getLsbD _ _ _ _ lane, hm, ite_self]
        · exact ⟨hpc, hhd, hm⟩
      · refine ⟨y, listed, ?_⟩
        rw [if_pos at_]
        exact ⟨rfl, rfl, by rw [maskSet_getLsbD _ _ _ _ lane, if_pos rfl]⟩
  · simp only [List.mem_append, List.mem_singleton, or_and_right, exists_or, exists_eq_left, maskSet_getLsbD _ _ _ _ lane]
    refine or_congr_right ⟨fun ⟨hpc, hhd, hm⟩ => ⟨hhd.symm, ?_, hpc.symm⟩, fun ⟨hhd, hm, hpc⟩ => ⟨hpc.symm, hhd.symm, ?_⟩⟩
    · by_contra other
      simp [other] at hm
    · rw [if_pos hm]

/-- The entry that a lane joins takes the priority that comes with it; no other entry changes. -/
theorem mem_addLane {pc prio l : Nat} {x : Entry} (h : x ∈ addLane fr hd pc prio l) :
    x.pc = pc ∧ x.handler = hd ∧ x.prio = prio ∨ ¬(x.pc = pc ∧ x.handler = hd) ∧ x ∈ fr := by
  unfold addLane at h
  split_ifs at h with there
  · obtain ⟨y, hy, rfl⟩ := List.mem_map.1 h
    split_ifs with same
    · exact .inl (by simpa using same)
    · exact .inr ⟨by simpa using same, hy⟩
  · rcases List.mem_append.1 h with hx | hx
    · have apart : ¬(x.pc = pc ∧ x.handler = hd) := fun same => there (List.any_eq_true.2 ⟨x, hx, by simpa using same⟩)
      exact .inr ⟨apart, hx⟩
    · obtain rfl := List.mem_singleton.1 hx
      exact .inl ⟨rfl, rfl, rfl⟩

/-- Several lanes handed on, one after the other. -/
def handLanes (prio next : Nat → Nat) (fr : List Entry) (ls : List Nat) : List Entry :=
  ls.foldl (fun fr l => addLane fr hd (next l) (prio (next l)) l) fr

variable (prio next : Nat → Nat)

theorem laneIn_handLanes (hd' : Bool) (m pc' : Nat) : ∀ (ls : List Nat) (fr : List Entry), (∀ l ∈ ls, l < 128) →
    (laneIn (handLanes hd prio next fr ls) hd' m pc' ↔ laneIn fr hd' m pc' ∨ (hd' = hd ∧ m ∈ ls ∧ pc' = next m))
  | [], fr, _ => by simp [handLanes]
  | l :: ls, fr, lanes => by
    obtain ⟨first, rest⟩ := List.forall_mem_cons.1 lanes
    rw [handLanes, List.foldl_cons, ← handLanes, laneIn_handLanes hd' m pc' ls _ rest, laneIn_addLane fr hd first, or_assoc,
      List.mem_cons]
    refine or_congr_right ?_
    by_cases same : m = l
    · subst same
      tauto
    · simp [same]

theorem prio_handLanes {x : Entry} (ls : List Nat) : x ∈ handLanes hd prio next fr ls →
    (∃ l ∈ ls, x.pc = next l ∧ x.handler = hd) → x.prio = prio x.pc := by
  induction ls using List.reverseRecOn with
  | nil => simp
  | append_singleton ls l ih =>
    rw [handLanes, List.foldl_append, List.foldl_cons, List.foldl_nil, ← handLanes]
    intro h ⟨m, hm, hpc, hhd⟩
    rcases mem_addLane _ _ h with ⟨at_, -, p⟩ | ⟨apart, before⟩
    · rw [p, at_]
    · rcases List.mem_append.1 hm with hm | hm
      · exact ih before ⟨m, hm, hpc, hhd⟩
      · exact absurd ⟨List.mem_singleton.1 hm ▸ hpc, hhd⟩ apart

end

/-! ### The frontier after a clause -/

/-- The lanes of an entry that stay. -/
theorem mem_staying (n : Nat) (m : Mask) (leave : Nat → Bool) (l : Nat) :
    l ∈ (maskLanes n m).filter (fun l => !leave l) ↔ l < n ∧ m.getLsbD l = true ∧ leave l = false := by
  rw [List.mem_filter, mem_maskLanes, Bool.not_eq_true', and_assoc]

section
variable {g : Group} {c : Clause} {e : Entry} (clause : g.clause = some c) (entry : g.entry? = some e)
include clause entry

theorem Group.handOn_eq (prio : Nat → Nat) (leave : Nat → Bool) (next : Nat → Nat) : g.handOn prio leave next
    = handLanes c.handler prio next (g.frontier.filter (fun x => !(x.pc == c.pc && x.handler == c.handler)))
        ((maskLanes g.lanes e.mask).filter (fun l => !leave l)) := by
  simp only [Group.handOn, clause, entry]
  rfl

theorem Group.laneIn_handOn (prio : Nat → Nat) (leave : Nat → Bool) (next : Nat → Nat) (hd : Bool) (l pc : Nat) :
    laneIn (g.handOn prio leave next) hd l pc ↔
      (∃ x ∈ g.frontier, ¬(x.pc = c.pc ∧ x.handler = c.handler) ∧ x.pc = pc ∧ x.handler = hd ∧ x.mask.getLsbD l = true)
      ∨ (hd = c.handler ∧ l < g.lanes ∧ e.mask.getLsbD l = true ∧ leave l = false ∧ pc = next l) := by
  have lanes : ∀ m ∈ (maskLanes g.lanes e.mask).filter (fun l => !leave l), m < 128 := fun m hm =>
    BitVec.lt_of_getLsbD ((mem_staying _ _ leave m).1 hm).2.1
  rw [Group.handOn_eq clause entry, laneIn_handLanes _ _ _ _ _ _ _ _ lanes, mem_staying, laneIn]
  simp only [List.mem_filter, Bool.not_eq_true', Bool.and_eq_false_iff, beq_eq_false_iff_ne, ← not_and_or, and_assoc, ne_eq]

/-- A group whose frontier is what its clause hands on has moved as R134 says. -/
theorem moved_of_handOn {s : State} {h : Group} {leave : Nat → Bool} {next : Nat → Nat} {stays : Nat → Prop}
    (frontier : h.frontier = g.handOn (s.prioAt g c.handler) leave next) (staying : ∀ l, stays l ↔ leave l = false) :
    Moved s g h c e stays next where
  lanes hd l pc := by
    show laneIn h.frontier hd l pc ↔ _
    rw [frontier, Group.laneIn_handOn clause entry, staying]
  prio x listed := by
    rintro ⟨l, lane, on, stay, hpc, hhd⟩
    rw [frontier, Group.handOn_eq clause entry] at listed
    exact prio_handLanes _ _ _ _ _ listed
      ⟨l, (mem_staying _ _ leave l).2 ⟨lane, on, (staying l).1 stay⟩, hpc, hhd⟩

/-- Where a lane stays, an entry of the clause's kind does. -/
theorem Group.handOn_keeps {leave : Nat → Bool} {l : Nat} (acts : l ∈ g.active) (stays : leave l = false) (prio next : Nat → Nat) :
    ∃ x ∈ g.handOn prio leave next, x.handler = c.handler := by
  rw [Group.active, entry] at acts
  obtain ⟨lane, on⟩ := (mem_maskLanes _ _ _).1 acts
  obtain ⟨x, listed, -, kind, -⟩ :=
    (Group.laneIn_handOn clause entry prio leave next c.handler l (next l)).2 (.inr ⟨rfl, lane, on, stays, rfl⟩)
  exact ⟨x, listed, kind⟩

end

/-! ### The group after its clause -/

/-- A group after its clause, outside the return of a handler: it stands at no clause, and drains where no lane is left. -/
def Group.afterClause (g : Group) (fr : List Entry) : Group :=
  { g with frontier := fr, clause := none, draining := g.draining || fr.isEmpty }

theorem State.afterClause_ends {s : State} {id : Nat} (cur : s.cur = .group id) {g : Group} {fr : List Entry}
    (inHandler : g.handler.isSome = true → fr.any Entry.handler = true) :
    OnlyGroup s (s.afterClause g fr) id ∧ Tab.get? (s.afterClause g fr).groups id = some (g.afterClause fr) := by
  have goesOn : (g.handler.isSome && !fr.any Entry.handler) = false := by
    cases inside : g.handler.isSome
    · rfl
    · rw [inHandler inside]; rfl
  simp only [State.afterClause, goesOn, Bool.false_eq_true, if_false, State.putCur_of_cur cur, State.curId_of_cur cur]
  unfold Group.afterClause
  split_ifs with gone
  · refine ⟨((OnlyGroup.putGroup s id _).trans (OnlyGroup.modGroup _ id _)).trans (OnlyGroup.leaveCore _ id id), ?_⟩
    rw [State.drain, State.leaveCore_groups, State.get?_modGroup, if_pos rfl, State.putGroup_groups, Tab.get?_put, if_pos rfl,
      gone, Bool.or_true]
    rfl
  · rw [Bool.eq_false_of_not_eq_true gone, Bool.or_false, State.putGroup_groups, Tab.get?_put, if_pos rfl]
    exact ⟨OnlyGroup.putGroup s id _, rfl⟩

/-! ### The schedulers after a slot -/

/-- The slot counted for the stop record of its core, and the group's place offered where the slot has yield. -/
def State.afterSlot (s : State) (id : Nat) (yield : Bool) : State :=
  if yield then (s.countAfter id).offerPlace id else s.countAfter id

theorem OnlyGroup.afterSlot (s : State) (id : Nat) (yield : Bool) : OnlyGroup s (s.afterSlot id yield) id := by
  unfold State.afterSlot
  split_ifs
  · exact (OnlyGroup.countAfter s id id).trans (OnlyGroup.offerPlace _ id id)
  · exact OnlyGroup.countAfter s id id

@[simp] theorem State.afterSlot_groups (s : State) (id : Nat) (yield : Bool) : (s.afterSlot id yield).groups = s.groups := by
  unfold State.afterSlot
  split_ifs
  · exact State.countAfter_groups s id
  · exact State.countAfter_groups s id

theorem State.countAfter_sets (s : State) (id k : Nat) :
    ((s.countAfter id).core k).active = (s.core k).active ∧ ((s.countAfter id).core k).ready = (s.core k).ready := by
  unfold State.countAfter
  split_ifs
  · rw [State.core_putCore]
    split_ifs with same
    · exact ⟨by rw [same], by rw [same]⟩
    · exact ⟨rfl, rfl⟩
  · exact ⟨rfl, rfl⟩

/-- An active group that offers its place gives it to the head of the ready queue, and joins its tail. -/
theorem CoreSt.swap_offers {k : CoreSt} {id r : Nat} {rs : List Nat} (ready : k.ready = r :: rs)
    (active : k.active.contains id = true) :
    (k.swap id true).active = k.active.map (fun x => if x = id then r else x) ∧ (k.swap id true).ready = rs ++ [id] := by
  rw [CoreSt.swap, ready]
  simp only [active, if_true, beq_iff_eq]
  exact ⟨rfl, rfl⟩

theorem State.afterSlot_yields {s : State} {id r : Nat} {rs : List Nat}
    (ready : (s.core (s.group id).core).ready = r :: rs) (active : (s.core (s.group id).core).active.contains id = true) :
    ((s.afterSlot id true).core (s.group id).core).active
        = (s.core (s.group id).core).active.map (fun x => if x = id then r else x)
      ∧ ((s.afterSlot id true).core (s.group id).core).ready = rs ++ [id] := by
  obtain ⟨sameActive, sameReady⟩ := s.countAfter_sets id (s.group id).core
  have offers := CoreSt.swap_offers (sameReady.trans ready) (sameActive ▸ active)
  rw [sameActive] at offers
  rw [State.afterSlot, if_pos rfl, State.offerPlace, State.countAfter_group, State.core_putCore, if_pos rfl]
  exact offers

section
variable {s : State} {id : Nat} {g : Group} {c : Clause} (cur : s.cur = .group id) (here : Tab.get? s.groups id = some g)
  (clause : g.clause = some c)
include cur here clause

theorem State.finishSlot_next (more : c.last = false) (yield : Bool) : s.finishSlot yield
    = (s.putGroup id { g.countSlot with clause := some { c with slot := c.slot + 1 } }).afterSlot id yield := by
  have current : s.curGroup? = some g := by simp only [State.curGroup?, cur, here]
  simp only [State.finishSlot, current, clause, more, Bool.false_eq_true, if_false, cur, State.putCur_of_cur cur]
  rfl

theorem State.finishSlot_last (last : c.last = true) (yield : Bool) : s.finishSlot yield
    = (s.afterClause g.countSlot (g.handOn (s.prioAt g c.handler) (fun _ => false) (fun _ => c.follow))).afterSlot id yield := by
  have current : s.curGroup? = some g := by simp only [State.curGroup?, cur, here]
  simp only [State.finishSlot, current, clause, last, if_true, cur]
  rfl

end

/-! ### The comparison of silent checking -/

theorem State.noteCheck_of_not_fixed {f : Form} (long : isFixedOp f.op = false) (s : State) (id pc : Nat) (ls : List Nat) :
    s.noteCheck id pc f ls = s := by
  rw [State.noteCheck, long, Bool.false_and, if_neg Bool.false_ne_true]

theorem State.noteCheck_listed {s : State} {id : Nat} {g : Group} (here : Tab.get? s.groups id = some g) (pc : Nat) (f : Form)
    (ls : List Nat) : ∃ ck, Tab.get? (s.noteCheck id pc f ls).groups id = some { g with checks := ck } := by
  unfold State.noteCheck
  split_ifs
  · exact ⟨_, by rw [State.get?_modGroup, if_pos rfl, here]; rfl⟩
  · exact ⟨g.checks, here⟩

end Sys2Proof.Machine
end
section
/-!
SUPPORT and O24. Control transfers, sequential flow, YIELD and EXIT (R134, R135, R139, R160 to R162).
-/

namespace Sys2Proof.Machine

open Sys2Proof.Safety Sys2Proof.Claims

/-! ### A clause ended by its instruction -/

/-- A group has left its clause: it has the registers of `g'`, and its lanes have moved or left for good. -/
structure LeftClause (s t : State) (id : Nat) (g g' : Group) (c : Clause) (e : Entry) (f : Form) (stays : Nat → Prop)
    (next : Nat → Nat) : Prop where
  only : OnlyGroup s t id
  clock : (t.group id).clock = g.clock + 1
  clause : (t.group id).clause = none
  keeps : KeepsOthers f (g.guarded f.slot) g (t.group id)
  regs : SameRegs g' (t.group id)
  moved : Moved s g (t.group id) c e stays next
  draining : (t.group id).draining = (g.draining || (t.group id).frontier.isEmpty)

/-- A jump's own effect, with the slot's note and the turn of the schedulers. -/
theorem State.applyEff_jump {s t : State} {id pc : Nat} {f : Form} {h : Group} (here : Tab.get? t.groups id = some h) :
    OnlyGroup t (s.applyEff id pc f (.jump t)) id
      ∧ ∃ ck, (s.applyEff id pc f (.jump t)).group id = { h with checks := ck } := by
  have same : s.applyEff id pc f (.jump t)
      = (t.noteCheck id pc f ((s.group id).guarded f.slot)).afterSlot id f.slot.yield := rfl
  obtain ⟨ck, noted⟩ := State.noteCheck_listed here pc f ((s.group id).guarded f.slot)
  rw [same]
  exact ⟨(OnlyGroup.noteCheck t id pc f _).trans (OnlyGroup.afterSlot _ id _), ck,
    State.group_of_get? (by rw [State.afterSlot_groups, noted])⟩

section
variable {i : Instr} {s : State} {id : Nat} {g : Group} {c : Clause} {f : Form} (issues : Issues i s id g c f)
include issues

/-- An instruction that ends its clause by `State.transferEnd`, with a frontier that fits and no handler that ends. -/
theorem issue_leaves {e : Entry} (entry : g.entry? = some e) {g' : Group} (within : Within f (g.guarded f.slot) g g')
    {leave : Nat → Bool} {next : Nat → Nat} {stays : Nat → Prop} (staying : ∀ l, stays l ↔ leave l = false)
    (fits : (g.handOn (s.prioAt g c.handler) leave next).length ≤ 80)
    (inHandler : g.handler.isSome = true → (g.handOn (s.prioAt g c.handler) leave next).any Entry.handler = true)
    {body : Group → List Nat → State → Eff} (effect : body g (g.guarded f.slot) s = s.transferEnd g' c leave next) :
    ∃ t, issue i s body = .next t ∧ LeftClause s t id g g' c e f stays next := by
  obtain ⟨v, sc, ps, fl, rfl⟩ := within.only
  let written : Group := { g with vec := v, scl := sc, preds := ps, fpflags := fl }
  have jumps : s.transferEnd written c leave next
      = .jump (s.afterClause written.countSlot (g.handOn (s.prioAt g c.handler) leave next)) := if_neg (Nat.not_lt.2 fits)
  obtain ⟨ended, listed⟩ := State.afterClause_ends issues.cur (g := written.countSlot) inHandler
  obtain ⟨turned, ck, group⟩ := State.applyEff_jump (s := s) (pc := c.slotPc) (f := f) listed
  refine ⟨_, by rw [issue, issueWith_of_issues issues, effect, jumps], ended.trans turned, ?clock, ?clause, ?keeps, ?regs,
    ?moved, ?draining⟩
  all_goals rw [group]
  case keeps => exact ⟨within.vec, within.scl, within.preds, ⟨rfl, rfl, rfl⟩, ⟨rfl, rfl, rfl, rfl, rfl, rfl⟩, rfl, rfl, rfl⟩
  case regs => exact ⟨rfl, rfl, rfl, rfl⟩
  case moved => exact moved_of_handOn issues.clause entry rfl staying
  case clock | clause | draining => rfl

/-- Where the lanes whose guard is true stay, the kind of the clause stays in the frontier: no handler ends. -/
theorem handOn_kind {e : Entry} (entry : g.entry? = some e) (kind : c.handler = g.handler.isSome)
    {leave : Nat → Bool} (stays : ∀ l ∈ g.guarded f.slot, leave l = false) (prio next : Nat → Nat)
    (inside : g.handler.isSome = true) : (g.handOn prio leave next).any Entry.handler = true := by
  obtain ⟨l, guarded⟩ := List.exists_mem_of_ne_nil _ issues.lane
  obtain ⟨x, listed, same⟩ :=
    Group.handOn_keeps issues.clause entry (List.mem_filter.1 guarded).1 (stays l guarded) prio next
  exact List.any_eq_true.2 ⟨x, listed, by rw [same, kind, inside]⟩

end

/-! ### Targets (R160) -/

/-- The target of a lane lies beyond the code. -/
def State.targetOut (s : State) (g : Group) (c : Clause) (target : Nat → Nat) (l : Nat) : Bool :=
  decide (s.codeSize g c.handler ≤ target l)

/-- The target of a lane is no header's offset. -/
def State.targetBad (s : State) (g : Group) (c : Clause) (target : Nat → Nat) (l : Nat) : Bool :=
  target l % 12 != 0 || (s.codeWord? g c.handler (target l)).all (fun w => w % 1024 != 0x3FF)

section
variable {s : State} {g : Group} {c : Clause} {ls : List Nat} {target : Nat → Nat}

theorem State.targetFate_eq : s.targetFate g c ls target = ((ls.find? (s.targetOut g c target)).map (.codeRange, ·)).or
    ((ls.find? (s.targetBad g c target)).map (.illclause, ·)) := by
  have bad : s.targetBad g c target = fun l => target l % 12 != 0 ||
      (match s.codeWord? g c.handler (target l) with
        | none => true
        | some w => natField w 9 0 != 0x3FF) := by
    funext l
    unfold State.targetBad
    cases s.codeWord? g c.handler (target l) with
    | none => rfl
    | some w => simp [natField]
  rw [bad]
  unfold State.targetFate State.targetOut
  cases ls.find? (fun l => decide (s.codeSize g c.handler ≤ target l)) with
  | some l => rfl
  | none => cases List.find? _ ls <;> rfl

theorem State.targetFate_out {l : Nat} (out : ls.find? (s.targetOut g c target) = some l) :
    s.targetFate g c ls target = some (.codeRange, l) := by
  rw [State.targetFate_eq, out]
  rfl

theorem State.targetFate_bad {l : Nat} (inside : ls.find? (s.targetOut g c target) = none)
    (bad : ls.find? (s.targetBad g c target) = some l) : s.targetFate g c ls target = some (.illclause, l) := by
  rw [State.targetFate_eq, inside, bad]
  rfl

theorem State.targetFate_none
    (headers : ∀ l ∈ ls, target l % 12 = 0 ∧ ∃ w, s.codeWord? g c.handler (target l) = some w ∧ w % 1024 = 0x3FF) :
    s.targetFate g c ls target = none := by
  have inside : ls.find? (s.targetOut g c target) = none := List.find?_eq_none.2 fun l hl => by
    obtain ⟨-, w, word, -⟩ := headers l hl
    have fits : target l + 12 ≤ s.codeSize g c.handler := by
      by_contra short
      simp [State.codeWord?, short] at word
    simp only [State.targetOut, decide_eq_true_eq]
    omega
  have fine : ls.find? (s.targetBad g c target) = none := List.find?_eq_none.2 fun l hl => by
    obtain ⟨aligned, w, word, marker⟩ := headers l hl
    simp [State.targetBad, aligned, word, marker]
  rw [State.targetFate_eq, inside, fine]
  rfl

end

/-! ### Transfers (R160, R161) -/

/-- The group after a link is written, where there is one. -/
def Group.linked (g : Group) (o : Slot) (link : Bool) (ls : List Nat) (c : Clause) : Group :=
  if link then g.writeWords o.d ls (fun _ => BitVec.ofNat 32 c.follow) else g

/-- What a transfer does in its slot. -/
def transferBody (o : Slot) (target : Group → Nat → Nat) (link : Bool) (g : Group) (ls : List Nat) (s : State) : Eff :=
  match g.clause with
  | none => .done s
  | some c =>
    match s.targetFate g c ls (target g) with
    | some (cause, l) => .raise cause (laneInfo 0 l)
    | none => s.transferEnd (g.linked o link ls c) c (fun _ => false) (fun l => if ls.contains l then target g l else c.follow)

theorem Group.linked_within {f : Form} {o : Slot} {g : Group} (slot : f.slot = o) (link : Bool)
    (one : link = true → f.d.n = 1) (lanes : g.guarded f.slot ≠ []) (c : Clause) :
    Within f (g.guarded f.slot) g (g.linked o link (g.guarded f.slot) c) := by
  cases link with
  | false => exact Within.refl f _ g
  | true =>
    rw [← slot]
    exact Within.writeRuns g _ (one rfl) (fun _ => rfl) lanes (g.guarded_lt f.slot)

theorem Group.linked_fpflags (g : Group) (o : Slot) (link : Bool) (ls : List Nat) (c : Clause) :
    (g.linked o link ls c).fpflags = g.fpflags := by
  cases link with
  | false => rfl
  | true =>
    obtain ⟨v, sc, same⟩ := Group.writeRuns_same g o.d ls (fun _ => [BitVec.ofNat 32 c.follow])
    exact (congrArg Group.fpflags same : (g.writeRuns o.d ls _).fpflags = _)

/-- A destination written with one word a lane holds it. -/
theorem word_writeWords {d : Operand} {ls : List Nat} (some_ : ls ≠ []) (lanes : ∀ l ∈ ls, l < 128)
    (v : Group → Nat → Word) (g : Group) : word d v g ls (g.writeWords d ls (v g)) := by
  constructor
  · rintro k rfl l hl
    rw [Group.writeWords, Group.readV_writeRuns_vec k _ ls g _ l lanes (lanes l hl), if_pos ⟨hl, le_rfl, by simp⟩]
    simp
  · rintro k rfl
    rw [Group.writeWords, Group.readS_writeRuns_scl k _ ls g _ some_, if_pos ⟨le_rfl, by simp⟩]
    simp

theorem SameRegs.word {d : Operand} {v : Group → Nat → Word} {g h h' : Group} {ls : List Nat} (same : SameRegs h h')
    (holds : Claims.word d v g ls h) : Claims.word d v g ls h' := by
  obtain ⟨vec, scl⟩ := holds
  exact ⟨fun k hk l hl => (same.readV _ l).trans (vec k hk l hl), fun k hk => (same.readS _).trans (scl k hk)⟩

section
variable {i : Instr} {o : Slot} {reads : Operand} {target : Group → Nat → Nat} {link : Bool}
  (run : ∀ s, exec i s = transfer i s o reads target link) (slot : ∀ f, i.form = some f → f.slot = o)
include run slot

section
variable {s : State} {id : Nat} {g : Group} {c : Clause} {f : Form} (issues : Issues i s id g c f)
include issues

theorem transfer_goes (fate : s.targetFate g c (g.guarded f.slot) (target g) = none) :
    exec i s = issue i s (transferBody o target link) := by
  have current : s.curGroup? = some g := by simp only [State.curGroup?, issues.cur, issues.here]
  rw [slot f issues.form] at fate
  rw [run, transfer]
  simp only [issues.cur, current, issues.clause, fate]
  exact ite_self _

/-- A target that fails is the slot's fault, whether it is met before the slot's other fates or at its effect. -/
theorem transfer_refused {cause : Cause} {l : Nat}
    (fate : s.targetFate g c (g.guarded f.slot) (target g) = some (cause, l)) (fault : cause.isTrap = false) :
    exec i s = .next (s.raiseFault id c.slotPc cause (BitVec.ofNat 32 (256 * l)) 0 0) := by
  have current : s.curGroup? = some g := by simp only [State.curGroup?, issues.cur, issues.here]
  have info : laneInfo 0 l = BitVec.ofNat 32 (256 * l) := by rw [laneInfo, Nat.zero_add]
  have effect : transferBody o target link g (g.guarded f.slot) s = .raise cause (BitVec.ofNat 32 (256 * l)) := by
    simp only [transferBody, issues.clause, fate, info]
  have late : issue i s (transferBody o target link)
      = .next (s.raiseFault id c.slotPc cause (BitVec.ofNat 32 (256 * l)) 0 0) := by
    rw [issue, issueWith_raise issues _ _ effect, State.raise, fault, Bool.false_and, if_neg Bool.false_ne_true]
  rw [slot f issues.form] at fate
  rw [run, transfer]
  simp only [issues.cur, current, issues.clause, fate, info]
  cases g.readable reads && g.readable (.prd o.p) && (s.gate g 1).isEmpty with
  | true => rfl
  | false => exact late

end

theorem refusesTargets_of_transfer : RefusesTargets i target := by
  refine fun s id g c f issues => ⟨fun l out => ?_, fun l inside bad => ?_⟩
  · exact transfer_refused run slot issues (State.targetFate_out out) rfl
  · exact transfer_refused run slot issues (State.targetFate_bad inside bad) rfl

theorem transfers_of_transfer (one : ∀ f, i.form = some f → link = true → f.d.n = 1) :
    Transfers i target (if link then some o.d else none) := by
  intro s id g c f e issues entry kind ls next headers fits
  have goes := transfer_goes run slot issues (State.targetFate_none headers)
  have effect : transferBody o target link g ls s = s.transferEnd (g.linked o link ls c) c (fun _ => false) next := by
    simp only [transferBody, issues.clause, State.targetFate_none headers]
    rfl
  obtain ⟨t, ran, left⟩ := issue_leaves issues entry
    (Group.linked_within (slot f issues.form) link (one f issues.form) issues.lane c) (stays := fun _ => True) (fun _ => by simp)
    fits (handOn_kind issues entry kind (fun _ _ => rfl) _ _) effect
  refine ⟨t, goes.trans ran, left.only, left.clock, left.clause, left.keeps,
    left.regs.fpflags.trans (g.linked_fpflags o link ls c), left.moved, ?_⟩
  cases link with
  | false => exact fun d none_ => by simp at none_
  | true =>
    rintro d ⟨⟩
    exact left.regs.word (word_writeWords issues.lane (g.guarded_lt f.slot) (fun _ _ => BitVec.ofNat 32 c.follow) g)

end

/-! ### Sequential flow and YIELD (R134, R139, R162) -/

/-- An instruction without an effect of its own. -/
def idleBody (_ : Group) (_ : List Nat) (s : State) : Eff := .done s

section
variable {i : Instr} (run : ∀ s, exec i s = issue i s idleBody)
include run

theorem completes_of_idle : Completes i noFlags := by
  intro s id g c f issues _
  obtain ⟨t, ran, slot⟩ := issueWith_done issues (fun _ _ _ => some []) idleBody rfl issues.cur issues.here issues.clause
  have passed := slot.passed
  obtain ⟨ck, ms, fr, cl, hd, dr, same⟩ := slot.same
  rw [State.group_of_get? issues.here] at passed same
  refine ⟨t, (run s).trans ran, passed, ⟨slot.rest, slot.others, slot.cycles⟩, ?keeps, ?flags⟩
  all_goals rw [same]
  case keeps =>
    exact ⟨fun _ _ _ _ => rfl, fun _ _ => rfl, fun _ _ _ => rfl, ⟨rfl, rfl, rfl⟩, ⟨rfl, rfl, rfl, rfl, rfl, rfl⟩, rfl, rfl, rfl⟩
  case flags => exact rfl

theorem idle_finishes {s : State} {id : Nat} {g : Group} {c : Clause} {f : Form} (issues : Issues i s id g c f)
    (long : isFixedOp f.op = false) : exec i s = .next (s.finishSlot (f.slot.yield || f.op == 7)) := by
  rw [run, issue, issueWith_of_issues issues, idleBody, State.applyEff, State.noteCheck_of_not_fixed long]

end

theorem nop_flows (o : Slot) {s t : State} {id : Nat} {g : Group} {c : Clause} {f : Form} {e : Entry}
    (issues : Issues (.nop o) s id g c f) (entry : g.entry? = some e) (outside : g.handler = none) (last : c.last = true)
    (ran : exec (.nop o) s = .next t) : Moved s g (t.group id) c e (fun _ => True) (fun _ => c.follow) := by
  have op : f.op = 0 := by rw [← Option.some.inj issues.form]
  rw [idle_finishes (fun s => (exec_nop s o).trans rfl) issues (by rw [op]; rfl),
    State.finishSlot_last issues.cur issues.here issues.clause last] at ran
  obtain rfl := Host.Outcome.next.inj ran
  obtain ⟨-, listed⟩ := State.afterClause_ends issues.cur (g := g.countSlot)
    (fr := g.handOn (s.prioAt g c.handler) (fun _ => false) (fun _ => c.follow)) (by simp [Group.countSlot, outside])
  rw [State.group_of_get? (by rw [State.afterSlot_groups, listed])]
  exact moved_of_handOn issues.clause entry rfl fun _ => by simp

theorem yield_offers (o : Slot) {s : State} {id : Nat} {g : Group} {c : Clause} {f : Form} {r : Nat} {rs : List Nat}
    (issues : Issues (.yield o) s id g c f) (more : c.last = false) (ready : (s.core g.core).ready = r :: rs)
    (active : (s.core g.core).active.contains id = true) :
    ∃ t, exec (.yield o) s = .next t
      ∧ (t.core g.core).active = (s.core g.core).active.map (fun x => if x = id then r else x)
      ∧ (t.core g.core).ready = rs ++ [id] := by
  have op : f.op = 7 := by rw [← Option.some.inj issues.form]
  let moved : Group := { g.countSlot with clause := some { c with slot := c.slot + 1 } }
  have group : (s.putGroup id moved).group id = moved := by rw [State.group_putGroup, if_pos rfl]
  have offers := State.afterSlot_yields (s := s.putGroup id moved) (id := id) (r := r) (rs := rs)
    (by rw [group]; exact ready) (by rw [group]; exact active)
  rw [group] at offers
  refine ⟨_, ?_, offers⟩
  rw [idle_finishes (fun s => (exec_yield s o).trans rfl) issues (by rw [op]; rfl),
    State.finishSlot_next issues.cur issues.here issues.clause more, op, beq_self_eq_true, Bool.or_true]

/-! ### EXIT (R135) -/

/-- What EXIT does in its slot. -/
def exitBody (g : Group) (ls : List Nat) (s : State) : Eff :=
  match g.clause with
  | none => .done s
  | some c =>
    if !g.recs.isEmpty then .raise .recpool 7 else s.transferEnd g c (fun l => ls.contains l) (fun _ => c.follow)

section
variable (o : Slot)

theorem exit_leaves {s : State} {id : Nat} {g : Group} {c : Clause} {f : Form} {e : Entry} (issues : Issues (.exit o) s id g c f)
    (entry : g.entry? = some e) (outside : g.handler = none) (kernel : c.handler = false) (closed : g.recs = [])
    (fits : (g.handOn (s.prioAt g false) (g.guarded o).contains (fun _ => c.follow)).length ≤ 80) :
    ∃ t, exec (.exit o) s = .next t ∧ LeftClause s t id g g c e f (fun l => l ∉ g.guarded o) (fun _ => c.follow) := by
  have slot : f.slot = o := by rw [← Option.some.inj issues.form]
  have effect : exitBody g (g.guarded f.slot) s = s.transferEnd g c (g.guarded o).contains (fun _ => c.follow) := by
    simp only [exitBody, issues.clause, closed, List.isEmpty_nil, Bool.not_true, Bool.false_eq_true, if_false, slot]
  exact issue_leaves issues entry (Within.refl f _ g) (fun l => by simp) (by rw [kernel]; exact fits) (by simp [outside]) effect

theorem exit_raises : Raises (.exit o) (fun _ g _ => g.recs ≠ []) .recpool (fun _ _ => 7) :=
  raises_of_body (body := exitBody) (fun s => (exec_exit s o).trans rfl) fun s id g c f issues opened =>
    ⟨0, by simp [exitBody, issues.clause, opened]⟩

end

end Sys2Proof.Machine

namespace Sys2Proof.Claims

open Sys2Proof.Machine

/-- Settles O24: the transfers by their one body and the frontier that it hands on, NOP and YIELD by the end of a slot, and EXIT
by the lanes that it takes out of the frontier. -/
theorem controlTransfersAndExit : Obligations.ControlTransfersAndExit := by
  unfold Obligations.ControlTransfersAndExit
  have slotOf : ∀ {f' f : Form}, some f' = some f → f.slot = f'.slot := fun h => by rw [Option.some.inj h]
  have destOf : ∀ {f' f : Form}, some f' = some f → f'.d.n = 1 → f.d.n = 1 := fun h one => Option.some.inj h ▸ one
  refine ⟨fun o t => transfers_of_transfer (exec_bra · o t) (fun _ => slotOf) (fun _ _ => nofun),
    fun o => transfers_of_transfer (exec_bri · o) (fun _ => slotOf) (fun _ _ => nofun),
    fun o => transfers_of_transfer (exec_ret · o) (fun _ => slotOf) (fun _ _ => nofun),
    fun o t => transfers_of_transfer (exec_call · o t) (fun _ => slotOf) (fun _ h _ => destOf h rfl),
    fun o => transfers_of_transfer (exec_calli · o) (fun _ => slotOf) (fun _ h _ => destOf h rfl),
    fun o t => refusesTargets_of_transfer (exec_bra · o t) (fun _ => slotOf),
    fun o => refusesTargets_of_transfer (exec_bri · o) (fun _ => slotOf),
    fun o => refusesTargets_of_transfer (exec_ret · o) (fun _ => slotOf),
    fun o t => refusesTargets_of_transfer (exec_call · o t) (fun _ => slotOf),
    fun o => refusesTargets_of_transfer (exec_calli · o) (fun _ => slotOf),
    fun o => completes_of_idle (exec_nop · o), fun o => completes_of_idle (exec_yield · o),
    fun o s id g c f e t issues entry outside last ran => nop_flows o issues entry outside last ran,
    fun o s id g c f r rs issues more ready active => yield_offers o issues more ready active,
    fun o s id g c f e issues entry outside kernel closed fits => ?exit, exit_raises⟩
  case exit =>
    obtain ⟨t, ran, left⟩ := exit_leaves o issues entry outside kernel closed fits
    have slot : f.slot = o := slotOf issues.form
    exact ⟨t, ran, left.only, left.clock, left.clause, slot ▸ left.keeps, left.regs.fpflags, left.moved, left.draining⟩

end Sys2Proof.Claims
end
section
/-!
SUPPORT. The numbers that finite values stand for, their order, and the multiples of a unit on either side of a magnitude
(R173, R177, R183).
-/

namespace Sys2Proof.Machine

/-! ### Magnitudes -/

/-- The number that a magnitude `m * 2 ^ e` is. -/
def dyadic (m : Nat) (e : Int) : ℚ := m * 2 ^ e

/-- A magnitude with its sign. -/
def signed (neg : Bool) (x : ℚ) : ℚ := if neg then -x else x

theorem dyadic_scale {e q : Int} (finer : q ≤ e) (m : Nat) : dyadic (m * 2 ^ (e - q).toNat) q = dyadic m e := by
  have split : (2 : ℚ) ^ e = 2 ^ (e - q).toNat * 2 ^ q := by
    rw [← zpow_natCast, Int.toNat_of_nonneg (sub_nonneg.2 finer), ← zpow_add₀ two_ne_zero, sub_add_cancel]
  rw [dyadic, dyadic, split, Nat.cast_mul, Nat.cast_pow, Nat.cast_ofNat, mul_assoc]

theorem dyadic_le_iff {a b : Nat} {e : Int} : dyadic a e ≤ dyadic b e ↔ a ≤ b := by
  rw [dyadic, dyadic, mul_le_mul_iff_left₀ (zpow_pos two_pos e), Nat.cast_le]

theorem dyadic_lt_iff {a b : Nat} {e : Int} : dyadic a e < dyadic b e ↔ a < b := by
  rw [← not_le, dyadic_le_iff, not_le]

/-! ### The order of finite values -/

theorem dySum_value (n₁ n₂ : Bool) (m₁ m₂ : Nat) (e₁ e₂ : Int) :
    ((dySum n₁ m₁ e₁ n₂ m₂ e₂).1 : ℚ) * 2 ^ alignExp e₁ e₂ = signed n₁ (dyadic m₁ e₁) + signed n₂ (dyadic m₂ e₂) := by
  rw [← dyadic_scale (min_le_left e₁ e₂) m₁, ← dyadic_scale (min_le_right e₁ e₂) m₂]
  cases n₁ <;> cases n₂ <;> simp only [dySum, alignExp, dyadic, signed, if_true, Bool.false_eq_true, if_false] <;>
    push_cast <;> ring

section
variable {n₁ n₂ s₁ s₂ : Bool} {m₁ m₂ : Nat} {e₁ e₂ : Int}

theorem dySum_flip : ((dySum n₁ m₁ e₁ (!n₂) m₂ e₂).1 : ℚ) * 2 ^ alignExp e₁ e₂ =
    signed n₁ (dyadic m₁ e₁) - signed n₂ (dyadic m₂ e₂) := by
  rw [dySum_value]
  cases n₂ <;> simp [signed, sub_eq_add_neg]

theorem fCompare_fin : fCompare (.fin n₁ m₁ e₁ s₁) (.fin n₂ m₂ e₂ s₂) =
    compare (signed n₁ (dyadic m₁ e₁)) (signed n₂ (dyadic m₂ e₂)) := by
  have unit : (0 : ℚ) < 2 ^ alignExp e₁ e₂ := zpow_pos two_pos _
  rw [fCompare]
  split_ifs with neg zero
  · rw [eq_comm, compare_lt_iff_lt, ← sub_neg, ← dySum_flip]
    exact mul_neg_of_neg_of_pos (Int.cast_lt_zero.2 neg) unit
  · rw [eq_comm, compare_eq_iff_eq, ← sub_eq_zero, ← dySum_flip, zero, Int.cast_zero, zero_mul]
  · rw [eq_comm, compare_gt_iff_gt, ← sub_pos, ← dySum_flip]
    exact mul_pos (Int.cast_pos.2 (lt_of_le_of_ne (not_lt.1 neg) (Ne.symm zero))) unit

end

/-! ### Rounding on a grid (R177) -/

/-- The largest multiple of `2 ^ q` that is not above a magnitude: the candidate nearer zero. -/
def gridFloor (m : Nat) (e q : Int) : Nat := if q ≤ e then m * 2 ^ (e - q).toNat else m / 2 ^ (q - e).toNat

section
variable (m : Nat) (e q : Int)

theorem gridFloor_le : dyadic (gridFloor m e q) q ≤ dyadic m e := by
  unfold gridFloor
  split_ifs with finer
  · exact (dyadic_scale finer m).le
  · rw [← dyadic_scale (not_le.1 finer).le, dyadic_le_iff]
    exact Nat.div_mul_le_self _ _

theorem lt_gridFloor_succ : dyadic m e < dyadic (gridFloor m e q + 1) q := by
  unfold gridFloor
  split_ifs with finer
  · rw [← dyadic_scale finer m, dyadic_lt_iff]
    exact Nat.lt_succ_self _
  · rw [← dyadic_scale (not_le.1 finer).le, dyadic_lt_iff, mul_comm]
    exact Nat.lt_mul_div_succ m (Nat.two_pow_pos _)

variable (mode : RMode) (neg : Bool) (rnd : Nat)

/-- A magnitude on the grid is returned; any other goes to one of its two neighbours, as the mode chooses. -/
theorem roundAt_cases :
    (roundAt mode neg m e false q rnd = (gridFloor m e q, false) ∧ dyadic (gridFloor m e q) q = dyadic m e)
    ∨ ∃ rem sh, rem ≠ 0 ∧ roundAt mode neg m e false q rnd =
        (gridFloor m e q + bitNat (roundsUp mode neg (gridFloor m e q) rem sh false rnd), true) := by
  unfold roundAt gridFloor
  split_ifs with finer
  · exact .inl ⟨by simp [roundsUp, bitNat], dyadic_scale finer m⟩
  · by_cases onGrid : m % 2 ^ (q - e).toNat = 0
    · refine .inl ⟨by simp [onGrid, roundsUp, bitNat], ?_⟩
      rw [← dyadic_scale (not_le.1 finer).le, Nat.div_mul_cancel (Nat.dvd_of_mod_eq_zero onGrid)]
    · exact .inr ⟨_, (q - e).toNat, onGrid, by simp [onGrid]⟩

theorem roundAt_unit : roundAt mode neg m e false e rnd = (m, false) := by simp [roundAt, roundsUp, bitNat]

theorem gridFloor_le_roundAt : gridFloor m e q ≤ (roundAt mode neg m e false q rnd).1 := by
  obtain ⟨eq, -⟩ | ⟨rem, sh, -, eq⟩ := roundAt_cases m e q mode neg rnd <;> simp [eq]

theorem roundAt_le_succ : (roundAt mode neg m e false q rnd).1 ≤ gridFloor m e q + 1 := by
  obtain ⟨eq, -⟩ | ⟨rem, sh, -, eq⟩ := roundAt_cases m e q mode neg rnd
  · simp [eq]
  · rw [eq]
    exact Nat.add_le_add_left (by unfold bitNat; split_ifs <;> omega) _

variable {mode neg rnd}

theorem roundAt_le (towards : ∀ k rem sh, roundsUp mode neg k rem sh false rnd = false) :
    dyadic (roundAt mode neg m e false q rnd).1 q ≤ dyadic m e := by
  have down : (roundAt mode neg m e false q rnd).1 = gridFloor m e q := by
    obtain ⟨eq, -⟩ | ⟨rem, sh, -, eq⟩ := roundAt_cases m e q mode neg rnd <;> simp [eq, towards, bitNat]
  exact down ▸ gridFloor_le m e q

theorem le_roundAt (away : ∀ k rem sh, rem ≠ 0 → roundsUp mode neg k rem sh false rnd = true) :
    dyadic m e ≤ dyadic (roundAt mode neg m e false q rnd).1 q := by
  obtain ⟨eq, on⟩ | ⟨rem, sh, off, eq⟩ := roundAt_cases m e q mode neg rnd
  · rw [eq, on]
  · rw [eq, away _ _ _ off]
    exact (lt_gridFloor_succ m e q).le

end

end Sys2Proof.Machine
end
section
/-!
SUPPORT and O10. The values of a format's patterns, the patterns that rounding gives, and the sides on which the directed
modes lie (R173, R177, R179, R183).
-/

namespace Sys2Proof.Machine

/-! ### The fields of a pattern (R173) -/

/-- The significand of a pattern without its sign (R173). -/
def significand (f : Fmt) (p : Nat) : Nat := if p / 2 ^ fmtW f = 0 then p % 2 ^ fmtW f else p % 2 ^ fmtW f + 2 ^ fmtW f

/-- The exponent of the significand's unit: subnormals share that of the least normals. -/
def unitExp (f : Fmt) (p : Nat) : Int := (max 1 (p / 2 ^ fmtW f) : Nat) - fmtBias f - fmtW f

/-- A pattern with its sign above it (R173). -/
abbrev withSign (f : Fmt) (neg : Bool) (p : Nat) : Nat := bitNat neg * 2 ^ (fmtW f + fmtE f) + p

section
variable {f : Fmt}

theorem fields_subnormal {p : Nat} (low : p < 2 ^ fmtW f) :
    significand f p = p ∧ unitExp f p = 1 - fmtBias f - fmtW f := by
  simp [significand, unitExp, Nat.div_eq_of_lt low, Nat.mod_eq_of_lt low]

theorem fields_normal {e m : Nat} (exp : 0 < e) (frac : m < 2 ^ fmtW f) :
    significand f (e * 2 ^ fmtW f + m) = m + 2 ^ fmtW f
      ∧ unitExp f (e * 2 ^ fmtW f + m) = (e : Int) - fmtBias f - fmtW f := by
  have quotient : (e * 2 ^ fmtW f + m) / 2 ^ fmtW f = e := by
    rw [mul_comm, Nat.mul_add_div (Nat.two_pow_pos _), Nat.div_eq_of_lt frac, Nat.add_zero]
  have positive : max 1 e = e := max_eq_right exp
  simp [significand, unitExp, quotient, exp.ne', positive, Nat.mod_eq_of_lt frac]

/-- A pattern without its sign is that of a subnormal or zero, or has a normal's exponent and fraction. -/
theorem subnormal_or_normal (f : Fmt) (p : Nat) :
    p < 2 ^ fmtW f ∨ ∃ e m, 0 < e ∧ m < 2 ^ fmtW f ∧ p = e * 2 ^ fmtW f + m := by
  refine (lt_or_ge p (2 ^ fmtW f)).imp_right fun high => ?_
  exact ⟨_, _, Nat.div_pos high (Nat.two_pow_pos _), Nat.mod_lt _ (Nat.two_pow_pos _), (Nat.div_add_mod' _ _).symm⟩

end

/-! ### The magnitude of a pattern

A carry out of the fraction goes into the exponent, so the magnitude is linear up to and including the next power of two. -/

/-- The magnitude of a pattern without its sign. -/
def magnitude (f : Fmt) (p : Nat) : ℚ := dyadic (significand f p) (unitExp f p)

theorem dyadic_succ_exp (m : Nat) (e : Int) : dyadic m (e + 1) = dyadic (2 * m) e := by
  rw [dyadic, dyadic, zpow_add_one₀ two_ne_zero]
  push_cast
  ring

section
variable {f : Fmt}

theorem magnitude_normal {e m : Nat} (exp : 0 < e) (frac : m ≤ 2 ^ fmtW f) :
    magnitude f (e * 2 ^ fmtW f + m) = dyadic (m + 2 ^ fmtW f) ((e : Int) - fmtBias f - fmtW f) := by
  obtain frac | rfl := frac.lt_or_eq
  · obtain ⟨sig, unit⟩ := fields_normal exp frac
    rw [magnitude, sig, unit]
  · obtain ⟨sig, unit⟩ := fields_normal e.succ_pos (Nat.two_pow_pos (fmtW f))
    have next : ((e.succ : Nat) : Int) - fmtBias f - fmtW f = (e : Int) - fmtBias f - fmtW f + 1 := by push_cast; ring
    rw [← Nat.succ_mul, ← Nat.add_zero (e.succ * _), magnitude, sig, unit, next, dyadic_succ_exp, zero_add, two_mul]

theorem magnitude_subnormal {p : Nat} (low : p ≤ 2 ^ fmtW f) : magnitude f p = dyadic p (1 - fmtBias f - fmtW f) := by
  obtain low | rfl := low.lt_or_eq
  · rw [magnitude, (fields_subnormal low).1, (fields_subnormal low).2]
  · simpa using magnitude_normal (f := f) Nat.one_pos (Nat.zero_le _)

theorem magnitude_mono (f : Fmt) : Monotone (magnitude f) := by
  refine monotone_nat_of_le_succ fun p => ?_
  obtain low | ⟨e, m, exp, frac, rfl⟩ := subnormal_or_normal f p
  · rw [magnitude_subnormal low.le, magnitude_subnormal low, dyadic_le_iff]
    exact Nat.le_succ p
  · rw [add_assoc, magnitude_normal exp frac.le, magnitude_normal exp frac, dyadic_le_iff]
    omega

end

/-! ### The value of a pattern (R173, R174) -/

theorem fmtMax_lt (f : Fmt) (scale : f ≠ .e8m0) : fmtMax f < 2 ^ (fmtW f + fmtE f) := by
  cases f with
  | e8m0 => exact absurd rfl scale
  | _ => decide

section
variable {f : Fmt}

theorem fpValue_withSign (scale : f ≠ .e8m0) (neg : Bool) {p : Nat} (fits : p < 2 ^ (fmtW f + fmtE f)) :
    fpValue f false (withSign f neg p) =
      if fmtHasInf f && p / 2 ^ fmtW f == 2 ^ fmtE f - 1 then
        (if p % 2 ^ fmtW f = 0 then .inf neg else .nan (f != .e5m2 && !natBit (p % 2 ^ fmtW f) (fmtW f - 1)))
      else if f = .e4m3 && p / 2 ^ fmtW f == 15 && p % 2 ^ fmtW f == 7 then .nan false
      else .fin neg (significand f p) (unitExp f p) false := by
  have split : withSign f neg p = p + 2 ^ (fmtW f + fmtE f) * bitNat neg := by rw [withSign]; ring
  have frac : withSign f neg p % 2 ^ fmtW f = p % 2 ^ fmtW f := by
    rw [split, mod_peel (Nat.mod_eq_zero_of_dvd (pow_dvd_pow 2 (Nat.le_add_right _ _)))]
  have exp : withSign f neg p / 2 ^ fmtW f % 2 ^ fmtE f = p / 2 ^ fmtW f := by
    rw [split, div_mod_peel (by rw [← pow_add, Nat.mod_self]),
      Nat.mod_eq_of_lt (Nat.div_lt_of_lt_mul (by rwa [← pow_add]))]
  have sign : natBit (withSign f neg p) (fmtW f + fmtE f) = neg := by rw [split, natBit_top rfl fits]
  have value : (if p / 2 ^ fmtW f = 0 then FVal.fin neg (p % 2 ^ fmtW f) (1 - (fmtBias f : Int) - fmtW f) false
      else .fin neg (p % 2 ^ fmtW f + 2 ^ fmtW f) ((p / 2 ^ fmtW f : Nat) - (fmtBias f : Int) - fmtW f) false) =
      .fin neg (significand f p) (unitExp f p) false := by
    unfold significand unitExp
    split_ifs with low
    · simp [low]
    · rw [max_eq_right (Nat.pos_of_ne_zero low)]
  rw [← value, fpValue.eq_def]
  cases f
  case e8m0 => exact absurd rfl scale
  all_goals simp only [frac, exp, sign, Bool.false_and, Bool.false_eq_true, if_false]

theorem fmtMax_of_hasInf (infinite : fmtHasInf f = true) : fmtMax f = (2 ^ fmtE f - 1) * 2 ^ fmtW f - 1 := by
  cases f with
  | e4m3 | e2m1 | e8m0 => exact absurd infinite Bool.false_ne_true
  | _ => rfl

theorem fpValue_finite (scale : f ≠ .e8m0) (neg : Bool) {p : Nat} (finite : p ≤ fmtMax f) :
    fpValue f false (withSign f neg p) = .fin neg (significand f p) (unitExp f p) false := by
  rw [fpValue_withSign scale neg (finite.trans_lt (fmtMax_lt f scale)), if_neg, if_neg]
  · simp only [Bool.and_eq_true, decide_eq_true_eq, beq_iff_eq, not_and]
    rintro ⟨rfl, exp⟩ frac
    simp only [fmtMax, fmtW] at finite exp frac
    omega
  · simp only [Bool.and_eq_true, beq_iff_eq, not_and]
    intro infinite
    rw [fmtMax_of_hasInf infinite] at finite
    have below : p < 2 ^ fmtW f * (2 ^ fmtE f - 1) := by
      rw [mul_comm]
      exact finite.trans_lt (Nat.sub_one_lt (Nat.mul_pos (by cases f <;> decide) (Nat.two_pow_pos _)).ne')
    exact (Nat.div_lt_of_lt_mul below).ne

/-- A pattern is that of a finite value, of a NaN or of an infinity. -/
theorem fpValue_cases (scale : f ≠ .e8m0) (neg : Bool) {p : Nat} (fits : p < 2 ^ (fmtW f + fmtE f)) :
    p ≤ fmtMax f ∨ (fpValue f false (withSign f neg p)).isNaN = true
      ∨ fmtHasInf f = true ∧ fpValue f false (withSign f neg p) = .inf neg ∧ withSign f neg p = fmtInf f neg := by
  refine (le_or_gt p (fmtMax f)).imp_right fun high => ?_
  rw [fpValue_withSign scale neg fits]
  cases infinite : fmtHasInf f with
  | true =>
    rw [fmtMax_of_hasInf infinite] at high
    have exp : p / 2 ^ fmtW f = 2 ^ fmtE f - 1 := by
      refine le_antisymm (Nat.le_sub_one_of_lt (Nat.div_lt_of_lt_mul (by rwa [← pow_add]))) ?_
      exact (Nat.le_div_iff_mul_le (Nat.two_pow_pos _)).2 (by omega)
    by_cases frac : p % 2 ^ fmtW f = 0
    · refine .inr ⟨rfl, by simp [exp, frac], ?_⟩
      have whole : p = (2 ^ fmtE f - 1) * 2 ^ fmtW f := by rw [← exp, Nat.div_mul_cancel (Nat.dvd_of_mod_eq_zero frac)]
      have wide : f ≠ .e4m3 := by rintro rfl; exact absurd infinite Bool.false_ne_true
      rw [fmtInf, if_neg wide, ← whole]
    · exact .inl (by simp [exp, frac, FVal.isNaN])
  | false =>
    left
    cases f with
    | e8m0 => exact absurd rfl scale
    | e4m3 =>
      obtain rfl : p = 127 := by simp only [fmtMax, fmtW, fmtE] at high fits; omega
      rfl
    | e2m1 => simp only [fmtMax, fmtW, fmtE] at high fits; omega
    | _ => exact absurd infinite.symm Bool.false_ne_true

end

/-! ### The pattern of a multiple of a unit -/

section
variable (f : Fmt) (neg : Bool)

theorem fmtPattern_withSign (k : Nat) (q : Int) : fmtPattern f neg k q = withSign f neg (fmtPattern f false k q) := by
  simp only [fmtPattern, withSign]
  split_ifs <;> simp [bitNat, add_assoc]

theorem fmtPattern_fields (p : Nat) : fmtPattern f neg (significand f p) (unitExp f p) = withSign f neg p := by
  unfold fmtPattern
  obtain low | ⟨e, m, exp, frac, rfl⟩ := subnormal_or_normal f p
  · rw [(fields_subnormal low).1, if_pos low]
  · obtain ⟨sig, unit⟩ := fields_normal exp frac
    have field : ((e : Int) - fmtBias f - fmtW f + fmtW f + fmtBias f).toNat = e := by omega
    rw [sig, unit, if_neg (by omega), if_neg (by omega), field, Nat.add_sub_cancel, add_assoc]

end

theorem magnitude_fmtPattern {f : Fmt} {k : Nat} {q : Int} (narrow : k ≤ 2 ^ (fmtW f + 1))
    (least : 1 - fmtBias f - fmtW f ≤ q) (full : 2 ^ fmtW f ≤ k ∨ q = 1 - fmtBias f - fmtW f) :
    magnitude f (fmtPattern f false k q) = dyadic k q := by
  obtain ⟨e, exp, field⟩ : ∃ e : Nat, 0 < e ∧ q = e - fmtBias f - fmtW f :=
    ⟨(q + fmtW f + fmtBias f).toNat, by omega, by omega⟩
  have fieldOf : (q + fmtW f + fmtBias f).toNat = e := by omega
  have fieldNext : (q + 1 + fmtW f + fmtBias f).toNat = e + 1 := by omega
  simp only [fmtPattern, bitNat, Bool.false_eq_true, if_false, zero_mul, zero_add, fieldOf, fieldNext]
  split_ifs with low carry
  · rw [magnitude_subnormal low.le, full.resolve_left (not_le.2 low)]
  · rw [Nat.succ_mul, magnitude_normal exp le_rfl, ← field, carry, pow_succ, mul_two]
  · rw [magnitude_normal exp (by omega), ← field, Nat.sub_add_cancel (not_lt.1 low)]

/-! ### Rounding to a format (R177, R179) -/

/-- The exponent of the unit on whose multiples a format rounds: that of the magnitude's binade, and no less than that of the
subnormals. -/
def gridExp (f : Fmt) (m : Nat) (e : Int) : Int := max (e + Nat.log2 m - fmtW f) (1 - fmtBias f - fmtW f)

/-- The pattern, without its sign, of the multiple that a magnitude rounds to; above `fmtMax f` where it overflows. -/
def roundedPattern (f : Fmt) (neg : Bool) (m : Nat) (e : Int) (mode : RMode) (rnd : Nat) : Nat :=
  fmtPattern f false (roundAt mode neg m e false (gridExp f m e) rnd).1 (gridExp f m e)

theorem dyadic_two_pow (a : Nat) (e : Int) : dyadic (2 ^ a) e = 2 ^ (e + a) := by
  rw [dyadic, zpow_add₀ two_ne_zero, mul_comm]
  simp

section
variable {f : Fmt} {neg : Bool} {m : Nat} {e : Int} {mode : RMode} {sat : Bool} {rnd : Nat}

theorem gridFloor_gridExp_lt : gridFloor m e (gridExp f m e) < 2 ^ (fmtW f + 1) := by
  rw [← dyadic_lt_iff (e := gridExp f m e)]
  calc dyadic (gridFloor m e (gridExp f m e)) (gridExp f m e)
    _ ≤ dyadic m e := gridFloor_le m e _
    _ < dyadic (2 ^ (Nat.log2 m + 1)) e := dyadic_lt_iff.2 Nat.lt_log2_self
    _ ≤ dyadic (2 ^ (fmtW f + 1)) (gridExp f m e) := by
      rw [dyadic_two_pow, dyadic_two_pow]
      exact zpow_le_zpow_right₀ one_le_two (by simp only [gridExp]; omega)

theorem gridFloor_gridExp_full (nonzero : m ≠ 0) :
    2 ^ fmtW f ≤ gridFloor m e (gridExp f m e) ∨ gridExp f m e = 1 - fmtBias f - fmtW f := by
  refine (max_choice (e + Nat.log2 m - fmtW f : Int) (1 - fmtBias f - fmtW f)).imp_left fun binade => ?_
  rw [← Nat.lt_succ_iff, ← dyadic_lt_iff (e := gridExp f m e)]
  calc dyadic (2 ^ fmtW f) (gridExp f m e)
    _ = dyadic (2 ^ Nat.log2 m) e := by
      rw [dyadic_two_pow, dyadic_two_pow, gridExp, binade, sub_add_cancel]
    _ ≤ dyadic m e := dyadic_le_iff.2 (Nat.log2_self_le nonzero)
    _ < _ := lt_gridFloor_succ m e _

theorem magnitude_roundedPattern (nonzero : m ≠ 0) : magnitude f (roundedPattern f neg m e mode rnd) =
    dyadic (roundAt mode neg m e false (gridExp f m e) rnd).1 (gridExp f m e) :=
  magnitude_fmtPattern ((roundAt_le_succ m e _ mode neg rnd).trans gridFloor_gridExp_lt) (le_max_right _ _)
    ((gridFloor_gridExp_full nonzero).imp_left (·.trans (gridFloor_le_roundAt m e _ mode neg rnd)))

theorem roundFmt_overflow (scale : f ≠ .e8m0) (nonzero : m ≠ 0) (above : fmtMax f < roundedPattern f neg m e mode rnd) :
    roundFmt f (.fin neg m e false) mode sat false rnd = (overflowValue f neg sat mode, flagOF ||| flagNX) := by
  have below := Nat.mod_eq_of_lt (fmtMax_lt f scale)
  simp only [roundedPattern, gridExp] at above
  simp [roundFmt, scale, nonzero, below, above]

theorem roundFmt_fits (scale : f ≠ .e8m0) (nonzero : m ≠ 0) (fits : roundedPattern f neg m e mode rnd ≤ fmtMax f) :
    (roundFmt f (.fin neg m e false) mode sat false rnd).1 = withSign f neg (roundedPattern f neg m e mode rnd)
      ∧ ((roundAt mode neg m e false (gridExp f m e) rnd).2 = false →
        (roundFmt f (.fin neg m e false) mode sat false rnd).2 = 0) := by
  have below := Nat.mod_eq_of_lt (fmtMax_lt f scale)
  rw [roundedPattern, ← fmtPattern_withSign]
  simp only [roundedPattern, gridExp] at fits ⊢
  simp +contextual [roundFmt, scale, nonzero, below, not_lt.2 fits, flagIf]

theorem fits_of_no_overflow (scale : f ≠ .e8m0) (nonzero : m ≠ 0)
    (clear : (roundFmt f (.fin neg m e false) mode sat false rnd).2 &&& flagOF = 0) :
    roundedPattern f neg m e mode rnd ≤ fmtMax f := by
  by_contra above
  rw [roundFmt_overflow scale nonzero (not_le.1 above)] at clear
  exact absurd clear (show (flagOF ||| flagNX) &&& flagOF ≠ 0 by decide)

end

/-! ### Held values (R177) -/

section
variable {f : Fmt}

/-- A format rounds a value of its own on the unit of that value. -/
theorem gridExp_fields (f : Fmt) (p : Nat) : gridExp f (significand f p) (unitExp f p) = unitExp f p := by
  unfold gridExp
  obtain low | ⟨e, m, exp, frac, rfl⟩ := subnormal_or_normal f p
  · obtain ⟨sig, unit⟩ := fields_subnormal low
    have top : Nat.log2 p ≤ fmtW f := by
      rw [Nat.log2_eq_log_two]
      exact (Nat.log_mono_right low.le).trans (Nat.log_pow one_lt_two _).le
    rw [sig, unit]
    omega
  · obtain ⟨sig, unit⟩ := fields_normal exp frac
    have top : Nat.log2 (m + 2 ^ fmtW f) = fmtW f := (Nat.log2_eq_iff (by omega)).2 (by omega)
    rw [sig, unit, top]
    omega

theorem significand_eq_zero {p : Nat} (zero : significand f p = 0) : p = 0 := by
  obtain low | ⟨e, m, exp, frac, rfl⟩ := subnormal_or_normal f p
  · rwa [(fields_subnormal low).1] at zero
  · rw [(fields_normal exp frac).1] at zero
    omega

theorem roundFmt_held (scale : f ≠ .e8m0) (neg : Bool) {p : Nat} (finite : p ≤ fmtMax f) (mode : RMode) (sat : Bool)
    (rnd : Nat) : roundFmt f (.fin neg (significand f p) (unitExp f p) false) mode sat false rnd = (withSign f neg p, 0) := by
  by_cases zero : significand f p = 0
  · obtain rfl := significand_eq_zero zero
    simp [roundFmt, scale, zero]
  · have same : roundedPattern f neg (significand f p) (unitExp f p) mode rnd = p := by
      rw [roundedPattern, gridExp_fields, roundAt_unit, fmtPattern_fields]
      simp [bitNat]
    obtain ⟨pattern, flags⟩ := roundFmt_fits (sat := sat) scale zero (same.trans_le finite)
    rw [same] at pattern
    rw [gridExp_fields, roundAt_unit] at flags
    exact Prod.ext pattern (flags rfl)

theorem roundFmt_inf (infinite : fmtHasInf f = true) (neg : Bool) (mode : RMode) (sat : Bool) (rnd : Nat) :
    roundFmt f (.inf neg) mode sat false rnd = (fmtInf f neg, 0) := by
  cases f with
  | e4m3 | e2m1 | e8m0 => exact absurd infinite Bool.false_ne_true
  | _ => rfl

theorem exists_withSign (scale : f ≠ .e8m0) {bits : Nat} (fits : bits < 2 ^ fmtBits f) :
    ∃ neg p, p < 2 ^ (fmtW f + fmtE f) ∧ bits = withSign f neg p := by
  have size : fmtBits f = fmtW f + fmtE f + 1 := by
    cases f with
    | e8m0 => exact absurd rfl scale
    | _ => rfl
  have sign : bits / 2 ^ (fmtW f + fmtE f) < 2 := Nat.div_lt_of_lt_mul (by rwa [← pow_succ, ← size])
  refine ⟨natBit bits (fmtW f + fmtE f), _, Nat.mod_lt bits (Nat.two_pow_pos _), ?_⟩
  rw [withSign, bitNat_natBit, Nat.mod_eq_of_lt sign, Nat.div_add_mod']

theorem roundFmt_fpValue (scale : f ≠ .e8m0) {bits : Nat} (fits : bits < 2 ^ fmtBits f)
    (number : (fpValue f false bits).isNaN = false) (mode : RMode) (sat : Bool) (rnd : Nat) :
    roundFmt f (fpValue f false bits) mode sat false rnd = (bits, 0) := by
  obtain ⟨neg, p, below, rfl⟩ := exists_withSign scale fits
  obtain finite | nan | ⟨infinite, value, pattern⟩ := fpValue_cases scale neg below
  · rw [fpValue_finite scale neg finite, roundFmt_held scale neg finite]
  · exact absurd (number.symm.trans nan) Bool.false_ne_true
  · rw [value, roundFmt_inf infinite, pattern]

end

/-! ### The sides of the directed modes (R177, R179) -/

section
variable {f : Fmt} {neg : Bool} {m : Nat} {e : Int} {mode : RMode} {p : Nat}

theorem fCompare_towards (scale : f ≠ .e8m0) (finite : p ≤ fmtMax f) (below : magnitude f p ≤ dyadic m e) :
    fCompare (fpValue f false (withSign f neg p)) (.fin neg m e false) ≠ if neg then .lt else .gt := by
  rw [magnitude] at below
  rw [fpValue_finite scale neg finite, fCompare_fin]
  cases neg <;> simpa [signed, compare_lt_iff_lt, compare_gt_iff_gt] using below

theorem fCompare_away (scale : f ≠ .e8m0) (finite : p ≤ fmtMax f) (above : dyadic m e ≤ magnitude f p) :
    fCompare (fpValue f false (withSign f neg p)) (.fin neg m e false) ≠ if neg then .gt else .lt := by
  rw [magnitude] at above
  rw [fpValue_finite scale neg finite, fCompare_fin]
  cases neg <;> simpa [signed, compare_lt_iff_lt, compare_gt_iff_gt] using above

variable (scale : f ≠ .e8m0) (nonzero : m ≠ 0)
include scale nonzero

/-- A mode that takes the candidate nearer zero gives no greater magnitude. -/
theorem roundFmt_towards (towards : ∀ k rem sh, roundsUp mode neg k rem sh false 0 = false)
    (fits : roundedPattern f neg m e mode 0 ≤ fmtMax f) :
    fCompare (fpValue f false (roundFmt f (.fin neg m e false) mode false false 0).1) (.fin neg m e false)
      ≠ if neg then .lt else .gt := by
  rw [(roundFmt_fits scale nonzero fits).1]
  exact fCompare_towards scale fits ((magnitude_roundedPattern nonzero).trans_le (roundAt_le m e _ towards))

/-- A mode that takes the candidate farther from zero gives no lesser magnitude. -/
theorem roundFmt_away (away : ∀ k rem sh, rem ≠ 0 → roundsUp mode neg k rem sh false 0 = true)
    (fits : roundedPattern f neg m e mode 0 ≤ fmtMax f) :
    fCompare (fpValue f false (roundFmt f (.fin neg m e false) mode false false 0).1) (.fin neg m e false)
      ≠ if neg then .gt else .lt := by
  rw [(roundFmt_fits scale nonzero fits).1]
  exact fCompare_away scale fits ((le_roundAt m e _ away).trans_eq (magnitude_roundedPattern nonzero).symm)

/-- RZ gives no greater magnitude: where it overflows, the largest finite value lies below the magnitude it rounded to. -/
theorem roundFmt_rz : fCompare (fpValue f false (roundFmt f (.fin neg m e false) .rz false false 0).1) (.fin neg m e false)
    ≠ if neg then .lt else .gt := by
  have towards : ∀ k rem sh, roundsUp .rz neg k rem sh false 0 = false := fun k rem sh => by simp [roundsUp]
  obtain fits | above := le_or_gt (roundedPattern f neg m e .rz 0) (fmtMax f)
  · exact roundFmt_towards scale nonzero towards fits
  · have largest : overflowValue f neg false .rz = withSign f neg (fmtMax f) := by simp [overflowValue, fmtMaxOf]
    rw [roundFmt_overflow scale nonzero above, largest]
    refine fCompare_towards scale le_rfl ?_
    calc magnitude f (fmtMax f)
      _ ≤ magnitude f (roundedPattern f neg m e .rz 0) := magnitude_mono f above.le
      _ = _ := magnitude_roundedPattern nonzero
      _ ≤ dyadic m e := roundAt_le m e _ towards

end

end Sys2Proof.Machine

namespace Sys2Proof.Claims

open Sys2Proof.Machine

/-- Settles O10: a held value lies on the grid that it is rounded on, and a directed mode takes the neighbour on its side. -/
theorem roundingOfExactValues : Obligations.RoundingOfExactValues := by
  unfold Obligations.RoundingOfExactValues
  refine ⟨fun f bits rm sat rnd scale fits number => roundFmt_fpValue scale fits number rm sat rnd,
    fun f n m e r scale nonzero => ⟨?rd, ?ru, ?rz⟩⟩
  case rd =>
    rintro rfl clear -
    have fits := fits_of_no_overflow scale nonzero clear
    cases n with
    | false => exact roundFmt_towards scale nonzero (fun k rem sh => by simp [roundsUp]) fits
    | true => exact roundFmt_away scale nonzero (fun k rem sh off => by simp [roundsUp, off]) fits
  case ru =>
    rintro rfl clear -
    have fits := fits_of_no_overflow scale nonzero clear
    cases n with
    | false => exact roundFmt_away scale nonzero (fun k rem sh off => by simp [roundsUp, off]) fits
    | true => exact roundFmt_towards scale nonzero (fun k rem sh => by simp [roundsUp]) fits
  case rz =>
    rintro rfl -
    exact roundFmt_rz scale nonzero

end Sys2Proof.Claims
end
section
/-!
SUPPORT. Register instructions with flags: what their results leave in the registers, and their completion (R147, R180).
-/

namespace Sys2Proof.Machine

open Sys2Proof.Safety Sys2Proof.Claims

/-! ### Results in registers -/

theorem append_halves (x : BitVec (32 + 32)) : (x >>> 32).setWidth 32 ++ x.setWidth 32 = x := by
  refine BitVec.eq_of_getLsbD_eq fun i inside => ?_
  rw [BitVec.getLsbD_append]
  by_cases low : i < 32
  · simp [low]
  · have high : i - 32 < 32 := by omega
    simp [low, high, Nat.add_sub_cancel' (not_lt.1 low)]

/-- The number of registers that a result takes. -/
def sizedRegs (wide : Bool) : Nat := if wide then 2 else 1

section
variable {g : Group} {ls : List Nat} (acts : ls ≠ []) (lanes : ∀ l ∈ ls, l < 128)
include lanes

theorem predicate_writePreds (d : Operand) (v : Group → Nat → Bool) : predicate d v g ls (g.writePreds d ls (v g)) := by
  rintro p rfl l acting
  rw [Group.pred_writePreds p _ ls g _ l lanes, if_pos ⟨rfl, acting⟩]

include acts

theorem pair_writePairs (d : Operand) (v : Group → Nat → DWord) : pair d v g ls (g.writePairs d ls (v g)) := by
  refine ⟨?vector, ?scalar⟩
  case vector =>
    rintro k rfl l acting
    rw [Group.writePairs, Group.readV_writeRuns_vec k _ ls g _ l lanes (lanes l acting),
      Group.readV_writeRuns_vec k _ ls g _ l lanes (lanes l acting)]
    simpa [acting] using append_halves (v g l)
  case scalar =>
    rintro k rfl
    rw [Group.writePairs, Group.readS_writeRuns_scl k _ ls g _ acts, Group.readS_writeRuns_scl k _ ls g _ acts]
    simpa using append_halves (v g (ls.headD 0))

theorem sized_writeSized (wide : Bool) (d : Operand) (v : Group → Nat → DWord) (fl : FFlags) :
    sized wide d v g ls ((g.writeSized wide d ls (v g)).orFlags fl) := by
  cases wide with
  | false => exact word_writeWords acts lanes (fun g l => (v g l).setWidth 32) g
  | true => exact pair_writePairs acts lanes d v

theorem Within.writeSized {f : Form} (wide : Bool) (v : Nat → DWord) (size : f.d.n = sizedRegs wide) :
    Within f ls g (g.writeSized wide f.slot.d ls v) := by
  cases wide with
  | false => exact Within.writeRuns g _ size (fun _ => rfl) acts lanes
  | true => exact Within.writeRuns g _ size (fun _ => rfl) acts lanes

end

theorem Group.writeRuns_fpflags (g : Group) (d : Operand) (ls : List Nat) (v : Nat → List Word) :
    (g.writeRuns d ls v).fpflags = g.fpflags := by
  obtain ⟨vec, scl, same⟩ := g.writeRuns_same d ls v
  rw [same]

theorem Group.writeSized_fpflags (g : Group) (wide : Bool) (d : Operand) (ls : List Nat) (v : Nat → DWord) :
    (g.writeSized wide d ls v).fpflags = g.fpflags := by
  cases wide <;> exact g.writeRuns_fpflags d ls _

theorem Group.writePreds_fpflags (g : Group) (d : Operand) (ls : List Nat) (v : Nat → Bool) :
    (g.writePreds d ls v).fpflags = g.fpflags := by
  obtain ⟨preds, same⟩ := g.writePreds_same d ls v
  rw [same]

theorem SameRegs.sized {wide : Bool} {d : Operand} {v : Group → Nat → DWord} {g h h' : Group} {ls : List Nat}
    (same : SameRegs h h') (holds : Claims.sized wide d v g ls h) : Claims.sized wide d v g ls h' := by
  cases wide with
  | false => exact same.word (v := fun g l => (v g l).setWidth 32) holds
  | true =>
    obtain ⟨vector, scalar⟩ := holds
    refine ⟨fun k named l acting => ?_, fun k named => ?_⟩
    · rw [same.readV, same.readV, vector k named l acting]
    · rw [same.readS, same.readS, scalar k named]

theorem raises_orFlags {fl : Group → Nat → FFlags} {g h k : Group} {ls : List Nat} (before : h.fpflags = g.fpflags)
    (same : SameRegs (h.orFlags (allFlags (ls.map (fl g)))) k) : raises fl g ls k := by
  rw [raises, same.fpflags, ← before]
  rfl

theorem allFlags_zero (ls : List Nat) : allFlags (ls.map fun _ => 0) = 0 := by
  induction ls with
  | nil => rfl
  | cons l ls ih => rwa [allFlags, List.map_cons, List.foldl_cons, BitVec.or_self]

theorem raises_nothing {g h : Group} {ls : List Nat} (quiet : raises (fun _ _ => 0) g ls h) : noFlags g ls h := by
  rw [raises, allFlags_zero] at quiet
  exact quiet.trans BitVec.or_zero

/-! ### Completion -/

/-- An instruction has a form whose destination field is `d`, which names `n` registers. -/
def Writes (i : Instr) (d : Operand) (n : Nat) : Prop := ∃ f, i.form = some f ∧ f.slot.d = d ∧ f.d.n = n

section
variable {i : Instr}

/-- An instruction that issues has modifiers that its entry lists (R54). -/
theorem completes_of_legal {out : Out} (completes : (∀ f, i.form = some f → f.legal = true) → Completes i out) :
    Completes i out := by
  intro s id g c f issues ok
  refine completes (fun f' form => ?_) s id g c f issues ok
  obtain rfl : f = f' := Option.some.inj (issues.form.symm.trans form)
  have fate := issues.fate
  rw [slotFate] at fate
  cases legal : f.legal with
  | true => rfl
  | false =>
    simp only [legal, Bool.not_false, Bool.true_or, if_true] at fate
    split_ifs at fate

theorem completes_mono {a b : Out} (weaker : ∀ g ls h, a g ls h → b g ls h) (completes : Completes i a) : Completes i b := by
  intro s id g c f issues ok
  obtain ⟨t, ran, passed, only, keeps, result⟩ := completes s id g c f issues ok
  exact ⟨t, ran, passed, only, keeps, weaker _ _ _ result⟩

/-- A body that keeps to the destinations of its form completes with what it leaves in the registers. -/
theorem completes_of_issueRegs {d : Operand} {n : Nat} (writes : Writes i d n) {body : Group → List Nat → Group} {out : Out}
    (run : ∀ s, exec i s = issueRegs i s body)
    (leaves : ∀ f g ls, f.slot.d = d → f.d.n = n → ls ≠ [] → (∀ l ∈ ls, l < 128) →
      Within f ls g (body g ls) ∧ ∀ h, SameRegs (body g ls) h → out g ls h) : Completes i out := by
  intro s id g c f issues _
  obtain ⟨f', form, dest, size⟩ := writes
  obtain rfl : f = f' := Option.some.inj (issues.form.symm.trans form)
  obtain ⟨within, result⟩ := leaves f g _ dest size issues.lane (g.guarded_lt f.slot)
  obtain ⟨t, ran, passed, only, keeps, same⟩ := issueRegs_completes issues body within
  exact ⟨t, (run s).trans ran, passed, only, keeps, result _ same⟩

/-- A 32-bit or 64-bit result per lane, with flags. -/
theorem completes_sized {d : Operand} {wide : Bool} {v : Group → Nat → DWord} {fl : Group → Nat → FFlags}
    (run : ∀ s, exec i s = issueRegs i s fun g ls => (g.writeSized wide d ls (v g)).orFlags (allFlags (ls.map (fl g))))
    (writes : Writes i d (sizedRegs wide)) : Completes i (both (sized wide d v) (raises fl)) := by
  refine completes_of_issueRegs writes run fun f g ls dest size acts lanes => ⟨?within, fun h same => ⟨?result, ?flags⟩⟩
  case within => exact (dest ▸ Within.writeSized acts lanes wide (v g) size).trans (Within.orFlags f ls _ _)
  case result => exact same.sized (sized_writeSized acts lanes wide d v _)
  case flags => exact raises_orFlags (g.writeSized_fpflags wide d ls (v g)) same

/-- A predicate per lane, with flags. -/
theorem completes_predicate {d : Operand} {n : Nat} {v : Group → Nat → Bool} {fl : Group → Nat → FFlags}
    (run : ∀ s, exec i s = issueRegs i s fun g ls => (g.writePreds d ls (v g)).orFlags (allFlags (ls.map (fl g))))
    (writes : Writes i d n) : Completes i (both (predicate d v) (raises fl)) := by
  refine completes_of_issueRegs writes run fun f g ls dest _ acts lanes => ⟨?within, fun h same => ⟨?result, ?flags⟩⟩
  case within =>
    have named : ∀ p, d = .prd p → .p p.toNat ∈ formDests f := fun p named => by
      simp [formDests, dest.trans named, operandRegs]
    exact (Within.writePreds g d (v g) named lanes).trans (Within.orFlags f ls _ _)
  case result => exact fun p named l acting => (same.pred _ l).trans (predicate_writePreds lanes d v p named l acting)
  case flags => exact raises_orFlags (g.writePreds_fpflags d ls (v g)) same

end

end Sys2Proof.Machine
end
section
/-!
SUPPORT and O6. The float operations of one rounding (R187, R190).
-/

namespace Sys2Proof.Machine

open Sys2Proof.Safety Sys2Proof.Claims

/-! ### Float results -/

section
variable {i : Instr} {d : Operand}

/-- A pattern of a format per lane, with flags. -/
theorem completes_pattern {fmt : Fmt} {r : Group → Nat → Nat × FFlags}
    (run : ∀ s, exec i s = issueRegs i s fun g ls => g.writeFloat (fmt = .f64) d ls (r g))
    (writes : Writes i d (sizedRegs (fmt = .f64))) : Completes i (pattern fmt d r) :=
  completes_sized run writes

theorem completes_pattern_of_eq {fmt : Fmt} {r r' : Group → Nat → Nat × FFlags} (same : ∀ g l, r g l = r' g l)
    (completes : Completes i (pattern fmt d r)) : Completes i (pattern fmt d r') :=
  funext₂ same ▸ completes

/-- A word per lane, with flags. -/
theorem completes_word {r : Group → Nat → Nat × FFlags} (run : ∀ s, exec i s = floatRaw i s d r) (writes : Writes i d 1) :
    Completes i (both (word d fun g l => BitVec.ofNat 32 (r g l).1) (raises fun g l => (r g l).2)) := by
  have low : (fun g l => (BitVec.ofNat 64 (r g l).1).setWidth 32) = fun g l => BitVec.ofNat 32 (r g l).1 :=
    funext₂ fun g l => BitVec.setWidth_ofNat_of_le (by decide) _
  exact low ▸ completes_sized (wide := false) run writes

/-- A word per lane, without flags. -/
theorem completes_quietWord {n : Group → Nat → Nat} {w : Group → Nat → Word}
    (run : ∀ s, exec i s = floatRaw i s d fun g l => (n g l, 0)) (writes : Writes i d 1)
    (same : ∀ g l, BitVec.ofNat 32 (n g l) = w g l) : Completes i (both noFlags (word d w)) := by
  refine completes_mono (fun g ls h holds => ⟨raises_nothing holds.2, ?_⟩) (completes_word run writes)
  exact funext₂ same ▸ holds.1

/-- An exact result rounded once. -/
theorem completes_once {fmt : Fmt} {n : Operand} {rm : RMode} {ftz : Bool} {x : Group → Nat → FVal × FFlags}
    (run : ∀ s, exec i s = floatOp i s fmt d rm ftz n x) (writes : Writes i d (sizedRegs (fmt = .f64))) :
    Completes i (once fmt d n rm ftz x) :=
  completes_pattern run writes

end

end Sys2Proof.Machine

namespace Sys2Proof.Claims

open Sys2Proof.Machine

/-- Settles O6: each operation is `floatOp` of its exact result, which rounds it once. -/
theorem floatsRoundOnce : Obligations.FloatsRoundOnce := by
  unfold Obligations.FloatsRoundOnce
  exact ⟨fun o rm ftz na nb => completes_once (exec_fadd · o rm ftz na nb) ⟨_, rfl, rfl, rfl⟩,
    fun o rm ftz na nb => completes_once (exec_fmul · o rm ftz na nb) ⟨_, rfl, rfl, rfl⟩,
    fun o rm ftz na nc => completes_once (exec_ffma · o rm ftz na nc) ⟨_, rfl, rfl, rfl⟩,
    fun o rm ftz => completes_once (exec_fdiv · o rm ftz) ⟨_, rfl, rfl, rfl⟩,
    fun o rm ftz => completes_once (exec_frcp · o rm ftz) ⟨_, rfl, rfl, rfl⟩,
    fun o rm ftz => completes_once (exec_frsq · o rm ftz) ⟨_, rfl, rfl, rfl⟩,
    fun o rm ftz => completes_once (exec_fsqrt · o rm ftz) ⟨_, rfl, rfl, rfl⟩,
    fun o rm na nb => completes_once (exec_dadd · o rm na nb) ⟨_, rfl, rfl, rfl⟩,
    fun o rm na nb => completes_once (exec_dmul · o rm na nb) ⟨_, rfl, rfl, rfl⟩,
    fun o rm na nc => completes_once (exec_dfma · o rm na nc) ⟨_, rfl, rfl, rfl⟩⟩

end Sys2Proof.Claims
end
section
/-!
SUPPORT and O8. Equal values and their patterns, minima and maxima, conditions, integral rounding and classes (R174, R192 to
R195).
-/

namespace Sys2Proof.Machine

open Sys2Proof.Safety Sys2Proof.Claims

/-! ### Rounding depends on the value alone (R177) -/

theorem roundsUp_scale (mode : RMode) (neg : Bool) (k rem sh rnd j : Nat) :
    roundsUp mode neg k (rem * 2 ^ j) (sh + j) false rnd = roundsUp mode neg k rem sh false rnd := by
  have positive : 0 < 2 ^ j := Nat.two_pow_pos j
  have unit : 2 ^ (sh + j) = 2 ^ sh * 2 ^ j := pow_add 2 sh j
  have onGrid : (rem * 2 ^ j = 0) = (rem = 0) := by simp
  have double : 2 * (rem * 2 ^ j) = 2 * rem * 2 ^ j := (mul_assoc 2 rem _).symm
  have upper : (2 ^ (sh + j) < 2 * (rem * 2 ^ j)) = (2 ^ sh < 2 * rem) := by
    rw [unit, double, Nat.mul_lt_mul_right positive]
  have middle : (2 * (rem * 2 ^ j) == 2 ^ (sh + j)) = (2 * rem == 2 ^ sh) := by
    rw [unit, double, Bool.eq_iff_iff, beq_iff_eq, beq_iff_eq, Nat.mul_left_inj positive.ne']
  have share : rem * 2 ^ j * 2 ^ 16 / 2 ^ (sh + j) = rem * 2 ^ 16 / 2 ^ sh := by
    rw [unit, mul_right_comm, Nat.mul_div_mul_right _ _ positive]
  simp only [roundsUp, onGrid, upper, middle, share]

theorem roundAt_scale (mode : RMode) (neg : Bool) (m : Nat) (e q : Int) (rnd j : Nat) :
    roundAt mode neg (m * 2 ^ j) (e - j) false q rnd = roundAt mode neg m e false q rnd := by
  obtain finer | coarser := le_or_gt q (e - j)
  · have whole : m * 2 ^ j * 2 ^ (e - j - q).toNat = m * 2 ^ (e - q).toNat := by
      rw [mul_assoc, ← pow_add, show j + (e - j - q).toNat = (e - q).toNat by omega]
    simp [roundAt, finer, show q ≤ e by omega, whole, roundsUp]
  obtain finer | coarser' := le_or_gt q e
  · have split : m * 2 ^ j = m * 2 ^ (e - q).toNat * 2 ^ (q - (e - j)).toNat := by
      rw [mul_assoc, ← pow_add, show (e - q).toNat + (q - (e - j)).toNat = j by omega]
    simp [roundAt, finer, not_le.2 coarser, split, roundsUp]
  · have shift : (q - (e - j)).toNat = (q - e).toNat + j := by omega
    have quotient : m * 2 ^ j / 2 ^ ((q - e).toNat + j) = m / 2 ^ (q - e).toNat := by
      rw [pow_add, Nat.mul_div_mul_right _ _ (Nat.two_pow_pos j)]
    have remainder : m * 2 ^ j % 2 ^ ((q - e).toNat + j) = m % 2 ^ (q - e).toNat * 2 ^ j := by
      rw [pow_add, Nat.mul_mod_mul_right]
    have onGrid : (m % 2 ^ (q - e).toNat * 2 ^ j != 0) = (m % 2 ^ (q - e).toNat != 0) := by simp [bne]
    simp [roundAt, not_le.2 coarser, not_le.2 coarser', shift, quotient, remainder, roundsUp_scale, onGrid]

theorem log2_mul_two_pow {m : Nat} (nonzero : m ≠ 0) (j : Nat) : Nat.log2 (m * 2 ^ j) = Nat.log2 m + j := by
  rw [Nat.log2_eq_iff (by positivity), add_right_comm, pow_add, pow_add]
  exact ⟨Nat.mul_le_mul_right _ (Nat.log2_self_le nonzero), (Nat.mul_lt_mul_right (Nat.two_pow_pos j)).2 Nat.lt_log2_self⟩

section
variable {f : Fmt} (scale : f ≠ .e8m0) (neg : Bool) (mode : RMode) (sat ftz : Bool) (rnd : Nat)
include scale

theorem roundFmt_scale (m : Nat) (e : Int) (j : Nat) : roundFmt f (.fin neg (m * 2 ^ j) (e - j) false) mode sat ftz rnd =
    roundFmt f (.fin neg m e false) mode sat ftz rnd := by
  by_cases zero : m = 0
  · simp [roundFmt, scale, zero]
  · have top : e - j + ((Nat.log2 m + j : Nat) : Int) = e + Nat.log2 m := by push_cast; ring
    simp [roundFmt, scale, zero, log2_mul_two_pow zero, roundAt_scale]

theorem roundFmt_eq_of_dyadic_eq {m₁ m₂ : Nat} {e₁ e₂ : Int} (same : dyadic m₁ e₁ = dyadic m₂ e₂) :
    roundFmt f (.fin neg m₁ e₁ false) mode sat ftz rnd = roundFmt f (.fin neg m₂ e₂ false) mode sat ftz rnd := by
  wlog finer : e₁ ≤ e₂ generalizing m₁ m₂ e₁ e₂
  · exact (this same.symm (le_of_not_ge finer)).symm
  · have scaled : m₁ = m₂ * 2 ^ (e₂ - e₁).toNat := by
      rw [← dyadic_scale finer] at same
      exact le_antisymm (dyadic_le_iff.1 same.le) (dyadic_le_iff.1 same.ge)
    rw [scaled, ← roundFmt_scale scale neg mode sat ftz rnd m₂ e₂ (e₂ - e₁).toNat]
    congr 2
    omega

end

/-! ### Values without a remainder -/

/-- A value is a NaN, an infinity or an exact multiple of a power of two. -/
def FVal.Exact : FVal → Prop
  | .nan _ | .inf _ => True
  | .fin _ _ _ st => st = false

theorem exact_fpValue (f : Fmt) (ftz : Bool) (bits : Nat) : (fpValue f ftz bits).Exact := by
  cases f <;> simp only [fpValue] <;> split_ifs <;> constructor

theorem exact_fval (g : Group) (f : Fmt) (ftz : Bool) (o : Operand) (l : Nat) : (g.fval f ftz o l).Exact := by
  cases o with
  | imm v => rfl
  | _ => exact exact_fpValue f ftz _

/-! ### The order of values (R192, R193) -/

section
variable {x y : FVal} (left : x.isNaN = false) (right : y.isNaN = false)
include left right

theorem fCompare_swap : fCompare y x = (fCompare x y).swap := by
  cases x with
  | nan => cases left
  | inf n =>
    cases y with
    | nan => cases right
    | inf n' => cases n <;> cases n' <;> rfl
    | fin => cases n <;> rfl
  | fin n m e st =>
    cases y with
    | nan => cases right
    | inf n' => cases n' <;> rfl
    | fin n' m' e' st' =>
      rw [fCompare_fin, fCompare_fin]
      exact Std.OrientedCmp.eq_swap

theorem roundFmt_eq_of_fCompare_eq {f : Fmt} (scale : f ≠ .e8m0) (exactLeft : x.Exact) (exactRight : y.Exact)
    (same : fCompare x y = .eq) (sign : x.neg? = y.neg?) (mode : RMode) (sat ftz : Bool) (rnd : Nat) :
    roundFmt f x mode sat ftz rnd = roundFmt f y mode sat ftz rnd := by
  cases x with
  | nan => cases left
  | inf n =>
    cases y with
    | nan => cases right
    | inf n' => obtain rfl : n = n' := sign; rfl
    | fin => cases n <;> cases same
  | fin n m e st =>
    cases y with
    | nan => cases right
    | inf n' => cases n' <;> cases same
    | fin n' m' e' st' =>
      obtain rfl : n = n' := sign
      obtain rfl : st = false := exactLeft
      obtain rfl : st' = false := exactRight
      rw [fCompare_fin, compare_eq_iff_eq] at same
      refine roundFmt_eq_of_dyadic_eq scale n mode sat ftz rnd ?_
      cases n with
      | false => exact same
      | true => exact neg_injective same

end

theorem nanFlags_pair (x y : FVal) : nanFlags [x, y] = signals x y := by
  simp [nanFlags, signals, flagIf, flagNV]

/-! ### Minima and maxima (R192) -/

section
variable {f : Fmt} {x y : FVal}

theorem fMinMax_flags (isMax nanp : Bool) (x y : FVal) : (fMinMax isMax nanp x y).2 = signals x y := by
  unfold fMinMax
  split_ifs <;> exact nanFlags_pair x y

/-- Of two equal numbers of one sign either may be taken: their patterns are one. -/
theorem exactPattern_fMinMax (scale : f ≠ .e8m0) (exactLeft : x.Exact) (exactRight : y.Exact) (isMax nanp : Bool) :
    exactPattern f (fMinMax isMax nanp x y).1 = (roundFmt f (chosen isMax nanp x y) .rn false false 0).1 := by
  change exactPattern f _ = exactPattern f _
  cases left : x.isNaN with
  | true => cases right : y.isNaN <;> simp [fMinMax, chosen, left, right]
  | false =>
    cases right : y.isNaN with
    | true => simp [fMinMax, chosen, left, right]
    | false =>
      have swap := fCompare_swap left right
      cases order : fCompare x y with
      | lt | gt =>
        rw [order] at swap
        cases isMax <;> simp [fMinMax, chosen, below, left, right, order, swap]
      | eq =>
        rw [order] at swap
        have equal : x.neg? = y.neg? → exactPattern f y = exactPattern f x := fun sign =>
          congrArg Prod.fst (roundFmt_eq_of_fCompare_eq left right scale exactLeft exactRight order sign .rn false false 0).symm
        have less : ∀ a b : FVal, fCompare a b = .eq → below a b = (a.neg? && !b.neg?) := fun a b same => by simp [below, same]
        simp only [fMinMax, chosen, left, right, order, less x y order, less y x swap]
        cases negLeft : x.neg? <;> cases negRight : y.neg? <;> cases isMax <;> simp [equal, negLeft, negRight]

end

/-! ### Conditions (R193) -/

section
variable {x y : FVal}

theorem fCond_number (left : x.isNaN = false) (right : y.isNaN = false) (k : FCond) : fCond k x y =
    ((match k with
      | .eq => fCompare x y == .eq
      | .ne => fCompare x y != .eq
      | .lt => fCompare x y == .lt
      | .le => fCompare x y == .lt || fCompare x y == .eq
      | .gt => fCompare x y == .gt
      | .ge => fCompare x y == .gt || fCompare x y == .eq
      | .un => false
      | .ord => true), 0) := by
  simp only [fCond.eq_def, left, right]
  cases fCompare x y <;> cases k <;> rfl

theorem fCond_nan (nan : x.isNaN = true ∨ y.isNaN = true) (k : FCond) : (fCond k x y).1 = (k == .ne || k == .un)
    ∧ (fCond k x y).2 = if k == .lt || k == .le || k == .gt || k == .ge then flagNV else signals x y := by
  have either : (x.isNaN || y.isNaN) = true := Bool.or_eq_true_iff.2 nan
  rw [fCond.eq_def, if_pos either, ← nanFlags_pair]
  cases k <;> exact ⟨rfl, rfl⟩

end

theorem combineWith_eq (k : Combine) (t p : Bool) : combineWith k t p = combined k t p := by
  cases k with
  | xor => cases t <;> cases p <;> rfl
  | _ => rfl

/-! ### Results in other words -/

section
variable {i : Instr}

theorem completes_minMax {o : Slot} {isMax nanp ftz : Bool} (run : ∀ s, exec i s = fminmax i s o isMax nanp ftz)
    (writes : Writes i o.d 1) : Completes i (pattern .f32 o.d fun g l =>
      ((roundFmt .f32 (chosen isMax nanp (g.fval .f32 ftz o.a l) (g.fval .f32 ftz o.b l)) .rn false false 0).1,
        signals (g.fval .f32 ftz o.a l) (g.fval .f32 ftz o.b l))) := by
  refine completes_pattern_of_eq (fun g l => ?_) (completes_pattern run writes)
  exact Prod.ext (exactPattern_fMinMax (by decide) (exact_fval ..) (exact_fval ..) isMax nanp) (fMinMax_flags ..)

theorem completes_compare {o : Slot} {n : Nat} {fmt : Fmt} {k : FCond} {ftz : Bool} {comb : Combine}
    (run : ∀ s, exec i s = floatCompare i s o fmt k ftz comb) (writes : Writes i o.d n) : Completes i (both
      (predicate o.d fun g l => combined comb (fCond k (g.fval fmt ftz o.a l) (g.fval fmt ftz o.b l)).1 (g.holds o.c l))
      (raises fun g l => (fCond k (g.fval fmt ftz o.a l) (g.fval fmt ftz o.b l)).2)) := by
  simp only [← combineWith_eq]
  exact completes_predicate run writes

end

theorem fRound_eq (rm : RMode) (x : FVal) : fRound rm x =
    match x with
    | .nan sg => (0x7FC00000, if sg then 1 else 0)
    | .inf n => (if n then 0xFF800000 else 0x7F800000, 0)
    | .fin n m e st =>
      if 0 ≤ e then ((roundFmt .f32 (.fin n m e st) .rn false false 0).1, 0)
      else ((roundFmt .f32 (.fin n (roundAt rm n m e st 0 0).1 0 false) .rn false false 0).1, 0) := by
  cases x with
  | nan sg => cases sg <;> rfl
  | inf n => cases n <;> rfl
  | fin n m e st => rfl

theorem ofNat_classBit (f : Fmt) (bits : Nat) : BitVec.ofNat 32 (classBit f bits) =
    match fpValue f false bits with
    | .nan sg => if sg then 1 else 2
    | .inf n => if n then 4 else 0x200
    | .fin n m _ _ =>
      if m = 0 then (if n then 0x20 else 0x40) else if m < 2 ^ fmtW f then (if n then 0x10 else 0x80)
      else (if n then 8 else 0x100) := by
  rw [classBit]
  cases fpValue f false bits with
  | nan sg => cases sg <;> rfl
  | inf n => cases n <;> rfl
  | fin n m e st => cases n <;> simp only <;> split_ifs <;> rfl

end Sys2Proof.Machine

namespace Sys2Proof.Claims

open Sys2Proof.Machine

/-- Settles O8: minima and maxima by the order of values, conditions by the three orders and a NaN, and integral rounding and
classes by the kinds of value. -/
theorem floatSelection : Obligations.FloatSelection := by
  unfold Obligations.FloatSelection
  refine ⟨fun o nanp ftz => completes_minMax (exec_fmin · o nanp ftz) ⟨_, rfl, rfl, rfl⟩,
    fun o nanp ftz => completes_minMax (exec_fmax · o nanp ftz) ⟨_, rfl, rfl, rfl⟩,
    fun o k ftz comb => completes_compare (exec_fcmp · o k ftz comb) ⟨_, rfl, rfl, rfl⟩,
    fun o k comb => completes_compare (exec_dcmp · o k comb) ⟨_, rfl, rfl, rfl⟩,
    fun o rm ftz => completes_pattern_of_eq (fun g l => fRound_eq rm _)
      (completes_pattern (exec_frnd · o rm ftz) ⟨_, rfl, rfl, rfl⟩),
    fun o f64 => ?classes,
    fun x y => ⟨fun left right => fCond_number left right, fun nan => fCond_nan nan⟩⟩
  case classes => exact completes_quietWord (exec_fclass · o f64) ⟨_, rfl, rfl, rfl⟩ fun g l => ofNat_classBit _ _

end Sys2Proof.Claims
end
section
/-!
SUPPORT and O7. The packed operations and FDP4 (R190, R197).
-/

namespace Sys2Proof.Machine

open Sys2Proof.Safety Sys2Proof.Claims

theorem completes_packed {i : Instr} {o : Slot} {r : Group → Nat → Nat → Nat × FFlags}
    (run : ∀ s, exec i s = packedOp i s o r) (writes : Writes i o.d 1) : Completes i (packed o.d r) :=
  completes_word run writes

theorem completes_packed_of_eq {i : Instr} {d : Operand} {r r' : Group → Nat → Nat → Nat × FFlags}
    (same : ∀ g l e, r g l e = r' g l e) (completes : Completes i (packed d r)) : Completes i (packed d r') :=
  funext₃ same ▸ completes

theorem packFmt_ne_e8m0 (bf : Bool) : packFmt bf ≠ .e8m0 := by
  cases bf <;> decide

/-- An element of HMNX2: the pattern of the value taken, with the flag of its operands. -/
theorem element_minMax (max nanp ftz bf : Bool) (v w : Word) (e : Nat) :
    (exactPattern (packFmt bf) (fMinMax max nanp (element bf ftz v e) (element bf ftz w e)).1,
      (fMinMax max nanp (element bf ftz v e) (element bf ftz w e)).2) =
    ((roundFmt (packFmt bf) (chosen max nanp (element bf ftz v e) (element bf ftz w e)) .rn false false 0).1,
      signals (element bf ftz v e) (element bf ftz w e)) :=
  Prod.ext (exactPattern_fMinMax (packFmt_ne_e8m0 bf) (exact_fpValue ..) (exact_fpValue ..) max nanp) (fMinMax_flags ..)

end Sys2Proof.Machine

namespace Sys2Proof.Claims

open Sys2Proof.Machine

/-- Settles O7: a packed operation rounds each element by itself, and FDP4 is `floatOp` of its exact sum. -/
theorem packedAndDotProduct : Obligations.PackedAndDotProduct := by
  unfold Obligations.PackedAndDotProduct
  exact ⟨fun o rm ftz bf na nb => completes_packed (exec_hadd2 · o rm ftz bf na nb) ⟨_, rfl, rfl, rfl⟩,
    fun o rm ftz bf na nb => completes_packed (exec_hmul2 · o rm ftz bf na nb) ⟨_, rfl, rfl, rfl⟩,
    fun o rm ftz bf na nc => completes_packed (exec_hfma2 · o rm ftz bf na nc) ⟨_, rfl, rfl, rfl⟩,
    fun o max nanp ftz bf => completes_packed_of_eq (fun g l => element_minMax max nanp ftz bf _ _)
      (completes_packed (exec_hmnx2 · o max nanp ftz bf) ⟨_, rfl, rfl, rfl⟩),
    fun o rm ftz ta tb => completes_once (exec_fdp4 · o rm ftz ta tb) ⟨_, rfl, rfl, rfl⟩⟩

end Sys2Proof.Claims
end
section
/-!
SUPPORT and O9. Invalid operations, divisions by zero and the signs of exact zeros (R174, R191).
-/

namespace Sys2Proof.Machine

open Sys2Proof.Claims

section
variable (n m : Bool) (k : Nat) (e e' : Int) (rm : RMode)

/-! ### Sums and products -/

theorem fAdd_opposite_infs : fAdd rm (.inf n) (.inf !n) = (.nan false, flagNV) := by
  cases n <;> rfl

theorem dySum_opposite : (dySum n k e (!n) k e).1 = 0 := by
  cases n <;> simp [dySum]

theorem fAdd_opposite : fAdd rm (.fin n k e false) (.fin (!n) k e false) = (.fin (decide (rm = .rd)) 0 0 false, 0) := by
  simp [fAdd, dySum_opposite]

theorem fAdd_zeros : fAdd rm (.fin n 0 e false) (.fin n 0 e' false) = (.fin n 0 0 false, 0) := by
  simp [fAdd, dySum]

/-! ### Quotients and roots -/

theorem fDiv_by_zero (positive : 0 < k) : fDiv (.fin n k e false) (.fin m 0 e' false) = (.inf (n != m), flagDZ) := by
  simp [fDiv, positive.ne']

theorem fSqrt_negative (positive : 0 < k) : fSqrt (.fin true k e false) = (.nan false, flagNV) := by
  simp [fSqrt, positive.ne']

theorem fRsqrt_negative (positive : 0 < k) : fRsqrt (.fin true k e false) = (.nan false, flagNV) := by
  simp [fRsqrt, positive.ne']

end

/-! ### NaN operands (R174) -/

theorem exists_nan {x : FVal} (nan : x.isNaN = true) : ∃ sg, x = .nan sg := by
  cases x with
  | nan sg => exact ⟨sg, rfl⟩
  | inf | fin => cases nan

section
variable {x y : FVal} (nan : x.isNaN = true ∨ y.isNaN = true)
include nan

/-- An operation that answers a NaN of either operand with a NaN raises NV for a signalling one alone. -/
theorem nan_of_operand {op : FVal → FVal → FVal × FFlags} (left : ∀ sg y, op (.nan sg) y = (.nan false, nanFlags [.nan sg, y]))
    (right : ∀ x sg, op x (.nan sg) = (.nan false, nanFlags [x, .nan sg])) : op x y = (.nan false, signals x y) := by
  rw [← nanFlags_pair]
  obtain first | second := nan
  · obtain ⟨sg, rfl⟩ := exists_nan first
    exact left sg y
  · obtain ⟨sg, rfl⟩ := exists_nan second
    exact right x sg

theorem fAdd_nan (rm : RMode) : fAdd rm x y = (.nan false, signals x y) :=
  nan_of_operand nan (fun _ _ => rfl) fun x _ => by cases x <;> rfl

theorem fMul_nan : fMul x y = (.nan false, signals x y) :=
  nan_of_operand nan (fun _ _ => rfl) fun x _ => by cases x <;> rfl

theorem fDiv_nan : fDiv x y = (.nan false, signals x y) :=
  nan_of_operand nan (fun _ _ => rfl) fun x _ => by cases x <;> rfl

end

/-- The invalid product raises NV, whatever the NaN added to it raises (R191). -/
theorem fFma_invalid (rm : RMode) (n m sg : Bool) (e : Int) :
    fFma rm (.inf n) (.fin m 0 e false) (.nan sg) = (.nan false, flagNV) := by
  have product : fMul (.inf n) (.fin m 0 e false) = (.nan false, flagNV) := rfl
  have flags : flagNV ||| signals (.nan false) (.nan sg) = flagNV := by cases sg <;> decide
  rw [fFma, product, fAdd_nan (.inl rfl), flags]

end Sys2Proof.Machine

namespace Sys2Proof.Claims

open Sys2Proof.Machine

/-- Settles O9: a NaN operand by one lemma per operation, and every other operand by the branch of its operation. -/
theorem floatSpecialResults : Obligations.FloatSpecialResults := by
  unfold Obligations.FloatSpecialResults
  refine ⟨fun rm n => fAdd_opposite_infs n rm, fun n m e => ⟨rfl, rfl⟩, fun rm n m e sg => ⟨_, fFma_invalid rm n m sg e⟩,
    fun rm n m e => fAdd_opposite n m e rm, fun rm n e e' => fAdd_zeros n e e' rm, fun n m e e' => ⟨rfl, rfl⟩,
    fun n k m e e' positive => fDiv_by_zero n m k e e' positive, fun n e => ⟨rfl, rfl⟩,
    fun k e positive => ⟨fSqrt_negative k e positive, fRsqrt_negative k e positive⟩, rfl, rfl, rfl, fun rm x y nan => ?_⟩
  rw [fAdd_nan nan, fMul_nan nan, fDiv_nan nan]
  exact ⟨rfl, rfl, rfl, rfl, rfl⟩

end Sys2Proof.Claims
end
section
/-!
SUPPORT and O11. Conversions between formats, to and from integers, and the packing of two (R198 to R201).
-/

namespace Sys2Proof.Machine

open Sys2Proof.Safety Sys2Proof.Claims

/-! ### Integers of a type (R158) -/

section
variable {w : Nat} (positive : 0 < w)
include positive

theorem two_pow_eq_double : 2 ^ w = 2 * 2 ^ (w - 1) := by
  rw [← pow_succ', Nat.sub_add_cancel positive]

theorem toInt_ofNat_eq_toSigned (n : Nat) : (BitVec.ofNat w n).toInt = toSigned w n := by
  have half : (2 * (n % 2 ^ w) < 2 ^ w) = (n % 2 ^ w < 2 ^ (w - 1)) := by
    rw [two_pow_eq_double positive, Nat.mul_lt_mul_left two_pos]
  simp [BitVec.toInt_eq_toNat_cond, toSigned, half]

theorem toSigned_wrapInt {x : Int} (least : -2 ^ (w - 1) ≤ x) (greatest : x < 2 ^ (w - 1)) : toSigned w (wrapInt w x) = x := by
  have bits : BitVec.ofNat w (wrapInt w x) = BitVec.ofInt w x := BitVec.eq_of_toNat_eq (by
    simpa [wrapInt] using Nat.mod_eq_of_lt (BitVec.ofInt w x).isLt)
  have double : ((2 ^ w : Nat) : Int) = 2 * 2 ^ (w - 1) := by rw [two_pow_eq_double positive]; push_cast; rfl
  rw [← toInt_ofNat_eq_toSigned positive, bits, BitVec.toInt_ofInt, Int.bmod_eq_of_le] <;> rw [double] <;> omega

end

theorem intTyWidth_pos (t : IntTy) : 0 < intTyWidth t := by
  cases t <;> decide

theorem readAs_ofNat (t : IntTy) (n : Nat) : readAs (intTyUnsigned t) (BitVec.ofNat (intTyWidth t) n) = intTyRead t n := by
  unfold readAs intTyRead
  split_ifs
  · rw [BitVec.toNat_ofNat]
  · exact toInt_ofNat_eq_toSigned (intTyWidth_pos t) n

/-- A value of a type is its own result of that type. -/
theorem intTyWrite_held {t : IntTy} {x : Int} (least : intTyMin t ≤ x) (greatest : x ≤ intTyMax t) :
    intTyWrite t false x = BitVec.ofInt 64 x := by
  unfold intTyMin at least
  unfold intTyMax at greatest
  rw [intTyWrite, if_neg Bool.false_ne_true, intTyRead]
  congr 1
  split_ifs with unsigned
  · rw [if_pos unsigned] at least greatest
    have residue : x % 2 ^ intTyWidth t = x := Int.emod_eq_of_lt least (by omega)
    rw [wrapInt, Int.natCast_mod, residue, Int.toNat_of_nonneg least]
    push_cast
    exact residue
  · rw [if_neg unsigned] at least greatest
    exact toSigned_wrapInt (intTyWidth_pos t) least (by omega)

theorem intTyMin_le_zero (t : IntTy) : intTyMin t ≤ 0 := by
  cases t <;> decide

theorem zero_le_intTyMax (t : IntTy) : 0 ≤ intTyMax t := by
  cases t <;> decide

/-! ### Floats rounded to integers (R199) -/

section
variable (t : IntTy) (rm : RMode) (rnd : Nat)

theorem floatToInt_held (x : FVal) : intTyMin t ≤ (floatToInt t rm x rnd).1 ∧ (floatToInt t rm x rnd).1 ≤ intTyMax t := by
  have low := intTyMin_le_zero t
  have high := zero_le_intTyMax t
  cases x with
  | nan sg => exact ⟨low, high⟩
  | inf n => cases n <;> simp only [floatToInt, if_true, Bool.false_eq_true, if_false] <;> omega
  | fin n m e st =>
    unfold floatToInt
    dsimp only
    split_ifs <;> omega

theorem intTyWrite_floatToInt (x : FVal) :
    intTyWrite t false (floatToInt t rm x rnd).1 = BitVec.ofInt 64 (floatToInt t rm x rnd).1 :=
  intTyWrite_held (floatToInt_held t rm rnd x).1 (floatToInt_held t rm rnd x).2

theorem roundAt_zero_inexact (n : Bool) (m : Nat) (e : Int) :
    flagIf (roundAt rm n m e false 0 rnd).2 flagNX = if 0 ≤ e ∨ m % 2 ^ (-e).toNat = 0 then 0 else flagNX := by
  by_cases whole : 0 ≤ e
  · simp [roundAt, whole, flagIf]
  · by_cases onGrid : m % 2 ^ (-e).toNat = 0 <;> simp [roundAt, whole, onGrid, flagIf]

theorem floatToInt_fin (n : Bool) (m : Nat) (e : Int) :
    let r := (roundAt rm n m e false 0 rnd).1
    let v : Int := if n then -(r : Int) else r
    floatToInt t rm (.fin n m e false) rnd =
      if v < intTyMin t then (intTyMin t, flagNV) else if intTyMax t < v then (intTyMax t, flagNV)
      else (v, if 0 ≤ e ∨ m % 2 ^ (-e).toNat = 0 then 0 else flagNX) := by
  rw [← roundAt_zero_inexact]
  rfl

end

/-! ### Two elements packed (R201) -/

/-- A number without one of its fields: what lies below the field, and what lies above it. -/
theorem sub_field (n a b : Nat) : n - n / 2 ^ a % 2 ^ b * 2 ^ a = n % 2 ^ a + n / 2 ^ (a + b) * 2 ^ (a + b) := by
  have above : n / 2 ^ a / 2 ^ b * 2 ^ (a + b) = n / 2 ^ a / 2 ^ b * 2 ^ b * 2 ^ a := by ring
  have split : n / 2 ^ a * 2 ^ a = n / 2 ^ a / 2 ^ b * 2 ^ b * 2 ^ a + n / 2 ^ a % 2 ^ b * 2 ^ a := by
    rw [← add_mul, Nat.div_add_mod']
  have whole := Nat.div_add_mod' n (2 ^ a)
  rw [pow_add, ← Nat.div_div_eq_div_mul, ← pow_add, above]
  omega

theorem packWord_eq {rm : RMode} {td : Fmt} {pos : BitVec 2} (legal : packLegal rm td pos = true) (base : Word) (y0 y1 : Nat) :
    packWord td pos.toNat base.toNat y0 y1 =
      match (generalizing := false) td with
      | .f16 | .bf16 => y1 * 2 ^ 16 + y0
      | .e4m3 | .e5m2 => if pos = 0 then base.toNat / 2 ^ 16 * 2 ^ 16 + y1 * 256 + y0
        else base.toNat % 2 ^ 16 + 2 ^ 16 * (y1 * 256 + y0)
      | .e2m1 => base.toNat % 2 ^ (8 * pos.toNat) + 2 ^ (8 * pos.toNat) * (y1 * 16 + y0)
        + base.toNat / 2 ^ (8 * pos.toNat + 8) * 2 ^ (8 * pos.toNat + 8)
      | .f64 | .f32 | .e8m0 => base.toNat := by
  cases td with
  | e4m3 | e5m2 =>
    have half : pos = 0 ∨ pos = 1 := by simpa [packLegal] using (Bool.and_eq_true_iff.1 legal).2
    have above : base.toNat / 2 ^ 32 = 0 := Nat.div_eq_of_lt base.isLt
    obtain rfl | rfl := half
    · have low : (0 : BitVec 2).toNat = 0 := rfl
      simp only [packWord, sub_field, low, if_true]
      omega
    · have high : (1 : BitVec 2).toNat = 1 := rfl
      simp only [packWord, sub_field, high, if_neg (show (1 : BitVec 2) ≠ 0 by decide)]
      omega
  | e2m1 =>
    simp only [packWord, sub_field]
    ring
  | f64 | f32 | f16 | bf16 | e8m0 => rfl

/-! ### Completion -/

theorem floatD_regs (td : Fmt) : (Need.floatD td).n = sizedRegs (td = .f64) := by
  by_cases wide : td = .f64 <;> simp [Need.floatD, sizedRegs, wide, Need.vsPair, Need.vs]

theorem completes_cvtfi (o : Slot) (rm : RMode) (ftz : Bool) (ti : IntTy) (tf : Fmt) : Completes (.cvtfi o rm ftz ti tf) (both
    (sized ti.is64 o.d fun g l => BitVec.ofInt 64 (floatToInt ti rm (g.fval tf ftz o.a l) (g.rnd o.c l)).1)
    (raises fun g l => (floatToInt ti rm (g.fval tf ftz o.a l) (g.rnd o.c l)).2)) := by
  have regs : (if ti.is64 then Need.vsPair else .vs).n = sizedRegs ti.is64 := by cases ti.is64 <;> rfl
  simp only [← intTyWrite_floatToInt]
  exact completes_sized (exec_cvtfi · o rm ftz ti tf) ⟨_, rfl, rfl, regs⟩

end Sys2Proof.Machine

namespace Sys2Proof.Claims

open Sys2Proof.Machine

/-- Settles O11: a rounded integer lies in its type, so that its own result is itself; and PACK by the field that it replaces. -/
theorem floatConversions : Obligations.FloatConversions := by
  unfold Obligations.FloatConversions
  refine ⟨fun o rm ftz satf td ts => completes_pattern (exec_cvt · o rm ftz satf td ts) ⟨_, rfl, rfl, floatD_regs td⟩,
    fun o rm ftz ti tf => completes_cvtfi o rm ftz ti tf, fun o rm satf tf ti => ?fromInt, fun o rm ftz satf td pos => ?pack,
    fun t rm rnd => ⟨fun sg => rfl, fun n => rfl, fun n m e => floatToInt_fin t rm rnd n m e⟩⟩
  case fromInt =>
    simp only [readAs_ofNat]
    exact completes_pattern (exec_cvtif · o rm satf tf ti) ⟨_, rfl, rfl, floatD_regs tf⟩
  case pack =>
    refine completes_of_legal fun legal => ?_
    refine completes_pattern_of_eq (fun g l => ?_) (completes_pattern (exec_pack · o rm ftz satf td pos) ⟨_, rfl, rfl, rfl⟩)
    exact Prod.ext (packWord_eq (legal _ rfl) _ _ _) rfl

end Sys2Proof.Claims
end
section
/-!
SUPPORT and O15. The lanes that act, scans as folds of their first lanes, and the source lanes of SHFL (R205 to R207, R212,
R213).
-/

namespace Sys2Proof.Machine

open Sys2Proof.Safety Sys2Proof.Claims

/-! ### The lanes that act (R205) -/

/-- The lanes that an issued instruction acts in: some of the machine's, in ascending order. -/
structure LanesActing (ls : List Nat) : Prop where
  some_ : ls ≠ []
  lanes : ∀ l ∈ ls, l < 128
  ascending : ls.Pairwise (· < ·)

theorem Group.active_ascending (g : Group) : g.active.Pairwise (· < ·) := by
  rw [Group.active]
  cases g.entry? with
  | none => exact .nil
  | some e => exact .filter _ List.pairwise_lt_range

theorem acting_guarded {i : Instr} {s : State} {id : Nat} {g : Group} {c : Clause} {f : Form} (issues : Issues i s id g c f) :
    LanesActing (g.guarded f.slot) :=
  ⟨issues.lane, g.guarded_lt f.slot, g.active_ascending.filter _⟩

theorem LanesActing.headD_mem {ls : List Nat} (acting : LanesActing ls) : ls.headD 0 ∈ ls := by
  cases ls with
  | nil => exact absurd rfl acting.some_
  | cons l ls => exact List.mem_cons_self

/-- In ascending order, the lanes below one of them are those that stand before it. -/
theorem filter_below_eq_take {ls : List Nat} (ascending : ls.Pairwise (· < ·)) {l : Nat} (acts : l ∈ ls) (incl : Bool) :
    ls.filter (fun m => decide (m < l) || (incl && m == l)) = ls.take (ls.idxOf l + incl.toNat) := by
  induction ls with
  | nil => cases acts
  | cons k ls ih =>
    obtain ⟨above, rest⟩ := List.pairwise_cons.1 ascending
    by_cases first : k = l
    · subst first
      have none_ : ls.filter (fun m => decide (m < k) || (incl && m == k)) = [] :=
        List.filter_eq_nil_iff.2 fun m mem => by simp [(above m mem).le, (above m mem).ne']
      rw [List.filter_cons, none_, List.idxOf_cons_self]
      cases incl <;> simp
    · have mem := (List.mem_cons.1 acts).resolve_left (Ne.symm first)
      rw [List.filter_cons_of_pos (by simp [above l mem]), ih rest mem, List.idxOf_cons_ne ls first, Nat.succ_add,
        List.take_succ_cons]

/-! ### Scans (R212, R213) -/

section
variable (op : LaneOp) (t : LaneTy) (ftz : Bool)

/-- One lane's value combined with what the lanes before it came to, value and flags. -/
def laneCombine (acc : Word × FFlags) (w : Word) : Word × FFlags :=
  ((laneStep op t ftz acc.1 w).1, acc.2 ||| (laneStep op t ftz acc.1 w).2)

theorem folded_cons (w : Word) (ws : List Word) :
    folded op t ftz (w :: ws) = ws.foldl (laneCombine op t ftz) (laneStart t ftz w) := rfl

theorem laneScan_some (acc : Word × FFlags) (ws : List Word) :
    acc :: laneScan op t ftz ws (some acc) = ws.scanl (laneCombine op t ftz) acc := by
  induction ws generalizing acc with
  | nil => rfl
  | cons w ws ih =>
    rw [List.scanl_cons, ← ih]
    rfl

theorem laneScan_cons (w : Word) (ws : List Word) :
    laneScan op t ftz (w :: ws) none = ws.scanl (laneCombine op t ftz) (laneStart t ftz w) :=
  laneScan_some op t ftz _ ws

/-- A scan lists the folds of its values up to each of them. -/
theorem getElem?_laneScan {ws : List Word} {i : Nat} (inside : i < ws.length) :
    (laneScan op t ftz ws none)[i]? = some (folded op t ftz (ws.take (i + 1))) := by
  cases ws with
  | nil => cases inside
  | cons w ws => rw [laneScan_cons, List.getElem?_scanl, if_pos (Nat.le_of_lt_succ inside), List.take_succ_cons, folded_cons]

/-- The last of a scan is the fold of all its values. -/
theorem laneScan_getLastD {ws : List Word} (some_ : ws ≠ []) :
    (laneScan op t ftz ws none).getLastD (0, 0) = folded op t ftz ws := by
  cases ws with
  | nil => exact absurd rfl some_
  | cons w ws => rw [laneScan_cons, List.getLastD_eq_getLast?, List.getLast?_scanl, folded_cons, Option.getD_some]

theorem laneScan_dropLast (ws : List Word) : (laneScan op t ftz ws none).dropLast = laneScan op t ftz ws.dropLast none := by
  cases ws with
  | nil => rfl
  | cons w ws =>
    cases ws with
    | nil => rfl
    | cons v ws =>
      rw [List.dropLast_cons_cons, laneScan_cons, laneScan_cons, List.dropLast_eq_take, List.length_scanl, List.dropLast_eq_take,
        List.length_cons, Nat.add_sub_cancel, List.take_scanl, Nat.add_sub_cancel]

theorem scanFlags_laneScan (ws : List Word) : scanFlags (laneScan op t ftz ws none) = (folded op t ftz ws).2 := by
  cases ws with
  | nil => rfl
  | cons w ws => rw [scanFlags, laneScan_getLastD op t ftz (List.cons_ne_nil w ws)]

/-- What PSCAN writes for its i-th value: the fold of the values before it, itself included under INCL. -/
theorem scanOut_getD {ws : List Word} {i : Nat} (inside : i < ws.length) (incl : Bool) :
    (if incl then (laneScan op t ftz ws none).map Prod.fst
      else laneIdentity op t :: (laneScan op t ftz ws none).map Prod.fst).getD i 0
      = (folded op t ftz (ws.take (i + incl.toNat))).1 := by
  cases incl with
  | true => simp [getElem?_laneScan op t ftz inside]
  | false =>
    cases i with
    | zero => rfl
    | succ i => simp [getElem?_laneScan op t ftz (Nat.lt_of_succ_lt inside)]

theorem scanFlags_eq (ws : List Word) (incl : Bool) :
    scanFlags (if incl then laneScan op t ftz ws none else (laneScan op t ftz ws none).dropLast)
      = (folded op t ftz (if incl then ws else ws.dropLast)).2 := by
  cases incl with
  | true => exact scanFlags_laneScan op t ftz ws
  | false => exact (congrArg scanFlags (laneScan_dropLast op t ftz ws)).trans (scanFlags_laneScan op t ftz _)

end

theorem allFlags_const {ls : List Nat} (some_ : ls ≠ []) (fl : FFlags) : allFlags (ls.map fun _ => fl) = fl := by
  have kept (ls : List Nat) : (ls.map fun _ => fl).foldl (· ||| ·) fl = fl := by
    induction ls with
    | nil => rfl
    | cons l ls ih => rwa [List.map_cons, List.foldl_cons, BitVec.or_self]
  cases ls with
  | nil => exact absurd rfl some_
  | cons l ls => exact (congrArg (fun acc => (ls.map fun _ => fl).foldl (· ||| ·) acc) BitVec.zero_or).trans (kept ls)

/-! ### The source lane of SHFL (R206, R207) -/

theorem segWidth_eq (n : Nat) (wc : BitVec 3) : segWidth n wc.toNat = if wc = 0 then n else min n (2 ^ wc.toNat) := by
  have zero : wc.toNat = 0 ↔ wc = 0 := by simp [BitVec.toNat_eq]
  simp only [segWidth, zero]

theorem segWidth_pos {n : Nat} (positive : 0 < n) (wc : Nat) : 0 < segWidth n wc := by
  rw [segWidth]
  split_ifs
  · exact positive
  · exact lt_min positive (Nat.two_pow_pos wc)

theorem segment_base (l w : Nat) : l - l % w = l / w * w := by
  rw [Nat.mul_comm, Nat.sub_eq_iff_eq_add (Nat.mod_le l w), Nat.div_add_mod]

/-- A step backwards on a ring of lanes is one forwards. -/
theorem ring_back {w : Nat} (positive : 0 < w) (r b : Nat) : ((r : Int) - b).emod w = ((r + (w - b % w)) % w : Nat) := by
  have whole : (r : Int) - b = ((r + (w - b % w) : Nat) : Int) + w * (-(b / w : Nat) - 1) := by
    have split : (b : Int) = w * (b / w : Nat) + (b % w : Nat) := by exact_mod_cast (Nat.div_add_mod b w).symm
    push_cast [(Nat.mod_lt b positive).le] at split ⊢
    linear_combination -split
  exact (congrArg (· % (w : Int)) whole).trans (Int.add_mul_emod_self_left ..)

section
variable (rot : Bool) (w l b : Nat)

theorem shflSource_lane : shflSource .lane rot w l b = if b < w then some (l / w * w + b) else none := by
  rw [← segment_base]
  rfl

theorem shflSource_xor : shflSource .xor rot w l b = if b < w then some (l / w * w + (l % w ^^^ b)) else none := by
  rw [← segment_base]
  rfl

theorem shflSource_fwd : shflSource .fwd rot w l b =
    if rot then some (l / w * w + (l % w + b) % w) else if l % w + b < w then some (l + b) else none := by
  rw [← segment_base]
  rfl

theorem shflSource_back {w : Nat} (positive : 0 < w) : shflSource .back rot w l b =
    if rot then some (l / w * w + (l % w + (w - b % w)) % w) else if b ≤ l % w then some (l - b) else none := by
  rw [← segment_base, ← Int.toNat_natCast (l - l % w + (l % w + (w - b % w)) % w), Int.natCast_add,
    ← ring_back positive]
  rfl

end

/-! ### Completion -/

section
variable {i : Instr}

/-- A body that keeps to the destinations of its form, in the lanes that act, completes with what it leaves in the
registers. -/
theorem completesIf_of_issueRegs {f : Form} {ok : Group → Prop} {body : Group → List Nat → Group} {out : Out}
    (form : i.form = some f) (run : ∀ s, exec i s = issueRegs i s body)
    (leaves : ∀ g ls, ok g → LanesActing ls → Within f ls g (body g ls) ∧ ∀ h, SameRegs (body g ls) h → out g ls h) :
    CompletesIf i (fun _ g _ => ok g) out := by
  intro s id g c f' issues fine
  obtain rfl : f' = f := Option.some.inj (issues.form.symm.trans form)
  obtain ⟨within, result⟩ := leaves g _ fine (acting_guarded issues)
  obtain ⟨t, ran, passed, only, keeps, same⟩ := issueRegs_completes issues body within
  exact ⟨t, (run s).trans ran, passed, only, keeps, result _ same⟩

/-- A word per lane and flags, both of all the lanes that act. -/
theorem completes_laneWords {d : Operand} {v v' : Group → List Nat → Nat → Word} {fl fl' : Group → List Nat → FFlags}
    (writes : Writes i d 1) (run : ∀ s, exec i s = issueRegs i s fun g ls => (g.writeWords d ls (v g ls)).orFlags (fl g ls))
    (words : ∀ g ls, LanesActing ls → ∀ l ∈ ls, v g ls l = v' g ls l)
    (flags : ∀ g ls, LanesActing ls → fl g ls = fl' g ls) :
    Completes i (both (fun g ls h => word d (fun g => v' g ls) g ls h) (raisesAll fl')) := by
  obtain ⟨f, form, rfl, one⟩ := writes
  refine completesIf_of_issueRegs (ok := fun _ => True) form run fun g ls _ acting =>
    ⟨?within, fun h same => ⟨?result, ?flags⟩⟩
  case within => exact (Within.writeRuns g _ one (fun _ => rfl) acting.some_ acting.lanes).trans (Within.orFlags ..)
  case result =>
    obtain ⟨vector, scalar⟩ :=
      same.word (v := fun g => v g ls) (word_writeWords acting.some_ acting.lanes (fun g => v g ls) g)
    exact ⟨fun k named l acts => (vector k named l acts).trans (words g ls acting l acts),
      fun k named => (scalar k named).trans (words g ls acting _ acting.headD_mem)⟩
  case flags =>
    rw [raisesAll, same.fpflags, ← flags g ls acting]
    exact congrArg (· ||| fl g ls) (g.writeRuns_fpflags ..)

end

theorem completes_pscan (o : Slot) (op : LaneOp) (t : LaneTy) (incl ftz : Bool) : Completes (.pscan o op t incl ftz) (both
    (fun g ls h => word o.d (fun g l =>
      (folded op t ftz ((ls.filter (fun m => decide (m < l) || (incl && m == l))).map (g.value o.a))).1) g ls h)
    (raisesAll fun g ls => (folded op t ftz ((if incl then ls else ls.dropLast).map (g.value o.a))).2)) := by
  refine completes_laneWords ⟨_, rfl, rfl, rfl⟩ (exec_pscan · o op t incl ftz) (fun g ls acting l acts => ?word)
    fun g ls _ => ?flags
  case word =>
    have inside : ls.idxOf l < (ls.map (g.value o.a)).length := by simpa using List.idxOf_lt_length_of_mem acts
    rw [filter_below_eq_take acting.ascending acts, List.map_take]
    exact scanOut_getD op t ftz inside incl
  case flags =>
    rw [apply_ite (List.map (g.value o.a)), List.map_dropLast]
    exact scanFlags_eq op t ftz _ incl

theorem completes_reduxInOrder (o : Slot) (op : LaneOp) (t : LaneTy) (ftz : Bool) : Completes (.redux o op t false ftz) (both
    (fun g ls h => word o.d (fun g _ => (folded op t ftz (ls.map (g.value o.a))).1) g ls h)
    (raisesAll fun g ls => (folded op t ftz (ls.map (g.value o.a))).2)) :=
  completes_laneWords ⟨_, rfl, rfl, rfl⟩ (exec_redux · o op t false ftz)
    (fun _ _ acting _ _ => congrArg Prod.fst (laneScan_getLastD op t ftz (mt List.map_eq_nil_iff.1 acting.some_)))
    fun _ _ _ => scanFlags_laneScan op t ftz _

theorem completes_reduxExact (o : Slot) (op : LaneOp) (t : LaneTy) (ftz : Bool) : Completes (.redux o op t true ftz) (both
    (fun g ls h => word o.d (fun g _ => BitVec.ofNat 32
      (roundFmt .f32 (fSum .rn (ls.map (fun l => fpValue .f32 ftz (g.value o.a l).toNat))).1 .rn false ftz 0).1) g ls h)
    (raisesAll fun g ls => let x := fSum .rn (ls.map (fun l => fpValue .f32 ftz (g.value o.a l).toNat))
      (roundFmt .f32 x.1 .rn false ftz 0).2 ||| x.2)) :=
  completes_laneWords ⟨_, rfl, rfl, rfl⟩ (exec_redux · o op t true ftz)
    (fun _ _ _ _ _ => BitVec.setWidth_ofNat_of_le (by decide) _) fun _ _ acting => allFlags_const acting.some_ _

/-! ### A word and an optional predicate (R206, R207) -/

theorem Within.writeOptPred {f : Form} {ls : List Nat} {q : Option (BitVec 4)} (g : Group) (b : Nat → Bool)
    (named : f.preds = optQList q) (lanes : ∀ l ∈ ls, l < 128) : Within f ls g (g.writeOptPred q ls b) := by
  cases q with
  | none => exact Within.refl f ls g
  | some p =>
    refine Within.writePreds g (.prd p) b (fun p' same => ?_) lanes
    obtain rfl := Operand.prd.inj same
    simp [formDests, named, optQList]

/-- A word per lane with a predicate per lane beside it leaves both, and the flags as they are. -/
theorem wordAndPredicate_written {d : Operand} {q : Option (BitVec 4)} {ls : List Nat} (acting : LanesActing ls)
    (v : Group → Nat → Word) (b : Group → List Nat → Nat → Bool) {g h : Group}
    (same : SameRegs ((g.writeWords d ls (v g)).writeOptPred q ls (b g ls)) h) :
    both noFlags (both (word d v) (optPredicate q b)) g ls h := by
  have regs : ∃ ps, (g.writeWords d ls (v g)).writeOptPred q ls (b g ls) = { g.writeWords d ls (v g) with preds := ps } :=
    Group.writeOptPred_same ..
  obtain ⟨ps, only⟩ := regs
  refine ⟨?flags, ?word, ?predicate⟩
  case flags =>
    rw [noFlags, same.fpflags, only]
    exact g.writeRuns_fpflags ..
  case word =>
    refine same.word ?_
    rw [only]
    exact word_writeWords acting.some_ acting.lanes v g
  case predicate =>
    rintro p rfl l acts
    rw [same.pred]
    exact predicate_writePreds acting.lanes (.prd p) (fun _ => b g ls) p rfl l acts

/-- A word and an optional predicate per lane, where no flags are raised. -/
theorem completesIf_wordAndPredicate {i : Instr} {d : Operand} {q : Option (BitVec 4)} {ok : Group → Prop}
    {v v' : Group → Nat → Word} {b b' : Group → List Nat → Nat → Bool}
    (writes : ∃ f, i.form = some f ∧ f.slot.d = d ∧ f.d.n = 1 ∧ f.preds = optQList q)
    (run : ∀ s, exec i s = issueRegs i s fun g ls => (g.writeWords d ls (v g)).writeOptPred q ls (b g ls))
    (words : ∀ g l, ok g → v g l = v' g l) (predicates : ∀ g ls l, ok g → b g ls l = b' g ls l) :
    CompletesIf i (fun _ g _ => ok g) (both noFlags (both (word d v') (optPredicate q b'))) := by
  obtain ⟨f, form, rfl, one, named⟩ := writes
  refine completesIf_of_issueRegs form run fun g ls fine acting => ⟨?within, fun h same => ?result⟩
  case within =>
    exact (Within.writeRuns g _ one (fun _ => rfl) acting.some_ acting.lanes).trans
      (Within.writeOptPred _ _ named acting.lanes)
  case result =>
    rw [funext (words g · fine), funext (predicates g ls · fine)] at same
    exact wordAndPredicate_written acting v' b' same

/-- SHFL, by any account of its source lanes that agrees with the model's: the lane, and whether it is valid. -/
theorem completesIf_shfl {o : Slot} {mode : ShflMode} {wc : BitVec 3} {rot : Bool} {q : Option (BitVec 4)}
    {ok : Group → Prop} {src : Group → Nat → Nat × Bool}
    (agrees : ∀ g l, ok g → shflSource mode rot (segWidth g.lanes wc.toNat) l (g.value o.b l).toNat =
      if (src g l).2 then some (src g l).1 else none) :
    CompletesIf (.shfl o mode wc rot q) (fun _ g _ => ok g) (both noFlags (both
      (word o.d fun g l => if (src g l).2 then g.value o.a (src g l).1 else g.value o.a l)
      (optPredicate q fun g ls l => (src g l).2 && ls.contains (src g l).1))) := by
  refine completesIf_wordAndPredicate ⟨_, rfl, rfl, rfl, rfl⟩ (exec_shfl · o mode wc rot q) (fun g l fine => ?word)
    fun g ls l fine => ?predicate
  case word =>
    simp only [agrees g l fine]
    split_ifs <;> rfl
  case predicate =>
    simp only [agrees g l fine]
    cases (src g l).2 <;> rfl

end Sys2Proof.Machine

namespace Sys2Proof.Claims

open Sys2Proof.Machine

/-- Settles O15: a scan lists the folds of its first values, which in ascending order are those of the lanes below; and SHFL
by the source lane of each mode. -/
theorem shufflesScansAndReductions : Obligations.ShufflesScansAndReductions := by
  unfold Obligations.ShufflesScansAndReductions
  refine ⟨completes_pscan, completes_reduxInOrder, completes_reduxExact, fun o mode wc rot q => ?shuffle⟩
  case shuffle =>
    refine completesIf_shfl fun g l lanes => ?_
    have positive : 0 < segWidth g.lanes wc.toNat := segWidth_pos (by omega) _
    rw [segWidth_eq] at positive ⊢
    cases mode with
    | lane => simp [shflSource_lane]
    | xor => simp [shflSource_xor]
    | fwd => rw [shflSource_fwd]; cases rot <;> simp
    | back => rw [shflSource_back _ _ _ positive]; cases rot <;> simp

end Sys2Proof.Claims
end
